-- ==== Sys2Proof/Word.lean ====
section
/-! DEFINITION. The plain types that every layer uses: bytes, byte strings, 64-bit words and
sparse tables (R10, R11). -/

namespace Sys2Proof

/-- One byte of a frame, a record, an object or a message. -/
abbrev Byte := BitVec 8

/-- A byte string; byte 0 first (R11). -/
abbrev Bytes := List Byte

/-- A register of an engine, an output word, a commit result. -/
abbrev Word64 := BitVec 64

/-- A sparse table: key and value, keys strictly rising, an absent key standing for the
table's default. -/
abbrev Tbl (α : Type) := List (Nat × α)

/-- The place of one dictionary value: index, subindex and row in one number
(R202: row 0xFFFF_FFFF for an object that is not a TABLE). -/
abbrev Key := Nat

end Sys2Proof
end

