-- ==== Sys2Proof/Syntax.lean ====
section
/-! DEFINITION. The commands of the part: one constructor for each row of spec/opcode_table.json,
with the operands that its rule gives it. -/

namespace Sys2Proof

/-- Who sends a dictionary write: the local session (BAR0 and BAR2, R552), or Mabin session n. -/
inductive Origin where
  | bar
  | sess (n : Nat)
  deriving DecidableEq, Repr

/-- The three paths of a Mabin message (R554, R577). -/
inductive MabinPath where
  | mgmtUdp
  | inbandUdp
  | mailbox
  deriving DecidableEq, Repr

/-- What an ECC-protected read met (R166, R169, R214, R221, R284, R363). -/
inductive Ecc where
  | ok
  | single
  | double
  deriving DecidableEq, Repr

/-- The end of a frame at a MAC: its node, and what the reads of the frame's cells for its mirror copy meet, each
with the cell's place in the frame (R363). -/
structure Tail where
  node : Nat
  cells : List (Nat × Ecc)
  deriving DecidableEq, Repr

/-- A delivery to a ring: addresses and lengths of the ring's next descriptors, and what the reads of the frame's or
copy's cells meet (R363, R522). -/
structure Delivery where
  descs : List (Nat × Nat)
  cells : List (Nat × Ecc)
  deriving DecidableEq, Repr

/-- One 80-bit TCAM unit with its valid bit, slot field and action word (R149, R156, R157). -/
structure TcamUnit where
  valid  : Bool
  slots  : Nat
  value  : Nat
  mask   : Nat
  action : Nat
  deriving DecidableEq, Repr

/-- One operation on, or one event of, the Scaver 6412. The operands that tell what the
world outside does (bytes on a wire, a peer's answer, host memory, an upset cell) are the inputs
of that step. -/
inductive Instr where
  -- resets, supply, freeze (R601 to R616)
  | porNAssert (internal : Bool)
  | resetNAssert
  | boot (bootsel : Nat) (flash : Option Bytes) (flashSig pcieSig : Bool) (hbmOk sramOk : Bool)
  | resetBootImageWrite (image : Bytes)
  | resetCmdChip (src : Origin)
  | resetCmdSoft (src : Origin)
  | resetCmdPipe (src : Origin) (pipe : Nat)
  | resetCmdPort (src : Origin) (node : Nat)
  | softReset
  | softResetDone
  | pipeResetStart (pipe : Nat)
  | pipeReset (pipe : Nat)
  | functionReset (fn : Nat)
  | supplyWarn (mon mv : Nat)
  | supplyDip (mon mv : Nat)
  | supplyOk
  | supplyReset (mon mv : Nat)
  | supplyResetRelease
  | freeze
  | debugFreeze (src : Origin)
  -- beats, ticks, versions (R50 to R64, R181 to R208)
  | beat
  | tickBoundary
  | versionCommit
  | slotReserve
  | slotRetire (slot : Nat)
  | etwenBeacon
  | counterDump
  | dumpRecordWrite
  | objectNotify (sess : Nat)
  | templateSetSend (domain : Nat) (descs : List (Nat × Nat))
  | idleExportTask
  -- home halves, HBM, clusters (R65 to R81, R212 to R317)
  | homeBeat (pipe : Nat) (upset : Option (Nat × Ecc))
  | hbmReadLand (pipe read : Nat) (ecc : Ecc)
  | hbmWriteLand (pipe slot : Nat)
  | holdingQueueRelease (pipe : Nat)
  | microwordIssue (cluster engine : Nat) (ecc : Ecc)
  | engineBudgetTrap (cluster engine : Nat)
  | resequencerRelease (cluster : Nat)
  | verifyResult (pkt : Nat) (faulty : Bool)
  | idleStepStart (cluster : Nat)
  | idleStepPublish (cluster engine : Nat) (hostData : Bytes)
  | idleOverrun (cluster engine : Nat)
  | packetCommit (pipe : Nat)
  | ageCommit (pipe : Nat)
  | relocMoveCommit (pipe : Nat)
  | dscrubCommit (pipe : Nat)
  | hcmdInsert (pipe : Nat)
  | hcmdDelete (pipe : Nat)
  | hcmdModify (pipe : Nat)
  | hcmdRead (pipe : Nat)
  | hcmdRejected (pipe : Nat)
  | flowQuarantineRelease (src : Origin) (slot : Nat)
  | natRelease (src : Origin) (entry : Nat)
  -- search banks and egress tables (R167 to R169, R435)
  | twrite (pipe : Nat)
  | tscrub (pipe : Nat) (found : Option TcamUnit) (shadow : Ecc)
  | ewrite (pipe : Nat)
  -- frames (R95, R338, R361 to R390)
  | frameIngress (node : Nat) (frame : Bytes) (phase : Nat) (exactEcc : Ecc)
  | frameTail (tail : Tail)
  | policerJudge (pkt : Nat)
  | egressEntry (pkt : Nat)
  | frameTransmitStart (node : Nat) (cells : List (Nat × Ecc)) (cipherFault : Option Nat)
  | frameTransmitEnd (node : Nat)
  | copyDeliver (copy : Nat) (delivery : Delivery)
  | sampleFormatTimeout (copy : Nat)
  | exportMessageSend (domain count : Nat) (descs : List (Nat × Nat))
  | flowControlFrameSend (node : Nat)
  | flowControlRepeat (node : Nat)
  | pauseFrameReceive (node : Nat) (frame : Bytes)
  | pauseExpiry (node cls : Nat)
  | linkHoldExpiry (node : Nat)
  | linkFlushed (node : Nat)
  | gateListStarted (node : Nat)
  | gateInstant (node : Nat)
  -- ports and lanes (R87 to R115)
  | portEnable (src : Origin) (node : Nat)
  | portDisable (src : Origin) (node : Nat)
  | anComplete (node mode fec : Nat)
  | trainingDone (node : Nat) (coeffs : List Nat)
  | trainingTimeout (node : Nat)
  | linkUp (node skew : Nat)
  | lockTimeout (node skew : Nat)
  | restartDelayExpiry (node : Nat)
  | linkDown (node : Nat)
  | linkHiBer (node cause : Nat)
  | linkFaultClear (node : Nat)
  | serRefclkLost (pipe : Nat)
  | serRefclkRestored (pipe : Nat)
  | laneSearchEnter (src : Origin) (lane : Nat)
  | laneSearchSlip (src : Origin) (lane ui : Nat)
  | laneSearchWindowEnd (lane errors : Nat)
  | laneSearchExit (src : Origin) (lane : Nat)
  | lanePowerDeep (src : Origin) (lane : Nat)
  | lanePowerOff (src : Origin) (lane : Nat)
  | lanePowerActive (src : Origin) (lane : Nat)
  | lpiEnter (node : Nat)
  | lpiWake (node : Nat)
  -- cipher (R436 to R470)
  | macsecRxFrame (node : Nat) (frame : Bytes) (phase : Nat) (faulty : Bool)
  | macsecRxDeliver (node : Nat) (exactEcc : Ecc)
  | entropyHealthFail
  | cipherUnitRestore (src : Origin) (unit : Nat)
  | cipherKatDone (unit : Nat) (pass : Bool)
  | lookasideJob (ring : Nat) (record aad data tag : Bytes) (faulty : Bool)
  | lookasideJobComplete (ring : Nat)
  -- time bases and timed pins (R471 to R496)
  | tbEnable (src : Origin) (tb : Nat)
  | tbValid (tb : Nat)
  | tbDisable (src : Origin) (tb : Nat)
  | tbStep (src : Origin) (tb offset : Nat)
  | tbRateWrite (src : Origin) (tb rate : Nat)
  | tbSlew (src : Origin) (tb offset : Nat)
  | toutConfigWrite (src : Origin) (pin sub value : Nat)
  | timeOutPulse (pin : Nat)
  | timeOutPulseEnd (pin : Nat)
  | timeCapture (pin : Nat) (rise : Bool) (back : Nat)
  | tinAck (src : Origin) (pin rows : Nat)
  -- arbiters (R497 to R509)
  | arbiterRound (arb : Nat)
  | arbiterGrantCut (arb : Nat)
  -- host interface (R510 to R544)
  | rxRingDoorbell (fn ring count : Nat)
  | txRingDoorbell (fn ring count : Nat)
  | cmdRingDoorbell (fn pipe count : Nat) (bodies : List Bytes)
  | completionRingDoorbell (fn pipe count : Nat)
  | byteRingDoorbell (fn : Nat) (eventRing : Bool) (offset : Nat)
  | txDescriptorFetch (ring : Nat) (words : List Nat)
  | txFrameEnter (ring : Nat) (buffer : Bytes)
  | rxWriteback (ring : Nat) (delivery : Delivery)
  | completionWrite (pipe : Nat)
  | eventRecordWrite
  | msixTimerExpiry (ring : Nat)
  | ringEnable (src : Origin) (ring : Nat) (row : Bytes)
  | ringDisable (src : Origin) (ring : Nat)
  | ringStopped (ring : Nat)
  | dmaReadError (fn ring : Nat)
  | barWrite (fn bar offset value : Nat)
  | poolAllocate (fn seq length : Nat)
  | poolFree (fn seq handle : Nat)
  | poolReqInvalid (fn op seq : Nat)
  | poolOwnerReclaim (src : Origin) (owner : Nat)
  -- table writes (R193, R198, R200, R308, R310, R316, R421, R435)
  | schedRowWrite (src : Origin) (level index : Nat) (row : Bytes)
  | schedClearDebt (src : Origin) (value : Nat)
  | versionCancel (src : Origin) (version : Nat)
  | legacyWrite (src : Origin) (pipe : Nat) (row : Bytes)
  | bankModeWrite (src : Origin) (bank mode : Nat)
  | engineImageStage (src : Origin) (image : Bytes) (last : Bool)
  | imageVerify
  | engineKeyEnrol (src : Origin) (slot : Nat) (hash : Bytes) (badRead : Option Nat)
  | engineKeyRevoke (src : Origin) (slot : Nat) (badRead : Option Nat)
  | engineClusterFreeze (src : Origin) (cluster : Nat)
  | engineClusterRelease (src : Origin) (cluster : Nat)
  -- the Mabin protocol (R554 to R575): path and whole message
  | mabinHello (path : MabinPath) (msg : Bytes)
  | mabinHelloRekey (path : MabinPath) (msg : Bytes)
  | mabinHelloClose (path : MabinPath) (msg : Bytes)
  | mabinRead (path : MabinPath) (msg : Bytes)
  | mabinWrite (path : MabinPath) (msg : Bytes)
  | mabinStage (path : MabinPath) (msg : Bytes)
  | mabinCommit (path : MabinPath) (msg : Bytes)
  | mabinLock (path : MabinPath) (msg : Bytes)
  | mabinUnlock (path : MabinPath) (msg : Bytes)
  | subscribeAddEvents (path : MabinPath) (msg : Bytes)
  | subscribeAddObject (path : MabinPath) (msg : Bytes)
  | subscribeRemoveAll (path : MabinPath) (msg : Bytes)
  | blockRead (path : MabinPath) (msg : Bytes)
  | blockWrite (path : MabinPath) (msg : Bytes)
  | mboxInWrite (msg : Bytes)
  | mboxOutRead
  | sessionIdleExpiry (sess : Nat)
  | lockExpired
  | localLock
  | localUnlock
  | localCommit (target : Nat) (unlock : Bool)
  | mabinCredWrite (src : Origin) (value : Bytes)
  | cipherKeyWrite (src : Origin) (value : Bytes)
  -- counters (R579, R594, R595)
  | cntOverflowClear (src : Origin) (number : Nat)
  | cntFilterSelect (src : Origin) (row : Nat) (value : Bytes)
  | cntFilterChain (src : Origin) (value : Bytes)
  -- releases, power, log, I2C, the rest (R612, R613, R618, R621, R630)
  | releasePort (src : Origin) (node cls : Nat)
  | releaseFunction (src : Origin) (fn : Nat)
  | releaseRing (src : Origin) (ring : Nat)
  | releaseSession (src : Origin) (sess : Nat)
  | releasePoolOwner (src : Origin) (owner : Nat)
  | powerPipeOff (src : Origin) (pipe : Nat)
  | powerPipeWake (src : Origin) (pipe : Nat)
  | pipePower (pipe : Nat)
  | eventLogAck (src : Origin) (seq : Nat)
  | i2cPointerWrite (pointer : Nat)
  | i2cRead (count : Nat)
  | objectWrite (src : Origin) (index sub row : Nat) (value : Bytes)
  | keptCoefficientsLockTimeout (node : Nat)
  | sriovVfEnable (count : Nat)
  | pcieLinkTrained (speed width : Nat)
  | bufCellsFreeLowRead
  deriving DecidableEq, Repr

end Sys2Proof
end

