-- ==== Sys2Proof/WellFormed.lean ====
section
/-! DEFINITION. The ranges of the operands that a command can carry: numbers of pipes, nodes,
clusters and the like (R22, R25, R27, R34). -/

namespace Sys2Proof

/-- Mabin has 16 session slots (R561). -/
def Origin.wf : Origin → Bool
  | .bar => true
  | .sess n => decide (n < 16)

/-- The operands of a command are within the part's numbers. -/
def Instr.wf : Instr → Bool
  | .porNAssert _ => true
  | .resetNAssert => true
  | .boot bootsel _ _ _ _ _ => decide (bootsel < 4)
  | .resetBootImageWrite _ => true
  | .resetCmdChip src => src.wf
  | .resetCmdSoft src => src.wf
  | .resetCmdPipe src pipe => src.wf && decide (pipe < 256)
  | .resetCmdPort src node => src.wf && decide (node < 256)
  | .softReset => true
  | .softResetDone => true
  | .pipeResetStart pipe => decide (pipe < 8)
  | .pipeReset pipe => decide (pipe < 8)
  | .functionReset fn => decide (fn < 64)
  | .supplyWarn mon _ => decide (mon < 3)
  | .supplyDip mon _ => decide (mon < 3)
  | .supplyOk => true
  | .supplyReset mon _ => decide (mon < 3)
  | .supplyResetRelease => true
  | .freeze => true
  | .debugFreeze src => src.wf
  | .beat => true
  | .tickBoundary => true
  | .versionCommit => true
  | .slotReserve => true
  | .slotRetire slot => decide (slot < 4)
  | .etwenBeacon => true
  | .counterDump => true
  | .dumpRecordWrite => true
  | .objectNotify sess => decide (sess < 16)
  | .templateSetSend _ _ => true
  | .idleExportTask => true
  | .homeBeat pipe _ => decide (pipe < 8)
  | .hbmReadLand pipe _ _ => decide (pipe < 8)
  | .hbmWriteLand pipe slot => decide (pipe < 8) && decide (slot < 134217728)
  | .holdingQueueRelease pipe => decide (pipe < 8)
  | .microwordIssue cluster engine _ => decide (cluster < 64) && decide (engine < 16)
  | .engineBudgetTrap cluster engine => decide (cluster < 64) && decide (engine < 16)
  | .resequencerRelease cluster => decide (cluster < 64)
  | .verifyResult _ _ => true
  | .idleStepStart cluster => decide (cluster < 64)
  | .idleStepPublish cluster engine _ => decide (cluster < 64) && decide (engine < 16)
  | .idleOverrun cluster engine => decide (cluster < 64) && decide (engine < 16)
  | .packetCommit pipe => decide (pipe < 8)
  | .ageCommit pipe => decide (pipe < 8)
  | .relocMoveCommit pipe => decide (pipe < 8)
  | .dscrubCommit pipe => decide (pipe < 8)
  | .hcmdInsert pipe => decide (pipe < 8)
  | .hcmdDelete pipe => decide (pipe < 8)
  | .hcmdModify pipe => decide (pipe < 8)
  | .hcmdRead pipe => decide (pipe < 8)
  | .hcmdRejected pipe => decide (pipe < 8)
  | .flowQuarantineRelease src slot => src.wf && decide (slot < 4294967296)
  | .natRelease src _ => src.wf
  | .twrite pipe => decide (pipe < 8)
  | .tscrub pipe _ _ => decide (pipe < 8)
  | .ewrite pipe => decide (pipe < 8)
  | .frameIngress node _ phase _ => decide (node < 136) && decide (phase < 2 ^ 20)
  | .frameTail tail => decide (tail.node < 136)
  | .policerJudge _ => true
  | .egressEntry _ => true
  | .frameTransmitStart node _ _ => decide (node < 136)
  | .frameTransmitEnd node => decide (node < 136)
  | .copyDeliver _ _ => true
  | .sampleFormatTimeout _ => true
  | .exportMessageSend _ _ _ => true
  | .flowControlFrameSend node => decide (node < 136)
  | .flowControlRepeat node => decide (node < 136)
  | .pauseFrameReceive node _ => decide (node < 136)
  | .pauseExpiry node cls => decide (node < 136) && decide (cls < 8)
  | .linkHoldExpiry node => decide (node < 136)
  | .linkFlushed node => decide (node < 136)
  | .gateListStarted node => decide (node < 136)
  | .gateInstant node => decide (node < 136)
  | .portEnable src node => src.wf && decide (node < 130)
  | .portDisable src node => src.wf && decide (node < 136)
  | .anComplete node _ _ => decide (node < 136)
  | .trainingDone node _ => decide (node < 136)
  | .trainingTimeout node => decide (node < 136)
  | .linkUp node _ => decide (node < 136)
  | .lockTimeout node _ => decide (node < 136)
  | .restartDelayExpiry node => decide (node < 136)
  | .linkDown node => decide (node < 136)
  | .linkHiBer node _ => decide (node < 136)
  | .linkFaultClear node => decide (node < 136)
  | .serRefclkLost pipe => decide (pipe < 8)
  | .serRefclkRestored pipe => decide (pipe < 8)
  | .laneSearchEnter src lane => src.wf && decide (lane < 130)
  | .laneSearchSlip src lane ui => src.wf && decide (lane < 130) && decide (ui < 256)
  | .laneSearchWindowEnd lane _ => decide (lane < 130)
  | .laneSearchExit src lane => src.wf && decide (lane < 130)
  | .lanePowerDeep src lane => src.wf && decide (lane < 130)
  | .lanePowerOff src lane => src.wf && decide (lane < 130)
  | .lanePowerActive src lane => src.wf && decide (lane < 130)
  | .lpiEnter node => decide (node < 136)
  | .lpiWake node => decide (node < 136)
  | .macsecRxFrame node _ phase _ => decide (node < 136) && decide (phase < 2 ^ 20)
  | .macsecRxDeliver node _ => decide (node < 136)
  | .entropyHealthFail => true
  | .cipherUnitRestore src unit => src.wf && decide (unit < 256)
  | .cipherKatDone unit _ => decide (unit < 9)
  | .lookasideJob ring _ _ _ _ _ => decide (ring < 8210)
  | .lookasideJobComplete ring => decide (ring < 8210)
  | .tbEnable src tb => src.wf && decide (tb < 4)
  | .tbValid tb => decide (tb < 4)
  | .tbDisable src tb => src.wf && decide (tb < 4)
  | .tbStep src tb _ => src.wf && decide (tb < 4)
  | .tbRateWrite src tb _ => src.wf && decide (tb < 4)
  | .tbSlew src tb _ => src.wf && decide (tb < 4)
  | .toutConfigWrite src pin sub value => src.wf && decide (pin < 8) && decide (sub < 256) && decide (value < 18446744073709551616)
  | .timeOutPulse pin => decide (pin < 8)
  | .timeOutPulseEnd pin => decide (pin < 8)
  | .timeCapture pin _ _ => decide (pin < 4)
  | .tinAck src pin rows => src.wf && decide (pin < 4) && decide (rows < 256)
  | .arbiterRound arb => decide (arb < 10)
  | .arbiterGrantCut arb => decide (arb < 10)
  | .rxRingDoorbell fn ring _ => decide (fn < 64) && decide (ring < 8210)
  | .txRingDoorbell fn ring _ => decide (fn < 64) && decide (ring < 8210)
  | .cmdRingDoorbell fn pipe _ _ => decide (fn < 64) && decide (pipe < 8)
  | .completionRingDoorbell fn pipe _ => decide (fn < 64) && decide (pipe < 8)
  | .byteRingDoorbell fn _ _ => decide (fn < 64)
  | .txDescriptorFetch ring _ => decide (ring < 8210)
  | .txFrameEnter ring _ => decide (ring < 8210)
  | .rxWriteback ring _ => decide (ring < 8210)
  | .completionWrite pipe => decide (pipe < 8)
  | .eventRecordWrite => true
  | .msixTimerExpiry ring => decide (ring < 8210)
  | .ringEnable src ring _ => src.wf && decide (ring < 8210)
  | .ringDisable src ring => src.wf && decide (ring < 8210)
  | .ringStopped ring => decide (ring < 8210)
  | .dmaReadError fn ring => decide (fn < 64) && decide (ring < 8210)
  | .barWrite fn bar offset value => decide (fn < 64) && decide (bar < 6) && decide (offset < 536870912) && decide (value < 18446744073709551616)
  | .poolAllocate fn _ _ => decide (fn < 64)
  | .poolFree fn _ _ => decide (fn < 64)
  | .poolReqInvalid fn _ _ => decide (fn < 64)
  | .poolOwnerReclaim src owner => src.wf && decide (owner < 128)
  | .schedRowWrite src level index _ => src.wf && decide (level < 4) && decide (index < 65536)
  | .schedClearDebt src value => src.wf && decide (value < 18446744073709551616)
  | .versionCancel src _ => src.wf
  | .legacyWrite src pipe _ => src.wf && decide (pipe < 8)
  | .bankModeWrite src bank mode => src.wf && decide (bank < 128) && decide (mode < 256)
  | .engineImageStage src _ _ => src.wf
  | .imageVerify => true
  | .engineKeyEnrol src slot _ _ => src.wf && decide (slot < 256)
  | .engineKeyRevoke src slot _ => src.wf && decide (slot < 256)
  | .engineClusterFreeze src cluster => src.wf && decide (cluster < 64)
  | .engineClusterRelease src cluster => src.wf && decide (cluster < 64)
  | .mabinHello _ _ => true
  | .mabinHelloRekey _ _ => true
  | .mabinHelloClose _ _ => true
  | .mabinRead _ _ => true
  | .mabinWrite _ _ => true
  | .mabinStage _ _ => true
  | .mabinCommit _ _ => true
  | .mabinLock _ _ => true
  | .mabinUnlock _ _ => true
  | .subscribeAddEvents _ _ => true
  | .subscribeAddObject _ _ => true
  | .subscribeRemoveAll _ _ => true
  | .blockRead _ _ => true
  | .blockWrite _ _ => true
  | .mboxInWrite _ => true
  | .mboxOutRead => true
  | .sessionIdleExpiry sess => decide (sess < 16)
  | .lockExpired => true
  | .localLock => true
  | .localUnlock => true
  | .localCommit _ _ => true
  | .mabinCredWrite src _ => src.wf
  | .cipherKeyWrite src _ => src.wf
  | .cntOverflowClear src _ => src.wf
  | .cntFilterSelect src row _ => src.wf && decide (row < 256)
  | .cntFilterChain src _ => src.wf
  | .releasePort src node cls => src.wf && decide (node < 65536) && decide (cls < 256)
  | .releaseFunction src fn => src.wf && decide (fn < 65536)
  | .releaseRing src ring => src.wf && decide (ring < 65536)
  | .releaseSession src sess => src.wf && decide (sess < 65536)
  | .releasePoolOwner src owner => src.wf && decide (owner < 65536)
  | .powerPipeOff src pipe => src.wf && decide (pipe < 8)
  | .powerPipeWake src pipe => src.wf && decide (pipe < 8)
  | .pipePower pipe => decide (pipe < 8)
  | .eventLogAck src _ => src.wf
  | .i2cPointerWrite _ => true
  | .i2cRead _ => true
  | .objectWrite src index sub row _ => src.wf && decide (index < 65536) && decide (sub < 256) && decide (row < 4294967296)
  | .keptCoefficientsLockTimeout node => decide (node < 136)
  | .sriovVfEnable _ => true
  | .pcieLinkTrained _ _ => true
  | .bufCellsFreeLowRead => true

end Sys2Proof
end

