-- ==== Sys2Proof/Config.lean ====
section
/-! DEFINITION. What one device or one implementation fixes and the manual does not, and the free
values: constants without a body, so that no proof can rest on what they are. -/

namespace Sys2Proof

/-- id.unique (R576, "from fuses"): log entry 6. -/
opaque Config.idUnique : BitVec 64
/-- id.mac.base (R576, "from fuses"): log entry 6. -/
opaque Config.macBase : BitVec 48
/-- id.mac.count (R576, "from fuses"): log entry 6. -/
opaque Config.macCount : BitVec 16
/-- id.bootrom (R576, "from ROM"): log entry 6. -/
opaque Config.bootRom : BitVec 32
/-- id.dictionary (R576, "loaded firmware"): log entry 6. -/
opaque Config.dictionaryRevision : BitVec 32
/-- The vendor credential's fused key (R560): log entry 6. -/
opaque Config.vendorCredKey : BitVec 256
/-- The vendor public key of the boot ROM, 97 bytes uncompressed (R308, R606): log entry 6. -/
opaque Config.vendorPubKey : BitVec 776
/-- Whether the fuses refuse vendor images (R308): log entry 6. -/
opaque Config.vendorRefused : Bool
/-- The firmware version that a firmware image carries (R606, id.firmware): log entry 7. -/
opaque Config.firmwareVersion : Bytes → BitVec 32
/-- The first 8 bytes of the digest of the native graph (R147 `parse.graph.id`): log entry 8. -/
opaque Config.nativeGraphId : BitVec 64
/-- The number of the native state that a header type enters at its n-th occurrence
(R120: "The part fixes these numbers"): log entry 8. -/
opaque Config.nativeState : Nat → Nat → BitVec 9
/-- The 96 rows of `parse.graph.native` (R120, R147): log entry 8. -/
opaque Config.nativeRow : Nat → BitVec 8
/-- Whether a frame that arrives at some picoseconds before the reading of its beat starts at an egress MAC 48 beats
later, and not 47 (R82 gives both "according to the phase of arrival"): log entry 40. -/
opaque Config.startsLate : Nat → Bool
/-- A random value of the entropy source of R468; the argument is the count of values drawn. -/
opaque Config.entropy : Nat → BitVec 128
/-- The hottest of the nine temperature sensors (R630); the argument counts the updates, one each
1,250,000 beats. -/
opaque Config.temperature : Nat → BitVec 16
/-- The readings of the supply monitors in mV in the beats that report no dip (R609, R630); the argument is
three times the beat counter plus the monitor. -/
opaque Config.supplyMv : Nat → BitVec 16
/-- A value that the manual leaves open, fresh at each use (State.freeIdx counts the uses). -/
opaque Config.freeValue : Nat → BitVec 64
/-- The layout of `host.bar2.map` ("built at boot", R513, R542): window of a table's key. -/
opaque Config.bar2Window : Nat → BitVec 32
/-- The bytes of the three plans in force, entries of job and count, that `carousel.plan.in_use` hashes
(R85 does not give them): log entry 9. -/
opaque Config.planBytes : List (List (Nat × Nat)) → Bytes

/-- What the debug access port shows, in a beat and at an address, of memory whose layout R617 does not
give: log entry 135. -/
opaque Config.debugByte : Nat → Nat → BitVec 8

/-- What bit errors of the line add in a beat to a counter of a lane: 0 corrected codewords, 1 uncorrected
codewords, 2 corrected symbols, 3 invalid sync headers (R99, R583): log entry 71. -/
opaque Config.lineErrors : Nat → Nat → Nat → Nat

/-- One state of a compiled parse graph in the parts of R120. -/
structure GraphState where
  /-- State number, 96 to 511, or 0 to 95 for what the image adds to a native state. -/
  num : Nat
  /-- Header type code; 0 for a decision state. -/
  hdrType : Nat
  /-- Fixed length, or 0 with `lenBits` 0 for a decision state. -/
  fixedLen : Nat
  /-- Bit offset and width of the length field; width 0 for a fixed length. -/
  lenOff : Nat
  lenBits : Nat
  lenScale : Nat
  lenAdd : Nat
  /-- Extractions: byte offset in the header, length, byte of the header area. -/
  extracts : List (Nat × Nat × Nat)
  /-- Select field: bit offset in the header and width. -/
  selOff : Nat
  selBits : Nat
  /-- Value, mask, next state; in order. -/
  entries : List (Nat × Nat × Nat)
  /-- Default next state, if any (none: the end). -/
  dflt : Option Nat
  deriving DecidableEq, Repr, Inhabited

/-- A compiled graph: its states and its tail extractions (distance before the FCS, length, byte
of the header area; R117). -/
structure Graph where
  states : List GraphState
  tail : List (Nat × Nat × Nat)
  deriving DecidableEq, Repr, Inhabited

/-- The parts of a native decision state (R120 names no such state): log entry 8. -/
opaque Config.nativeDecision : Nat → GraphState
/-- The next-header value of the extension header that a native state of that type parses: log entry 8. -/
opaque Config.nativeExt : Nat → BitVec 8

/-- The decoding of a PARSE_GRAPH section (R306 type 5): the manual gives no byte layout for it,
so it is a constant of the implementation: log entry 8. -/
opaque Config.decodeGraph : Bytes → Graph

/-- One access that an idle step publishes (R296, R404): area 1 a companion record by slot, 2 the bulk
area by byte offset, 3 a pool buffer by handle; the offset in it; the bytes written, or none and the
length read for the follow-on task. -/
structure IdleAccess where
  area : Nat
  place : Nat
  off : Nat
  data : List (BitVec 8)
  len : Nat
  deriving DecidableEq, Repr

/-- What an idle step publishes beside its idle request: export records (template and data), a
formatted sample record, accesses. -/
structure IdleOut where
  exported : List (Nat × List (BitVec 8))
  record : List (BitVec 8)
  accesses : List IdleAccess
  deriving DecidableEq, Repr, Inhabited

/-- How the 256 bytes of an idle step's output area spell what it publishes: the manual names the
kinds of output (R296) and gives no layout for them: log entry 22. -/
opaque Config.idleOut : List (BitVec 8) → IdleOut

end Sys2Proof
end

