-- ==== Sys2Proof/Machine/Bits.lean ====
section
/-! DEFINITION. Byte strings, bit fields and sparse tables: the plain operations that every chapter
uses (R10 to R12, R19, R647). -/

namespace Sys2Proof.Machine

/-- The number that big-endian bytes spell (R11). -/
def natOf : Bytes → Nat
  | [] => 0
  | b :: t => b.toNat * 256 ^ t.length + natOf t

/-- n bytes of a number, most significant first (R11). -/
def bytesOf : Nat → Nat → Bytes
  | 0, _ => []
  | n + 1, v => BitVec.ofNat 8 (v >>> (8 * n)) :: bytesOf n v

/-- n bytes of a number, least significant first (R12). -/
def leBytes (n v : Nat) : Bytes := (bytesOf n v).reverse

/-- Bytes off to off + len - 1; bytes beyond the end read as zero. -/
def slice (b : Bytes) (off len : Nat) : Bytes :=
  let t := (b.drop off).take len
  t ++ List.replicate (len - t.length) 0

/-- The big-endian number at bytes off to off + len - 1. -/
def natAt (b : Bytes) (off len : Nat) : Nat := natOf (slice b off len)

def byteAt (b : Bytes) (off : Nat) : Nat := ((b.drop off).headD 0).toNat

/-- b with the bytes at off replaced by v, as far as b reaches. -/
def splice (b : Bytes) (off : Nat) (v : Bytes) : Bytes :=
  (b.take off ++ v ++ b.drop (off + v.length)).take (max b.length (min b.length (off + v.length)))

def putNat (b : Bytes) (off len v : Nat) : Bytes := splice b off (bytesOf len v)

def zeros (n : Nat) : Bytes := List.replicate n 0

/-- Bits hi to lo of a number (R10). -/
def bits (v hi lo : Nat) : Nat := (v >>> lo) % 2 ^ (hi + 1 - lo)

def bit (v n : Nat) : Bool := v.testBit n

def setBit (v n : Nat) (b : Bool) : Nat :=
  if v.testBit n = b then v else if b then v + 2 ^ n else v - 2 ^ n

def b2n (b : Bool) : Nat := if b then 1 else 0

/-- Bit n of a byte string that is a bit set: byte n div 8, bit n mod 8 (R647). -/
def bitOf (b : Bytes) (n : Nat) : Bool := (byteAt b (n / 8)).testBit (n % 8)

/-- A two's complement number of n bits. -/
def signed (n v : Nat) : Int := if v < 2 ^ (n - 1) then (v : Int) else (v : Int) - (2 : Int) ^ n

/-- The n-bit two's complement form of an integer. -/
def unsigned (n : Nat) (v : Int) : Nat := (v % ((2 : Int) ^ n)).toNat

def ceilDiv (a b : Nat) : Nat := (a + b - 1) / b

/-- round(a / b), half upward. -/
def roundDiv (a b : Nat) : Nat := (2 * a + b) / (2 * b)

/-- a < b on a ring of 2^32, half the ring ahead (R54). -/
def reached32 (now target : Nat) : Bool := (now + 2 ^ 32 - target % 2 ^ 32) % 2 ^ 32 < 2 ^ 31

/-! ## Sparse tables -/

/-- The entry of a key, if the table lists one. -/
def tfind {α : Type} : Tbl α → Nat → Option α
  | [], _ => none
  | (k, v) :: t, i => if k = i then some v else tfind t i

/-- The value at a key; unlisted keys read as d. -/
def tget {α : Type} (d : α) (t : Tbl α) (i : Nat) : α := (tfind t i).getD d

/-- The table without a key. -/
def terase {α : Type} : Tbl α → Nat → Tbl α
  | [], _ => []
  | (k, v) :: t, i => if k = i then terase t i else (k, v) :: terase t i

/-- The table with a key at a value, in rising order of keys. -/
def tins {α : Type} : Tbl α → Nat → α → Tbl α
  | [], i, x => [(i, x)]
  | (k, v) :: t, i, x =>
    if i < k then (i, x) :: (k, v) :: t
    else if i = k then (i, x) :: t
    else (k, v) :: tins t i x

/-- Write a value; writing the default d removes the entry, so equal tables are equal lists. -/
def tput {α : Type} [DecidableEq α] (d : α) (t : Tbl α) (i : Nat) (x : α) : Tbl α :=
  if x = d then terase t i else tins t i x

def tmod {α : Type} [DecidableEq α] (d : α) (t : Tbl α) (i : Nat) (f : α → α) : Tbl α :=
  tput d t i (f (tget d t i))

/-- Entries whose key lies from lo to hi - 1. -/
def trange {α : Type} (t : Tbl α) (lo hi : Nat) : Tbl α :=
  t.filter fun e => decide (lo ≤ e.1) && decide (e.1 < hi)

/-- The table without the keys from lo to hi - 1. -/
def tdrop {α : Type} (t : Tbl α) (lo hi : Nat) : Tbl α :=
  t.filter fun e => !(decide (lo ≤ e.1) && decide (e.1 < hi))

def tkeys {α : Type} (t : Tbl α) : List Nat := t.map Prod.fst

/-- The canonical form: keys strictly rising and no entry equal to the default. -/
def twf {α : Type} [DecidableEq α] (d : α) : Tbl α → Bool
  | [] => true
  | [(_, v)] => !decide (v = d)
  | (k, v) :: (k', v') :: t => !decide (v = d) && decide (k < k') && twf d ((k', v') :: t)

/-- Every entry of the second table over the first (the second's default entries are kept). -/
def toverlay {α : Type} (t u : Tbl α) : Tbl α := u.foldl (fun a e => tins a e.1 e.2) t

/-! ## Lists -/

def distinct (l : List Nat) : List Nat :=
  (l.foldl (fun (t : Tbl Unit) x => tins t x ()) []).map Prod.fst

/-- The first element that meets p replaced by f of it. -/
def lmod {α : Type} (p : α → Bool) (f : α → α) : List α → List α
  | [] => []
  | a :: t => if p a then f a :: t else a :: lmod p f t

/-- Without the first element that meets p. -/
def ldel {α : Type} (p : α → Bool) : List α → List α
  | [] => []
  | a :: t => if p a then t else a :: ldel p t

def insertUnique (x : Nat) (l : List Nat) : List Nat := if l.contains x then l else l ++ [x]

def sumNat (l : List Nat) : Nat := l.foldl (· + ·) 0

/-- The element of least measure, the first of equals. -/
def argMin {α : Type} (f : α → Nat) : List α → Option α
  | [] => none
  | a :: t =>
    match argMin f t with
    | none => some a
    | some b => if f b < f a then some b else some a

/-- Iterate f n times. -/
def times {α : Type} (f : α → α) : Nat → α → α
  | 0, a => a
  | n + 1, a => times f n (f a)

end Sys2Proof.Machine
end

