-- ==== Sys2Proof/Machine/Catalogue.lean ====
section
/-! DEFINITION. The Mabin dictionary's object tables as data: index, type, access, tier, reset
class, range and default of every object (R15, R545 to R549 and the object tables of every
chapter), written out from the tables of the manual. -/

namespace Sys2Proof.Machine

/-- R547. -/
inductive Access where
  | ro
  | rw
  | wo
  | st
  deriving DecidableEq, Repr

/-- The Cleared by column (R15); `block` follows the counter blocks of R581, `kept` is SOFT
unless `cnt.soft.keep` is 1. -/
inductive Clear where
  | power
  | chip
  | soft
  | pipe
  | port
  | fn
  | block
  | kept
  | never
  deriving DecidableEq, Repr

/-- One row of an object table: first index, instances, subindex, kind (R546), access, tier, reset
class, rows and row bytes of a TABLE (row bytes 0: of varying size), least and greatest value (of an
OCTETS object: length), default value (of a TABLE: of a default row). -/
structure ObjRow where
  base : Nat
  insts : Nat
  sub : Nat
  kind : Nat
  acc : Access
  tier : Nat
  clr : Clear
  rows : Nat
  stride : Nat
  lo : Nat
  hi : Nat
  dflt : Nat
  deriving DecidableEq, Repr

def obj (base insts sub kind : Nat) (acc : Access) (tier : Nat) (clr : Clear)
    (rows stride lo hi dflt : Nat) : ObjRow :=
  { base, insts, sub, kind, acc, tier, clr, rows, stride, lo, hi, dflt }

/-- Rows of the object tables, part 1. -/
def objRows1 : List ObjRow :=
  [ obj 0x2800 1 0x01 4 .st 1 .soft 0 0 1000 20000 4000,  -- tick.rate
    obj 0x2800 1 0x02 2 .rw 1 .chip 0 0 0 4 1,  -- tick.source
    obj 0x2800 1 0x03 4 .rw 1 .chip 0 0 0 4294967295 0,  -- tick.anchor
    obj 0x2800 1 0x04 4 .rw 1 .chip 0 0 1024 65536 8192,  -- tick.cmd_cutoff
    obj 0x2800 1 0x05 2 .ro 0 .chip 0 0 0 255 0,  -- tick.state
    obj 0x2800 1 0x06 5 .ro 0 .soft 0 0 0 18446744073709551615 0,  -- tick.number
    obj 0x2800 1 0x07 5 .ro 0 .chip 0 0 0 18446744073709551615 0,  -- tick.boundary_beat
    obj 0x2800 1 0x08 4 .ro 0 .chip 0 0 0 4294967295 0,  -- tick.beats_last
    obj 0x2800 1 0x09 4 .ro 0 .soft 0 0 0 4294967295 312186,  -- tick.beats_min
    obj 0x2800 1 0x0A 4 .ro 0 .soft 0 0 0 4294967295 9755,  -- tick.carousel_min
    obj 0x2800 1 0x0B 5 .ro 0 .chip 0 0 0 18446744073709551615 0,  -- sched.beat
    obj 0x2900 1 0x01 9 .st 2 .soft 256 4 0 0 0,  -- carousel.plan.ingress
    obj 0x2900 1 0x02 9 .st 2 .soft 256 4 0 0 0,  -- carousel.plan.home
    obj 0x2900 1 0x03 9 .st 2 .soft 256 4 0 0 0,  -- carousel.plan.egress
    obj 0x2900 1 0x04 8 .ro 0 .soft 0 0 8 8 0,  -- carousel.plan.in_use
    obj 0x2A00 1 0x01 3 .rw 2 .chip 0 0 480 1280 640,  -- sched.horizon
    obj 0x2A00 1 0x02 3 .ro 0 .chip 0 0 0 65535 640,  -- sched.horizon.active
    obj 0x2A00 1 0x03 3 .ro 0 .chip 0 0 0 65535 47,  -- sched.latency.express
    obj 0x2A00 1 0x04 3 .ro 0 .chip 0 0 0 65535 750,  -- sched.latency.flow
    obj 0x2A00 1 0x05 4 .rw 1 .chip 0 0 0 4294967295 64,  -- sched.slip.alarm
    obj 0x2A00 1 0x06 9 .ro 0 .block 8 8 0 0 0,  -- sched.slip.beats
    obj 0x2A00 1 0x07 9 .ro 0 .block 8 8 0 0 0,  -- sched.slip.events
    obj 0x2A00 1 0x08 9 .ro 0 .soft 8 8 0 0 0,  -- sched.slip.longest
    obj 0x2A00 1 0x09 9 .ro 0 .block 8 8 0 0 0,  -- sched.merge_hold.beats
    obj 0x2A00 1 0x0A 9 .ro 0 .block 8 8 0 0 0,  -- sched.pass1_hold.beats
    obj 0x2A00 1 0x0B 9 .ro 0 .pipe 8 8 0 0 0,  -- sched.home.lag
    obj 0x3000 130 0x01 2 .ro 0 .port 0 0 0 255 0,  -- lane.state
    obj 0x3000 130 0x02 2 .rw 1 .chip 0 0 0 3 0,  -- lane.power
    obj 0x3000 130 0x03 2 .ro 0 .port 0 0 0 255 3,  -- lane.power.state
    obj 0x3000 130 0x04 1 .rw 1 .chip 0 0 0 1 1,  -- lane.power.keep_coeffs
    obj 0x3000 130 0x05 1 .rw 1 .chip 0 0 0 1 0,  -- lane.rx.invert
    obj 0x3000 130 0x06 1 .rw 1 .chip 0 0 0 1 0,  -- lane.tx.invert
    obj 0x3000 130 0x07 4 .rw 2 .chip 0 0 0 4294967295 32512,  -- lane.tx.eq
    obj 0x3000 130 0x08 4 .ro 0 .port 0 0 0 4294967295 0,  -- lane.coeffs
    obj 0x3000 130 0x09 1 .ro 0 .port 0 0 0 1 0,  -- lane.cdr.lock
    obj 0x3000 130 0x0A 6 .ro 0 .port 0 0 0 4294967295 0,  -- lane.cdr.ppm
    obj 0x3000 130 0x0B 1 .rw 2 .chip 0 0 0 1 0,  -- lane.search
    obj 0x3000 130 0x0C 2 .wo 2 .never 0 0 1 65 0,  -- lane.search.slip
    obj 0x3000 130 0x0D 4 .rw 2 .chip 0 0 64 1048576 1024,  -- lane.search.window
    obj 0x3000 130 0x0E 4 .ro 0 .port 0 0 0 4294967295 0,  -- lane.search.status
    obj 0x3100 130 0x01 2 .rw 1 .chip 0 0 0 10 0,  -- port.mode
    obj 0x3100 130 0x02 1 .rw 1 .chip 0 0 0 1 0,  -- port.enable
    obj 0x3100 130 0x03 2 .rw 1 .chip 0 0 0 15 15,  -- port.fec
    obj 0x3100 130 0x04 2 .rw 1 .chip 0 0 0 2 1,  -- port.an
    obj 0x3100 130 0x05 4 .rw 1 .chip 0 0 0 4294967295 252,  -- port.an.abilities
    obj 0x3100 130 0x06 1 .rw 1 .chip 0 0 0 1 1,  -- port.train
    obj 0x3100 130 0x07 3 .rw 1 .chip 0 0 100 5000 500,  -- port.train.timeout.nrz
    obj 0x3100 130 0x08 3 .rw 1 .chip 0 0 100 15000 3000]  -- port.train.timeout.pam4

/-- Rows of the object tables, part 2. -/
def objRows2 : List ObjRow :=
  [ obj 0x3100 130 0x09 3 .rw 1 .chip 0 0 1 1000 50,  -- port.lock.timeout
    obj 0x3100 130 0x0A 3 .rw 1 .chip 0 0 0 10000 100,  -- port.restart.delay
    obj 0x3100 130 0x0B 1 .rw 1 .chip 0 0 0 1 0,  -- port.eee
    obj 0x3100 130 0x0C 3 .rw 1 .chip 0 0 64 16383 1536,  -- port.mtu
    obj 0x3100 130 0x0D 2 .ro 0 .port 0 0 0 255 0,  -- port.state
    obj 0x3100 130 0x0E 2 .ro 0 .port 0 0 0 255 0,  -- port.mode.active
    obj 0x3100 130 0x0F 2 .ro 0 .port 0 0 0 255 0,  -- port.fec.active
    obj 0x3100 130 0x10 5 .ro 0 .port 0 0 0 18446744073709551615 0,  -- port.last_change
    obj 0x3100 130 0x11 3 .ro 0 .port 0 0 0 65535 0,  -- port.skew
    obj 0x3100 130 0x12 4 .ro 0 .port 0 0 0 4294967295 0,  -- port.delay.rx
    obj 0x3100 130 0x13 4 .ro 0 .port 0 0 0 4294967295 0,  -- port.delay.tx
    obj 0x3100 130 0x14 2 .ro 0 .port 0 0 0 255 0,  -- port.fail.cause
    obj 0x4000 1 0x01 8 .ro 0 .soft 0 0 8 8 0,  -- parse.graph.id
    obj 0x4000 1 0x02 3 .ro 0 .soft 0 0 0 65535 96,  -- parse.graph.states
    obj 0x4000 1 0x03 2 .ro 0 .soft 0 0 0 255 16,  -- parse.graph.max_headers
    obj 0x4000 1 0x04 3 .st 1 .soft 0 0 0 65535 37120,  -- parse.tpid.extra
    obj 0x4000 1 0x05 2 .st 1 .soft 0 0 0 1 1,  -- parse.mpls.cw_next
    obj 0x4000 1 0x06 3 .st 1 .soft 0 0 1 65535 102,  -- parse.iec90_5.udp_port
    obj 0x4000 1 0x07 9 .ro 0 .never 96 1 0 0 0,  -- parse.graph.native
    obj 0x4100 134 0x01 3 .st 1 .soft 0 0 0 65535 40,  -- parse.policy
    obj 0x4100 134 0x02 3 .st 1 .soft 0 0 0 4095 0,  -- parse.exc.ring
    obj 0x4100 134 0x03 4 .st 1 .soft 0 0 0 4294967295 0,  -- parse.default.action
    obj 0x4100 134 0x04 1 .st 1 .soft 0 0 0 1 0,  -- parse.prp.enable
    obj 0x4100 134 0x05 4 .ro 0 .port 0 0 0 4294967295 0,  -- parse.exc.last
    obj 0x4800 128 0x01 2 .st 1 .soft 0 0 1 4 1,  -- search.bank.width
    obj 0x4800 128 0x02 2 .st 1 .soft 0 0 0 15 15,  -- search.bank.group
    obj 0x4800 128 0x03 2 .rw 2 .soft 0 0 0 1 0,  -- search.bank.mode
    obj 0x4800 128 0x04 3 .ro 0 .soft 0 0 0 65535 0,  -- search.bank.valid
    obj 0x4900 16 0x01 9 .st 1 .soft 25 4 0 0 0,  -- search.key.0
    obj 0x4900 16 0x02 9 .st 1 .soft 25 4 0 0 0,  -- search.key.0
    obj 0x4900 16 0x03 9 .st 1 .soft 25 4 0 0 0,  -- search.key.0
    obj 0x4900 16 0x04 9 .st 1 .soft 25 4 0 0 0,  -- search.key.0
    obj 0x4A00 134 0x01 2 .st 1 .soft 0 0 0 15 0,  -- search.port.keyset
    obj 0x4B00 8 0x01 9 .st 1 .soft 32768 0 0 0 0,  -- search.tcam
    obj 0x4B00 8 0x02 9 .st 1 .soft 32768 32 0 0 0,  -- search.exact
    obj 0x4B00 8 0x03 2 .st 1 .soft 0 0 0 3 0,  -- search.exact.key
    obj 0x4B00 8 0x04 2 .st 1 .soft 0 0 0 4 0,  -- search.exact.rank
    obj 0x4B00 8 0x05 4 .st 1 .soft 0 0 0 4294967295 1554474002,  -- search.exact.seed
    obj 0x4B00 8 0x06 4 .ro 0 .pipe 0 0 0 4294967295 0,  -- search.scrub.position
    obj 0x4C00 1 0x01 9 .st 1 .soft 4096 96 0 0 0,  -- express.rewrite
    obj 0x4E00 134 0x01 6 .rw 1 .chip 0 0 0 4294967295 0,  -- express.ptp.link_delay
    obj 0x1400 1 0x01 3 .ro 0 .soft 0 0 0 65535 0,  -- version.current
    obj 0x1400 1 0x02 2 .ro 0 .soft 0 0 0 255 0,  -- version.current.slot
    obj 0x1400 1 0x03 9 .ro 0 .soft 4 8 0 0 0,  -- version.slots
    obj 0x1400 1 0x04 9 .ro 0 .soft 64 32 0 0 0,  -- version.history
    obj 0x1400 1 0x05 2 .ro 0 .soft 0 0 0 255 0,  -- version.pending
    obj 0x1400 1 0x06 3 .wo 1 .never 0 0 0 65535 0,  -- version.cancel
    obj 0x1400 1 0x07 4 .ro 0 .soft 0 0 0 4294967295 0]  -- version.last_reject

/-- Rows of the object tables, part 3. -/
def objRows3 : List ObjRow :=
  [ obj 0x1500 1 0x01 5 .ro 0 .soft 0 0 0 18446744073709551615 0,  -- config.digest
    obj 0x1500 1 0x02 5 .st 1 .soft 0 0 0 18446744073709551615 0,  -- config.digest.expected
    obj 0x1500 1 0x03 1 .ro 0 .soft 0 0 0 1 0,  -- config.diverged
    obj 0x1500 1 0x04 3 .rw 1 .chip 0 0 0 65535 4000,  -- etwen.period
    obj 0x1500 1 0x05 2 .rw 1 .chip 0 0 0 255 2,  -- etwen.mode
    obj 0x1500 1 0x06 8 .rw 1 .chip 0 0 17 17 0,  -- etwen.ports
    obj 0x1500 1 0x07 5 .rw 1 .chip 0 0 0 18446744073709551615 3604735878162,  -- etwen.dst
    obj 0x1500 1 0x08 3 .rw 1 .chip 0 0 0 65535 34997,  -- etwen.ethertype
    obj 0x1500 1 0x09 3 .rw 1 .chip 0 0 0 65535 0,  -- etwen.vlan
    obj 0x1500 1 0x0A 2 .rw 1 .chip 0 0 0 7 7,  -- etwen.queue
    obj 0x1500 1 0x0B 8 .ro 0 .chip 0 0 576 576 0,  -- etwen.beacon
    obj 0x4D00 8 0x01 9 .wo 1 .never 1 0 0 0 0,  -- search.legacy.write
    obj 0x4D00 8 0x02 3 .ro 0 .pipe 0 0 0 65535 0,  -- search.legacy.pending
    obj 0x4D00 8 0x03 4 .ro 0 .soft 0 0 0 4294967295 0,  -- search.legacy.applied
    obj 0x4D00 8 0x04 5 .ro 0 .soft 0 0 0 18446744073709551615 0,  -- search.legacy.last_tick
    obj 0x5000 1 0x01 2 .rw 2 .chip 0 0 0 255 255,  -- flow.home.mask
    obj 0x5000 1 0x02 2 .ro 0 .chip 0 0 0 255 255,  -- flow.home.mask.active
    obj 0x5000 1 0x03 5 .rw 2 .chip 0 0 0 18446744073709551615 5418285580349170706,  -- flow.seed.home
    obj 0x5000 1 0x04 5 .rw 2 .chip 0 0 0 18446744073709551615 953199557901313042,  -- flow.seed.bucket
    obj 0x5000 1 0x05 5 .rw 2 .chip 0 0 0 18446744073709551615 7485558027456177170,  -- flow.seed.fp
    obj 0x5000 1 0x06 8 .ro 0 .chip 0 0 24 24 0,  -- flow.seeds.active
    obj 0x5010 1 0x01 9 .st 1 .soft 64 72 0 0 0,  -- flow.profile
    obj 0x5014 1 0x01 1 .rw 1 .chip 0 0 0 1 1,  -- flow.age.enable
    obj 0x5014 1 0x02 4 .rw 1 .chip 0 0 1 8388607 120000,  -- flow.age.limit
    obj 0x5014 1 0x03 9 .ro 0 .pipe 8 4 0 0 0,  -- flow.age.position
    obj 0x5014 1 0x04 9 .ro 0 .pipe 8 4 0 0 0,  -- flow.age.pass_ticks
    obj 0x5018 1 0x01 2 .rw 1 .chip 0 0 1 16 8,  -- flow.reloc.max_moves
    obj 0x5018 1 0x02 3 .rw 1 .chip 0 0 8 512 256,  -- flow.reloc.search_buckets
    obj 0x501C 1 0x01 4 .wo 2 .never 0 0 0 4294967295 0,  -- flow.quarantine.release
    obj 0x501C 1 0x02 1 .rw 2 .chip 0 0 0 1 1,  -- flow.quarantine.auto
    obj 0x501C 1 0x03 9 .ro 0 .soft 256 4 0 0 0,  -- flow.quarantine.list
    obj 0x5020 8 0x01 4 .ro 0 .pipe 0 0 0 4294967295 0,  -- flow.occupancy
    obj 0x5020 8 0x02 3 .ro 0 .pipe 0 0 0 65535 0,  -- flow.stash.used
    obj 0x5020 8 0x03 3 .ro 0 .pipe 0 0 0 65535 0,  -- flow.stash.peak
    obj 0x5020 8 0x04 4 .ro 0 .pipe 0 0 0 4294967295 0,  -- flow.cache.pinned
    obj 0x5020 8 0x05 5 .ro 0 .block 0 0 0 18446744073709551615 0,  -- flow.cache.pin_holds
    obj 0x5028 1 0x01 3 .rw 1 .chip 0 0 0 65535 9500,  -- flow.occupancy.alarm
    obj 0x5028 1 0x02 3 .rw 1 .chip 0 0 0 65535 768,  -- flow.stash.alarm
    obj 0x5800 1 0x01 8 .wo 2 .never 0 0 0 16777216 0,  -- engine.image.stage
    obj 0x5800 1 0x02 5 .wo 2 .never 0 0 0 18446744073709551615 0,  -- engine.image.target
    obj 0x5800 1 0x03 4 .ro 0 .soft 0 0 0 4294967295 0,  -- engine.image.stage.status
    obj 0x5800 1 0x04 4 .ro 0 .power 0 0 0 4294967295 0,  -- engine.key.status
    obj 0x5800 1 0x05 8 .wo 3 .never 0 0 49 49 0,  -- engine.key.enrol
    obj 0x5800 1 0x06 2 .wo 3 .never 0 0 0 255 0,  -- engine.key.revoke
    obj 0x5800 1 0x07 1 .rw 1 .chip 0 0 0 1 1,  -- engine.idle.enable
    obj 0x5800 1 0x08 3 .rw 1 .chip 0 0 0 65535 0,  -- engine.idle.export_period
    obj 0x5800 1 0x09 9 .st 1 .soft 2048 260 0 0 0,  -- engine.table.write
    obj 0x5900 64 0x01 5 .ro 0 .soft 0 0 0 18446744073709551615 0]  -- engine.image.id

/-- Rows of the object tables, part 4. -/
def objRows4 : List ObjRow :=
  [ obj 0x5900 64 0x02 4 .ro 0 .soft 0 0 0 4294967295 0,  -- engine.image.version
    obj 0x5900 64 0x03 3 .ro 0 .soft 0 0 0 65535 0,  -- engine.image.abi
    obj 0x5900 64 0x04 8 .ro 0 .soft 0 0 48 48 0,  -- engine.image.digest
    obj 0x5900 64 0x05 2 .ro 0 .soft 0 0 0 255 0,  -- engine.cluster.sides
    obj 0x5900 64 0x06 3 .ro 0 .soft 0 0 0 65535 0,  -- engine.cluster.pages
    obj 0x5900 64 0x07 2 .ro 0 .soft 0 0 0 255 0,  -- engine.cluster.state
    obj 0x5900 64 0x08 1 .wo 2 .never 0 0 0 1 0,  -- engine.cluster.freeze
    obj 0x5900 64 0x09 1 .wo 2 .never 0 0 0 1 0,  -- engine.cluster.release
    obj 0x5900 64 0x0A 5 .ro 0 .soft 0 0 0 18446744073709551615 0,  -- engine.trap.info
    obj 0x5900 64 0x0B 8 .ro 0 .soft 0 0 192 192 0,  -- engine.trap.vector
    obj 0x5980 8 0x01 2 .ro 0 .soft 0 0 0 255 255,  -- engine.rotation
    obj 0x5030 1 0x01 9 .st 1 .soft 64 16 0 0 0,  -- flow.commit.attr
    obj 0x5040 1 0x01 9 .rw 2 .chip 16 4 0 0 0,  -- nat.addr
    obj 0x5040 1 0x02 9 .ro 0 .chip 16 4 0 0 0,  -- nat.addr.active
    obj 0x5040 1 0x03 3 .rw 2 .chip 0 0 1 65535 1024,  -- nat.port.lo
    obj 0x5040 1 0x04 3 .ro 0 .chip 0 0 0 65535 1024,  -- nat.port.lo.active
    obj 0x5040 1 0x05 2 .rw 2 .chip 0 0 0 63 63,  -- nat.steer.profile
    obj 0x5040 1 0x06 2 .ro 0 .chip 0 0 0 255 63,  -- nat.steer.profile.active
    obj 0x5040 1 0x07 4 .wo 2 .never 0 0 0 4294967295 0,  -- nat.release
    obj 0x5048 8 0x01 4 .ro 0 .pipe 0 0 0 4294967295 0,  -- nat.allocated
    obj 0x5048 8 0x02 4 .ro 0 .pipe 0 0 0 4294967295 0,  -- nat.free
    obj 0x5050 1 0x01 9 .st 1 .soft 4096 8 0 0 0,  -- lb.pool
    obj 0x5050 1 0x02 9 .st 1 .soft 65536 32 0 0 0,  -- lb.member
    obj 0x5050 1 0x03 9 .st 1 .soft 1048576 2 0 0 0,  -- lb.bucket
    obj 0x5060 1 0x01 9 .st 1 .soft 256 64 0 0 0,  -- export.template
    obj 0x5060 1 0x02 2 .rw 1 .chip 0 0 0 1 0,  -- export.dest
    obj 0x5060 1 0x03 4 .rw 1 .chip 0 0 0 4294967295 25600,  -- export.domain
    obj 0x5060 1 0x04 2 .rw 1 .chip 0 0 0 127 0,  -- export.collector.port
    obj 0x5060 1 0x05 8 .rw 1 .chip 0 0 0 62 0,  -- export.collector.hdr
    obj 0x5060 1 0x06 3 .rw 1 .chip 0 0 1 65535 4000,  -- export.template.period
    obj 0x5060 1 0x07 4 .rw 1 .chip 0 0 0 4294967295 0,  -- export.pen
    obj 0x5060 1 0x08 3 .rw 1 .chip 0 0 0 4095 0,  -- export.ring
    obj 0x6000 1 0x01 4 .ro 0 .chip 0 0 0 4294967295 262144,  -- buf.cells.free
    obj 0x6000 1 0x02 4 .ro 0 .soft 0 0 0 4294967295 262144,  -- buf.cells.free.low
    obj 0x6000 1 0x03 4 .ro 0 .chip 0 0 0 4294967295 0,  -- buf.shared.size
    obj 0x6000 1 0x04 4 .rw 1 .chip 0 0 0 65536 2048,  -- buf.shared.xoff_free
    obj 0x6000 1 0x05 4 .rw 1 .chip 0 0 0 65536 4096,  -- buf.shared.xon_free
    obj 0x6000 1 0x06 4 .rw 1 .chip 0 0 1024 16384 4096,  -- buf.copy.cells
    obj 0x6100 136 0x01 2 .rw 1 .chip 0 0 0 2 1,  -- buf.port.fc
    obj 0x6100 136 0x02 2 .rw 1 .chip 0 0 0 255 255,  -- buf.port.pfc.classes
    obj 0x6100 136 0x03 2 .rw 1 .chip 0 0 0 2 1,  -- buf.port.trust
    obj 0x6100 136 0x04 2 .rw 1 .chip 0 0 0 7 0,  -- buf.port.class.default
    obj 0x6100 136 0x05 4 .rw 1 .chip 0 0 0 4294967295 16434824,  -- buf.port.pcp_map
    obj 0x6100 136 0x06 8 .rw 1 .chip 0 0 64 64 0,  -- buf.port.dscp_map
    obj 0x6100 136 0x07 3 .rw 1 .chip 0 0 0 10000 10,  -- buf.port.cable
    obj 0x6100 136 0x08 3 .rw 1 .chip 0 0 0 65535 1000,  -- buf.port.peer_delay
    obj 0x6100 136 0x09 3 .rw 1 .chip 0 0 0 4096 16,  -- buf.port.min
    obj 0x6100 136 0x0A 4 .rw 1 .chip 0 0 1 262143 2048]  -- buf.port.xoff

/-- Rows of the object tables, part 5. -/
def objRows5 : List ObjRow :=
  [ obj 0x6100 136 0x0B 4 .rw 1 .chip 0 0 0 4294967295 1536,  -- buf.port.xon
    obj 0x6100 136 0x0C 9 .ro 0 .chip 8 4 0 0 0,  -- buf.port.headroom
    obj 0x6100 136 0x0D 3 .rw 1 .chip 0 0 0 4096 0,  -- buf.port.headroom.extra
    obj 0x6100 136 0x0E 2 .rw 1 .chip 0 0 0 1 0,  -- buf.port.freeze_scope
    obj 0x6100 136 0x0F 3 .rw 1 .chip 0 0 1 65535 65535,  -- buf.port.pfc.quanta
    obj 0x6100 136 0x10 5 .rw 1 .chip 0 0 0 18446744073709551615 9241421688590303745,  -- buf.port.pfc.rx_map
    obj 0x6100 136 0x11 9 .ro 0 .chip 8 8 0 0 0,  -- buf.port.usage
    obj 0x6100 136 0x12 3 .ro 0 .chip 0 0 0 65535 0,  -- buf.port.frozen
    obj 0x6100 136 0x13 1 .rw 1 .chip 0 0 0 1 1,  -- buf.cut.ingress
    obj 0x6100 136 0x14 2 .rw 1 .chip 0 0 0 255 0,  -- buf.cut.classes
    obj 0x6100 136 0x15 4 .rw 1 .chip 0 0 0 1000000 10000,  -- buf.link.hold
    obj 0x6100 136 0x16 2 .ro 0 .port 0 0 0 255 0,  -- buf.link.state
    obj 0x6400 32 0x01 4 .st 1 .soft 0 0 0 16777216 0,  -- mirror.n
    obj 0x6400 32 0x02 3 .st 1 .soft 0 0 64 512 128,  -- mirror.length
    obj 0x6400 32 0x03 3 .st 1 .soft 0 0 0 4095 0,  -- mirror.ring
    obj 0x6400 32 0x04 9 .ro 0 .soft 8 4 0 0 0,  -- mirror.count
    obj 0x6480 32 0x01 3 .st 1 .soft 0 0 0 4095 0,  -- sample.ring
    obj 0x6480 32 0x02 2 .st 1 .soft 0 0 0 15 0,  -- sample.format
    obj 0x6800 1 0x01 9 .rw 2 .chip 8 4 0 0 0,  -- pool.local.count
    obj 0x6800 1 0x02 9 .ro 0 .chip 8 4 0 0 0,  -- pool.local.count.active
    obj 0x6800 1 0x03 9 .rw 2 .chip 64 24 0 0 0,  -- pool.host.region
    obj 0x6800 1 0x04 9 .ro 0 .chip 8 4 0 0 0,  -- pool.buffers
    obj 0x6800 1 0x05 9 .ro 0 .soft 8 4 0 0 0,  -- pool.free
    obj 0x6800 1 0x06 5 .ro 0 .soft 0 0 0 18446744073709551615 0,  -- pool.fault.last
    obj 0x6880 128 0x01 1 .rw 2 .chip 0 0 0 1 1,  -- pool.owner.enable
    obj 0x6880 128 0x02 9 .rw 2 .chip 8 4 0 0 0,  -- pool.owner.min
    obj 0x6880 128 0x03 9 .rw 2 .chip 8 4 0 0 4294967295,  -- pool.owner.max
    obj 0x6880 128 0x04 9 .ro 0 .soft 8 4 0 0 0,  -- pool.owner.held
    obj 0x6880 128 0x05 1 .wo 2 .never 0 0 0 1 0,  -- pool.owner.reclaim
    obj 0x6900 64 0x01 5 .wo 1 .never 0 0 0 18446744073709551615 0,  -- pool.req
    obj 0x6900 64 0x02 5 .ro 0 .fn 0 0 0 18446744073709551615 0,  -- pool.resp
    obj 0x7000 1 0x01 9 .rw 1 .chip 65536 16 0 0 0,  -- sched.queue
    obj 0x7000 1 0x02 9 .rw 1 .chip 8192 16 0 0 0,  -- sched.sub
    obj 0x7000 1 0x03 9 .rw 1 .chip 1024 16 0 0 0,  -- sched.svc
    obj 0x7000 1 0x04 9 .rw 1 .chip 136 16 0 0 0,  -- sched.port
    obj 0x7000 1 0x05 4 .wo 1 .never 0 0 0 4294967295 0,  -- sched.clear_debt
    obj 0x7000 1 0x06 3 .ro 0 .soft 0 0 0 65535 0,  -- sched.write.pending
    obj 0x7000 1 0x07 9 .st 1 .soft 8192 2 0 0 0,  -- sched.sub.parent
    obj 0x7000 1 0x08 9 .st 1 .soft 1024 2 0 0 0,  -- sched.svc.parent
    obj 0x7000 1 0x09 4 .rw 0 .chip 0 0 0 4294967295 0,  -- sched.inspect.select
    obj 0x7000 1 0x0A 8 .ro 0 .chip 0 0 16 16 0,  -- sched.inspect.level
    obj 0x7100 136 0x01 4 .st 1 .soft 0 0 0 4294967295 0,  -- sched.port.subsel
    obj 0x7100 136 0x02 3 .st 1 .soft 0 0 0 8191 0,  -- sched.port.default_sub
    obj 0x7100 136 0x03 6 .rw 1 .chip 0 0 0 4294967295 20,  -- sched.port.overhead
    obj 0x7200 130 0x01 1 .st 1 .soft 0 0 0 1 0,  -- gate.enable
    obj 0x7200 130 0x02 2 .st 1 .soft 0 0 0 3 0,  -- gate.tb
    obj 0x7200 130 0x03 4 .st 1 .soft 0 0 0 4294967295 0,  -- gate.base
    obj 0x7200 130 0x04 4 .st 1 .soft 0 0 0 4294967295 1000000]  -- gate.cycle

/-- Rows of the object tables, part 6. -/
def objRows6 : List ObjRow :=
  [ obj 0x7200 130 0x05 9 .st 1 .soft 256 8 0 0 0,  -- gate.list
    obj 0x7200 130 0x06 5 .ro 0 .port 0 0 0 18446744073709551615 0,  -- gate.oper
    obj 0x7400 1 0x01 9 .rw 1 .chip 65536 32 0 0 0,  -- police.table
    obj 0x7800 1 0x01 8 .wo 2 .never 0 0 47 47 0,  -- cipher.key.write
    obj 0x7800 1 0x02 9 .ro 0 .chip 8192 1 0 0 0,  -- cipher.key.present
    obj 0x7800 1 0x03 5 .rw 1 .chip 0 0 1 9223372036854775808 268435456,  -- cipher.rekey.margin
    obj 0x7800 1 0x04 9 .ro 0 .chip 9 1 0 0 0,  -- cipher.unit.state
    obj 0x7800 1 0x05 2 .wo 2 .never 0 0 0 8 0,  -- cipher.unit.restore
    obj 0x7800 1 0x06 9 .ro 0 .chip 9 8 0 0 0,  -- cipher.unit.fault
    obj 0x7800 1 0x07 8 .rw 1 .chip 0 0 512 512 0,  -- cipher.la.rings
    obj 0x7810 1 0x01 9 .rw 1 .chip 4096 32 0 0 0,  -- macsec.sa
    obj 0x7810 1 0x02 9 .ro 0 .chip 4096 8 0 0 0,  -- macsec.sa.pn
    obj 0x7820 1 0x01 9 .rw 1 .chip 4096 16 0 0 0,  -- iec.key
    obj 0x7820 1 0x02 9 .ro 0 .chip 4096 8 0 0 0,  -- iec.key.counter
    obj 0x7900 128 0x01 1 .rw 1 .chip 0 0 0 1 0,  -- macsec.rx.enable
    obj 0x7900 128 0x02 1 .rw 1 .chip 0 0 0 1 1,  -- macsec.rx.replay
    obj 0x7900 128 0x03 4 .rw 1 .chip 0 0 0 1073741824 0,  -- macsec.rx.window
    obj 0x7900 128 0x04 3 .rw 1 .chip 0 0 0 65535 0,  -- macsec.bypass
    obj 0x7900 128 0x05 1 .rw 1 .chip 0 0 0 1 0,  -- macsec.tx.enable
    obj 0x7900 128 0x06 3 .rw 1 .chip 0 0 0 4095 0,  -- macsec.tx.sa
    obj 0x7900 128 0x07 2 .rw 1 .chip 0 0 0 1 0,  -- macsec.tx.sci
    obj 0x7900 128 0x08 2 .ro 0 .chip 0 0 0 255 0,  -- macsec.tx.state
    obj 0x7900 128 0x09 3 .ro 0 .chip 0 0 0 65535 0,  -- macsec.rx.staging
    obj 0x2000 4 0x01 1 .rw 1 .chip 0 0 0 1 0,  -- tb.enable
    obj 0x2000 4 0x02 2 .ro 0 .chip 0 0 0 255 0,  -- tb.state
    obj 0x2000 4 0x03 6 .rw 1 .chip 0 0 0 4294967295 0,  -- tb.rate
    obj 0x2000 4 0x04 5 .wo 1 .never 0 0 0 18446744073709551615 0,  -- tb.step
    obj 0x2000 4 0x05 1 .ro 0 .chip 0 0 0 1 0,  -- tb.step.used
    obj 0x2000 4 0x06 5 .wo 1 .never 0 0 0 18446744073709551615 0,  -- tb.slew
    obj 0x2000 4 0x07 3 .rw 1 .chip 0 0 1 1000 100,  -- tb.slew.ppm
    obj 0x2000 4 0x08 5 .ro 0 .chip 0 0 0 18446744073709551615 0,  -- tb.slew.remaining
    obj 0x2000 4 0x09 5 .ro 0 .chip 0 0 0 18446744073709551615 0,  -- tb.now
    obj 0x2000 4 0x0A 4 .ro 0 .chip 0 0 0 4294967295 0,  -- tb.epoch
    obj 0x2000 4 0x0B 5 .ro 0 .chip 0 0 0 18446744073709551615 0,  -- tb.valid_since
    obj 0x2010 1 0x01 8 .ro 0 .chip 0 0 56 56 0,  -- tb.snapshot
    obj 0x2040 8 0x01 2 .rw 1 .chip 0 0 0 2 0,  -- tout.mode
    obj 0x2040 8 0x02 2 .rw 1 .chip 0 0 0 3 0,  -- tout.tb
    obj 0x2040 8 0x03 4 .rw 1 .chip 0 0 0 4294967295 0,  -- tout.start
    obj 0x2040 8 0x04 4 .rw 1 .chip 0 0 100 1000000000 1000000000,  -- tout.period
    obj 0x2040 8 0x05 4 .rw 1 .chip 0 0 0 4294967295 1000,  -- tout.width
    obj 0x2040 8 0x06 1 .rw 1 .chip 0 0 0 1 0,  -- tout.polarity
    obj 0x2040 8 0x07 4 .ro 0 .chip 0 0 0 4294967295 0,  -- tout.next
    obj 0x2060 4 0x01 2 .rw 1 .chip 0 0 0 3 0,  -- tin.edge
    obj 0x2060 4 0x02 2 .rw 1 .chip 0 0 0 3 0,  -- tin.tb
    obj 0x2060 4 0x03 9 .ro 0 .chip 16 8 0 0 0,  -- tin.fifo
    obj 0x2060 4 0x04 2 .wo 1 .never 0 0 1 16 0,  -- tin.ack
    obj 0x2060 4 0x05 4 .ro 0 .chip 0 0 0 4294967295 0,  -- tin.overflow
    obj 0x2100 130 0x01 2 .rw 1 .chip 0 0 0 3 0]  -- ptp.port.tb

/-- Rows of the object tables, part 7. -/
def objRows7 : List ObjRow :=
  [ obj 0x2100 130 0x02 1 .rw 1 .chip 0 0 0 1 0,  -- ptp.port.rx_stamp
    obj 0x2100 130 0x03 6 .rw 1 .chip 0 0 0 4294967295 0,  -- ptp.port.rx_adjust
    obj 0x2100 130 0x04 6 .rw 1 .chip 0 0 0 4294967295 0,  -- ptp.port.tx_adjust
    obj 0x6C00 1 0x01 3 .rw 1 .chip 0 0 1 1024 16,  -- arb.hbm.step
    obj 0x6C00 1 0x02 3 .rw 2 .chip 0 0 64 1024 200,  -- arb.hbm.lat_nominal
    obj 0x6C00 1 0x03 3 .rw 2 .chip 0 0 8 256 64,  -- arb.hbm.bg_limit
    obj 0x6C00 1 0x04 9 .rw 1 .chip 3 4 0 0 0,  -- arb.hbm.req
    obj 0x6C08 8 0x01 9 .ro 0 .pipe 3 8 0 0 0,  -- arb.hbm.status
    obj 0x6C10 1 0x01 3 .rw 1 .chip 0 0 1 1024 8,  -- arb.dma.step
    obj 0x6C10 1 0x02 3 .rw 1 .chip 0 0 16 4096 512,  -- arb.dma.max_grant
    obj 0x6C10 1 0x03 9 .rw 1 .chip 8200 4 0 0 0,  -- arb.dma.req
    obj 0x6C10 1 0x04 9 .ro 0 .chip 8200 8 0 0 0,  -- arb.dma.status
    obj 0x6C20 1 0x01 3 .rw 1 .chip 0 0 1 1024 64,  -- arb.la.step
    obj 0x6C20 1 0x02 3 .rw 1 .chip 0 0 64 65535 2048,  -- arb.la.max_grant
    obj 0x6C20 1 0x03 9 .rw 1 .chip 4112 4 0 0 0,  -- arb.la.req
    obj 0x6C20 1 0x04 9 .ro 0 .chip 4112 8 0 0 0,  -- arb.la.status
    obj 0x8000 1 0x01 4 .ro 0 .never 0 0 0 4294967295 4132867,  -- host.cap
    obj 0x8000 1 0x02 3 .ro 0 .chip 0 0 0 65535 0,  -- host.link
    obj 0x8000 1 0x03 2 .ro 0 .fn 0 0 0 255 0,  -- host.vf.count
    obj 0x8000 1 0x04 9 .ro 0 .chip 256 8 0 0 0,  -- host.bar2.map
    obj 0x8000 1 0x05 5 .ro 0 .chip 0 0 0 18446744073709551615 0,  -- host.bar.last_reject
    obj 0x8000 1 0x06 5 .ro 0 .chip 0 0 0 18446744073709551615 0,  -- host.fn.frozen
    obj 0x8010 64 0x01 9 .rw 2 .chip 8 16 0 0 0,  -- host.fn.window
    obj 0x8010 64 0x02 4 .rw 2 .chip 0 0 0 4294967295 0,  -- host.fn.vectors
    obj 0x8010 64 0x03 5 .ro 0 .chip 0 0 0 18446744073709551615 0,  -- host.fn.fault
    obj 0x8100 1 0x01 9 .rw 1 .fn 4096 32 0 0 0,  -- host.rxring
    obj 0x8100 1 0x02 9 .rw 1 .fn 4096 32 0 0 0,  -- host.txring
    obj 0x8100 1 0x03 9 .ro 0 .fn 8192 16 0 0 0,  -- host.ring.status
    obj 0x8100 1 0x04 9 .rw 1 .fn 8 32 0 0 0,  -- host.cmd.ring
    obj 0x8100 1 0x05 9 .rw 1 .fn 8 32 0 0 0,  -- host.cpl.ring
    obj 0x8100 1 0x06 8 .rw 1 .fn 0 0 32 32 0,  -- host.dump.ring
    obj 0x8100 1 0x07 8 .rw 1 .fn 0 0 32 32 0,  -- host.event.ring
    obj 0x1000 1 0x01 8 .ro 0 .never 0 0 0 21 0,  -- id.vendor
    obj 0x1000 1 0x02 8 .ro 0 .never 0 0 0 11 0,  -- id.part
    obj 0x1000 1 0x03 8 .ro 0 .never 0 0 0 10 0,  -- id.ordering
    obj 0x1000 1 0x04 2 .ro 0 .never 0 0 0 255 176,  -- id.stepping
    obj 0x1000 1 0x05 5 .ro 0 .never 0 0 0 18446744073709551615 0,  -- id.unique
    obj 0x1000 1 0x06 5 .ro 0 .never 0 0 0 18446744073709551615 0,  -- id.mac.base
    obj 0x1000 1 0x07 3 .ro 0 .never 0 0 0 65535 0,  -- id.mac.count
    obj 0x1000 1 0x08 4 .ro 0 .chip 0 0 0 4294967295 0,  -- id.firmware
    obj 0x1000 1 0x09 4 .ro 0 .never 0 0 0 4294967295 0,  -- id.bootrom
    obj 0x1000 1 0x0A 4 .ro 0 .chip 0 0 0 4294967295 0,  -- id.dictionary
    obj 0x1100 1 0x01 3 .ro 0 .never 0 0 0 65535 256,  -- mabin.version.min
    obj 0x1100 1 0x02 3 .ro 0 .never 0 0 0 65535 259,  -- mabin.version.max
    obj 0x1100 1 0x03 3 .rw 2 .chip 0 0 0 65535 16412,  -- mabin.udp.port
    obj 0x1100 1 0x04 4 .rw 2 .chip 0 0 0 4294967295 0,  -- mabin.ipv4
    obj 0x1100 1 0x05 8 .rw 2 .chip 0 0 16 16 0,  -- mabin.ipv6
    obj 0x1100 1 0x06 8 .rw 2 .chip 0 0 17 17 0]  -- mabin.inband.ports

/-- Rows of the object tables, part 8. -/
def objRows8 : List ObjRow :=
  [ obj 0x1100 1 0x07 8 .wo 0 .never 0 0 0 4096 0,  -- mabin.mbox.in
    obj 0x1100 1 0x08 8 .ro 0 .fn 0 0 0 4096 0,  -- mabin.mbox.out
    obj 0x1100 1 0x09 3 .rw 2 .chip 0 0 0 2047 0,  -- mabin.mbox.vector
    obj 0x1200 1 0x01 8 .wo 2 .never 0 0 36 36 0,  -- mabin.cred.write
    obj 0x1200 1 0x02 9 .ro 0 .chip 9 1 0 0 0,  -- mabin.cred.present
    obj 0x1200 1 0x03 3 .rw 2 .chip 0 0 5 3600 30,  -- mabin.session.idle
    obj 0x1200 1 0x04 9 .ro 0 .chip 16 8 0 0 0,  -- mabin.sessions
    obj 0x1200 1 0x05 2 .rw 3 .chip 0 0 0 3 2,  -- mabin.local.tier
    obj 0x1300 1 0x01 4 .rw 2 .chip 0 0 100 60000 2000,  -- mabin.lock.lease
    obj 0x1300 1 0x02 2 .ro 0 .soft 0 0 0 255 255,  -- mabin.lock.holder
    obj 0x1300 1 0x03 5 .ro 0 .soft 0 0 0 18446744073709551615 0,  -- mabin.lock.expires
    obj 0x1300 1 0x04 5 .wo 1 .never 0 0 0 18446744073709551615 0,  -- mabin.local.cmd
    obj 0x1300 1 0x05 5 .ro 0 .fn 0 0 0 18446744073709551615 0,  -- mabin.local.result
    obj 0x1300 1 0x06 4 .ro 0 .soft 0 0 0 4294967295 0,  -- mabin.staged.items
    obj 0x8800 1 0x01 9 .ro 0 .block 9216 8 0 0 0,  -- cnt.value
    obj 0x8800 1 0x02 4 .wo 1 .never 0 0 0 9215 0,  -- cnt.overflow.clear
    obj 0x8800 1 0x03 1 .rw 2 .chip 0 0 0 1 0,  -- cnt.soft.keep
    obj 0x8810 1 0x01 9 .rw 1 .chip 256 32 0 0 0,  -- cnt.filter.select
    obj 0x8810 1 0x02 8 .rw 1 .chip 0 0 16 16 0,  -- cnt.filter.chain
    obj 0x8810 1 0x03 9 .ro 0 .kept 256 8 0 0 0,  -- cnt.filter.value
    obj 0x8820 1 0x01 3 .rw 1 .chip 0 0 0 65535 4000,  -- cnt.dump.period
    obj 0x8820 1 0x02 3 .rw 1 .chip 0 0 0 65535 0,  -- cnt.dump.entry_every
    obj 0x8820 1 0x03 5 .ro 0 .kept 0 0 0 18446744073709551615 0,  -- cnt.dump.sequence
    obj 0x8830 1 0x01 9 .ro 0 .block 262144 16 0 0 0,  -- cnt.entry.tcam
    obj 0x8830 1 0x02 9 .ro 0 .block 262144 16 0 0 0,  -- cnt.entry.exact
    obj 0x8830 1 0x03 9 .ro 0 .block 65536 48 0 0 0,  -- cnt.police
    obj 0x9000 1 0x01 4 .wo 2 .never 0 0 0 4294967295 0,  -- reset.cmd
    obj 0x9000 1 0x02 4 .ro 0 .never 0 0 0 4294967295 0,  -- reset.last
    obj 0x9000 1 0x03 2 .ro 0 .never 0 0 0 255 0,  -- reset.boot.status
    obj 0x9000 1 0x04 8 .wo 0 .never 0 0 0 65535 0,  -- reset.boot.image
    obj 0x9000 1 0x05 9 .ro 0 .chip 8 4 0 0 0,  -- reset.pipe.discarded
    obj 0x9010 1 0x01 9 .rw 2 .chip 3 2 0 0 40,  -- power.warn.level
    obj 0x9010 1 0x02 9 .ro 0 .chip 3 1 0 0 0,  -- power.supply.state
    obj 0x9010 1 0x03 9 .ro 0 .chip 3 2 0 0 0,  -- power.supply.mv
    obj 0x9010 1 0x04 9 .ro 0 .chip 3 4 0 0 0,  -- power.dips
    obj 0x9010 1 0x05 2 .rw 2 .chip 0 0 0 255 0,  -- power.pipe.off
    obj 0x9010 1 0x06 9 .ro 0 .chip 8 1 0 0 0,  -- power.pipe.state
    obj 0x9020 1 0x01 1 .wo 2 .never 0 0 0 1 0,  -- debug.freeze
    obj 0x9020 1 0x02 9 .rw 2 .chip 8 2 0 0 0,  -- debug.freeze.on
    obj 0x9020 1 0x03 8 .ro 0 .power 0 0 64 64 0,  -- debug.freeze.capture
    obj 0x9030 1 0x01 9 .ro 0 .power 64 80 0 0 0,  -- event.log
    obj 0x9030 1 0x02 5 .rw 1 .power 0 0 0 18446744073709551615 0,  -- event.log.ack
    obj 0x9030 1 0x03 4 .ro 0 .power 0 0 0 4294967295 0,  -- event.log.overwritten
    obj 0x9040 1 0x01 4 .wo 2 .never 0 0 0 4294967295 0,  -- fault.release
    obj 0x9040 1 0x02 9 .ro 0 .chip 64 4 0 0 0]  -- fault.frozen

/-- The object tables of the dictionary (R15, R545). -/
def objRows : List ObjRow :=
  objRows1 ++ objRows2 ++ objRows3 ++ objRows4 ++ objRows5 ++ objRows6 ++ objRows7 ++ objRows8

/-- Bits that a write keeps, by base index, instances and subindex; the others are reserved
and read as zero (R13). -/
def keepMasks : List (Nat × Nat × Nat × Nat) :=
  [(0x2900, 1, 0x01, 0xF80FFFFF),
   (0x2900, 1, 0x02, 0xF80FFFFF),
   (0x2900, 1, 0x03, 0xF80FFFFF),
   (0x4100, 134, 0x01, 0x3FF),
   (0x4100, 134, 0x03, 0xFFF80FFF),
   (0x4B00, 8, 0x02, 0xFFFFFFFFFFFFFFFFFFFFFFFFFFFFFFFFFEFFFFFFFFFFF0008000000000000000),
   (0x4C00, 1, 0x01, 0xFFFFE00000000000FFFFFFFFFFFFFFFFFFFFFFFFFFFFFFFFFFFFE00000000000FFFFFFFFFFFFFFFFFFFFFFFFFFFFFFFFFFFFE00000000000FFFFFFFFFFFFFFFFFFFFFFFFFFFFFFFFFFFFE00000000000FFFFFFFFFFFFFFFFFFFFFFFFFFFFFFFF),
   (0x1500, 1, 0x05, 0x3),
   (0x1500, 1, 0x06, 0xFFFFFFFFFFFFFFFFFFFFFFFFFFFFFFFF03),
   (0x1500, 1, 0x07, 0xFFFFFFFFFFFFFFFF),
   (0x1100, 1, 0x06, 0xFFFFFFFFFFFFFFFFFFFFFFFFFFFFFFFF00),
   (0x5010, 1, 0x01, 0xF0FFFFFF0000000007FF003F07FF003F07FF003F07FF003F07FF003F07FF003F07FF003F07FF003F07FF003F07FF003F07FF003F07FF003F07FF003F07FF003F07FF003F07FF003F),
   (0x5800, 1, 0x09, 0xFFFF0000FFFFFFFFFFFFFFFFFFFFFFFFFFFFFFFFFFFFFFFFFFFFFFFFFFFFFFFFFFFFFFFFFFFFFFFFFFFFFFFFFFFFFFFFFFFFFFFFFFFFFFFFFFFFFFFFFFFFFFFFFFFFFFFFFFFFFFFFFFFFFFFFFFFFFFFFFFFFFFFFFFFFFFFFFFFFFFFFFFFFFFFFFFFFFFFFFFFFFFFFFFFFFFFFFFFFFFFFFFFFFFFFFFFFFFFFFFFFFFFFFFFFFFFFFFFFFFFFFFFFFFFFFFFFFFFFFFFFFFFFFFFFFFFFFFFFFFFFFFFFFFFFFFFFFFFFFFFFFFFFFFFFFFFFFFFFFFFFFFFFFFFFFFFFFFFFFFFFFFFFFFFFFFFFFFFFFFFFFFFFFFFFFFFFFFFFFFFFFFFFFFFFFFFFFFFFFFFFFFFFFFFFFFFFFFFFFFFFFFFFFFFFFFFFFFFFFFFFFFFFFFFFFFFFFFFFFFFFFFFFFFFFFFFFFFFFFFFFFFFFFFFFFFFFFFFF),
   (0x5030, 1, 0x01, 0xFFFFFFFFE0000000FF00000000000000),
   (0x5050, 1, 0x01, 0xF80FFFFF00000000),
   (0x5050, 1, 0x02, 0xFFFFFFFFFFFFFFFFFFFFFFFFFFFFFFFFFFFFE007FF0000000000000000000000),
   (0x5060, 1, 0x01, 0xFF000000FFFF7FFFFFFF7FFFFFFF7FFFFFFF7FFFFFFF7FFFFFFF7FFFFFFF7FFFFFFF7FFFFFFF7FFFFFFF7FFFFFFF7FFFFFFF7FFFFFFF7FFFFFFF7FFFFFFF7FFF),
   (0x6400, 32, 0x01, 0xFFFFFFFF),
   (0x6800, 1, 0x03, 0x7FF0000FFFFFFFFFFFFFFFFFFFFFFFFFFFFFFFF00000000),
   (0x7000, 1, 0x01, 0xFFFFFFFFFFFFFFE0FFFFFFFFFFFFFFFF),
   (0x7000, 1, 0x02, 0xFFFFFFFFFFFFFFE0FFFFFFFFFFFFFFFF),
   (0x7000, 1, 0x03, 0xFFFFFFFFFFFFFFE0FFFFFFFFFFFFFFFF),
   (0x7000, 1, 0x04, 0xFFFFFFFFFFFFFFE0FFFFFFFFFFFFFFFF),
   (0x7000, 1, 0x07, 0x83FF),
   (0x7000, 1, 0x08, 0x80FF),
   (0x7100, 136, 0x01, 0xDFFF1FFF),
   (0x7200, 130, 0x05, 0xFFFFFFFFFF),
   (0x7400, 1, 0x01, 0xE03F0000FFFFFFFFFFFFFFFFFFFFFFFFFFFFFFFF000000000000000000000000),
   (0x7810, 1, 0x01, 0xFBFFFF00FFFFFFFFFFFFFFFFFFFFFFFFFFFFFFFFFFFFFFFF0000000000000000),
   (0x7820, 1, 0x01, 0xFCFF0000FFFFFFFFFFFFFFFF00000000),
   (0x6C00, 1, 0x04, 0xEFFFFFFF),
   (0x6C10, 1, 0x03, 0xEFFFFFFF),
   (0x6C20, 1, 0x03, 0xEFFFFFFF),
   (0x8010, 64, 0x01, 0xFFFFFFFFFFFFFFFF000000000000007F),
   (0x8010, 64, 0x02, 0x7FF0FFF),
   (0x8100, 1, 0x01, 0xFFFFFFFFFFFFFFFFFF007FFFFFFFFF00FFFFFFFFFFFFFFFF000000000000003F),
   (0x8100, 1, 0x02, 0xFFFFFFFFFFFFFFFFFF007FFFFFFFFF00FFFFFFFFFFFFFFFF000000000000003F),
   (0x8100, 1, 0x04, 0xFFFFFFFFFFFFFFFFFF007FFFFFFFFF00FFFFFFFFFFFFFFFF000000000000003F),
   (0x8100, 1, 0x05, 0xFFFFFFFFFFFFFFFFFF007FFFFFFFFF00FFFFFFFFFFFFFFFF000000000000003F),
   (0x8100, 1, 0x06, 0xFFFFFFFFFFFFFFFFFF007FFFFFFFFF00FFFFFFFFFFFFFFFF000000000000003F),
   (0x8100, 1, 0x07, 0xFFFFFFFFFFFFFFFFFF007FFFFFFFFF00FFFFFFFFFFFFFFFF000000000000003F),
   (0x3100, 130, 0x05, 0x7FF),
   (0x6100, 136, 0x05, 0xFFFFFF),
   (0x7000, 1, 0x09, 0xC001FFFF),
   (0x8810, 1, 0x01, 0xFF0FFF00FFFFFF00FFFFFFFFFFFFFFFFFFFFFFFFFFFFFFFF0000000000000000)]

def findRow (idx sub : Nat) : List ObjRow → Option ObjRow
  | [] => none
  | r :: t =>
    if r.sub = sub then if r.base ≤ idx then if idx < r.base + r.insts then some r
    else findRow idx sub t else findRow idx sub t else findRow idx sub t

/-- The object at index.sub (R545); none for an absent one (R550). -/
def lookupObj (idx sub : Nat) : Option ObjRow := findRow idx sub objRows

/-- The lowest row of a table: some count from 1 (R171, R354). -/
def firstRow (idx sub : Nat) : Nat :=
  if (idx = 0x4C00 || idx = 0x5060) && sub = 1 then 1 else 0

/-- A table has a row of this number. -/
def hasRow (r : ObjRow) (idx row : Nat) : Bool :=
  decide (firstRow idx r.sub ≤ row) && decide (row < r.rows)

def findMask (idx sub : Nat) : List (Nat × Nat × Nat × Nat) → Option Nat
  | [] => none
  | (b, n, s, m) :: t =>
    if s = sub then if b ≤ idx then if idx < b + n then some m
    else findMask idx sub t else findMask idx sub t else findMask idx sub t

/-- A value as it is kept: reserved bits cleared (R13, R647). -/
def keptValue (idx sub : Nat) (v : Bytes) : Bytes :=
  match findMask idx sub keepMasks with
  | none => v
  | some m => bytesOf v.length (natOf v &&& m)

/-- Bits of action words that are kept (R161). -/
def actionMask : Nat := 0xFEFFFFFFFFFFF000

/-- A row of `search.tcam` of w units as it is kept: its valid bit, values and masks but for the slot
field, action words (R180). -/
def keptTcam (w : Nat) (v : Bytes) : Bytes :=
  let keys := 2 ^ (80 * w - 4) - 1
  let actions := (List.range w).foldl (fun n _ => n * 2 ^ 64 + actionMask) 0
  let head := 2 ^ 31
  let m := ((((head * 2 ^ (80 * w) + keys) * 2 ^ (80 * w) + keys) * 2 ^ (64 * w) + actions)
    * 2 ^ (8 * (4 * w - 4)))
  bytesOf v.length (natOf v &&& m)

/-- A value or a table row as it is kept: reserved bits cleared (R13, R153, R180). -/
def keptRow (idx sub row : Nat) (v : Bytes) : Bytes :=
  if 0x4900 ≤ idx && idx < 0x4910 then bytesOf v.length (natOf v &&& (if row = 0 then 3 else 0x07FF003F))
  else if 0x4B00 ≤ idx && idx < 0x4B08 && sub = 1 then keptTcam (v.length / 32) v
  else keptValue idx sub v

/-- Row of an object that is not a TABLE (R202). -/
def noRow : Nat := 0xFFFFFFFF

def keyOf (idx sub row : Nat) : Key := (idx * 256 + sub) * 2 ^ 32 + row
def keyIdx (k : Key) : Nat := k / 2 ^ 40
def keySub (k : Key) : Nat := k / 2 ^ 32 % 256
def keyRow (k : Key) : Nat := k % 2 ^ 32

/-- Bytes of a value of a kind (R546). -/
def kindSize (k : Nat) : Nat :=
  if k = 1 then 1 else if k = 2 then 1 else if k = 3 then 2 else if k = 5 then 8
  else if k = 7 then 8 else 4

/-- Default on-chip buffers of a pool (R394). -/
def poolDefault (p : Nat) : Nat := [16384, 8192, 8192, 4096, 2048, 1024, 512, 256].getD p 0

/-- Default requester row: prio, wait_limit, slack (R506, R507). -/
def reqDefault (prio wait slack : Nat) : Bytes := bytesOf 4 (prio * 2 ^ 29 + wait * 65536 + slack)

/-- Default node row: weight 1, a priority (R433, R434). -/
def nodeDefault (prio : Nat) : Bytes := bytesOf 16 (prio * 2 ^ 69 + 1)

/-- The default of a value: empty for a table row that is not present at reset (R202, R549). -/
def defaultOf (r : ObjRow) (idx row : Nat) : Bytes :=
  let n := idx - r.base
  let k := r.base * 256 + r.sub
  if r.kind = 9 then
    if k = 0x680001 then (if row < 8 then bytesOf 4 (poolDefault row) else [])
    else if k = 0x680002 then (if row < 8 then bytesOf 4 (poolDefault row) else [])
    else if k = 0x688002 then (if row < 8 then bytesOf 4 0 else [])
    else if k = 0x688003 then (if row < 8 then bytesOf 4 0xFFFFFFFF else [])
    else if k = 0x6C0004 then
      (if row = 0 then reqDefault 7 0 1 else if row = 1 then reqDefault 6 0 1
       else if row = 2 then reqDefault 2 256 8192 else [])
    else if k = 0x6C1003 then
      (if row < 8192 then reqDefault 4 64 2048 else if row < 8197 then reqDefault 5 16 512
       else if row < 8200 then reqDefault 0 0 65535 else [])
    else if k = 0x6C2003 then
      (if row < 16 then reqDefault 6 8 1024 else if row < 4112 then reqDefault 3 64 16384 else [])
    else if k = 0x700001 then (if row < 65536 then nodeDefault (row % 8) else [])
    else if k = 0x700002 then (if row < 8192 then nodeDefault 0 else [])
    else if k = 0x700003 then (if row < 1024 then nodeDefault 0 else [])
    else if k = 0x700004 then (if row < 136 then nodeDefault 0 else [])
    else if k = 0x700007 then
      (if row < 136 then bytesOf 2 (0x8000 + row) else if row < 8192 then bytesOf 2 0 else [])
    else if k = 0x700008 then
      (if row < 136 then bytesOf 2 (0x8000 + row) else if row < 1024 then bytesOf 2 0 else [])
    else if k = 0x801001 then (if n = 0 then if row = 0 then bytesOf 16 64 else [] else [])
    else if k = 0x901001 then (if row < 3 then bytesOf 2 40 else [])
    else if k = 0x902002 then (if row < 8 then bytesOf 2 0 else [])
    else []
  else if r.kind = 8 then
    if k = 0x150006 then zeros 16 ++ [3]
    else if k = 0x610006 then (List.range 64).map fun d => BitVec.ofNat 8 (d / 8)
    else if k = 0x500006 then bytesOf 8 0x4B319E072C556412 ++ bytesOf 8 0x0D3A71F298C46412
      ++ bytesOf 8 0x67E20B5DA4196412
    else zeros r.lo
  else if k = 0x310004 then (if n < 128 then [1] else [2])
  else if k = 0x710002 then bytesOf 2 n
  else if k = 0x801002 then (if n = 0 then bytesOf 4 2048 else bytesOf 4 0)
  else bytesOf (kindSize r.kind) r.dflt

/-- The default at index.sub and row. -/
def defaultAt (idx sub row : Nat) : Bytes :=
  match lookupObj idx sub with
  | none => []
  | some r => defaultOf r idx row

/-- The row numbers that a table's default holds (R202). -/
def defaultRows (r : ObjRow) (idx : Nat) : Nat :=
  let k := r.base * 256 + r.sub
  if k = 0x801001 then (if idx = r.base then 1 else 0)
  else if r.kind = 9 then (if defaultOf r idx 0 = [] then 0 else r.rows)
  else 0

end Sys2Proof.Machine
end

