-- ==== Sys2Proof/Machine/State.lean ====
section
/-! DEFINITION. The state of the Scaver 6412 as plain data: every register, queue, table, buffer,
counter, mode and pin that the manual gives it, the queue of waiting commands, and the state right
after reset. Structures follow the manual's chapters. A table that holds nothing stands for every
instance at its initial value. -/

namespace Sys2Proof.Machine

/-! ## The whole part (R601 to R617) -/

/-- What the part as a whole is doing (R601, R606, R608, R611, R614; register 0x03 of R630). -/
inductive RunState where
  /-- POWER or CHIP reset taken; the boot of R606 has not run. -/
  | inReset
  /-- CHIP reset held by a supply below its reset level (R611). -/
  | supplyHeld
  /-- The boot ROM waits for firmware over PCIe or has stopped (R607, R608). -/
  | bootStopped
  | running
  /-- Frozen for readout (R614). -/
  | frozen
  deriving DecidableEq, Repr

/-- The fuses (R308, R560, R576): they survive every reset. -/
structure Fuses where
  /-- Enrolled key hashes by slot 1 to 4. -/
  slots : Tbl Bytes
  /-- Slots revoked for good. -/
  revoked : List Nat
  deriving DecidableEq, Repr

/-- A fuse word waiting for, or in, programming (R308, R610): the slot, the hash (empty for a
revocation) and the value that a failing read-back shows. -/
structure FuseJob where
  slot : Nat
  hash : Bytes
  badRead : Option Nat
  deriving DecidableEq, Repr

/-- One event record (R540): code, source, tick, beat and carried values. -/
structure Event where
  code : Nat
  source : Nat
  tick : Nat
  beat : Nat
  values : List Nat
  deriving DecidableEq, Repr

/-- One row of the event log (R618): the record, TB0's reading as TIME64, the sequence number. -/
structure LogRow where
  event : Event
  tb0 : Nat
  seq : Nat
  deriving DecidableEq, Repr

/-- One supply monitor (R609 to R611). -/
structure Supply where
  /-- 0 normal, 1 in its warning; that it is recovering (R622) follows from its reading. -/
  state : Nat
  /-- The sample of its last dip, and the beat of that sample. -/
  mv : Nat
  dipBeat : Option Nat
  dips : Nat
  deriving DecidableEq, Repr

/-- What leaves the part: frames on a wire, writes to host memory, answers, interrupts, I2C
bytes. The model's own record of it, oldest first (log entry 4). -/
inductive Output where
  | frame (node : Nat) (startBeat : Nat) (bytes : Bytes) (stomped : Bool)
  | flowControl (node : Nat) (bytes : Bytes)
  | dma (fn : Nat) (address : Nat) (bytes : Bytes)
  | msix (vector : Nat)
  | mabin (sess : Nat) (path : MabinPath) (bytes : Bytes)
  | diverted (node : Nat) (bytes : Bytes)
  | i2c (bytes : Bytes)
  | barRead (value : Nat)
  | mbox (bytes : Bytes)
  | copy (ring : Nat) (bytes : Bytes)
  | pulse (pin : Nat) (level : Bool)
  deriving DecidableEq, Repr

/-! ## Versions (R181 to R210) -/

/-- One image of a version: the clusters it is loaded into and its bytes (R305, R310). -/
structure Image where
  clusters : Nat
  raw : Bytes
  deriving DecidableEq, Repr

/-- The content of a version: its number, its staged objects that differ from their defaults, its
images, and the side that it names for each cluster (bit c; R299). -/
structure VerCfg where
  num : Nat
  cfg : Tbl Bytes
  images : List Image
  sides : Nat
  deriving DecidableEq, Repr

/-- The states of a version slot (R185). -/
inductive SlotState where
  | free
  | preparing
  | current
  | draining
  deriving DecidableEq, Repr

/-- One of the four version slots. -/
structure Slot where
  state : SlotState
  ver : VerCfg
  deriving DecidableEq, Repr

/-- Where the preparation of one pipe stands (R195, R173, R413). -/
structure Prep where
  /-- Next location of the pass in this pipe: unit u of bank b at 2048 b + u, then exact rows from 32,768 on;
  65,536 when the pass is done (R195). -/
  cursor : Nat
  /-- Next unit of the entry being written. -/
  unit : Nat
  /-- Banks whose width change has invalidated them (bit b). -/
  wiped : Nat
  /-- Rewrite sets and topology rows still to write in this egress half. -/
  egress : List Key
  deriving DecidableEq, Repr

/-- A sealed version that has not committed (R188 to R194). -/
structure Sealed where
  ver : VerCfg
  target : Nat
  /-- The tick after that of its sealing, and the tick after that of its reservation: its writes begin
  in the later one (R190). -/
  sealNext : Nat
  slot : Option Nat
  reserveNext : Nat
  /-- Deferral causes met, cause c in bit c - 1 (R191, R210). -/
  causes : Nat
  prep : Tbl Prep
  /-- Tick in which the last write completed. -/
  doneTick : Option Nat
  deriving DecidableEq, Repr

/-- A row of `version.history` (R210); the digest is that of the configuration kept beside it. -/
structure History where
  num : Nat
  slot : Nat
  causes : Nat
  target : Nat
  commitTick : Nat
  digest : Nat
  deriving DecidableEq, Repr

/-- The version machinery. -/
structure Versions where
  slots : List Slot
  current : Nat
  pending : List Sealed
  history : List History
  lastReject : Nat
  /-- The number that the next sealed version takes is the newest number plus one (R184). -/
  newest : Nat
  /-- The version that commits at the boundary in progress, taken by its first step. -/
  committedAt : Option Nat
  /-- The last comparison of R208: none, agreed or diverged. -/
  compared : Option Bool
  deriving DecidableEq, Repr

/-- A write that takes effect at a tick boundary (R204): the value, when it was received, and
the tick in which it was received. -/
structure Deferred where
  key : Key
  value : Bytes
  recvBeat : Nat
  recvTick : Nat
  deriving DecidableEq, Repr

/-! ## Ticks (R50 to R64) -/

inductive RmMode where
  | free
  | joining
  | locked
  deriving DecidableEq, Repr

/-- A key-store entry (R441). -/
structure KeyEnt where
  len : Nat
  salt : Bytes
  key : Bytes
  deriving DecidableEq, Repr

/-- One tick boundary of the recent past: what later home beats and aging decisions need of it
(R59, R247, R257, R351). -/
structure Bound where
  beat : Nat
  tick : Nat
  ver : VerCfg
  /-- The ringmaster was LOCKED in the tick that the boundary begins, and the time-base value of
  the start of its second. -/
  locked : Bool
  sec : Nat
  /-- `tick.source` at the boundary (R351). -/
  source : Nat
  /-- Values of the objects of R261 from this boundary on: age enable, age limit, max moves,
  search buckets, quarantine auto. -/
  flow : List Nat
  /-- The RW values and the keys in force from this boundary on (R204, R422, R445, R458). -/
  objs : Tbl Bytes
  keys : Tbl KeyEnt
  deriving DecidableEq, Repr

/-- The ringmaster (R52 to R60). -/
structure Ringmaster where
  mode : RmMode
  tick : Nat
  boundaryBeat : Nat
  beatsLast : Nat
  /-- Tick rate in force. -/
  rate : Nat
  /-- FREE: start of free running and number of the next boundary (R55). -/
  b0 : Nat
  k : Nat
  /-- LOCKED: seconds and ticks of the next boundary value (R53). -/
  j : Nat
  kk : Nat
  /-- The next LOCKED boundary is not before this beat (R56, R58). -/
  notBefore : Nat
  /-- A case of R57 arose in this tick. -/
  lost : Bool
  /-- Work of the boundary in progress that is still to do: 1 beacon, 3 idle export
  tasks, 16 + n the object notifications of session n. -/
  todo : List Nat
  bounds : List Bound
  deriving DecidableEq, Repr

/-! ## Frames and packets (R29 to R31, R116 to R148, R158 to R178, R285 to R287) -/

/-- A decision of pass 1 or of a commit (R144, R162, R286). -/
structure Decision where
  /-- 0 none, 1 EXPRESS, 2 FLOW, 3 DROP, 4 HOST, 5 FORWARD (default or verdict). -/
  kind : Nat
  ptp : Bool
  port : Nat
  queue : Nat
  rset : Nat
  ring : Nat
  profile : Nat
  /-- Reason of R527 for a host ring, or of R286 for a DROP. -/
  reason : Nat
  /-- Row of the entry counters that decided, if an entry did (R160). -/
  entry : Option Nat
  deriving DecidableEq, Repr

/-- Where a packet stands. -/
inductive Stage where
  /-- Head seen, decision made, tail not yet arrived. -/
  | receiving
  /-- Waits in its ingress half's holding queue (R80). -/
  | holding
  /-- Crossing to, or in the input buffer of, its home half. -/
  | crossing
  /-- Admitted; its commit step has not run. -/
  | admitted
  /-- On its way to the egress half. -/
  | toEgress
  /-- In its output queue. -/
  | queued
  | sending
  /-- Discarded; its cells wait only for its tail (R361). -/
  | gone
  deriving DecidableEq, Repr

/-- The flow-path part of a packet (R31, R216, R232 to R237, R285). -/
structure FlowPart where
  profile : Nat
  dbl : Bool
  key : Bytes
  home : Nat
  /-- Admission home beat. -/
  h : Nat
  /-- Global cluster, or none when no cluster was in rotation (R314). -/
  cluster : Option Nat
  /-- Words W0 to W31. -/
  out : Tbl Word64
  complete : Bool
  /-- Beat from which the output is complete in the resequencer (R291). -/
  doneAt : Nat
  /-- The output has left the resequencer for the commit join (R292). -/
  joined : Bool
  /-- The cluster trapped after the dispatch and before the commit (R313). -/
  trapped : Bool
  /-- Verification: 0 none, 1 on its path, 2 passed, 3 failed, 4 waiting for its turn on the path (R353, R459). -/
  verify : Nat
  verifyDue : Nat
  deriving DecidableEq, Repr

/-- The egress part of a packet. -/
structure OutPart where
  qid : Nat
  /-- Bound templates in the layout of R171, in order. -/
  edits : List Nat
  cut : Bool
  /-- Bytes charged at the start (R420), and to what: nodes on the path, with their CIR and PIR
  buckets where those were charged. -/
  charged : Nat
  path : List (Nat × Bool × Bool)
  startBeat : Nat
  endBeat : Nat
  /-- The frame as it is sent, FCS included. -/
  sent : Bytes
  stomped : Bool
  te : Nat
  /-- The time base that te was read from, once the frame has started (R489). -/
  teTb : Option Nat
  teValid : Bool
  /-- Flow hint: the place of the packet's record (R526). -/
  hint : Nat
  deriving DecidableEq, Repr

/-- What the packet owes to a transmit ring (R528 to R531). -/
structure TxInfo where
  ring : Nat
  count : Nat
  ts : Bool
  onestep : Bool
  tref : Nat
  cookie : Nat
  fetched : Nat
  status : Nat
  deriving DecidableEq, Repr

/-- Pass 1 of a packet that has not entered it: the beat of its entry once its beat of arrival is over, what its
exact bucket holds, the port node and queue class of a DIRECT frame, and whether its SecTAG was verified. -/
structure Search where
  entry : Option Nat
  exactEcc : Ecc
  direct : Option (Nat × Nat)
  macsec : Bool
  deriving DecidableEq, Repr

structure Pkt where
  id : Nat
  node : Nat
  cls : Nat
  vslot : Nat
  vnum : Nat
  /-- The frame as received, FCS included. -/
  bytes : Bytes
  inBeat : Nat
  tailBeat : Nat
  tick : Nat
  /-- The receive stamp and its beat (R484). -/
  stampBeat : Nat
  stampNs : Nat
  stampFrac : Nat
  stampTb : Nat
  stampValid : Bool
  /-- The 192-byte packet vector (R130). -/
  vec : Bytes
  /-- The vector as the tail completes it (R117, R134). -/
  full : Bytes
  /-- Exceptions raised (bits of byte 131), in parse order, and the value for `parse.exc.last`. -/
  exc : List Nat
  excWord : Nat
  policy : Nat
  tailDone : Bool
  /-- 0 good, 1 FCS, 2 runt, 3 oversize (R96). -/
  bad : Nat
  dec : Decision
  policer : Option Nat
  /-- 0 not judged, 1 green, 2 yellow, 3 red (R425). -/
  colour : Nat
  /-- The search that waits for the packet's pass-1 entry (R82). -/
  search : Option Search
  /-- Its phase within the beat of arrival puts its start at an egress MAC a beat later (R82). -/
  lateStart : Bool
  /-- Session, length, ring and number of the selection that a mirror session made (R385, R388). -/
  mirror : Option (Nat × Nat × Nat × Nat)
  /-- Entries that counted a hit (R160). -/
  hits : List Nat
  /-- Cells taken for the bytes that have arrived, and those given back as the frame is sent (R360, R361). -/
  cells : Nat
  given : Nat
  stage : Stage
  /-- The beat at which the next stage may begin. -/
  due : Nat
  /-- The packet still holds its version slot (R186). -/
  holds : Bool
  flow : FlowPart
  out : OutPart
  tx : Option TxInfo
  deriving DecidableEq, Repr

/-- A mirror or sample copy (R386 to R390). -/
structure Copy where
  id : Nat
  sample : Bool
  session : Nat
  ring : Nat
  /-- Header of R388 with formatted 0, then the copied bytes. -/
  header : Bytes
  body : Bytes
  record : Bytes
  /-- Words of its first write-back (R526). -/
  words : List Nat
  /-- Waits for the record of its formatting task until this beat, one tick after the task was queued (R389). -/
  waitUntil : Option Nat
  cells : Nat
  deriving DecidableEq, Repr

/-! ## Ports and lanes (R87 to R115, R364 to R384) -/

/-- The timer that a port in bring-up runs, with its beat. -/
inductive PortTimer where
  | none
  | step (beat : Nat)
  | train (beat : Nat)
  | lock (beat : Nat)
  | kept (beat : Nat)
  | restart (beat : Nat)
  deriving DecidableEq, Repr

/-- A staged MACsec frame that waits for its delivery (R446 to R449). -/
structure Staged where
  frame : Bytes
  cells : Nat
  due : Nat
  /-- The stamp taken before the receive path, and its beat (R484). -/
  stampBeat : Nat
  stampNs : Nat
  stampFrac : Nat
  stampTb : Nat
  stampValid : Bool
  /-- The association that verified the frame, if it was protected. -/
  sa : Option Nat
  deriving DecidableEq, Repr

/-- The gate list in operation on a port (R428 to R432). -/
structure Gate where
  running : Bool
  version : Nat
  /-- The objects of the list in operation. -/
  tb : Nat
  cycle : Nat
  list : List Nat
  entry : Nat
  /-- Time-base value of the start of the cycle and of the next instant. -/
  cycleStart : Nat
  next : Nat
  /-- A new list and the change time at which it starts. -/
  change : Option (Nat × Nat × Nat × Nat × List Nat)
  lost : Bool
  deriving DecidableEq, Repr

structure Port where
  /-- R101. -/
  state : Nat
  timer : PortTimer
  failCause : Nat
  lastChange : Nat
  modeActive : Nat
  fecActive : Nat
  /-- Mode and FEC of the bring-up in progress (R98, R102). -/
  mode : Nat
  fec : Nat
  skew : Nat
  /-- Faults that hold a locked port in LOCK: high-BER [0], local [1], remote [2] (R94). -/
  faults : Nat
  /-- The coefficients in use have been trained since the bring-up began (R113). -/
  trained : Bool
  /-- Trained coefficients kept through DEEP (R111). -/
  kept : Bool
  /-- End of the exit time of a return from DEEP (R113). -/
  exitBy : Option Nat
  lpi : Bool
  /-- R380. -/
  link : Nat
  holdEnd : Nat
  flushed : Nat
  /-- Ingress nodes and classes held at XOFF by the flush (R382). -/
  flushHold : List (Nat × Nat)
  /-- End of the received pause of each queue class (R369). -/
  pauseEnd : Tbl Nat
  /-- The x of each class in the last pause or PFC frame that the MAC sent or has to send, the frames that wait for it
  (the x of the classes that share one, oldest first), and the beat of each class's next repeat (R368). -/
  told : Tbl Nat
  fcQ : List (Tbl Nat)
  repeatAt : Tbl Nat
  frozen : Bool
  frozenCls : Nat
  /-- Refuses frames under a SOFT or PIPE reset (R603, R605). -/
  refusing : Bool
  rx : Option Nat
  /-- The frame being received comes from the MACsec staging cells, whole (R446). -/
  rxWhole : Bool
  tx : Option Nat
  gate : Gate
  staging : List Staged
  /-- Values that objects of `ptp.port` had, newest first: the last beat each was in force, sub-index, value (R496). -/
  ptpPast : List (Nat × Nat × Nat)
  excLast : Nat
  deriving DecidableEq, Repr

structure Lane where
  coeffs : Nat
  /-- R111. -/
  power : Nat
  cdrLock : Bool
  cdrPpm : Nat
  busy : Bool
  done : Bool
  offset : Nat
  errors : Nat
  /-- Blocks of the window that runs, and the beat in which its last one is in (R109). -/
  window : Nat
  windowEnd : Nat
  deriving DecidableEq, Repr

/-- The charges of one ingress port node by class (R365). -/
structure Acct where
  p : Tbl Nat
  s : Tbl Nat
  r : Tbl Nat
  x : Tbl Nat
  deriving DecidableEq, Repr

/-- Buckets and round robin of one scheduling node (R417 to R421). -/
structure Node where
  cir : Int
  pir : Int
  deficit : Nat
  pointers : Tbl Nat
  deriving DecidableEq, Repr

/-- A queued write of R435: the node (level * 2^17 + index), the row, or none for
`sched.clear_debt`, and the row in force until it applies. -/
structure SchedWrite where
  node : Nat
  row : Option Bytes
  old : Bytes
  deriving DecidableEq, Repr

/-- Buckets of one TCAM-indexed policer (R425). -/
structure Policer where
  tc : Nat
  te : Nat
  last : Nat
  deriving DecidableEq, Repr

/-! ## Home halves (R212 to R261) -/

/-- The place of a record: a global slot address or a stash entry; or a slot whose record waits, beside the record
area, for the moves that still carry an earlier occupant through it (R237, R243). -/
inductive Place where
  | slot (a : Nat)
  | stash (i : Nat)
  | early (a : Nat)
  deriving DecidableEq, Repr

/-- A stash entry (R220, R235, R240). -/
structure Stash where
  idx : Nat
  profile : Nat
  dbl : Bool
  key : Bytes
  fp : Nat
  b1 : Nat
  b2 : Nat
  /-- The record; zeros while no step has created it. -/
  data : Bytes
  /-- Claim order, drain order, tick in which its plan was skipped. -/
  order : Nat
  drain : Nat
  skipped : Option Nat
  /-- In the lookup view (R242). -/
  seen : Bool
  deriving DecidableEq, Repr

/-- A TENTATIVE claim: the home beat that made it, its place, its key and the home beats of its
holders (R236, R248). -/
structure Claim where
  h : Nat
  place : Place
  profile : Nat
  key : Bytes
  holders : List Nat
  deriving DecidableEq, Repr

/-- The pins of a hot-cache entry (R231). -/
inductive Pin where
  | none
  /-- A later commit step fills it. -/
  | pending
  /-- Its HBM write has not landed. -/
  | write
  deriving DecidableEq, Repr

/-- A hot-cache entry: the slot (a double record takes two of the 65,536 entries), its pin and its
use. What it holds is the record as the commit steps have written it. -/
structure Cached where
  slot : Nat
  dbl : Bool
  pin : Pin
  used : Nat
  deriving DecidableEq, Repr

/-- One HBM read (R79, R233, R243, R252, R497). -/
structure Read where
  id : Nat
  /-- Home beat of its position; for an idle access, the beat. -/
  h : Nat
  slot : Nat
  bytes : Nat
  /-- Companion or bulk area (R213). -/
  area : Nat
  /-- 0 packet read, 9 commit-step write, else 1 + requester of the HBM background arbiter. -/
  requester : Nat
  /-- The first beat in which it may be issued (R233). -/
  after : Nat
  issued : Bool
  landed : Bool
  bad : Bool
  issueBeat : Nat
  deriving DecidableEq, Repr

/-- A table command or a command-window write (R251, R255, R343). -/
structure Cmd where
  count : Nat
  /-- Beat in which it was submitted. -/
  recv : Nat
  /-- First tick whose window may run it. -/
  tick : Nat
  /-- 0 command body; 1 quarantine release; 2 nat.release. -/
  kind : Nat
  /-- The part holds it: its element has been fetched (R537), and no FUNCTION reset has lost it (R541). -/
  held : Bool
  body : Bytes
  arg : Nat
  deriving DecidableEq, Repr

/-- What occupies a position of the home order (R229). -/
inductive Work where
  | packet (id : Nat)
  /-- A sweep step: the item, and the slots that held records at its admission step (plus 2^27
  for the first slot of a double record). -/
  | age (item : Nat) (slots : List Nat)
  /-- A move: source, destination slot, fingerprint, double, and the stash entry of its path. -/
  | move (src : Place) (dst fp : Nat) (dbl : Bool) (entry : Nat)
  /-- A scrub of a bucket; the slot that it tests, with the pattern written there (R252). -/
  | dscrub (bucket : Nat) (test : Option (Nat × Bytes))
  | hcmd (cmd : Cmd)
  | idle
  deriving DecidableEq, Repr

/-- A position between its admission step and its commit step. -/
structure Pos where
  h : Nat
  tick : Nat
  work : Work
  /-- Candidates whose reads have not been issued, in order (R233). -/
  cands : List Nat
  /-- Every candidate of an OPEN lookup. -/
  opens : List Nat
  /-- Where the lookup found the key. -/
  found : Option Place
  /-- 0 no lookup, 1 KNOWN HIT, 2 CLEAN MISS, 3 OPEN (R232), 4 a packet's miss at a bucket that waits for its rebuild
  (R254). -/
  outcome : Nat
  overflow : Bool
  /-- The step cannot learn (R250, R254). -/
  noLearn : Bool
  /-- Slots whose landed read was bad, with the cause of R250. -/
  badSlots : List (Nat × Nat)
  /-- Buckets that the commit step rebuilds (R254). -/
  rebuild : List Nat
  /-- Directory byte that a by_slot command's admission step found (R258). -/
  dirByte : Nat
  /-- The beat of its admission step (R499). -/
  adm : Nat
  /-- Status that an admission step has fixed for a command (R257), 0 none; for an idle
  position, 1 when its job did its work wholly in the admission step (R590); for a move, 2 when the record that it
  carries has ended with no holder (R243). -/
  status : Nat
  done : Bool
  deriving DecidableEq, Repr

/-- A relocation path (R241, R242): moves still to run, first to last. -/
structure Path where
  entry : Nat
  moves : List (Place × Nat × Nat)
  deriving DecidableEq, Repr

/-- An idle task (R295, R296, R389). -/
structure Task where
  kind : Nat
  arg : Nat
  data : Bytes
  /-- The copy that a sample-formatting task serves. -/
  copy : Option Nat
  /-- The pool buffer that the publishing step was granted for it (R404). -/
  granted : Option Nat
  deriving DecidableEq, Repr

/-- A companion-area access that waits for a COMP beat: the bytes of the record that it names, what it
writes there, or the cluster and its follow-on task that takes what it reads (R243, R296). -/
structure Comp where
  slot : Nat
  off : Nat
  len : Nat
  write : Option Bytes
  task : Option (Nat × Task)
  /-- The HBM request that carries it, once its beat has come (R497). -/
  read : Option Nat
  deriving DecidableEq, Repr

/-- A late placement remembered for H home beats (R237). -/
structure Late where
  profile : Nat
  key : Bytes
  place : Place
  expiry : Nat
  deriving DecidableEq, Repr

/-- A record that a commit step has put into a slot which an earlier occupant has left by a move that has not
committed: the home beat since which it is the slot's, its shape and bytes (R230, R237, R243). -/
structure Early where
  slot : Nat
  since : Nat
  dbl : Bool
  data : Bytes
  deriving DecidableEq, Repr

/-- A queued legacy TCAM write (R198, R199). -/
structure Legacy where
  bank : Nat
  entry : Nat
  row : Bytes
  recv : Nat
  tick : Nat
  /-- 0 not begun; 1 + units written. -/
  progress : Nat
  deriving DecidableEq, Repr

/-- One export data record waiting in a pipe's buffer (R354 to R356). -/
structure ExportRec where
  template : Nat
  data : Bytes
  deriving DecidableEq, Repr

/-- A table-command completion waiting on chip (R537). -/
structure Completion where
  body : Bytes
  count : Nat
  deriving DecidableEq, Repr

/-- The home, ingress and egress halves of one pipe. -/
structure Pipe where
  /-- 0 ON, 1 OFF, 2 WAKING (R622). -/
  power : Nat
  /-- A waking pipe's memories hold its share of every version (R613). -/
  wakeDone : Bool
  /-- A PIPE reset is in progress, and the boundary beat at which it or the pipe's waking began (R605,
  R613). -/
  resetting : Bool
  resetBeat : Nat
  refclkLost : Bool
  /-- Beat of the loss (R106). -/
  refclkAt : Nat
  /-- Beats of the last entries to pass 1 of the ingress half and to the egress half (R26). -/
  inEntry : Option Nat
  egEntry : Option Nat
  /-- Next home beat to execute (R65). -/
  h : Nat
  slip : Nat
  slipLongest : Nat
  /-- Beat of the last home beat executed, and how many were passed in it (R67). -/
  lastBeat : Nat
  passed : Nat
  pointer : Nat
  /-- Beats of the last carousel beats that the ingress and the egress half ran (R61, R69). -/
  ingLast : Option Nat
  egLast : Option Nat
  pos : List Pos
  stash : List Stash
  claims : List Claim
  path : Option Path
  late : List Late
  early : List Early
  nextOrder : Nat
  agePos : Nat
  ageStart : Nat
  agePass : Nat
  dscrub : Nat
  cache : List Cached
  cacheUse : Nat
  reads : List Read
  nextRead : Nat
  stashPeak : Nat
  /-- Ticks for which LEARN_OVERFLOW and NAT_EXHAUSTED have been raised (R238, R342). -/
  learnTicks : List Nat
  natTicks : List Nat
  occHigh : Bool
  stashHigh : Bool
  scrubPos : Nat
  legacy : List Legacy
  legacyApplied : Nat
  legacyTick : Nat
  exportQ : List ExportRec
  exportSeq : Nat
  idleExportQ : List ExportRec
  idleExportSeq : Nat
  /-- NAT: entries by address index * 65536 + port, and free lists by address index (R341). -/
  nat : Tbl Nat
  natFree : Tbl (List Nat)
  mirror : Tbl Nat
  mirrorSel : Tbl Nat
  cmds : List Cmd
  cpls : List Completion
  /-- The verify path is busy until this beat (R459). -/
  verifyFree : Nat
  /-- Companion accesses waiting for COMP beats: write data or read (R243, R296). -/
  comp : List Comp
  deriving DecidableEq, Repr

/-! ## Clusters and engines (R262 to R317) -/

/-- A result that lands in a register, a flag, the scratch or the output area (R270, R271). -/
inductive Landing where
  | reg (beat order r : Nat) (v : Word64)
  | flag (beat f : Nat) (v : Bool)
  | mem (beat addr : Nat) (bytes : Bytes)
  | out (beat w : Nat) (hi lo : Bool) (v : Word64)
  deriving DecidableEq, Repr

/-- What an engine runs. -/
inductive EngLoad where
  | none
  | packet (id : Nat)
  | idle (task : Task)
  deriving DecidableEq, Repr

structure Engine where
  load : EngLoad
  start : Nat
  pc : Nat
  lastPc : Nat
  next : Nat
  regs : Tbl Word64
  flags : Tbl Bool
  stack : List Nat
  /-- Context bytes 0 to 255 as loaded. -/
  ctx : Bytes
  out : Tbl Word64
  scratch : Tbl Byte
  pend : List Landing
  retiring : Bool
  freeAt : Nat
  vslot : Nat
  tick : Nat
  /-- Beat in which the last word issued. -/
  lastIssue : Option Nat
  deriving DecidableEq, Repr

/-- The load port of a cluster (R301): the version whose side it writes, and the writes of 32 bytes
done. -/
structure Load where
  num : Nat
  at_ : Nat
  deriving DecidableEq, Repr

structure Cluster where
  /-- 0 EMPTY or RUNNING by its image, 2 TRAPPED, 3 FROZEN (R318). -/
  state : Nat
  /-- The beat in which a trap arose: the cluster stops from the next beat (R312). -/
  trapBeat : Option Nat
  lastAccept : Option Nat
  /-- Unreleased packets in dispatch order. -/
  reseq : List Nat
  /-- Beat of the last release (R292). -/
  released : Option Nat
  idleQ : List Task
  engines : Tbl Engine
  trapInfo : Nat
  trapVector : Bytes
  /-- Control store: word a of side k at 4,096 k + a (R262, R299). -/
  words : Tbl Nat
  /-- Page map: one plus the physical page of logical page n of side k, at 2,048 k + n (R299). -/
  pageMap : Tbl Nat
  /-- Cluster-table memory: the 256 bytes of each physical page (R262, R299). -/
  pages : Tbl Bytes
  load : Option Load
  deriving DecidableEq, Repr

/-! ## TCAM and exact table (R149 to R169) -/

structure ExactEnt where
  valid : Bool
  slots : Nat
  key : Nat
  action : Nat
  deriving DecidableEq, Repr

/-- Hit, bad and TTL counts of one entry with their overflow flags (R589). -/
structure EntryCnt where
  hits : Nat
  bad : Nat
  ttl : Nat
  flags : Nat
  deriving DecidableEq, Repr

/-! ## Cipher (R436 to R470) -/

structure CipherUnit where
  /-- 0 in service, 1 out of service, 2 testing (R469). -/
  state : Nat
  fault : Nat
  /-- The tests passed; the unit returns at the boundary that R204 counts. -/
  restoreBeat : Nat
  restoreTick : Nat
  passed : Bool
  deriving DecidableEq, Repr

/-! ## Time (R471 to R496) -/

inductive TbState where
  | disabled
  | settling
  | valid
  deriving DecidableEq, Repr

/-- A time base at a beat from which its rates have not changed: its reading, the rates and the slew with which it
goes on (R472), and whether it is VALID. -/
structure TbMark where
  beat : Nat
  v : BitVec 96
  epoch : BitVec 32
  rate : Int
  sppm : Nat
  slew : Int
  valid : Bool
  deriving DecidableEq, Repr

structure TimeBase where
  v : BitVec 96
  epoch : BitVec 32
  state : TbState
  stepUsed : Bool
  /-- A step that applies at the start of the next beat (R478). -/
  stepPending : Option Int
  /-- Remaining slew in 2^-64 ns (R472). -/
  slew : Int
  /-- A slew written in this beat, which the next one starts (R481). -/
  slewNext : Option Int
  /-- Tick boundaries seen since the enable (R476). -/
  boundaries : Nat
  validSince : Nat
  /-- The last four steps, newest first: beat and offset (R478). -/
  steps : List (Nat × Int)
  /-- Its readings at its changes of rate, slew, step and state, newest first: a stamp taken before now is read from
  them (R484). -/
  marks : List TbMark
  deriving DecidableEq, Repr

structure PinOut where
  next : Nat
  /-- A one-shot has made its pulse (R490, log entry 10). -/
  fired : Bool
  active : Bool
  endBeat : Nat
  deriving DecidableEq, Repr

structure PinIn where
  fifo : List Nat
  overflow : Nat
  lostTick : Option Nat
  deriving DecidableEq, Repr

/-! ## Arbiters, pools, host (R394 to R409, R497 to R544) -/

structure Req where
  latest : Int
  boost : Nat
  wait : Nat
  since : Nat
  deriving DecidableEq, Repr

structure Arb where
  reqs : Tbl Req
  /-- The requester that holds the grant, since when, and the latest-service beat of its request. -/
  holder : Option (Nat × Nat × Int)
  /-- The last round's beat, for one round a beat. -/
  roundBeat : Option Nat
  deriving DecidableEq, Repr

/-- The idle step whose request carries a pool operation: its cluster, its follow-on task, the read that it requests
for that task, and what a host buffer that it reads holds (R404). -/
structure PoolStep where
  cluster : Nat
  task : Task
  read : Option IdleAccess
  hostData : Bytes
  deriving DecidableEq, Repr

/-- A pool request, a function's or an idle step's, as it waits for its turn (R400 to R405). -/
structure PoolReq where
  owner : Nat
  op : Nat
  seq : Nat
  len : Nat
  handle : Nat
  step : Option PoolStep
  deriving DecidableEq, Repr

/-- An access of an idle step of a cluster to a buffer in a function's memory, which waits for the DMA engine: the bytes
that it writes, or what it reads and the task that takes it (R404, R497). -/
structure HostAccess where
  cluster : Nat
  fn : Nat
  address : Nat
  write : Bytes
  read : Option (Task × Bytes)
  deriving DecidableEq, Repr

structure Pools where
  /-- Allocated buffers: handle to owner. -/
  alloc : Tbl Nat
  /-- Buffers freed in this beat (R402). -/
  freeing : List Nat
  /-- Requests that the end of this beat serves, one an owner, or that of a later one (R402). -/
  waiting : List PoolReq
  /-- Answers by PCIe function. -/
  resp : Tbl Nat
  frozen : List Nat
  faultLast : Nat
  access : List HostAccess
  deriving DecidableEq, Repr

/-- What a receive ring delivers: a frame, a copy, or a message of some records of a domain (0: its template set). -/
inductive RxItem where
  | frame (id : Nat)
  | copy (id : Nat)
  | message (domain records : Nat)
  deriving DecidableEq, Repr

/-- An item that has filled some descriptors and needs more: the bytes still to write, of how many (R498, R526). -/
structure RxPart where
  item : RxItem
  left : Bytes
  total : Nat
  deriving DecidableEq, Repr

structure Ring where
  /-- R544: 0 disabled, 1 running, 2 stopping, 3 ring frozen. -/
  state : Nat
  fmt : Nat
  prod : Nat
  cons : Nat
  unsignalled : Nat
  firstUnsig : Option Nat
  /-- The descriptor fetched and not yet completed: words W0 to W3. -/
  desc : Option (List Nat)
  /-- Counts begun, in order, with the words of their write-backs once known (R522). -/
  begun : List (Nat × Option (List Nat))
  /-- A receive ring's item in delivery. -/
  part : Option RxPart
  /-- The row by which a ring finishes what it had begun when it was disabled (R6, R543). -/
  row : Option Bytes
  deriving DecidableEq, Repr

structure Fn where
  frozen : Bool
  fault : Nat
  deriving DecidableEq, Repr

/-- A lookaside job that has run and waits for its completion: its ring and count, its status, the
words of its write-back, and the host writes that precede it (R460 to R462). -/
structure Job where
  ring : Nat
  count : Nat
  status : Nat
  words : List Nat
  writes : List (Nat × Bytes)
  deriving DecidableEq, Repr

/-- A counter snapshot that waits to be written (R64, R596 to R598). -/
structure Snapshot where
  tick : Nat
  beat : Nat
  seq : Nat
  version : Nat
  keep : Bool
  words : Tbl Nat
  line : Tbl Nat
  filtered : Tbl Nat
  entries : Tbl EntryCnt
  police : Tbl Nat
  withEntries : Bool
  deriving DecidableEq, Repr

/-! ## Mabin (R545 to R578) -/

structure Sub where
  /-- 1 events (first, last), 2 object (key head, period). -/
  kind : Nat
  a : Nat
  b : Nat
  /-- Last value notified. -/
  last : Option Bytes
  deriving DecidableEq, Repr

structure Block where
  head : Bytes
  chunks : Nat
  data : Bytes
  deriving DecidableEq, Repr

structure Session where
  tier : Nat
  minor : Nat
  path : MabinPath
  cred : Nat
  key : Bytes
  rxHigh : Nat
  rxSeen : List Nat
  txCtr : Nat
  lastBeat : Nat
  frozen : Bool
  subs : List Sub
  notifyQ : List Bytes
  notifySeq : Nat
  block : Option Block
  /-- Messages held because the sending counter is at its end (R564). -/
  held : List Bytes
  /-- Messages whose codes the lookaside unit has still to compute or verify (R463, R497). -/
  codes : Nat
  deriving DecidableEq, Repr

structure Cred where
  tier : Nat
  key : Bytes
  deriving DecidableEq, Repr

structure Mabin where
  sessions : Tbl Session
  creds : Tbl Cred
  /-- Lock holder: 0 to 15, 16 local (R569). -/
  holder : Option Nat
  expires : Nat
  staged : Tbl Bytes
  /-- Table keys emptied by staging. -/
  emptied : List Nat
  image : Bytes
  imageDone : Bool
  imageHere : Bool
  target : Option Nat
  /-- `engine.image.stage.status` and the outcome of the check: reason, 0 when accepted. -/
  imageStatus : Nat
  localResult : Nat
  mboxOut : List Bytes
  authFailTick : Option Nat
  drawn : Nat
  /-- BAR2 words collected for a row: key, word, value (R513). -/
  collect : Tbl Nat
  deriving DecidableEq, Repr

/-! ## The groups of the state -/

/-- What takes effect at the next beat: a PORT reset of a node (R601), a release of a frozen master in
the layout of `fault.release` (R621), the loss of the ringmaster's source by a write (R57, R86), a
disabled time base (R477), a cipher unit taken out of service (R466), filter pairs to zero (R595). -/
inductive Soon where
  | portReset (node : Nat)
  | release (word : Nat)
  | tickLost
  | tbDisable (tb : Nat)
  | unitOut (unit : Nat)
  | clearPairs (pairs : List Nat)
  | realign (pin : Nat)
  | tinDrop (pin rows : Nat)
  deriving DecidableEq, Repr

/-- Resets, supply, freeze, log (chapter 19) and I2C (R630). -/
structure Sys where
  run : RunState
  last : Nat
  bootStatus : Nat
  bootImage : Bytes
  firmware : BitVec 32
  fuses : Fuses
  fuseQ : List FuseJob
  soon : List Soon
  /-- Receive beats of reset commands that wait: CHIP; SOFT; PIPE by pipe (R601). -/
  chipAt : Option Nat
  softAt : Option Nat
  pipeAt : Tbl Nat
  /-- A SOFT reset is under way, and its boundary (R603). -/
  soft : Bool
  softBeat : Nat
  supplies : List Supply
  /-- Beat at which the warning in force began, and the monitor that raised it last. -/
  warnSince : Option Nat
  warnMon : Nat
  /-- The last dip below a warning level: the 1 ms of R610 starts after it. -/
  dipAt : Nat
  capture : Bytes
  evq : List Event
  lost : Nat
  log : List LogRow
  logSeq : Nat
  logAck : Nat
  logOver : Nat
  frozenList : List Nat
  i2cPtr : Nat
  /-- Latched multi-byte fields by their first register. -/
  i2cLatch : Tbl Bytes
  /-- Uses made of the free value (log entry 5). -/
  freeIdx : Nat
  deriving DecidableEq, Repr

/-- Counters (chapter 18). -/
structure Counters where
  words : Tbl Nat
  /-- The counters of line errors, by number (R99, R583). -/
  line : Tbl Nat
  entries : Tbl EntryCnt
  police : Tbl Nat
  filtered : Tbl Nat
  snapshots : List Snapshot
  /-- The snapshot of the boundary in progress, as it stands at the boundary beat (R61 step 3). -/
  taken : Option Snapshot
  sequence : Nat
  deriving DecidableEq, Repr

/-- Search memories and flow tables of all pipes. -/
structure Mem where
  tcam : Tbl TcamUnit
  shadow : Tbl TcamUnit
  exact : Tbl ExactEnt
  /-- Units and exact entries written in this beat, as its searches still see them (R167). -/
  oldUnits : Tbl TcamUnit
  oldExact : Tbl ExactEnt
  /-- Widths of the banks that a change of width has rewritten (R195). -/
  widths : Tbl Nat
  /-- Directory bytes by global slot address (R219). -/
  dir : Tbl Nat
  /-- Record area (64 bytes a slot), companion area (128 bytes a slot), bulk area (R213). -/
  hbm : Tbl Bytes
  companion : Tbl Bytes
  bulk : Tbl Byte
  /-- The 16 MiB of on-chip utility memory (R394). -/
  util : Tbl Byte
  quarantine : List Nat
  /-- Rewrite sets and parent links as the egress halves hold them (R173, R413). -/
  rewrite : Tbl Bytes
  subParent : Tbl Nat
  svcParent : Tbl Nat
  deriving DecidableEq, Repr

/-- A sample between its commit step and the beat c + 4 in which its copy is made, with the cluster and the task
that format it (R387, R389). -/
structure Sample where
  due : Nat
  copy : Copy
  task : Option (Nat × Task)
  deriving DecidableEq, Repr

/-- Shared buffer, scheduling and policing. -/
structure Buf where
  acct : Tbl Acct
  cellsFree : Nat
  cellsLow : Nat
  /-- Cells of a node and class that return in the next beat (R361). -/
  returns : List (Nat × Nat × Nat)
  /-- Cells taken from the shared area; f of R365 is the shared size less these. -/
  sharedUsed : Nat
  copyUsed : Nat
  queues : Tbl (List Nat)
  nodes : Tbl Node
  schedQ : List SchedWrite
  policers : Tbl Policer
  copies : List Copy
  samples : List Sample
  nextCopy : Nat
  beacons : List (Nat × Nat)
  deriving DecidableEq, Repr

structure Cipher where
  keys : Tbl KeyEnt
  pn : Tbl Nat
  iecCtr : Tbl Nat
  units : Tbl CipherUnit
  /-- Associations and keys that have raised REKEY_SOON (keys at 4,096 and beyond). -/
  rekeyed : List Nat
  exhausted : List Nat
  jobs : List Job
  deriving DecidableEq, Repr

structure Hst where
  rings : Tbl Ring
  fns : Tbl Fn
  link : Nat
  vfs : Nat
  lastReject : Nat
  /-- The words of the MSI-X table, two for each of the 2,048 vectors (R511, R523). -/
  msix : Tbl Nat
  arbs : Tbl Arb
  pools : Pools
  /-- Observation domains whose template sets are due (R355). -/
  tmplDue : List Nat
  deriving DecidableEq, Repr

/-- The machine. -/
structure State where
  /-- The commands that wait, first in, first out (the model's queue). -/
  pending : List Instr
  beat : Nat
  rm : Ringmaster
  sys : Sys
  /-- Values of RW objects (and of WO objects that keep their last write) that differ from their
  defaults. -/
  objs : Tbl Bytes
  /-- Values still in force in this beat of objects whose write takes effect at the next beat. -/
  held : Tbl Bytes
  deferred : List Deferred
  /-- The configuration that `config.digest` covers: RW values as counted at the last boundary,
  and the version then current (R204). -/
  digObjs : Tbl Bytes
  digVer : VerCfg
  ver : Versions
  pkts : List Pkt
  nextPkt : Nat
  ports : Tbl Port
  lanes : Tbl Lane
  buf : Buf
  mem : Mem
  pipes : Tbl Pipe
  clusters : Tbl Cluster
  tbs : Tbl TimeBase
  pinsOut : Tbl PinOut
  pinsIn : Tbl PinIn
  cipher : Cipher
  host : Hst
  mabin : Mabin
  cnt : Counters
  beacon : Bytes
  out : List Output
  deriving DecidableEq, Repr

/-! ## Initial values of the instances -/

def VerCfg.zero : VerCfg := { num := 0, cfg := [], images := [], sides := 0 }

def Slot.zero : Slot := { state := .free, ver := VerCfg.zero }

def Decision.none : Decision :=
  { kind := 0, ptp := false, port := 0, queue := 0, rset := 0, ring := 0, profile := 0,
    reason := 0, entry := Option.none }

def FlowPart.none : FlowPart :=
  { profile := 0, dbl := false, key := [], home := 0, h := 0, cluster := Option.none, out := [],
    complete := false, doneAt := 0, joined := false,
    trapped := false, verify := 0, verifyDue := 0 }

def OutPart.none : OutPart :=
  { qid := 0, edits := [], cut := false, charged := 0, path := [], startBeat := 0, endBeat := 0, sent := [],
    stomped := false, te := 0, teTb := Option.none, teValid := false, hint := 0xFFFFFFFF }

def Gate.init : Gate :=
  { running := false, version := 0, tb := 0, cycle := 0, list := [], entry := 0, cycleStart := 0,
    next := 0, change := Option.none, lost := false }

def Port.init : Port :=
  { state := 0, timer := .none, failCause := 0, lastChange := 0, modeActive := 0, fecActive := 0,
    mode := 0, fec := 0, skew := 0, faults := 0, trained := false, kept := false, exitBy := Option.none, lpi := false,
    link := 0,
    holdEnd := 0, flushed := 0, flushHold := [], pauseEnd := [], told := [], fcQ := [], repeatAt := [],
    frozen := false, frozenCls := 0, refusing := false, rx := Option.none, rxWhole := false,
    tx := Option.none,
    gate := Gate.init, staging := [], ptpPast := [], excLast := 0 }

def Lane.init : Lane :=
  { coeffs := 0, power := 3, cdrLock := false, cdrPpm := 0, busy := false,
    done := false, offset := 0, errors := 0, window := 0, windowEnd := 0 }

def Acct.init : Acct := { p := [], s := [], r := [], x := [] }

def Node.init : Node := { cir := 0, pir := 0, deficit := 0, pointers := [] }

def Policer.init : Policer := { tc := 0, te := 0, last := 0 }

def Pipe.init : Pipe :=
  { power := 0, wakeDone := false, resetting := false, resetBeat := 0, refclkLost := false, refclkAt := 0,
    inEntry := Option.none, egEntry := Option.none, h := 0, slip := 0,
    slipLongest := 0, lastBeat := 0, passed := 0, pointer := 0,
    ingLast := Option.none, egLast := Option.none, pos := [],
    stash := [], claims := [], path := Option.none, late := [], early := [], nextOrder := 0, agePos := 0,
    ageStart := 0, agePass := 0, dscrub := 0, cache := [], cacheUse := 0, reads := [],
    nextRead := 0, stashPeak := 0, learnTicks := [], natTicks := [],
    occHigh := false, stashHigh := false, scrubPos := 0, legacy := [], legacyApplied := 0,
    legacyTick := 0, exportQ := [], exportSeq := 0, idleExportQ := [], idleExportSeq := 0,
    nat := [], natFree := [], mirror := [], mirrorSel := [], cmds := [], cpls := [],
    verifyFree := 0, comp := [] }

def Engine.init : Engine :=
  { load := .none, start := 0, pc := 0, lastPc := 0, next := 0, regs := [], flags := [],
    stack := [], ctx := [], out := [], scratch := [], pend := [], retiring := false, freeAt := 0,
    vslot := 0, tick := 0, lastIssue := Option.none }

def Cluster.init : Cluster :=
  { state := 0, trapBeat := Option.none, lastAccept := Option.none, reseq := [],
    released := Option.none, idleQ := [], engines := [], trapInfo := 0, trapVector := [],
    words := [], pageMap := [], pages := [], load := Option.none }

def EntryCnt.init : EntryCnt := { hits := 0, bad := 0, ttl := 0, flags := 0 }

def KeyEnt.init : KeyEnt := { len := 0, salt := [], key := [] }

def CipherUnit.init : CipherUnit :=
  { state := 0, fault := 0, restoreBeat := 0, restoreTick := 0, passed := false }

def TimeBase.init : TimeBase :=
  { v := 0, epoch := 0, state := .disabled, stepUsed := false, stepPending := Option.none,
    slew := 0, slewNext := Option.none, boundaries := 0, validSince := 0, steps := [],
    marks := [] }

def PinOut.init : PinOut := { next := 0, fired := false, active := false, endBeat := 0 }

def PinIn.init : PinIn := { fifo := [], overflow := 0, lostTick := Option.none }

def Arb.init : Arb := { reqs := [], holder := Option.none, roundBeat := Option.none }

def Ring.init : Ring :=
  { state := 0, fmt := 0, prod := 0, cons := 0, unsignalled := 0, firstUnsig := Option.none,
    desc := Option.none, begun := [], part := Option.none, row := Option.none }

def Fn.init : Fn := { frozen := false, fault := 0 }

def Pools.init : Pools :=
  { alloc := [], freeing := [], waiting := [], resp := [], frozen := [],
    faultLast := 0, access := [] }

def Supply.init : Supply := { state := 0, mv := 0, dipBeat := Option.none, dips := 0 }

def Prep.init : Prep := { cursor := 0, unit := 0, wiped := 0, egress := [] }

def Versions.init : Versions :=
  { slots := [{ state := .current, ver := VerCfg.zero }, Slot.zero, Slot.zero, Slot.zero],
    current := 0, pending := [], history := [], lastReject := 0, newest := 0,
    committedAt := Option.none, compared := Option.none }

def Bound.init : Bound :=
  { beat := 0, tick := 0, ver := VerCfg.zero, locked := false, sec := 0, source := 0,
    flow := [1, 120000, 8, 256, 1], objs := [], keys := [] }

def Ringmaster.init : Ringmaster :=
  { mode := .free, tick := 0, boundaryBeat := 0, beatsLast := 0, rate := 4000, b0 := 0, k := 1,
    j := 0, kk := 0, notBefore := 0, lost := false, todo := [],
    bounds := [Bound.init] }

def Mem.init : Mem :=
  { tcam := [], shadow := [], exact := [], oldUnits := [], oldExact := [], widths := [], dir := [], hbm := [], companion := [], bulk := [], util := [],
    quarantine := [], rewrite := [], subParent := [], svcParent := [] }

def Buf.init : Buf :=
  { acct := [], cellsFree := 262144, cellsLow := 262144, returns := [], sharedUsed := 0, copyUsed := 0,
    queues := [], nodes := [], schedQ := [], policers := [], copies := [], samples := [], nextCopy := 0,
    beacons := [] }

def Cipher.init : Cipher :=
  { keys := [], pn := [], iecCtr := [], units := [], rekeyed := [], exhausted := [], jobs := [] }

def Hst.init : Hst :=
  { rings := [], fns := [], link := 0, vfs := 0, lastReject := 0, msix := [], arbs := [],
    pools := Pools.init, tmplDue := [] }

def Mabin.init : Mabin :=
  { sessions := [], creds := [], holder := Option.none, expires := 0, staged := [],
    emptied := [], image := [], imageDone := false, imageHere := false, target := Option.none,
    imageStatus := 0, localResult := 0, mboxOut := [], authFailTick := Option.none, drawn := 0,
    collect := [] }

def Counters.init : Counters :=
  { words := [], line := [], entries := [], police := [], filtered := [], snapshots := [], taken := Option.none,
    sequence := 0 }

/-- RESET_DONE, class POWER (code 0x0023), cause 1 (R606 step 4, R619, R620). -/
def Event.resetDone : Event :=
  { code := 0x0023, source := 0, tick := 0, beat := 0, values := [1] }

def Sys.init : Sys :=
  { run := .running, last := 1, bootStatus := 0, bootImage := [], firmware := 0,
    fuses := { slots := [], revoked := [] }, fuseQ := [], soon := [], chipAt := Option.none,
    softAt := Option.none, pipeAt := [], soft := false, softBeat := 0,
    supplies := [Supply.init, Supply.init, Supply.init], warnSince := Option.none, warnMon := 0, dipAt := 0,
    capture := List.replicate 64 0, evq := [Event.resetDone], lost := 0,
    log := [{ event := Event.resetDone, tb0 := 0, seq := 1 }], logSeq := 1, logAck := 0,
    logOver := 0, frozenList := [], i2cPtr := 0, i2cLatch := [], freeIdx := 0 }

/-- The machine right after a POWER reset has completed (R606 step 4): beat 0 of tick 0, version 0
current in slot 0, every object at its default, RESET_DONE raised and logged. Values that the
manual does not give: log entries 1 and 6. -/
def State.reset : State :=
  { pending := [], beat := 0, rm := Ringmaster.init, sys := Sys.init, objs := [], held := [],
    deferred := [], digObjs := [], digVer := VerCfg.zero, ver := Versions.init, pkts := [],
    nextPkt := 0, ports := [], lanes := [], buf := Buf.init, mem := Mem.init, pipes := [],
    clusters := [], tbs := [], pinsOut := [], pinsIn := [], cipher := Cipher.init,
    host := Hst.init, mabin := Mabin.init, cnt := Counters.init, beacon := List.replicate 576 0,
    out := [] }

/-! ## How a step can stop -/

/-- Reasons for a fault. -/
inductive Fault where
  /-- CORE_REFCLK stopped or departed (R637: the part guarantees nothing until a POWER reset). No
  row of the table commands it and no meaning raises it; safe. -/
  | coreClock
  deriving DecidableEq, Repr

/-- Reasons for a refusal. -/
inductive Refusal where
  /-- Raised by the dispatch for a row that has no meaning yet; safe. -/
  | notModelled (mnemonic : String)
  deriving DecidableEq, Repr

end Sys2Proof.Machine
end

