-- ==== Sys2Proof/Machine/Ops.lean ====
section
/-! DEFINITION. The operations that every family of commands shares: reading and writing
dictionary values, counters, events, frozen masters, and the access to the typed parts of the
state. -/

namespace Sys2Proof.Machine

/-! ## Guards -/

/-- A command acts only while the part runs; in a reset, a boot or a freeze of the part the core
is stopped and the state stays (R602, R606, R614). -/
def whenRun (s : State) (f : State → State) : State :=
  if s.sys.run = .running then f s else s

/-- f of the state when a condition holds; otherwise the command is not enabled, and nothing
changes (log entry 2). -/
def guardS (c : Bool) (s : State) (f : State → State) : State := if c then f s else s

/-! ## Dictionary values -/

/-- The stored value of an RW object; the default where none is stored. -/
def stored (s : State) (idx sub row : Nat) : Bytes :=
  match tfind s.objs (keyOf idx sub row) with
  | some v => v
  | none => defaultAt idx sub row

/-- The value of an RW object that is in force in this beat. -/
def rwRow (s : State) (idx sub row : Nat) : Bytes :=
  match tfind s.held (keyOf idx sub row) with
  | some v => v
  | none => stored s idx sub row

def rw (s : State) (idx sub : Nat) : Nat := natOf (rwRow s idx sub noRow)
def rwBool (s : State) (idx sub : Nat) : Bool := rw s idx sub != 0
def rwBytes (s : State) (idx sub : Nat) : Bytes := rwRow s idx sub noRow

/-- The value of an RW object as counted at the last tick boundary (R204, R261). -/
def digRow (s : State) (idx sub row : Nat) : Bytes :=
  match tfind s.digObjs (keyOf idx sub row) with
  | some v => v
  | none => defaultAt idx sub row

def dig (s : State) (idx sub : Nat) : Nat := natOf (digRow s idx sub noRow)

/-- The boundary that began a tick, while it is known. -/
def boundOfTick (s : State) (tick : Nat) : Option Bound := s.rm.bounds.find? fun b => b.tick == tick

/-- The value of an RW object in force in a tick (R204). -/
def digRowAt (s : State) (tick idx sub row : Nat) : Bytes :=
  match boundOfTick s tick with
  | none => digRow s idx sub row
  | some b =>
    match tfind b.objs (keyOf idx sub row) with
    | some v => v
    | none => defaultAt idx sub row

/-- The value of a staged object in a version (R181, R188). -/
def cfgRow (v : VerCfg) (idx sub row : Nat) : Bytes :=
  match tfind v.cfg (keyOf idx sub row) with
  | some b => b
  | none => defaultAt idx sub row

def cfg (v : VerCfg) (idx sub : Nat) : Nat := natOf (cfgRow v idx sub noRow)

def putCfg (t : Tbl Bytes) (idx sub row : Nat) (b : Bytes) : Tbl Bytes :=
  tput (defaultAt idx sub row) t (keyOf idx sub row) b

def slotAt (s : State) (k : Nat) : Slot := s.ver.slots.getD k Slot.zero

/-- The version in a slot. -/
def slotVer (s : State) (k : Nat) : VerCfg := (slotAt s k).ver

/-- The current version. -/
def curVer (s : State) : VerCfg := slotVer s s.ver.current

def isLive (s : State) (k : Nat) : Bool := (slotAt s k).state != .free

/-- Objects whose write takes effect at the next beat (R86, R319, R359, R393, R409,
R496, R578, R594). -/
def nextBeat (idx sub : Nat) : Bool :=
  (idx == 0x2800 && (sub == 2 || sub == 3 || sub == 4)) || (idx == 0x5060 && sub != 1)
  || (0x6000 ≤ idx && idx < 0x6188 && sub != 0x15)
  || (0x2040 ≤ idx && idx < 0x2048) || (0x2060 ≤ idx && idx < 0x2064)
  || (0x2100 ≤ idx && idx < 0x2182) || (idx == 0x1100 && 3 ≤ sub && sub ≤ 6)
  || (idx == 0x8810 && sub == 1) || (idx == 0x5800 && (sub == 7 || sub == 8)) || (0x6800 ≤ idx && idx < 0x6900 && !(idx == 0x6800 && sub == 1))

/-- Indices that the configuration digest covers (R201). -/
def covered (idx : Nat) : Bool :=
  (0x2800 ≤ idx && idx < 0x6800) || (0x7000 ≤ idx && idx < 0x8000)

/-- Store a value of an RW object (R547); it counts for the digest and for the objects of R261
from the boundary of R204. -/
def setRw (s : State) (idx sub row : Nat) (v : Bytes) : State :=
  let k := keyOf idx sub row
  let v := keptRow idx sub row v
  let held := if nextBeat idx sub then
      (match tfind s.held k with
       | some _ => s.held
       | none => tins s.held k (stored s idx sub row))
    else s.held
  let d := if covered idx then
      s.deferred ++ [{ key := k, value := v, recvBeat := s.beat, recvTick := s.rm.tick }]
    else s.deferred
  { s with objs := putCfg s.objs idx sub row v, held := held, deferred := d }

/-- A write that only the boundary of R204 brings into force. -/
def deferWrite (s : State) (k : Key) (v : Bytes) : State :=
  { s with deferred := s.deferred ++
      [{ key := k, value := v, recvBeat := s.beat, recvTick := s.rm.tick }] }

/-- Numbers of the present rows of a table held in overlay t (R202). -/
def presentRows (t : Tbl Bytes) (r : ObjRow) (idx : Nat) : List Nat :=
  let lo := keyOf idx r.sub 0
  let listed := trange t lo (lo + r.rows)
  let here := (listed.filter fun e => e.2 != []).map fun e => e.1 - lo
  let dflt := (List.range (defaultRows r idx)).filter fun i => (tfind listed (lo + i)).isNone
  here ++ dflt

/-! ## Counters (R579 to R595) -/

def cPort (n o : Nat) : Nat := 32 * n + o
def cLane (l o : Nat) : Nat := 4352 + 4 * l + o
def cPipe (p o : Nat) : Nat := 4872 + 64 * p + o
def cDrop (k r : Nat) : Nat := 5384 + 16 * k + r
def cCluster (c o : Nat) : Nat := 6408 + 16 * c + o
def cMacsec (n o : Nat) : Nat := 7432 + 8 * n + o
def cFn (f o : Nat) : Nat := 8456 + 8 * f + o
def cPool (p o : Nat) : Nat := 8968 + 8 * p + o
def cOwner (o : Nat) : Nat := 9032 + o
def cArb (a o : Nat) : Nat := 9160 + 2 * a + o
def cPart (o : Nat) : Nat := 9180 + o

/-- A counter word after an increment: wraps at 2^48 and then sets overflow for good (R579). -/
def wordAdd (w k : Nat) : Nat :=
  let v := w % 2 ^ 48 + k
  (if w.testBit 63 || decide (2 ^ 48 ≤ v) then 2 ^ 63 else 0) + v % 2 ^ 48

def addWord (t : Tbl Nat) (n k : Nat) : Tbl Nat := tmod 0 t n (wordAdd · k)

/-- Count k on a timing-class counter. -/
def count (s : State) (n k : Nat) : State :=
  if k = 0 then s else { s with cnt := { s.cnt with words := addWord s.cnt.words n k } }

/-- The counter is one of the lanes' counters, which line errors advance (R583). -/
def isLine (n : Nat) : Bool := decide (4352 ≤ n) && decide (n < 4872)

/-- A counter by number. -/
def counterOf (words line : Tbl Nat) (n : Nat) : Nat := tget 0 (if isLine n then line else words) n

/-- Count k on a lane's counter. -/
def countLine (s : State) (n k : Nat) : State :=
  { s with cnt := { s.cnt with line := addWord s.cnt.line n k } }

/-- A change of every snapshot that waits, that of the boundary in progress among them. -/
def mapSnaps (c : Counters) (f : Snapshot → Snapshot) : Counters :=
  { c with snapshots := c.snapshots.map f, taken := c.taken.map f }

/-- Count k on a result-class counter for an event of a tick: open snapshots of later boundaries
hold it too (R64). -/
def countR (s : State) (n k tick : Nat) : State :=
  if k = 0 then s else
  { s with cnt := mapSnaps { s.cnt with words := addWord s.cnt.words n k } fun q =>
      if tick < q.tick then { q with words := addWord q.words n k } else q }

/-- One field of an entry counter: value and overflow flag (R589). -/
def fieldAdd (width v k : Nat) : Nat × Bool := ((v + k) % 2 ^ width, decide (2 ^ width ≤ v + k))

/-- Add to the hit, bad and TTL counts of an entry. -/
def entryAdd (e : EntryCnt) (hit bad ttl : Nat) : EntryCnt :=
  let (h, ho) := fieldAdd 48 e.hits hit
  let (b, bo) := fieldAdd 38 e.bad bad
  let (t, ot) := fieldAdd 38 e.ttl ttl
  let f := if ho then setBit e.flags 2 true else e.flags
  let f := if bo then setBit f 1 true else f
  { hits := h, bad := b, ttl := t, flags := if ot then setBit f 0 true else f }

/-- Count on an entry: TCAM rows from 0, exact rows from 262,144 (R589). -/
def countEntry (s : State) (row hit bad ttl tick : Nat) : State :=
  let f := fun (t : Tbl EntryCnt) => tmod EntryCnt.init t row (entryAdd · hit bad ttl)
  { s with cnt := mapSnaps { s.cnt with entries := f s.cnt.entries } fun q =>
      if tick < q.tick then { q with entries := f q.entries } else q }

/-- Count a packet of n bytes with a colour (0 green, 1 yellow, 2 red) on a policer (R426, R589). -/
def countPolice (s : State) (policer colour n tick : Nat) : State :=
  let f := fun (t : Tbl Nat) =>
    addWord (addWord t (policer * 6 + 2 * colour) 1) (policer * 6 + 2 * colour + 1) n
  { s with cnt := mapSnaps { s.cnt with police := f s.cnt.police } fun q =>
      if tick < q.tick then { q with police := f q.police } else q }

/-- Whether counter i is the upper half of a chained pair (R595). -/
def chainedUpper (s : State) (i : Nat) : Bool :=
  i % 2 == 1 && bitOf (rwBytes s 0x8810 2) (i / 2)

/-- Add to a filtered counter, with the carry of a chained pair (R594, R595). -/
def addFiltered (s : State) (t : Tbl Nat) (i k : Nat) : Tbl Nat :=
  if bitOf (rwBytes s 0x8810 2) (i / 2) && i % 2 == 0 then
    let v := tget 0 t i % 2 ^ 48 + k
    tput 0 (addWord t (i + 1) (v / 2 ^ 48)) i (v % 2 ^ 48)
  else addWord t i k

/-- Whether a row of `cnt.filter.select` selects an event (R592, R593). -/
def filterHit (r : Bytes) (source tier : Nat) (masters : List (Nat × Nat)) (addr : Nat)
    (cls : Option Nat) : Bool :=
  let mt := byteAt r 2
  let tm := byteAt r 1 % 16
  let lo := natAt r 8 8
  let hi := natAt r 16 8
  let usesTier := source == 1 || source == 2 || source == 3
  let usesAddr := !(source == 8 || source == 9 || source == 10 || source == 11 || source == 13)
  byteAt r 0 == source
  && (!usesTier || tm == 0 || bit tm tier)
  && (mt == 0 || masters.isEmpty || masters.contains (mt, natAt r 4 2))
  && (byteAt r 6 == 0 || match cls with | none => true | some c => bit (byteAt r 6) c)
  && (!usesAddr || (lo == 0 && hi == 0) || (decide (lo ≤ addr) && decide (addr ≤ hi)))

/-- Count an event on every filtered counter that selects it (R592 to R595). -/
def filtered (s : State) (source tier : Nat) (masters : List (Nat × Nat)) (addr : Nat)
    (cls : Option Nat) (k : Nat) : State :=
  let lo := keyOf 0x8810 1 0
  let rows := ((trange s.objs lo (lo + 256) ++ trange s.held lo (lo + 256)).map fun e =>
    e.1 - lo).eraseDups
  { s with cnt := { s.cnt with
      filtered := rows.foldl (fun t i =>
        if chainedUpper s i then t
        else if filterHit (rwRow s 0x8810 1 i) source tier masters addr cls
        then addFiltered s t i k else t) s.cnt.filtered } }

/-! ## Events (R540, R618, R619) -/

/-- Codes of R619. -/
def evEventsLost : Nat := 0x0001
def evMasterFrozen : Nat := 0x0010
def evMasterReleased : Nat := 0x0011
def evSupplyWarn : Nat := 0x0020
def evSupplyOk : Nat := 0x0021
def evSupplyReset : Nat := 0x0022
def evResetDone : Nat := 0x0023
def evPipeReset : Nat := 0x0024
def evPipePower : Nat := 0x0025
def evFreeze : Nat := 0x0026
def evFuseFail : Nat := 0x0027
def evTickJoined : Nat := 0x0100
def evTickLost : Nat := 0x0101
def evSlipLong : Nat := 0x0102
def evLinkUp : Nat := 0x0200
def evLinkDown : Nat := 0x0201
def evLinkFail : Nat := 0x0202
def evHiBer : Nat := 0x0203
def evRefclkLost : Nat := 0x0204
def evShadowMismatch : Nat := 0x0300
def evShadowBad : Nat := 0x0301
def evExactEcc : Nat := 0x0302
def evCommitted : Nat := 0x0400
def evDeferred : Nat := 0x0401
def evRejected : Nat := 0x0402
def evDiverged : Nat := 0x0403
def evAgreed : Nat := 0x0404
def evLearnOverflow : Nat := 0x0500
def evRecordBad : Nat := 0x0501
def evQuarantineReleased : Nat := 0x0502
def evDirEcc : Nat := 0x0503
def evOccupancyHigh : Nat := 0x0504
def evStashHigh : Nat := 0x0505
def evImageRejected : Nat := 0x0600
def evIdleOverrun : Nat := 0x0601
def evNatExhausted : Nat := 0x0700
def evBufferEcc : Nat := 0x0800
def evLinkFlushed : Nat := 0x0801
def evGateStarted : Nat := 0x0900
def evGateTbLost : Nat := 0x0901
def evRekeySoon : Nat := 0x0A00
def evSaExhausted : Nat := 0x0A01
def evCipherFault : Nat := 0x0A02
def evWrap : Nat := 0x0B00
def evTbValid : Nat := 0x0B01
def evTbInvalid : Nat := 0x0B02
def evTbStepped : Nat := 0x0B03
def evToutMissed : Nat := 0x0B04
def evTimeCapture : Nat := 0x0B05
def evCaptureLost : Nat := 0x0B06
def evLockExpired : Nat := 0x0C00
def evAuthFail : Nat := 0x0C01

/-- The events that also enter the log (R619). -/
def isLogged (code : Nat) : Bool :=
  [0x10, 0x11, 0x20, 0x21, 0x22, 0x23, 0x24, 0x25, 0x26, 0x27, 0x204, 0x300, 0x301, 0x302, 0x403,
   0x501, 0x503, 0x800, 0xA02, 0xC01].contains code

def tbAt (s : State) (t : Nat) : TimeBase := tget TimeBase.init s.tbs t

/-- A time base as TIME64: epoch, whole nanoseconds (R473, R546). -/
def time64 (t : TimeBase) : Nat := t.epoch.toNat * 2 ^ 32 + t.v.toNat / 2 ^ 64

/-- Put an event in the log; the oldest of 64 is overwritten first (R618). -/
def logEvent (s : State) (e : Event) : State :=
  let row : LogRow := { event := e, tb0 := time64 (tbAt s 0), seq := s.sys.logSeq + 1 }
  { s with sys := { s.sys with
      log := (row :: s.sys.log).take 64,
      logSeq := s.sys.logSeq + 1,
      logOver := if s.sys.log.length < 64 then s.sys.logOver else s.sys.logOver + 1 } }

/-- Put an event in the queue of 1,024; one that finds it full is counted as lost (R540, R588). -/
def queueEvent (s : State) (e : Event) : State :=
  if s.sys.evq.length < 1024 then { s with sys := { s.sys with evq := s.sys.evq ++ [e] } }
  else count { s with sys := { s.sys with lost := s.sys.lost + 1 } } (cPart 6) 1

/-- The 64-byte record of an event, in eight little-endian words (R540). -/
def eventRecord (e : Event) : Bytes :=
  leBytes 8 (e.code * 2 ^ 48 + e.source % 2 ^ 16 * 2 ^ 32) ++ leBytes 8 e.tick ++ leBytes 8 e.beat
    ++ (List.range 5).flatMap fun i => leBytes 8 (e.values.getD i 0)

/-- Queue a notification of a session: its sequence number, which advances in any case, and its
body. At most 256 wait; another is discarded and counted (R575, R588). -/
def notify (s : State) (n : Nat) (x : Session) (body : Bytes) : State :=
  let room := decide (x.notifyQ.length < 256)
  let x := { x with
    notifySeq := (x.notifySeq + 1) % 2 ^ 32,
    notifyQ := if room then x.notifyQ ++ [bytesOf 4 (x.notifySeq + 1) ++ body] else x.notifyQ }
  let s := { s with mabin := { s.mabin with sessions := tins s.mabin.sessions n x } }
  if room then s else count s (cPart 12) 1

/-- Whether a session subscribes to an event code (R574). -/
def wantsEvent (x : Session) (code : Nat) : Bool :=
  x.subs.any fun b => b.kind == 1 && decide (b.a ≤ code) && decide (code ≤ b.b)

/-- Every session that subscribes to an event has a NOTIFY of it queued (R575). -/
def tellSessions (s : State) (e : Event) : State :=
  s.mabin.sessions.foldl (fun s x =>
    if wantsEvent x.2 e.code then notify s x.1 x.2 (eventRecord e) else s) s

def postEvent (s : State) (e : Event) : State :=
  tellSessions (queueEvent (if isLogged e.code then logEvent s e else s) e) e

/-- The capture of a freeze (R616). -/
def captureBytes (s : State) (trigger code : Nat) : Bytes :=
  bytesOf 1 trigger ++ [0] ++ bytesOf 2 code ++ bytesOf 8 s.beat ++ bytesOf 8 s.rm.tick
    ++ bytesOf 8 (time64 (tbAt s 0))
    ++ (List.range 8).flatMap (fun p => bytesOf 4 ((tget Pipe.init s.pipes p).h % 2 ^ 32))
    ++ bytesOf 2 (curVer s).num ++ [0, 0]

/-- A freeze of the part: FREEZE logged, the capture written, every core clock stopped. Further
triggers are ignored (R614, R616). -/
def startFreeze (s : State) (trigger code : Nat) : State :=
  if s.sys.run = .running then
    let s := postEvent s { code := evFreeze, source := trigger, tick := s.rm.tick, beat := s.beat,
                           values := [code] }
    { s with sys := { s.sys with run := .frozen, capture := captureBytes s trigger code } }
  else s

/-- Raise an event of a tick; a code listed in `debug.freeze.on` freezes the part (R614). -/
def raiseAt (s : State) (code source tick : Nat) (values : List Nat) : State :=
  let s := postEvent s { code := code, source := source, tick := tick, beat := s.beat,
                         values := values }
  if (List.range 8).any (fun i => natOf (stored s 0x9020 2 i) == code) then startFreeze s 3 code
  else s

def raiseEv (s : State) (code source : Nat) (values : List Nat) : State :=
  raiseAt s code source s.rm.tick values

/-- Something takes effect at the next beat. -/
def soonDo (s : State) (x : Soon) : State :=
  { s with sys := { s.sys with soon := s.sys.soon ++ [x] } }

/-! ## Frozen masters (R45, R621) -/

/-- The word of `fault.frozen` and `fault.release`. -/
def frozenWord (type cls num : Nat) : Nat := type * 2 ^ 24 + cls * 2 ^ 16 + num

/-- List a frozen master and raise MASTER_FROZEN: its number is the source, its type and the class of a
port frozen for one class alone are carried (R45, R374, R540). -/
def freezeMaster (s : State) (type cls num : Nat) : State :=
  let w := frozenWord type cls num
  if s.sys.frozenList.contains w then s
  else raiseEv { s with sys := { s.sys with frozenList := s.sys.frozenList ++ [w] } }
    evMasterFrozen num (type :: if cls = 0xFF then [] else [cls])

/-- Take a master off the list and raise MASTER_RELEASED (R620, R621). -/
def releaseMaster (s : State) (type cls num : Nat) : State :=
  raiseEv { s with sys := { s.sys with
      frozenList := s.sys.frozenList.filter (· != frozenWord type cls num) } }
    evMasterReleased type [num, cls]

/-! ## Typed parts of the state -/

def portAt (s : State) (n : Nat) : Port := tget Port.init s.ports n
def modPort (s : State) (n : Nat) (f : Port → Port) : State :=
  { s with ports := tmod Port.init s.ports n f }

def laneAt (s : State) (l : Nat) : Lane := tget Lane.init s.lanes l
def modLane (s : State) (l : Nat) (f : Lane → Lane) : State :=
  { s with lanes := tmod Lane.init s.lanes l f }

def pipeAt (s : State) (p : Nat) : Pipe := tget Pipe.init s.pipes p
def modPipe (s : State) (p : Nat) (f : Pipe → Pipe) : State :=
  { s with pipes := tmod Pipe.init s.pipes p f }

def clusterAt (s : State) (c : Nat) : Cluster := tget Cluster.init s.clusters c
def modCluster (s : State) (c : Nat) (f : Cluster → Cluster) : State :=
  { s with clusters := tmod Cluster.init s.clusters c f }

def engineAt (s : State) (c e : Nat) : Engine := tget Engine.init (clusterAt s c).engines e
def modEngine (s : State) (c e : Nat) (f : Engine → Engine) : State :=
  modCluster s c fun k => { k with engines := tmod Engine.init k.engines e f }

def modTb (s : State) (t : Nat) (f : TimeBase → TimeBase) : State :=
  { s with tbs := tmod TimeBase.init s.tbs t f }

def ringAt (s : State) (r : Nat) : Ring := tget Ring.init s.host.rings r
def modRing (s : State) (r : Nat) (f : Ring → Ring) : State :=
  { s with host := { s.host with rings := tmod Ring.init s.host.rings r f } }

def fnAt (s : State) (f : Nat) : Fn := tget Fn.init s.host.fns f
def modFn (s : State) (n : Nat) (f : Fn → Fn) : State :=
  { s with host := { s.host with fns := tmod Fn.init s.host.fns n f } }

def pktAt (s : State) (id : Nat) : Option Pkt := s.pkts.find? fun k => k.id == id
def modPkt (s : State) (id : Nat) (f : Pkt → Pkt) : State :=
  { s with pkts := lmod (fun k => k.id == id) f s.pkts }
def dropPkt (s : State) (id : Nat) : State :=
  { s with pkts := ldel (fun k => k.id == id) s.pkts }

def queueAt (s : State) (q : Nat) : List Nat := tget [] s.buf.queues q
def modQueue (s : State) (q : Nat) (f : List Nat → List Nat) : State :=
  { s with buf := { s.buf with queues := tmod [] s.buf.queues q f } }

def nodeAt (s : State) (k : Nat) : Node := tget Node.init s.buf.nodes k
def modNode (s : State) (k : Nat) (f : Node → Node) : State :=
  { s with buf := { s.buf with nodes := tmod Node.init s.buf.nodes k f } }

/-- The physical parent links (R412, R413): enable[15] and service[9:0]; attached[15] and port[7:0]. -/
def subLink (s : State) (n : Nat) : Nat :=
  (tfind s.mem.subParent n).getD (natOf (defaultAt 0x7000 7 n))
def svcLink (s : State) (n : Nat) : Nat :=
  (tfind s.mem.svcParent n).getD (natOf (defaultAt 0x7000 8 n))

def emit (s : State) (o : Output) : State := { s with out := s.out ++ [o] }

/-- The pipe that a port node is attached to (R27). -/
def nodePipe (n : Nat) : Nat := if n < 128 then n / 16 else n - 128

/-- A value that the manual leaves open: fresh at every use (log entry 5). -/
def freshValue (s : State) : Nat := (Config.freeValue s.sys.freeIdx).toNat
def useFresh (s : State) : State := { s with sys := { s.sys with freeIdx := s.sys.freeIdx + 1 } }

/-- n words of eight bytes of a value that the manual leaves open (log entry 5). -/
def freshBytes : Nat → State → State × Bytes
  | 0, s => (s, [])
  | n + 1, s =>
    let (s', b) := freshBytes n (useFresh s)
    (s', bytesOf 8 (freshValue s) ++ b)

/-- The beat counter is 64 bits wide (R50). -/
def beatAfter (s : State) (n : Nat) : Nat := (s.beat + n) % 2 ^ 64

/-- Whether a beat has come: at or before the beat counter. -/
def due (s : State) (beat : Nat) : Bool := decide (beat ≤ s.beat)

/-- Horizon in use (R77): the value that the last restart of the pipes made active. -/
def horizon (s : State) : Nat := natOf (stored s 0x2A00 2 noRow)

end Sys2Proof.Machine
end

