-- ==== Sys2Proof/Machine/Operands.lean ====
section
/-! DEFINITION. The operands of a dictionary write: who writes, what the object table allows, and
how a refusal is reported (R546 to R552, R558). -/

namespace Sys2Proof.Machine

/-- Error codes of R558. -/
def errNoObject : Nat := 1
def errAccess : Nat := 2
def errTier : Nat := 3
def errValue : Nat := 4
def errFormat : Nat := 5
def errNotLocked : Nat := 6
def errLocked : Nat := 7
def errCommit : Nat := 8
def errVersion : Nat := 9
def errBusy : Nat := 10
def errSecret : Nat := 11
def errSubs : Nat := 12
def errBlockOrder : Nat := 13
def errCredential : Nat := 14

def sessionAt (s : State) (n : Nat) : Option Session := tfind s.mabin.sessions n
def modSession (s : State) (n : Nat) (f : Session → Session) : State :=
  match sessionAt s n with
  | none => s
  | some x => { s with mabin := { s.mabin with sessions := tins s.mabin.sessions n (f x) } }

/-- The tier that a sender acts with (R548, R552, R560); none when no such session is open. -/
def tierOf (s : State) : Origin → Option Nat
  | .bar => some (rw s 0x1200 5)
  | .sess n =>
    match sessionAt s n with
    | none => none
    | some x => if x.frozen then none else some x.tier

/-- The number of a sender as lock holder and as a filtered counter's master (R569, R592). -/
def originNum : Origin → Nat
  | .bar => 16
  | .sess n => n

def originMasters : Origin → List (Nat × Nat)
  | .bar => [(4, 16), (2, 0)]
  | .sess n => [(4, n)]

/-- Value bytes of an object or row, as its table entry fixes them (R546). -/
def lengthOk (r : ObjRow) (row : Nat) (v : Bytes) : Bool :=
  if r.kind = 9 then
    if row = noRow then v == [] && r.acc != .wo
    else v == [] || r.stride == 0 || v.length == r.stride
  else if r.kind = 8 then decide (r.lo ≤ v.length) && decide (v.length ≤ r.hi)
  else v.length == kindSize r.kind

/-- A scalar lies in its stated range (R13, R546); the ranges of I32 objects are their chapters'. -/
def rangeOk (r : ObjRow) (v : Bytes) : Bool :=
  if r.kind = 9 || r.kind = 8 || r.kind = 6 then true
  else decide (r.lo ≤ natOf v) && decide (natOf v ≤ r.hi)

/-- Objects that only the local session and mailbox sessions may write (R567). -/
def isSecret (idx sub : Nat) : Bool :=
  (idx == 0x7800 && sub == 1) || (idx == 0x1200 && sub == 1)

/-- The sender is a session over UDP. -/
def overUdp (s : State) : Origin → Bool
  | .bar => false
  | .sess n => match sessionAt s n with
    | some x => x.path != .mailbox
    | none => false

/-- What the object table says of a write: 0, or the error code of R558. -/
def writeError (s : State) (src : Origin) (idx sub row : Nat) (v : Bytes) : Nat :=
  match lookupObj idx sub with
  | none => errNoObject
  | some r =>
    if r.acc = .ro then errAccess
    else if r.kind = 9 && row != noRow && !hasRow r idx row then errNoObject
    else if r.kind != 9 && row != noRow then errNoObject
    else if (match tierOf s src with | none => true | some t => decide (t < r.tier)) then errTier
    else if isSecret idx sub && overUdp s src then errSecret
    else if !lengthOk r row v then errFormat
    else if !rangeOk r v then errValue
    else 0

/-- An accepted access of a sender to an object, read (1) or written (2), as a filtered event (R593). -/
def countAccess (s : State) (src : Origin) (source idx sub : Nat) : State :=
  filtered s source ((tierOf s src).getD 0) (originMasters src) (idx * 256 + sub) none 1

/-- A refused write: the local session's is recorded in `host.bar.last_reject` (R512, R552); a
session's is answered by its message. Both count as a rejected access (R593). A BAR write where no
object lies is ignored. -/
def rejectWrite (s : State) (src : Origin) (idx sub err : Nat) : State :=
  let t := filtered s 3 ((tierOf s src).getD 0) (originMasters src) (idx * 256 + sub) none 1
  match src with
  | .bar =>
    if (lookupObj idx sub).isNone then s
    else { t with host := { t.host with lastReject := idx * 2 ^ 48 + sub * 2 ^ 40 + err } }
  | .sess _ => t

/-- The lease that a renewal starts (R570). -/
def leaseEnd (s : State) : Nat := beatAfter s (rw s 0x1300 1 * 1250000)

/-- An accepted message or BAR write of the lock holder renews a lease that has not expired (R570). -/
def renewLease (s : State) (who : Nat) : State :=
  if s.mabin.holder = some who && !due s s.mabin.expires then { s with mabin := { s.mabin with expires := leaseEnd s } }
  else s

/-- A write whose operands the object table allows has effect `eff`; none is a value that the
object's own chapter rejects (R558 VALUE). -/
def writeBy (s : State) (src : Origin) (idx sub row : Nat) (v : Bytes)
    (eff : State → Option State) : State :=
  if (tierOf s src).isNone then s
  else
    let s := renewLease s (originNum src)
    let err := writeError s src idx sub row v
    if err = 0 then
      match eff s with
      | some t =>
        filtered t 2 ((tierOf s src).getD 0) (originMasters src) (idx * 256 + sub) none 1
      | none => rejectWrite s src idx sub errValue
    else rejectWrite s src idx sub err

/-- A write command while the part runs (R608: in the boot ROM and in a freeze none acts). -/
def writeCmd (s : State) (src : Origin) (idx sub row : Nat) (v : Bytes)
    (eff : State → Option State) : State :=
  whenRun s fun s => writeBy s src idx sub row v eff

end Sys2Proof.Machine
end

