-- ==== Sys2Proof/Machine/Rings.lean ====
section
/-! DEFINITION. Functions, windows, rings, doorbells, write-backs and interrupts (R510 to R524,
R536 to R544). Ring numbers are those of R621: receive r, transmit 4,096 + r, command 8,192 + p,
completion 8,200 + p, dump 8,208, event 8,209. -/

namespace Sys2Proof.Machine

def txRing (r : Nat) : Nat := 4096 + r
def cmdRing (p : Nat) : Nat := 8192 + p
def cplRing (p : Nat) : Nat := 8200 + p
def dumpRing : Nat := 8208
def eventRing : Nat := 8209

/-- Subindex and row of 0x8100 that hold a ring (R542). -/
def ringPlace (r : Nat) : Nat × Nat :=
  if r < 4096 then (1, r) else if r < 8192 then (2, r - 4096) else if r < 8200 then (4, r - 8192)
  else if r < 8208 then (5, r - 8200) else if r = 8208 then (6, noRow) else (7, noRow)

/-- The ring row of R543 as it stands written. -/
def storedRow (s : State) (r : Nat) : Bytes := stored s 0x8100 (ringPlace r).1 (ringPlace r).2

/-- The row by which a ring works: as written, but for a ring that finishes work begun before it was
disabled (R543, R6). -/
def ringRow (s : State) (r : Nat) : Bytes := ((ringAt s r).row).getD (storedRow s r)

/-- Word i of a ring row. -/
def rowWord (row : Bytes) (i : Nat) : Nat := natAt row (8 * i) 8

def rowEnable (row : Bytes) : Bool := bit (rowWord row 1) 63
def rowFormat (row : Bytes) : Nat := bits (rowWord row 1) 62 61
def rowSize (row : Bytes) : Nat := bits (rowWord row 1) 60 56
def rowVector (row : Bytes) : Nat := bits (rowWord row 1) 46 36
def rowIrqCount (row : Bytes) : Nat := bits (rowWord row 1) 35 24
def rowIrqUsec (row : Bytes) : Nat := bits (rowWord row 1) 23 8
def rowBase (row : Bytes) : Nat := rowWord row 0
def rowHead (row : Bytes) : Nat := rowWord row 2

/-- The owner: the owner field for packet rings, else the physical function (R543). -/
def ringOwner (s : State) (r : Nat) : Nat :=
  if r < 8192 then rowWord (ringRow s r) 3 % 64 else 0

/-- Function f is enabled: 0 always, f when SR-IOV enables it (R510, R542). -/
def fnEnabled (s : State) (f : Nat) : Bool := f == 0 || decide (f ≤ s.host.vfs)

/-- len bytes at an address lie wholly inside one window of f (R514). -/
def inWindow (s : State) (f addr len : Nat) : Bool :=
  len == 0 || (List.range 8).any fun i =>
    let w := stored s (0x8010 + f) 1 i
    let lg := natAt w 8 8 % 128
    w != [] && decide (12 ≤ lg) && decide (lg ≤ 64) && decide (natAt w 0 8 ≤ addr)
      && decide (addr + len ≤ natAt w 0 8 + 2 ^ lg)

/-- Freeze a function with its fault record (R515). -/
def freezeFn (s : State) (f cause detail : Nat) : State :=
  if (fnAt s f).frozen then s
  else
    let s := modFn s f fun x =>
      { x with frozen := true,
               fault := cause * 2 ^ 56 + detail % 2 ^ 24 * 2 ^ 32 + s.rm.tick % 2 ^ 32 }
    freezeMaster s 2 0xFF f

/-- Freeze one ring (R521, R529). -/
def freezeRing (s : State) (r : Nat) : State :=
  freezeMaster (modRing s r fun x => { x with state := 3 }) 3 0xFF r

/-- The ring does its work: running or stopping, and neither it nor its function frozen (R45). -/
def ringLive (s : State) (r : Nat) : Bool :=
  ((ringAt s r).state == 1 || (ringAt s r).state == 2) && !(fnAt s (ringOwner s r)).frozen

/-- A DMA write for a ring: made inside the owner's windows; outside, the function freezes with
cause 1 (R514, R515). -/
def dmaWrite (s : State) (r addr : Nat) (b : Bytes) : State :=
  let f := ringOwner s r
  if inWindow s f addr b.length then
    filtered (emit s (.dma f addr b)) 7 0 [(2, f), (3, r)] addr none b.length
  else freezeFn s f 1 r

/-- MSI-X vector of a ring: the function's block and the relative vector (R523). -/
def ringVector (s : State) (r : Nat) : Nat :=
  let f := if r < 8192 then ringOwner s r else 0
  bits (rw s (0x8010 + f) 2) 26 16 + rowVector (ringRow s r)

/-- Send a ring's interrupt and count from zero again (R523). -/
def signalRing (s : State) (r : Nat) : State :=
  emit (modRing s r fun x => { x with unsignalled := 0, firstUnsig := none })
    (.msix (ringVector s r))

/-- A write-back not yet signalled; `irq_count` of them signal (R523). -/
def notSignalled (s : State) (r : Nat) : State :=
  let s := modRing s r fun x =>
    { x with unsignalled := x.unsignalled + 1,
             firstUnsig := some (x.firstUnsig.getD s.beat) }
  let n := rowIrqCount (ringRow s r)
  if n != 0 && decide (n ≤ (ringAt s r).unsignalled) then signalRing s r else s

/-- Bytes of a descriptor or element of a ring (R524, R536). -/
def elemBytes (s : State) (r : Nat) : Nat :=
  if r < 8192 then (if (ringAt s r).fmt = 1 then 16 else 32) else 256

/-- Host address of the element of count c (R520). -/
def elemAddr (s : State) (r c : Nat) : Nat :=
  rowBase (ringRow s r) + c % 2 ^ rowSize (ringRow s r) * elemBytes s r

/-- The phase bit of count c: 1 in even laps (R522). -/
def phaseBit (s : State) (r c : Nat) : Nat := if c / 2 ^ rowSize (ringRow s r) % 2 = 0 then 1 else 0

/-- The head write-back of a ring after one of its write-backs (R522). -/
def headWrite (s : State) (r : Nat) : State :=
  let h := rowHead (ringRow s r)
  if h = 0 then s else dmaWrite s r h (leBytes 8 (ringAt s r).cons)

/-- Write back the descriptor of the consumer count: every word but W0, then W0 with the phase
bit; then the head address and the interrupt (R522, R523). -/
def writeBack (s : State) (r : Nat) (words : List Nat) : State :=
  let c := (ringAt s r).cons
  let n := elemBytes s r / 8
  let ws := (List.range n).map fun i => words.getD i 0
  let w0 := ws.headD 0 % 2 ^ 63 + phaseBit s r c * 2 ^ 63
  let a := elemAddr s r c
  let s := dmaWrite s r (a + 8) ((ws.drop 1).flatMap (leBytes 8))
  let s := dmaWrite s r a (leBytes 8 w0)
  let s := modRing s r fun x => { x with cons := (x.cons + 1) % 2 ^ 32 }
  notSignalled (headWrite s r) r

/-- Descriptors that host software has posted and the part has not completed. -/
def posted (s : State) (r : Nat) : Nat :=
  ((ringAt s r).prod + 2 ^ 32 - (ringAt s r).cons) % 2 ^ 32

/-- Write back every begun count at the head of the ring whose words are known: write-backs
complete in count order (R522). -/
def drainBegun (r : Nat) : Nat → State → State
  | 0, s => s
  | n + 1, s =>
    match (ringAt s r).begun with
    | (_, some ws) :: rest =>
      drainBegun r n (writeBack (modRing s r fun x => { x with begun := rest }) r ws)
    | _ => s

/-- The words of a begun count's write-back are known (R531, R461). -/
def completeCount (s : State) (r c : Nat) (words : List Nat) : State :=
  let s := modRing s r fun x =>
    { x with begun := x.begun.map fun e => if e.1 = c then (c, some words) else e }
  drainBegun r ((ringAt s r).begun.length) s

/-! ## Grants of the arbiters (R497, R502) -/

def arbDma : Nat := 8
def arbLa : Nat := 9

def arbAt (s : State) (a : Nat) : Arb := tget Arb.init s.host.arbs a
def modArb (s : State) (a : Nat) (f : Arb → Arb) : State :=
  { s with host := { s.host with arbs := tmod Arb.init s.host.arbs a f } }

/-- A requester holds the grant of its arbiter. -/
def holds (s : State) (a i : Nat) : Bool := (arbAt s a).holder.map Prod.fst == some i

/-- The requester's transaction has ended (R502). -/
def endGrant (s : State) (a : Nat) : State := modArb s a fun x => { x with holder := none }

/-- A ring's transaction is under way: its fetched descriptor's grant is held. A grant runs to the end of its
transaction (R504). -/
def inGrant (s : State) (r : Nat) : Bool :=
  (ringAt s r).desc.isSome
    && (holds s arbDma r || (decide (4096 ≤ r) && holds s arbLa (r - 4096 + 16)))

/-! ## Enabling and disabling (R524, R543) -/

/-- s in the range of its kind (R520, R538; command and completion rings as packet rings). -/
def sizeOk (r n : Nat) : Bool :=
  if r = 8208 then decide (20 ≤ n) && decide (n ≤ 30)
  else if r = 8209 then decide (12 ≤ n) && decide (n ≤ 24)
  else decide (6 ≤ n) && decide (n ≤ 16)

/-- Bytes that a ring takes in host memory. -/
def ringBytes (r fmt n : Nat) : Nat :=
  if 8208 ≤ r then 2 ^ n else if r < 8192 then 2 ^ n * (if fmt = 1 then 16 else 32) else 2 ^ n * 256

/-- A transmit ring marked in `cipher.la.rings` (R524). -/
def isLaRing (s : State) (r : Nat) : Bool :=
  decide (4096 ≤ r) && decide (r < 8192) && bitOf (rwBytes s 0x7800 7) (r - 4096)

/-- The checks that a ring row write passes (R543, R612). -/
def ringRowOk (s : State) (r : Nat) (row : Bytes) : Bool :=
  let old := storedRow s r
  let wasOn := rowEnable old
  let f := if r < 8192 then rowWord row 3 % 64 else 0
  let cleared := putNat row 8 8 (setBit (rowWord row 1) 63 false)
  let same := cleared == putNat old 8 8 (setBit (rowWord old 1) 63 false)
  let count := bits (rw s (0x8010 + f) 2) 11 0
  (!wasOn || same)
  && (!rowEnable row ||
    (sizeOk r (rowSize row)
     && rowBase row % 4096 == 0
     && inWindow s f (rowBase row) (ringBytes r (rowFormat row) (rowSize row))
     && (rowHead row == 0 || (rowHead row % 8 == 0 && inWindow s f (rowHead row) 8))
     && (r < 8208 || rowHead row != 0)
     && decide (rowVector row < count)
     && fnEnabled s f
     && rowFormat row != 3
     && !(rowFormat row == 1 && isLaRing s r)
     && !(decide (r < 8192) && (pipeAt s (2 + r % 4096 / 1024)).power == 1)))

def putRingRow (s : State) (r : Nat) (row : Bytes) : State :=
  setRw s 0x8100 (ringPlace r).1 (ringPlace r).2 row

/-- A ring that starts: the format is negotiated, and the counts begin (R524). -/
def freshRing (row : Bytes) : Ring :=
  { Ring.init with state := 1, fmt := if rowFormat row = 1 then 1 else 2 }

/-- A ring with nothing begun. -/
def ringIdle (x : Ring) : Bool := x.begun == [] && x.desc.isNone && x.part.isNone

/-- A ring that a write of its row enables: a frozen one stays frozen (R48), and one that still finishes
begun work starts when that is done, so that its formats never mix (R6). -/
def ringOn (old row : Bytes) (x : Ring) : Ring :=
  if x.state = 3 then { x with row := some (x.row.getD old) }
  else if ringIdle x then freshRing row else x

/-- A ring that a write of its row disables: it fetches no more, and finishes what it has begun, a
descriptor whose grant it holds among it (R504, R543). -/
def ringOff (held : Bool) (old : Bytes) (x : Ring) : Ring :=
  let x := { x with desc := if held then x.desc else none, row := some (x.row.getD old) }
  if x.state = 3 then x
  else if ringIdle x then { x with state := 0, row := none }
  else { x with state := 2 }

/-- A row write (R524, R543). -/
def ringWrite (r : Nat) (row : Bytes) (s : State) : Option State :=
  let place := ringPlace r
  let row := keptRow 0x8100 place.1 place.2 (if row = [] then zeros 32 else row)
  if !ringRowOk s r row then none
  else
    let old := storedRow s r
    let s := putRingRow s r row
    if rowEnable row && !rowEnable old then some (modRing s r (ringOn old row))
    else if !rowEnable row && rowEnable old then some (modRing s r (ringOff (inGrant s r) old))
    else some s

/-- A command ring that is disabled fetches no more: what it has posted and the part does not hold is dropped, as
the descriptors of a packet ring are (R543). -/
def dropUnfetched (r : Nat) (s : State) : State :=
  if 8192 ≤ r && r < 8200 && !rowEnable (storedRow s r) then
    modPipe s (r - 8192) fun k => { k with cmds := k.cmds.filter fun c => c.held || c.kind != 0 }
  else s

/-- A row write that may disable the ring. -/
def ringRowWrite (r : Nat) (row : Bytes) (s : State) : Option State :=
  (ringWrite r row s).map (dropUnfetched r)

/-- The posted count lies no further than 2^s ahead of the consumer, and not behind the last
accepted count (R521). -/
def countOk (s : State) (r count : Nat) : Bool :=
  let x := ringAt s r
  let ahead := (count + 2 ^ 32 - x.cons) % 2 ^ 32
  decide (ahead ≤ 2 ^ rowSize (ringRow s r)) && decide (posted s r ≤ ahead)

/-- A doorbell of a packet or element ring: the producer count, or a frozen ring (R521); another
function's ring freezes the writer (R515 cause 2). -/
def doorbell (s : State) (fn r offset count : Nat) : State :=
  if (fnAt s fn).frozen then s
  else if fn != ringOwner s r then freezeFn s fn 2 offset
  else if (ringAt s r).state = 1 then
    if countOk s r count then modRing s r fun x => { x with prod := count % 2 ^ 32 }
    else freezeRing s r
  else s

/-- A byte ring's doorbell carries host software's consumer offset (R538). -/
def byteDoorbell (s : State) (fn r offset value : Nat) : State :=
  if (fnAt s fn).frozen then s
  else if fn != 0 then freezeFn s fn 2 offset
  else if (ringAt s r).state = 1 then modRing s r fun x => { x with cons := value } else s

/-- Place a record in a byte ring: its offset and the offset after it, when it has room whole; a
record never wraps (R538). -/
def byteRoom (s : State) (r len : Nat) : Option (Nat × Nat) :=
  let size := 2 ^ rowSize (ringRow s r)
  let p := (ringAt s r).prod
  let start := if p % size + len ≤ size then p else p + (size - p % size)
  if len ≤ size && start + len - (ringAt s r).cons ≤ size then some (start, start + len) else none

/-- Write one record to a byte ring and then the producer offset to the head address (R538). -/
def writeRecord (s : State) (r : Nat) (b : Bytes) (start fin : Nat) : State :=
  let size := 2 ^ rowSize (ringRow s r)
  let s := dmaWrite s r (rowBase (ringRow s r) + start % size) b
  let s := modRing s r fun x => { x with prod := fin }
  notSignalled (dmaWrite s r (rowHead (ringRow s r)) (leBytes 8 fin)) r

/-- A ring with nothing begun is as its row says: disabled, or started by the enable that came while it
finished its work (R524, R543). -/
def ringRests (row : Bytes) (x : Ring) : Ring :=
  if rowEnable row then freshRing row else { x with state := 0, row := none }

/-- The stop of a ring completes when nothing begun remains (R543). -/
def stopDone (s : State) (r : Nat) : State :=
  if (ringAt s r).state = 2 && ringIdle (ringAt s r) then modRing s r (ringRests (storedRow s r))
  else s

/-! ## The commands' meanings -/

def rowRxRingDoorbell (fn ring count : Nat) (s : State) : State :=
  whenRun s fun s => doorbell s fn ring (ring * 8) count

def rowTxRingDoorbell (fn ring count : Nat) (s : State) : State :=
  whenRun s fun s => doorbell s fn (txRing ring) (0x8000 + ring * 8) count

def rowCompletionRingDoorbell (fn pipe count : Nat) (s : State) : State :=
  whenRun s fun s => doorbell s fn (cplRing pipe) (0x10040 + pipe * 8) count

def rowByteRingDoorbell (fn : Nat) (isEvent : Bool) (offset : Nat) (s : State) : State :=
  whenRun s fun s =>
    byteDoorbell s fn (if isEvent then eventRing else dumpRing) (if isEvent then 0x10088 else 0x10080) offset

/-- The commands newly posted, in count order, with the bodies that the part fetches when its writer of table commands
has the DMA engine (R63, R497, R536). -/
def submitCmds (s : State) (pipe first : Nat) (bodies : List Bytes) : State :=
  modPipe s pipe fun p => { p with cmds := p.cmds ++
    ((List.range bodies.length).map fun i =>
      { count := (first + i) % 2 ^ 32, recv := s.beat, tick := s.rm.tick + 1, kind := 0, held := false,
        body := slice (bodies.getD i []) 0 160, arg := 0 }) }

/-- A doorbell write of a command ring submits every newly posted command in its beat; the bodies
are the elements that host memory holds (R63, R536). -/
def rowCmdRingDoorbell (fn pipe count : Nat) (bodies : List Bytes) (s : State) : State :=
  whenRun s fun s =>
    let r := cmdRing pipe
    let before := (ringAt s r).prod
    let s := doorbell s fn r (0x10000 + pipe * 8) count
    let n := ((ringAt s r).prod + 2 ^ 32 - before) % 2 ^ 32
    if (ringAt s r).state = 1 then
      submitCmds s pipe before ((bodies ++ List.replicate n []).take n)
    else s

def rowMsixTimerExpiry (ring : Nat) (s : State) : State :=
  whenRun s fun s =>
    let n := rowIrqUsec (ringRow s ring)
    match (ringAt s ring).firstUnsig with
    | some b => if n != 0 && due s (b + n * 1250) then signalRing s ring else s
    | none => s

/-- A ring row write with enable 1 (R524, R543). -/
def rowRingEnable (src : Origin) (ring : Nat) (row : Bytes) (s : State) : State :=
  let (sub, r) := ringPlace ring
  writeCmd s src 0x8100 sub r (putNat row 8 8 (setBit (rowWord row 1) 63 true))
    (ringWrite ring (putNat row 8 8 (setBit (rowWord row 1) 63 true)))

/-- A write of enable 0 to a ring's row (R543). -/
def rowRingDisable (src : Origin) (ring : Nat) (s : State) : State :=
  let (sub, r) := ringPlace ring
  let old := slice (storedRow s ring) 0 32
  let row := putNat old 8 8 (setBit (rowWord old 1) 63 false)
  writeCmd s src 0x8100 sub r row (ringRowWrite ring row)

def rowRingStopped (ring : Nat) (s : State) : State :=
  whenRun s fun s => stopDone s ring

/-- A DMA read for the function completes with an error: cause 3 (R515); its function block counts
it (R587). -/
def rowDmaReadError (fn ring : Nat) (s : State) : State :=
  whenRun s fun s => freezeFn (count s (cFn fn 6) 1) fn 3 ring

/-- The link has trained: rate in GT/s and width (R510, R542). -/
def rowPcieLinkTrained (speed width : Nat) (s : State) : State :=
  whenRun s fun s => { s with host := { s.host with link := speed % 256 * 256 + width % 256 } }

/-- SR-IOV enables virtual functions 1 to count (R510, R542). -/
def rowSriovVfEnable (count : Nat) (s : State) : State :=
  whenRun s fun s => if count ≤ 63 then { s with host := { s.host with vfs := count } } else s

end Sys2Proof.Machine
end

