-- ==== Sys2Proof/Machine/TimeBase.lean ====
section
/-! DEFINITION. Time bases, pulse outputs and capture inputs (R471 to R496). -/

namespace Sys2Proof.Machine

/-! ## Counters -/

def tbRate (s : State) (t : Nat) : Int := signed 32 (rw s (0x2000 + t) 3)
def tbSppm (s : State) (t : Nat) : Nat := rw s (0x2000 + t) 7
def tbValid (s : State) (t : Nat) : Bool := (tbAt s t).state == .valid

/-- Whole nanoseconds of the reading (R471, R474). -/
def tbNs (s : State) (t : Nat) : Nat := (tbAt s t).v.toNat / 2 ^ 64

/-- Division rounded to the nearest integer, halves away from zero (R472). -/
def roundAway (a : Int) (b : Nat) : Int :=
  if a < 0 then -((((-a).toNat * 2 + b) / (2 * b) : Nat) : Int)
  else (((a.toNat * 2 + b) / (2 * b) : Nat) : Int)

/-- The nominal increment, 0.8 ns in 2^-64 ns (R472). -/
def a0 : Nat := 0xCCCCCCCCCCCCCCCD

/-- The increment of one beat and the slew that remains after it (R472). -/
def tbIncrement (rate : Int) (sppm : Nat) (r : Int) : Int × Int :=
  let ab := (a0 : Int) + roundAway ((a0 : Int) * rate) 65536000000
  let e := roundAway ((a0 : Int) * sppm) 1000000
  if r = 0 then (ab, 0)
  else if r.natAbs ≤ e.natAbs then (ab + r, 0)
  else (ab + r.sign * e, r - r.sign * e)

/-- v and the epoch after v moves by an amount (R472, R473): a carry past 0xFFFF_FFFF ns or a
borrow below 0 changes the epoch by one. -/
def tbMove (b : TimeBase) (d : Int) : TimeBase × Bool :=
  let n := (b.v.toNat : Int) + d
  let ep := if n < 0 then b.epoch - 1 else if 2 ^ 96 ≤ n then b.epoch + 1 else b.epoch
  ({ b with v := BitVec.ofInt 96 n, epoch := ep }, decide (2 ^ 96 ≤ n))

/-- v some beats after it was a value, at a rate and a slew that have not changed since (R472). -/
def tbAfter (v : Nat) (rate : Int) (sppm : Nat) (slew : Int) (beats : Nat) : Int :=
  let ab := (tbIncrement rate sppm 0).1
  let e := roundAway ((a0 : Int) * sppm) 1000000
  let added := if slew.natAbs ≤ beats * e.natAbs then slew else slew.sign * (e * beats)
  v + ab * beats + added

/-! ## Readings of earlier beats (R484) -/

/-- How far back a stamp may lie: longer than the longest frame of the slowest port takes (log entry 171). -/
def markSpan : Nat := 10000000

/-- What a list, newest first, keeps: the entries within `markSpan` of a beat, and the one before them. -/
def keepRecent {α : Type} (at_ : α → Nat) (now : Nat) (l : List α) : List α :=
  let recent := fun x => decide (now < at_ x + markSpan)
  l.takeWhile recent ++ (l.dropWhile recent).take 1

/-- The time base as this beat leaves it. -/
def tbMarkNow (s : State) (t : Nat) : TbMark :=
  let b := tbAt s t
  { beat := s.beat, v := b.v, epoch := b.epoch, rate := tbRate s t, sppm := tbSppm s t, slew := b.slew,
    valid := b.state == .valid }

/-- Keep the reading of this beat. -/
def markTb (s : State) (t : Nat) : State :=
  let m := tbMarkNow s t
  let old := (tbAt s t).marks.filter fun x => x.beat != m.beat
  modTb s t fun b => { b with marks := keepRecent TbMark.beat s.beat (m :: old) }

/-- The last mark still tells how the time base goes on. -/
def markHolds (s : State) (t : Nat) : Bool :=
  match (tbAt s t).marks with
  | [] => false
  | m :: _ => m.rate == tbRate s t && m.sppm == tbSppm s t && m.valid == tbValid s t

/-- The time base as it was at an earlier beat, and whether it was VALID then. -/
def tbThen (s : State) (t beat : Nat) : TimeBase × Bool :=
  let b := tbAt s t
  match b.marks.find? fun m => decide (m.beat ≤ beat) with
  | none => (b, tbValid s t)
  | some m =>
    let d := tbAfter m.v.toNat m.rate m.sppm m.slew (beat - m.beat) - m.v.toNat
    ((tbMove { b with v := m.v, epoch := m.epoch } d).1, m.valid)

/-! ## Pulse outputs: the next value -/

def toutAt (s : State) (k : Nat) : PinOut := tget PinOut.init s.pinsOut k
def modTout (s : State) (k : Nat) (f : PinOut → PinOut) : State :=
  { s with pinsOut := tmod PinOut.init s.pinsOut k f }
def toutMode (s : State) (k : Nat) : Nat := rw s (0x2040 + k) 1
def toutTb (s : State) (k : Nat) : Nat := rw s (0x2040 + k) 2

/-- The realigned value of a periodic pin (R491). -/
def realign (next now period : Nat) : Nat :=
  let d := (next + 2 ^ 32 - now % 2 ^ 32) % 2 ^ 32
  if 2 ^ 31 ≤ d then (next + ceilDiv (2 ^ 32 - d) period * period) % 2 ^ 32
  else if period < d then (next + 2 ^ 32 * period - (d - 1) / period * period) % 2 ^ 32
  else next

/-- A one-shot that can no longer pulse: mode 0, no pulse and TIME_OUT_MISSED (R491, R492). -/
def missOneShot (s : State) (k : Nat) : State :=
  let s := setRw (modTout s k fun o => { o with fired := true }) (0x2040 + k) 1 noRow [0]
  raiseEv { s with held := terase s.held (keyOf (0x2040 + k) 1 noRow) } evToutMissed k []

/-- Realign a pin's next value; `fromStart` at a write, which begins again from `tout.start`
(R491). -/
def realignPin (s : State) (k : Nat) (mode tb start period : Nat) (fromStart : Bool) : State :=
  let now := tbNs s tb
  if mode = 2 then
    modTout s k fun o => { o with next := realign (if fromStart then start else o.next) now period }
  else if mode = 1 then
    let s := modTout s k fun o =>
      { o with next := start, fired := if fromStart then false else o.fired }
    if !(toutAt s k).fired && decide (2 ^ 31 ≤ (start + 2 ^ 32 - now % 2 ^ 32) % 2 ^ 32) then
      missOneShot s k
    else s
  else s

/-- Realign every pin on a time base after a step or its return to VALID. -/
def realignAll (s : State) (t : Nat) : State :=
  (List.range 8).foldl (fun s k =>
    if toutTb s k = t then
      realignPin s k (toutMode s k) t (rw s (0x2040 + k) 3) (rw s (0x2040 + k) 4) false
    else s) s

/-! ## The ringmaster's loss of its source (R57) -/

/-- A case of R57 in this beat: the tick in progress ends as if it had been FREE, at the next beat
where that one has passed. -/
def tickLost (s : State) : State :=
  if s.rm.mode = .free || s.rm.lost then s
  else
    let passed := decide (s.rm.boundaryBeat + 1250000000 / s.rm.rate < s.beat)
    { s with rm := { s.rm with lost := true, notBefore := s.beat + b2n passed } }

def tickUses (s : State) (t : Nat) : Bool := rw s 0x2800 2 == t + 1

/-! ## The advance of every beat (R472, R473, R478) -/

/-- A step waiting for this beat is applied, uses the step up, is kept among the last four, and is reported. -/
def applyStep (s : State) (t : Nat) : State :=
  let b := tbAt s t
  match b.stepPending with
  | none => s
  | some o =>
    let b := (tbMove b (o * 2 ^ 32)).1
    let s := modTb s t fun _ =>
      { b with stepPending := none, stepUsed := true, steps := ((s.beat, o) :: b.steps).take 4 }
    let s := raiseEv s evTbStepped t [unsigned 64 o]
    let s := if tickUses s t then tickLost s else s
    realignAll s t

/-- A slew written in the beat before takes the place of what remains (R481). -/
def startSlew (s : State) (t : Nat) : State :=
  modTb s t fun b => { b with slew := b.slewNext.getD b.slew, slewNext := none }

/-- The advance of one time base; WRAP when it carries past 0xFFFF_FFFF ns. -/
def advanceTb (s : State) (t : Nat) : State :=
  let changed := (tbAt s t).stepPending.isSome || (tbAt s t).slewNext.isSome || !markHolds s t
  let s := startSlew (applyStep s t) t
  let b := tbAt s t
  let (add, r) := tbIncrement (tbRate s t) (tbSppm s t) b.slew
  let (b, carry) := tbMove { b with slew := r } add
  let s := modTb s t fun _ => b
  let s := if changed then markTb s t else s
  if carry then raiseEv s evWrap t [b.epoch.toNat] else s

def advanceAll (s : State) : State := (List.range 4).foldl advanceTb s

/-! ## Commands -/

/-- SETTLING, the step free again, no slew (R476); a write to an enabled time base is ignored. -/
def tbEnable (t : Nat) (s : State) : Option State :=
  if (tbAt s t).state = .disabled then
    some (modTb (setRw s (0x2000 + t) 1 noRow [1]) t fun b =>
      { b with state := .settling, stepUsed := false, slew := 0, slewNext := none, boundaries := 0 })
  else some s

/-- A write of 0 to `tb.enable`: DISABLED from the next beat; ignored where it is so (R477). -/
def tbDisable (t : Nat) (s : State) : Option State :=
  if (tbAt s t).state = .disabled then some s
  else some (soonDo (setRw s (0x2000 + t) 1 noRow [0]) (.tbDisable t))

/-- DISABLED, no slew, TB_INVALID, and the ringmaster is told (R477, R57). The gate lists are told by
their own chapter. -/
def tbStop (t : Nat) (s : State) : State :=
  let s := modTb s t fun b => { b with state := .disabled, slew := 0, slewNext := none }
  let s := raiseEv s evTbInvalid t []
  if tickUses s t then tickLost s else s

/-- A step applies at the start of the next beat (R478). A second write in the same beat, whose outcome the manual
does not state, is rejected as the step is given away (DESIGN CHOICE, log entry 172). -/
def tbStep (t offset : Nat) (s : State) : Option State :=
  let b := tbAt s t
  if b.state = .disabled || b.stepUsed || b.stepPending.isSome || b.slew != 0 then none
  else some (modTb s t fun b => { b with stepPending := some (signed 64 offset) })

/-- The rate and the slew rate together stay within 1,000 ppm (R480, R481). -/
def rateFits (rate : Int) (sppm : Nat) : Bool := rate.natAbs + sppm * 65536 ≤ 65536000

def tbSetRate (t rate : Nat) (s : State) : Option State :=
  let r := signed 32 rate
  if 65536000 < r.natAbs || ((tbAt s t).slew != 0 && !rateFits r (tbSppm s t)) then none
  else some (setRw s (0x2000 + t) 3 noRow (bytesOf 4 rate))

/-- A phase slew, from the next beat, in place of any that remains; 0 stops it (R481). -/
def tbSlew (t offset : Nat) (s : State) : Option State :=
  if rateFits (tbRate s t) (tbSppm s t) then
    some (modTb s t fun b => { b with slewNext := some (signed 64 offset * 2 ^ 32) })
  else none

/-- A write of `tb.slew.ppm` (R495). -/
def tbSetSlewPpm (t : Nat) (v : Bytes) (s : State) : Option State :=
  some (setRw s (0x2000 + t) 7 noRow v)

/-- SETTLING ends at the second tick boundary after the enable (R476). -/
def tbBecomeValid (s : State) (t : Nat) : State :=
  let s := modTb s t fun b => { b with state := .valid, validSince := s.rm.tick }
  let s := markTb (raiseEv s evTbValid t []) t
  realignAll s t

/-- A width fits its pin: 4 ns and, for a periodic pin, at most the period less 4 ns (R492). -/
def widthOk (mode period width : Nat) : Bool :=
  decide (4 ≤ width) && (mode != 2 || decide (width + 4 ≤ period))

/-- The pin that a write realigns at the next beat. -/
def Soon.pin : Soon → Option Nat
  | .realign k => some k
  | .portReset _ | .release _ | .tickLost | .tbDisable _ | .unitOut _ | .clearPairs _ | .tinDrop _ _ => none

/-- A pin whose objects were written realigns its next value as the write takes effect, on the reading of that beat
(R491, R496; log entry 173). -/
def realignWritten (s : State) (k : Nat) : State :=
  realignPin s k (toutMode s k) (toutTb s k) (rw s (0x2040 + k) 3) (rw s (0x2040 + k) 4) true

/-- A write of a pulse output's object, in force from the next beat; mode, time base, start and period realign the
next value then (R491, R492, R496). -/
def toutWrite (k sub value : Nat) (s : State) : Option State :=
  let get := fun n => if n = sub then value else natOf (stored s (0x2040 + k) n noRow)
  if 1 ≤ sub && sub ≤ 5 && !widthOk (get 1) (get 4) (get 5) then none
  else
    let len := if sub = 1 || sub = 2 || sub = 6 then 1 else 4
    let s := setRw s (0x2040 + k) sub noRow (bytesOf len value)
    some (if 1 ≤ sub && sub ≤ 4 then soonDo s (.realign k) else s)

def toutLen (sub : Nat) : Nat := if sub = 1 || sub = 2 || sub = 6 then 1 else 4

/-- The level of a pin: its active level is high for polarity 0 (R490). -/
def pinLevel (s : State) (k : Nat) (active : Bool) : Bool := active != rwBool s (0x2040 + k) 6

/-- A pulse starts when the reading has reached the scheduled value (R490 to R492). -/
def pulse (s : State) (k : Nat) : State :=
  let o := toutAt s k
  let t := toutTb s k
  let mode := toutMode s k
  if mode = 0 || o.active || (mode = 1 && o.fired) || !reached32 (tbNs s t) o.next then s
  else if !tbValid s t then (if mode = 1 then missOneShot s k else s)
  else
    let width := roundDiv (rw s (0x2040 + k) 5 * 125) 100
    emit (modTout s k fun o =>
      { o with active := true, endBeat := beatAfter s width,
               fired := o.fired || mode == 1,
               next := if mode = 2 then (o.next + rw s (0x2040 + k) 4) % 2 ^ 32 else o.next })
      (.pulse k (pinLevel s k true))

/-- A pulse ends after its width in beats (R490). -/
def pulseEnd (s : State) (k : Nat) : State :=
  let o := toutAt s k
  if o.active && due s o.endBeat then
    emit (modTout s k fun o => { o with active := false }) (.pulse k (pinLevel s k false))
  else s

def tinAt (s : State) (i : Nat) : PinIn := tget PinIn.init s.pinsIn i
def modTin (s : State) (i : Nat) (f : PinIn → PinIn) : State :=
  { s with pinsIn := tmod PinIn.init s.pinsIn i f }

/-- The reading in 1/256 ns, halves rounded up, `back` units before now (R474, R493). -/
def stampOf (b : TimeBase) (back : Nat) : Nat × Nat :=
  let full := b.epoch.toNat * 2 ^ 40 + (b.v.toNat + 2 ^ 55) / 2 ^ 56
  let x := (full + 2 ^ 72 - back) % 2 ^ 72
  (x / 2 ^ 40, x % 2 ^ 40)

/-- The capture row of an edge (R493). -/
def captureRow (s : State) (t : Nat) (rise : Bool) (back : Nat) : Nat :=
  let (ep, st) := stampOf (tbAt s t) back
  b2n rise * 2 ^ 63 + t * 2 ^ 61 + b2n (tbValid s t) * 2 ^ 60 + ep % 2 ^ 20 * 2 ^ 40
    + st % 256 * 2 ^ 32 + st / 256

/-- An edge on a capture pin (R493, R494). -/
def capture (s : State) (i : Nat) (rise : Bool) (back : Nat) : State :=
  let edge := rw s (0x2060 + i) 1
  let o := tinAt s i
  if !bit edge (if rise then 0 else 1) then s
  else if o.fifo.length < 16 then
    let row := captureRow s (rw s (0x2060 + i) 2) rise back
    raiseEv (modTin s i fun o => { o with fifo := o.fifo ++ [row] }) evTimeCapture i []
  else
    let again := o.lostTick = some s.rm.tick
    let s := modTin s i fun o =>
      { o with overflow := (o.overflow + 1) % 2 ^ 32, lostTick := some s.rm.tick }
    if again then s else raiseEv s evCaptureLost i []

/-- The oldest rows of a capture FIFO go (R494). -/
def tinDrop (i rows : Nat) (s : State) : State := modTin s i fun o => { o with fifo := o.fifo.drop rows }

/-- `tin.ack` takes effect at the next beat (R494, R496). -/
def tinAck (i rows : Nat) (s : State) : Option State := some (soonDo s (.tinDrop i rows))

/-- The value that an object of `ptp.port` had at an earlier beat (R496). -/
def ptpThen (s : State) (n sub beat : Nat) : Nat :=
  match (portAt s n).ptpPast.reverse.find? fun e => e.2.1 == sub && decide (beat ≤ e.1) with
  | some e => e.2.2
  | none => rw s (0x2100 + n) sub

/-- A write of an object of `ptp.port`, in force from the next beat (R496). -/
def ptpWrite (n sub : Nat) (v : Bytes) (s : State) : Option State :=
  let old := (s.beat, sub, rw s (0x2100 + n) sub)
  some (setRw (modPort s n fun p =>
    { p with ptpPast := keepRecent Prod.fst s.beat (old :: p.ptpPast) }) (0x2100 + n) sub noRow v)

/-! ## The commands' meanings -/

def rowTbEnable (src : Origin) (tb : Nat) (s : State) : State :=
  writeCmd s src (0x2000 + tb) 1 noRow [1] (tbEnable tb)

def rowTbStep (src : Origin) (tb offset : Nat) (s : State) : State :=
  writeCmd s src (0x2000 + tb) 4 noRow (bytesOf 8 offset) (tbStep tb offset)

def rowTbRateWrite (src : Origin) (tb rate : Nat) (s : State) : State :=
  writeCmd s src (0x2000 + tb) 3 noRow (bytesOf 4 rate) (tbSetRate tb rate)

def rowTbSlew (src : Origin) (tb offset : Nat) (s : State) : State :=
  writeCmd s src (0x2000 + tb) 6 noRow (bytesOf 8 offset) (tbSlew tb offset)

def rowToutConfigWrite (src : Origin) (pin sub value : Nat) (s : State) : State :=
  writeCmd s src (0x2040 + pin) sub noRow (bytesOf (toutLen sub) value)
    (toutWrite pin sub value)

def rowTimeOutPulse (pin : Nat) (s : State) : State :=
  whenRun s fun s => pulse s pin

def rowTimeOutPulseEnd (pin : Nat) (s : State) : State :=
  whenRun s fun s => pulseEnd s pin

def rowTimeCapture (pin : Nat) (rise : Bool) (back : Nat) (s : State) : State :=
  whenRun s fun s => capture s pin rise back

def rowTinAck (src : Origin) (pin rows : Nat) (s : State) : State :=
  writeCmd s src (0x2060 + pin) 4 noRow (bytesOf 1 rows) (tinAck pin rows)

end Sys2Proof.Machine
end

