-- ==== Sys2Proof/Machine/Buffer.lean ====
section
/-! DEFINITION. Port modes and their fixed figures (R88, R100, R373), the packet buffer and the
ingress accounting (R360 to R376), link loss (R380 to R384) and the copy reserve (R390). -/

namespace Sys2Proof.Machine

/-! ## Modes (R88, R100, R373) -/

def modeLanes (m : Nat) : Nat := [0, 1, 1, 1, 1, 4, 2, 4, 8, 1, 1].getD m 0

/-- Data rate in Mb/s (R373). -/
def modeRate (m : Nat) : Nat :=
  [0, 1000, 10000, 25000, 50000, 100000, 100000, 200000, 400000, 1000, 2500].getD m 0

/-- FEC values that a mode allows (R88). -/
def modeFecs (m : Nat) : List Nat :=
  [[], [0], [0, 1], [0, 1, 2], [3], [0, 2], [3], [3], [3], [0], [0]].getD m []

/-- Clause 73 in R88. -/
def modeClause73 (m : Nat) : Bool := decide (2 ≤ m) && decide (m ≤ 7)

/-- A mode that has training in R88. -/
def modeTrains (m : Nat) : Bool := decide (2 ≤ m) && decide (m ≤ 7)

def modePam4 (m : Nat) : Bool := m == 4 || m == 6 || m == 7 || m == 8

/-- SerDes and PCS delays in beats: receive, transmit (R100). -/
def modeDelay (m : Nat) : Nat × Nat :=
  [(0, 0), (80, 50), (56, 38), (30, 18), (55, 23), (32, 18), (58, 24), (59, 24), (60, 25),
   (80, 50), (40, 25)].getD m (0, 0)

/-- FEC delays in beats: receive, transmit (R100). -/
def fecDelay (m fec : Nat) : Nat × Nat :=
  if fec = 1 then (if m = 2 then (264, 8) else if m = 3 then (112, 8) else (0, 0))
  else if fec = 2 then (if m = 3 then (306, 10) else if m = 5 then (114, 10) else (0, 0))
  else if fec = 3 then
    (if m = 4 then (178, 10) else if m = 6 then (114, 10) else if m = 7 then (82, 10)
     else if m = 8 then (66, 10) else (0, 0))
  else (0, 0)

/-- Receive and transmit delay of a mode with a FEC, in ps (a beat is 800 ps). -/
def delayPs (m fec : Nat) : Nat × Nat :=
  (800 * ((modeDelay m).1 + (fecDelay m fec).1), 800 * ((modeDelay m).2 + (fecDelay m fec).2))

/-- A mode fits at a first lane without crossing an octet (R88). -/
def fitsOctet (n m : Nat) : Bool := n ≥ 128 || decide (n % 8 + modeLanes m ≤ 8)

def portMode (s : State) (n : Nat) : Nat := rw s (0x3100 + n) 1
def portEnabled (s : State) (n : Nat) : Bool := decide (n < 130) && rwBool s (0x3100 + n) 2
def portAn (s : State) (n : Nat) : Nat := rw s (0x3100 + n) 4

/-- Modes that a port with Clause 73 advertises: set, with an ability, within the footprint
(R102, R115). -/
def advertised (s : State) (n : Nat) : List Nat :=
  (List.range 11).filter fun m =>
    bit (rw s (0x3100 + n) 5) m && modeClause73 m
      && decide (modeLanes m ≤ modeLanes (portMode s n))

def isUp (s : State) (n : Nat) : Bool := (portAt s n).state == 5

/-- Data rate of a port node in Mb/s (R373, R532). -/
def portRate (s : State) (n : Nat) : Nat :=
  if 130 ≤ n then 320000
  else if (portAt s n).modeActive ≠ 0 then modeRate (portAt s n).modeActive
  else modeRate (portMode s n)

/-! ## Headroom and reserves (R370 to R372) -/

def fcMode (s : State) (n : Nat) : Nat := rw s (0x6100 + n) 1
def minCells (s : State) (n : Nat) : Nat := rw s (0x6100 + n) 9

/-- Headroom that a mode needs at a wire distance (R372). -/
def modeHeadroom (m cable peer cmtu extra : Nat) : Nat :=
  let fec := (modeFecs m).foldl (fun a f => max a (fecDelay m f).1) 0
  let fecT := (modeFecs m).foldl (fun a f => max a (fecDelay m f).2) 0
  let ps := 800 * ((modeDelay m).1 + fec + (modeDelay m).2 + fecT)
  let t := 10 * cable + peer + ps / 1000 + 80
  ceilDiv (ceilDiv (modeRate m * t) 8000) 84 + cmtu + extra

/-- h(n, k) (R370, R372). -/
def headroom (s : State) (n k : Nat) : Nat :=
  if n = 134 then 0 else if 130 ≤ n then 64
  else
    let cmtu := 2 * ceilDiv (rw s (0x3100 + n) 12) 256
    let extra := rw s (0x6100 + n) 13
    let fc := fcMode s n
    if fc = 0 || (fc = 2 && !bit (rw s (0x6100 + n) 2) k) then cmtu + extra
    else
      let ms := if portAn s n = 1 then advertised s n else [portMode s n]
      ms.foldl (fun a m =>
        max a (modeHeadroom m (rw s (0x6100 + n) 7) (rw s (0x6100 + n) 8) cmtu extra))
        (cmtu + extra)

/-- Port nodes in use: enabled front and management ports, 130 to 133 and 135 (R371). -/
def nodesInUse (s : State) : List Nat :=
  ((trange s.objs (keyOf 0x3100 0 0) (keyOf 0x3182 0 0)).filter fun e =>
      keySub e.1 == 2 && natOf e.2 != 0).map (fun e => keyIdx e.1 - 0x3100)
    ++ [130, 131, 132, 133, 135]

/-- Cells that a node reserves: its minima and headroom, one headroom in pause mode (R365). -/
def reserveOf (s : State) (n : Nat) : Nat :=
  8 * minCells s n +
    (if fcMode s n = 1 && n < 130 then headroom s n 0
     else sumNat ((List.range 8).map (headroom s n)))

def reserves (s : State) : Nat := sumNat ((nodesInUse s).map (reserveOf s)) + rw s 0x6000 6

/-- `buf.shared.size` (R365). -/
def sharedSize (s : State) : Nat := 262144 - reserves s

/-- f: free cells of the shared area (R365). -/
def sharedFree (s : State) : Nat := sharedSize s - s.buf.sharedUsed

/-- The write leaves the shared area at 8,192 cells or more (R371). -/
def reservesOk (s : State) : Bool := decide (reserves s + 8192 ≤ 262144)

/-! ## Charges (R365 to R367) -/

def acctAt (s : State) (n : Nat) : Acct := tget Acct.init s.buf.acct n
def modAcct (s : State) (n : Nat) (f : Acct → Acct) : State :=
  { s with buf := { s.buf with acct := tmod Acct.init s.buf.acct n f } }

/-- Pause mode: r and x are one for the port (R365). -/
def onePool (s : State) (n : Nat) : Bool := fcMode s n == 1 && n < 130

def rUsed (s : State) (n k : Nat) : Nat :=
  if onePool s n then sumNat ((acctAt s n).r.map Prod.snd) else tget 0 (acctAt s n).r k

def xOf (s : State) (n k : Nat) : Bool :=
  if onePool s n then (acctAt s n).x.any (fun e => e.2 != 0) else tget 0 (acctAt s n).x k != 0

/-- Charge one cell; none is an overflow of the headroom (R366). -/
def charge1 (s : State) (n k : Nat) : Option State :=
  let a := acctAt s n
  if tget 0 a.p k < minCells s n then some (modAcct s n fun a => { a with p := tmod 0 a.p k (· + 1) })
  else if !xOf s n k && decide (0 < sharedFree s) then
    let s := modAcct s n fun a => { a with s := tmod 0 a.s k (· + 1) }
    some { s with buf := { s.buf with sharedUsed := s.buf.sharedUsed + 1 } }
  else if rUsed s n k < headroom s n (if onePool s n then 0 else k) then
    some (modAcct s n fun a => { a with r := tmod 0 a.r k (· + 1), x := tput 0 a.x k 1 })
  else none

def charge (n k : Nat) : Nat → State → Option State
  | 0, s => some s
  | c + 1, s => match charge1 s n k with
    | none => none
    | some t => charge n k c t

/-- Release one cell: headroom first, then shared, then private (R366). -/
def release1 (s : State) (n k : Nat) : State :=
  let a := acctAt s n
  let rk := if onePool s n && tget 0 a.r k = 0 then ((a.r.head?.map Prod.fst).getD k) else k
  if 0 < tget 0 a.r rk then modAcct s n fun a => { a with r := tmod 0 a.r rk (· - 1) }
  else if 0 < tget 0 a.s k then
    let s := modAcct s n fun a => { a with s := tmod 0 a.s k (· - 1) }
    { s with buf := { s.buf with sharedUsed := s.buf.sharedUsed - 1 } }
  else modAcct s n fun a => { a with p := tmod 0 a.p k (· - 1) }

/-- Cells leave the free list. -/
def fromFree (s : State) (cells : Nat) : State :=
  let free := s.buf.cellsFree - cells
  { s with buf := { s.buf with cellsFree := free, cellsLow := min s.buf.cellsLow free } }

/-- Take cells for a frame (R360); none when the headroom overflows, with nothing charged. -/
def takeCells (s : State) (n k cells : Nat) : Option State :=
  (charge n k cells s).map fun s => fromFree s cells

/-- Return a frame's cells to the free list (R361). -/
def giveCells (s : State) (n k cells : Nat) : State :=
  let s := times (fun s => release1 s n k) cells s
  { s with buf := { s.buf with cellsFree := s.buf.cellsFree + cells } }

/-- A frame's cells return in the next beat (R361). -/
def returnCells (s : State) (n k cells : Nat) : State :=
  if cells = 0 then s
  else { s with buf := { s.buf with returns := s.buf.returns ++ [(n, k, cells)] } }

/-- The cells whose frames the last beat ended return. -/
def giveReturned (s : State) : State :=
  s.buf.returns.foldl (fun s e => giveCells s e.1 e.2.1 e.2.2)
    { s with buf := { s.buf with returns := [] } }

def cellsOf (bytes : Nat) : Nat := ceilDiv bytes 256

/-- x(n, k) is held at 1: a frozen scope, a refusing MAC, or a flush that holds it (R376, R382,
R603). -/
def xHeld (s : State) (n k : Nat) : Bool :=
  let p := portAt s n
  p.refusing || p.frozen || bit p.frozenCls k
    || s.ports.any fun e => e.2.flushHold.contains (n, k)

/-- Re-evaluate x of one class, or of the port in pause mode (R367). -/
def evalX (s : State) (n k : Nat) : State :=
  let ks := if onePool s n then List.range 8 else [k]
  let a := acctAt s n
  let f := sharedFree s
  let xoff := rw s (0x6100 + n) 10
  let xon := rw s (0x6100 + n) 11
  let held := ks.any (xHeld s n)
  let high := ks.any fun j =>
    decide (xoff ≤ tget 0 a.s j) || (decide (f ≤ rw s 0x6000 4) && decide (0 < tget 0 a.s j))
  let calm := rUsed s n k == 0 && ks.all fun j =>
    decide (tget 0 a.s j ≤ xon) && (tget 0 a.s j == 0 || decide (rw s 0x6000 5 < f))
  let s := if high || held then modAcct s n fun a => { a with x := tput 0 a.x k 1 } else s
  if xOf s n k && calm && !held then
    modAcct s n fun a => { a with x := ks.foldl (fun t j => terase t j) a.x }
  else s

/-- Nodes whose x can change: those with charges, and those held (R367). -/
def xNodes (s : State) : List Nat :=
  let held := (s.ports.filter fun e => e.2.refusing || e.2.frozen || e.2.frozenCls != 0).map Prod.fst
  let flush := s.ports.flatMap fun e => e.2.flushHold.map Prod.fst
  (tkeys s.buf.acct ++ held ++ flush).foldl (fun l n => insertUnique n l) []

/-- The evaluation of every beat (R367). -/
def evalAllX (s : State) : State :=
  (xNodes s).foldl (fun s n =>
    if onePool s n then evalX s n 0 else (List.range 8).foldl (fun s k => evalX s n k) s) s

/-! ## Packets leave (R186, R361, R530) -/

/-- Output port node of a decision (R518, R162). -/
def decNode (d : Decision) : Nat := if d.kind = 4 then 130 + d.ring / 1024 else d.port

/-- Words of a transmit write-back (R530). -/
def txWords (status te tb : Nat) (valid : Bool) (cookie : Nat) : List Nat :=
  [status * 2 ^ 59 + b2n valid * 2 ^ 58 + tb % 4 * 2 ^ 56 + te % 2 ^ 32, 0, 0, cookie]

/-- The write-back of a host frame that asked for a timestamp, at its end or discard (R531). -/
def txFinish (s : State) (k : Pkt) (status : Nat) : State :=
  match k.tx with
  | some t =>
    if t.ts then
      completeCount s (txRing t.ring) t.count
        (txWords status k.out.te (k.out.teTb.getD (rw s (0x2100 + decNode k.dec) 1)) k.out.teValid t.cookie)
    else s
  | none => s

/-- The frame has still to be judged by its policer, whatever became of it (R423). -/
def awaitsJudge (k : Pkt) : Bool :=
  k.tailDone && k.bad == 0 && k.policer.isSome && k.colour == 0 && k.policy != 2 && k.policy != 3

/-- A packet's frame is gone for good: cells back, slot released (R186, R361). What a policer has
still to judge stays known until then. -/
def freePkt (s : State) (k : Pkt) : State :=
  let s := returnCells s k.node k.cls (k.cells - k.given)
  if awaitsJudge k then modPkt s k.id fun k =>
    { k with stage := .gone, holds := false, cells := 0, given := 0 }
  else dropPkt s k.id

/-- What the reads of a frame's or copy's cells meet (R363), each with the cell's place in it: single errors are
corrected and counted, and the place of the first double one is answered. Which cell of the buffer that is the manual
leaves to the free list (log entry 55). -/
def readCells (n : Nat) : List (Nat × Ecc) → State → State × Option Nat
  | [], s => (s, none)
  | (_, .ok) :: t, s => readCells n t s
  | (_, .single) :: t, s => readCells n t (count s (cPart 0) 1)
  | (i, .double) :: t, s =>
    let (s, _) := readCells n t
      (raiseEv (count (useFresh s) (cPart 1) 1) evBufferEcc n [freshValue s % 262144])
    (s, some i)

/-! ## The scheduling tree (R410, R413, R417) -/

/-- A scheduling node: level 0 queue, 1 subscriber, 2 service, 3 port. -/
def nodeKey (level i : Nat) : Nat := level * 2 ^ 17 + i

def subSvc (s : State) (n : Nat) : Nat := subLink s n % 1024
def svcNode (s : State) (n : Nat) : Option Nat :=
  if bit (svcLink s n) 15 then some (svcLink s n % 256) else none

/-- Queues that hold a frame. -/
def busyQueues (s : State) : List Nat := tkeys s.buf.queues

def zeroDeficit (s : State) (k : Nat) : State := modNode s k fun x => { x with deficit := 0 }

/-- The deficits of the nodes that a queue has left without a frame beneath them (R417). -/
def settleDeficits (s : State) (q : Nat) : State :=
  let busy := busyQueues s
  let svc := subSvc s (q / 8)
  if busy.contains q then s
  else
    let s := zeroDeficit s (nodeKey 0 q)
    if busy.any (fun x => x / 8 == q / 8) then s
    else
      let s := zeroDeficit s (nodeKey 1 (q / 8))
      if busy.any (fun x => subSvc s (x / 8) == svc) then s else zeroDeficit s (nodeKey 2 svc)

/-- A frame leaves its queue. -/
def leaveQueue (s : State) (q id : Nat) : State :=
  settleDeficits (modQueue s q fun l => l.filter (· != id)) q

/-- Discard a packet: it leaves its queue and releases its slot; its cells wait for its tail when
that has not arrived (R361). -/
def discardPkt (s : State) (id : Nat) : State :=
  match pktAt s id with
  | none => s
  | some k =>
    let s := if k.stage = .queued then leaveQueue s k.out.qid id else s
    let s := txFinish s k 2
    if k.tailDone then freePkt s k
    else modPkt s id fun k => { k with stage := .gone, holds := false }

/-! ## Link loss (R380 to R383) -/

/-- Frames queued for an egress port node, queues in ascending number, oldest first. -/
def queuedFor (s : State) (n : Nat) : List Nat :=
  s.buf.queues.flatMap fun q => q.2.filter fun id =>
    match pktAt s id with
    | some k => decNode k.dec == n
    | none => false

/-- Ingress nodes and classes with cells in a port's queues (R382). -/
def flushSet (s : State) (n : Nat) : List (Nat × Nat) :=
  (queuedFor s n).foldl (fun l id =>
    match pktAt s id with
    | some k => if l.contains (k.node, k.cls) then l else l ++ [(k.node, k.cls)]
    | none => l) []

/-- Enter FLUSH: record whose cells wait, and hold their x (R381, R382). -/
def enterFlush (s : State) (n : Nat) : State :=
  if (portAt s n).link = 2 then s
  else modPort s n fun p => { p with link := 2, flushed := 0, flushHold := flushSet s n }

/-- One discard of a flush (R381 step 3). -/
def flushOne (s : State) (n : Nat) : State :=
  if (portAt s n).link = 2 then
    match queuedFor s n with
    | [] => s
    | id :: _ =>
      modPort (discardPkt (count s (cPort n 16) 1) id) n fun p => { p with flushed := p.flushed + 1 }
  else s

/-- The end of a flush: LINK_FLUSHED with the frames discarded; the held x are free again
(R381 step 4). -/
def flushEnd (s : State) (n : Nat) : State :=
  if (portAt s n).link = 2 && (queuedFor s n).isEmpty then
    let s := raiseEv s evLinkFlushed n [(portAt s n).flushed]
    modPort s n fun p => { p with link := if p.state = 5 then 0 else 3, flushHold := [] }
  else s

/-- The frame in transmission on a port ends at once as a link-down discard (R381 step 1). -/
def cutTransmit (s : State) (n : Nat) : State :=
  match (portAt s n).tx with
  | none => s
  | some id =>
    let s := modPort s n fun p => { p with tx := none }
    discardPkt (count s (cPort n 16) 1) id

/-- The port leaves UP: HOLD with its timer, or FLUSH at once for a hold of 0 (R381 step 1). -/
def linkLost (s : State) (n : Nat) : State :=
  let s := cutTransmit s n
  let hold := rw s (0x6100 + n) 0x15
  if hold = 0 then enterFlush s n
  else modPort s n fun p => { p with link := 1, holdEnd := beatAfter s (hold * 1250) }

/-- The port enters UP: from HOLD and DISCARD to NORMAL (R381 steps 2 and 5). -/
def linkBack (s : State) (n : Nat) : State :=
  modPort s n fun p => { p with link := if p.link = 1 || p.link = 3 then 0 else p.link,
                                flushHold := if p.link = 1 then [] else p.flushHold }

/-! ## Receive write-backs (R526) -/

/-- The words of a frame's first write-back, without phase, sop, eop and the bytes of its buffer. -/
def rxWords (k : Pkt) (reason len : Nat) : List Nat :=
  [reason * 2 ^ 57 + k.vslot * 2 ^ 55 + byteAt k.vec 131 % 32 * 2 ^ 50
     + bits (natAt k.vec 156 4) 11 4 * 2 ^ 42
     + (if k.dec.kind = 2 then k.dec.profile else k.flow.profile) * 2 ^ 36
     + b2n k.stampValid * 2 ^ 35 + k.stampTb * 2 ^ 33 + len * 2 ^ 16,
   k.node * 2 ^ 56 + k.vnum % 2 ^ 16 * 2 ^ 40 + k.stampFrac * 2 ^ 32 + k.stampNs,
   k.out.hint * 2 ^ 32, k.tick % 2 ^ 64]

/-! ## The copy reserve (R390) -/

def copyAt (s : State) (id : Nat) : Option Copy := s.buf.copies.find? fun c => c.id == id

/-- A copy takes cells of the free list from its reserve, or overflows (R362, R390). -/
def addCopy (s : State) (c : Copy) : State :=
  let cells := cellsOf (c.header.length + c.body.length)
  if s.buf.copyUsed + cells ≤ rw s 0x6000 6 then
    let s := fromFree s cells
    { s with buf := { s.buf with
        copies := s.buf.copies ++ [{ c with id := s.buf.nextCopy, cells := cells }],
        nextCopy := s.buf.nextCopy + 1, copyUsed := s.buf.copyUsed + cells } }
  else count s (cPart 2) 1

/-- A copy ends: its cells return to the reserve. -/
def endCopy (s : State) (c : Copy) : State :=
  { s with buf := { s.buf with copies := s.buf.copies.filter fun x => x.id != c.id,
                               copyUsed := s.buf.copyUsed - c.cells,
                               cellsFree := s.buf.cellsFree + c.cells } }

end Sys2Proof.Machine
end

