-- ==== Sys2Proof/Machine/Image.lean ====
section
/-! DEFINITION. Renset images: header, sections, tables, entry points, and the image that a version
gives a cluster (R299 to R310). -/

namespace Sys2Proof.Machine

/-! ## The container (R305, R306) -/

def imgAbi (raw : Bytes) : Nat := byteAt raw 6
def imgMinor (raw : Bytes) : Nat := byteAt raw 7
def imgVersion (raw : Bytes) : Nat := natAt raw 8 4
def imgTotal (raw : Bytes) : Nat := natAt raw 12 4
def imgBuild (raw : Bytes) : Nat := natAt raw 16 8
def imgSigner (raw : Bytes) : Nat := byteAt raw 24
def imgCount (raw : Bytes) : Nat := natAt raw 26 2
def imgPath (raw : Bytes) : Nat := natAt raw 28 2
def imgOps (raw : Bytes) : Nat := byteAt raw 30
def imgHeaders (raw : Bytes) : Nat := byteAt raw 31
def imgStates (raw : Bytes) : Nat := natAt raw 32 2
def imgWords (raw : Bytes) : Nat := natAt raw 34 2
def imgPages (raw : Bytes) : Nat := natAt raw 36 2
def imgIdle (raw : Bytes) : Nat := natAt raw 38 2

/-- The section table: type, offset, length (R306). -/
def imgSections (raw : Bytes) : List (Nat × Nat × Nat) :=
  (List.range (imgCount raw)).map fun i =>
    let o := 128 + 16 * i
    (natAt raw o 2, natAt raw (o + 4) 4, natAt raw (o + 8) 4)

/-- The body of a section; none when the image has none. -/
def imgSection (raw : Bytes) (t : Nat) : Option Bytes :=
  match (imgSections raw).find? fun e => e.1 == t with
  | some e => some (slice raw e.2.1 e.2.2)
  | none => none

def imgBody (raw : Bytes) (t : Nat) : Bytes := (imgSection raw t).getD []

/-- The signed bytes (R307). -/
def imgSigned (raw : Bytes) : Bytes := raw.take (imgTotal raw - 104)

/-- Microword n of the control store, bit 255 first (R306). -/
def imgWord (raw : Bytes) (n : Nat) : Nat := natAt (imgBody raw 1) (32 * n) 32

/-- The entry address of a key profile; none where it is not defined (R163, R306). -/
def imgEntry (raw : Bytes) (profile : Nat) : Option Nat :=
  let body := imgBody raw 4
  if 64 ≤ profile || body.length < 8 * profile + 8 then none
  else
    let a := natAt body (8 * profile) 2
    if a = 0xFFFF then none else some a

/-- The entry address of an idle task kind, 1 to 15 (R295, R306). -/
def imgIdleEntry (raw : Bytes) (kind : Nat) : Option Nat :=
  let body := imgBody raw 7
  if kind = 0 || 15 < kind || body.length < 8 * kind then none
  else
    let a := natAt body (8 * (kind - 1)) 2
    if a = 0xFFFF then none else some a

/-- The content of a logical page in the image: pages not given are zero (R306). -/
def imgPage (raw : Bytes) (page : Nat) : Bytes :=
  let body := imgBody raw 3
  match (List.range (body.length / 260)).find? fun i => natAt body (260 * i) 2 == page with
  | some i => slice body (260 * i + 4) 256
  | none => zeros 256

/-- Table descriptor d of eight (R281). -/
def imgDesc (raw : Bytes) (d : Nat) : Bytes := slice (imgBody raw 2) (16 * d) 16

/-- The graph that an image carries (R119, R306). -/
def imgGraph (raw : Bytes) : Graph :=
  match imgSection raw 5 with
  | some b => Config.decodeGraph b
  | none => { states := [], tail := [] }

/-! ## The images of a version (R302 to R304) -/

/-- Clusters of the pipes in a home mask, as bits (R304). -/
def maskClusters (mask : Nat) : Nat :=
  (List.range 8).foldl (fun a p => if bit mask p then a + 255 * 2 ^ (8 * p) else a) 0

/-- The home mask in force (R218). -/
def homeMask (s : State) : Nat := natOf (stored s 0x5000 2 noRow)

/-- The image that a version gives a cluster. -/
def clusterImage (v : VerCfg) (c : Nat) : Option Bytes :=
  (v.images.find? fun i => bit i.clusters c).map Image.raw

/-- The image of the version: that of the clusters in the home mask (R304), or else the first of
the version. -/
def verImage (s : State) (v : VerCfg) : Option Bytes :=
  match v.images.find? fun i => (i.clusters &&& maskClusters (homeMask s)) != 0 with
  | some i => some i.raw
  | none => v.images.head?.map Image.raw

/-- The graph's tail extractions: at most four, of 1 to 8 bytes each, within the 32 bytes of the tail window (R117). -/
def tailExtracts (g : Graph) : List (Nat × Nat × Nat) :=
  (g.tail.filter fun e => decide (1 ≤ e.2.1) && decide (e.2.1 ≤ 8) && decide (e.2.1 ≤ e.1)
    && decide (e.1 ≤ 32)).take 4

/-- The parse graph of a version: the native graph where it holds no image (R119, R120). -/
def verGraph (s : State) (v : VerCfg) : Graph :=
  match verImage s v with
  | some raw => imgGraph raw
  | none => { states := [], tail := [] }

/-- The version's image defines a key profile (R163). -/
def profileDefined (s : State) (v : VerCfg) (profile : Nat) : Bool :=
  match verImage s v with
  | some raw => (imgEntry raw profile).isSome
  | none => false

/-- The content of a logical page on the side of a version: the image's page, replaced by the
version's rows of `engine.table.write` (R303); the last row for a page stands. -/
def verPage (v : VerCfg) (raw : Bytes) (page : Nat) : Bytes :=
  let lo := keyOf 0x5800 9 0
  let rows := (trange v.cfg lo (lo + 4096)).filter fun e => e.2 != [] && natAt e.2 0 2 == page
  match rows.getLast? with
  | some e => slice e.2 4 256
  | none => imgPage raw page

/-- Bytes of the logical pages from a byte address (R281). -/
def verPageBytes (v : VerCfg) (raw : Bytes) (addr len : Nat) : Bytes :=
  let p := addr / 256
  slice (verPage v raw p ++ (if 256 < addr % 256 + len then verPage v raw (p + 1) else []))
    (addr % 256) len

/-! ## Sides of a cluster (R299, R301) -/

/-- The side that a version names for a cluster (R299). -/
def sideOf (v : VerCfg) (c : Nat) : Nat := b2n (bit v.sides c)

/-- A microword of a side. -/
def storeWord (k : Cluster) (side a : Nat) : Nat := tget 0 k.words (4096 * side + a % 4096)

/-- What a logical page of a side holds; zeros where the side maps none. -/
def storePage (k : Cluster) (side page : Nat) : Bytes :=
  match tfind k.pageMap (2048 * side + page) with
  | some p => (tfind k.pages (p - 1)).getD (zeros 256)
  | none => zeros 256

/-- Bytes of the logical pages of a side from a byte address (R281). -/
def storeBytes (k : Cluster) (side addr len : Nat) : Bytes :=
  let p := addr / 256
  slice (storePage k side p ++ (if 256 < addr % 256 + len then storePage k side (p + 1) else []))
    (addr % 256) len

/-- Logical pages of an image whose content the other side does not hold, in order (R299, R301). -/
def freshPages (k : Cluster) (side : Nat) (v : VerCfg) (raw : Bytes) : List Nat :=
  (List.range (imgPages raw)).filter fun n =>
    (tfind k.pageMap (2048 * (1 - side) + n)).isNone || storePage k (1 - side) n != verPage v raw n

/-- Writes of 32 bytes that a side takes: one for each word, eight for each page that it does not share
(R301). -/
def loadTotal (k : Cluster) (side : Nat) (v : VerCfg) (raw : Bytes) : Nat :=
  imgWords raw + 8 * (freshPages k side v raw).length

/-- The lowest physical page that neither side uses (log entry 145). -/
def freePage (k : Cluster) : Nat :=
  ((List.range 2048).find? fun p => k.pageMap.all fun e => e.2 != p + 1).getD 0

/-- The load begins: the side's words read as zero until they are loaded (R273), and it maps the pages that it
shares with the other one, and no other. -/
def loadStart (k : Cluster) (side : Nat) (v : VerCfg) (raw : Bytes) : Cluster :=
  let fresh := freshPages k side v raw
  let map0 := tdrop k.pageMap (2048 * side) (2048 * side + 2048)
  let shared := (List.range (imgPages raw)).filter fun n => !fresh.contains n
  { k with load := some { num := v.num, at_ := 0 },
           words := tdrop k.words (4096 * side) (4096 * side + 4096),
           pageMap := shared.foldl (fun t n =>
             tput 0 t (2048 * side + n) (tget 0 k.pageMap (2048 * (1 - side) + n))) map0 }

/-- One write of the load port: 32 bytes of a word or of a page (R301). -/
def loadWrite (k : Cluster) (side : Nat) (v : VerCfg) (raw : Bytes) (i : Nat) : Cluster :=
  let k := { k with load := some { num := v.num, at_ := i + 1 } }
  if i < imgWords raw then { k with words := tput 0 k.words (4096 * side + i) (imgWord raw i) }
  else
    let j := i - imgWords raw
    match (freshPages k side v raw)[j / 8]? with
    | none => k
    | some n =>
      let p := if j % 8 = 0 then freePage k else tget 0 k.pageMap (2048 * side + n) - 1
      let old := (tfind k.pages p).getD (zeros 256)
      { k with
        pageMap := tput 0 k.pageMap (2048 * side + n) (p + 1),
        pages := tput (zeros 256) k.pages p
          (old.take (32 * (j % 8)) ++ slice (verPage v raw n) (32 * (j % 8)) 32
            ++ old.drop (32 * (j % 8) + 32)) }

/-- The whole content of a side at once, as a waking pipe is filled (R613). -/
def fillSide (k : Cluster) (side : Nat) (v : VerCfg) (raw : Bytes) : Cluster :=
  let k := loadStart k side v raw
  (List.range (loadTotal k side v raw)).foldl (fun k i => loadWrite k side v raw i) k

/-- The image digest (R307). -/
def imgDigestInput (raw : Bytes) : Bytes := imgSigned raw

end Sys2Proof.Machine
end

