-- ==== Sys2Proof/Machine/Carousel.lean ====
section
/-! DEFINITION. Beats, ticks and the frame plans of the carousel (R50, R51, R59 to R61, R69 to R73,
R85, R591). -/

namespace Sys2Proof.Machine

/-- S(R): the shortest tick in beats (R60). -/
def beatsMin (rate : Nat) : Nat := (1000000000 / rate) * 125 * 999 / 100000 - 1

/-- C(R): the carousel beats that a half is sure of in a tick (R60). -/
def carouselMin (rate : Nat) : Nat := beatsMin rate / 32

/-- The three halves. -/
inductive Half where
  | ingress
  | home
  | egress
  deriving DecidableEq, Repr

/-- Carousel phases (R51). -/
def Half.phase : Half → Nat
  | .ingress => 0
  | .home => 2
  | .egress => 26

/-- Subindex of a half's plan object (R85). -/
def Half.plan : Half → Nat
  | .ingress => 1
  | .home => 2
  | .egress => 3

/-- First pipe counter of a half's carousel classes (R584). -/
def Half.counter : Half → Nat
  | .ingress => 52
  | .home => 56
  | .egress => 60

/-- Jobs that a half may run (R70). -/
def Half.jobs : Half → List Nat
  | .ingress => [0, 7, 8]
  | .home => [0, 1, 2, 3, 4, 5, 6]
  | .egress => [0, 9]

def jobPad : Nat := 0
def jobAge : Nat := 1
def jobReloc : Nat := 2
def jobStash : Nat := 3
def jobDscrub : Nat := 4
def jobHcmd : Nat := 5
def jobComp : Nat := 6
def jobTwrite : Nat := 7
def jobTscrub : Nat := 8
def jobEwrite : Nat := 9

def isCarousel (half : Half) (beat : Nat) : Bool := beat % 32 == half.phase

/-- Weights of the default plans (R73). -/
def defaultWeights : Half → List (Nat × Nat)
  | .home => [(5, 3), (2, 7), (3, 2), (1, 13), (4, 3), (6, 3)]
  | .ingress => [(7, 25), (8, 7)]
  | .egress => [(9, 8)]

def defaultPlan (half : Half) (rate : Nat) : List (Nat × Nat) :=
  (defaultWeights half).map fun e => (e.1, carouselMin rate * e.2 / 32)

def tickRate (v : VerCfg) : Nat := cfg v 0x2800 1

/-- The rows of a plan object: job and count (R69). -/
def planRows (v : VerCfg) (half : Half) : List (Nat × Nat) :=
  let lo := keyOf 0x2900 half.plan 0
  ((trange v.cfg lo (lo + 256)).filter fun e => e.2 != []).map fun e =>
    (natOf e.2 / 2 ^ 27, natOf e.2 % 2 ^ 20)

/-- The plan in force under a version: its rows, or the default plan (R73). -/
def planOf (v : VerCfg) (half : Half) : List (Nat × Nat) :=
  let rows := planRows v half
  if rows = [] then defaultPlan half (tickRate v) else rows

/-- The job of the n-th carousel beat of a tick; PAD beyond the last entry (R69). -/
def jobAt : List (Nat × Nat) → Nat → Nat
  | [], _ => jobPad
  | (j, c) :: t, n => if n < c then j else jobAt t (n - c)

/-- First carousel beat of a half at or after a beat. -/
def firstCarousel (half : Half) (b : Nat) : Nat := b + (32 + half.phase - b % 32) % 32

/-- The checks of a plan at a tick rate (R71). -/
def planOk (half : Half) (rows : List (Nat × Nat)) (rate : Nat) : Bool :=
  rows.all (fun e => half.jobs.contains e.1 && e.2 != 0)
    && decide (sumNat (rows.map Prod.snd) ≤ carouselMin rate)

/-- The tick boundary that begins the tick of a beat (or home beat) of the recent past (R59). -/
def boundOf (s : State) (beat : Nat) : Bound :=
  (s.rm.bounds.find? fun b => decide (b.beat ≤ beat)).getD
    (s.rm.bounds.getLast?.getD Bound.init)

/-- The job of a carousel beat (R61 steps 4 and 5). -/
def jobOf (s : State) (half : Half) (beat : Nat) : Nat :=
  let b := boundOf s beat
  jobAt (planOf b.ver half) ((beat - firstCarousel half b.beat) / 32)

/-- Count a carousel beat of a half: class 0 retired, 1 wasted, 2 front-starved, 3 back-starved
(R591). -/
def countCarousel (s : State) (half : Half) (p cls : Nat) : State :=
  count s (cPipe p (half.counter + cls)) 1

/-- A pipe whose halves run: supplied, not under a PIPE or SOFT reset (R603, R605, R612). -/
def pipeLive (s : State) (p : Nat) : Bool :=
  let k := pipeAt s p
  k.power == 0 && !k.resetting && !s.sys.soft

end Sys2Proof.Machine
end

