-- ==== Sys2Proof/Machine/Crypto.lean ====
section
/-! DEFINITION. The published functions that the manual names: SHA-384 (FIPS 180-4), AES
(FIPS 197), GCM and GMAC (SP 800-38D), CMAC (SP 800-38B), the counter-mode KDF (SP 800-108), and the
cyclic redundancy checks (R203, R438 to R440, R561, R277, R96). All on numbers, so that the kernel
can evaluate them. -/

namespace Sys2Proof.Machine

/-! ## SHA-384 -/

/-- Round constants of FIPS 180-4, section 4.2.3. -/
def shaK : List Nat :=
  [
    0x428A2F98D728AE22, 0x7137449123EF65CD, 0xB5C0FBCFEC4D3B2F, 0xE9B5DBA58189DBBC,
    0x3956C25BF348B538, 0x59F111F1B605D019, 0x923F82A4AF194F9B, 0xAB1C5ED5DA6D8118,
    0xD807AA98A3030242, 0x12835B0145706FBE, 0x243185BE4EE4B28C, 0x550C7DC3D5FFB4E2,
    0x72BE5D74F27B896F, 0x80DEB1FE3B1696B1, 0x9BDC06A725C71235, 0xC19BF174CF692694,
    0xE49B69C19EF14AD2, 0xEFBE4786384F25E3, 0x0FC19DC68B8CD5B5, 0x240CA1CC77AC9C65,
    0x2DE92C6F592B0275, 0x4A7484AA6EA6E483, 0x5CB0A9DCBD41FBD4, 0x76F988DA831153B5,
    0x983E5152EE66DFAB, 0xA831C66D2DB43210, 0xB00327C898FB213F, 0xBF597FC7BEEF0EE4,
    0xC6E00BF33DA88FC2, 0xD5A79147930AA725, 0x06CA6351E003826F, 0x142929670A0E6E70,
    0x27B70A8546D22FFC, 0x2E1B21385C26C926, 0x4D2C6DFC5AC42AED, 0x53380D139D95B3DF,
    0x650A73548BAF63DE, 0x766A0ABB3C77B2A8, 0x81C2C92E47EDAEE6, 0x92722C851482353B,
    0xA2BFE8A14CF10364, 0xA81A664BBC423001, 0xC24B8B70D0F89791, 0xC76C51A30654BE30,
    0xD192E819D6EF5218, 0xD69906245565A910, 0xF40E35855771202A, 0x106AA07032BBD1B8,
    0x19A4C116B8D2D0C8, 0x1E376C085141AB53, 0x2748774CDF8EEB99, 0x34B0BCB5E19B48A8,
    0x391C0CB3C5C95A63, 0x4ED8AA4AE3418ACB, 0x5B9CCA4F7763E373, 0x682E6FF3D6B2B8A3,
    0x748F82EE5DEFB2FC, 0x78A5636F43172F60, 0x84C87814A1F0AB72, 0x8CC702081A6439EC,
    0x90BEFFFA23631E28, 0xA4506CEBDE82BDE9, 0xBEF9A3F7B2C67915, 0xC67178F2E372532B,
    0xCA273ECEEA26619C, 0xD186B8C721C0C207, 0xEADA7DD6CDE0EB1E, 0xF57D4F7FEE6ED178,
    0x06F067AA72176FBA, 0x0A637DC5A2C898A6, 0x113F9804BEF90DAE, 0x1B710B35131C471B,
    0x28DB77F523047D84, 0x32CAAB7B40C72493, 0x3C9EBE0A15C9BEBC, 0x431D67C49C100D4C,
    0x4CC5D4BECB3E42B6, 0x597F299CFC657E2A, 0x5FCB6FAB3AD6FAEC, 0x6C44198C4A475817]

/-- Initial hash value of SHA-384, FIPS 180-4 section 5.3.4. -/
def shaInit : List Nat :=
  [
    0xCBBB9D5DC1059ED8, 0x629A292A367CD507, 0x9159015A3070DD17, 0x152FECD8F70E5939,
    0x67332667FFC00B31, 0x8EB44A8768581511, 0xDB0C2E0D64F98FA7, 0x47B5481DBEFA4FA4]

def rotr64 (x n : Nat) : Nat := (x >>> n ||| x <<< (64 - n)) % 2 ^ 64

/-- The next word of the message schedule, from the last 16, newest first. -/
def shaNext (w : List Nat) : Nat :=
  let s0 := fun x => rotr64 x 1 ^^^ rotr64 x 8 ^^^ x >>> 7
  let s1 := fun x => rotr64 x 19 ^^^ rotr64 x 61 ^^^ x >>> 6
  (s1 (w.getD 1 0) + w.getD 6 0 + s0 (w.getD 14 0) + w.getD 15 0) % 2 ^ 64

/-- The schedule extended by n words, newest first. -/
def shaSchedule : Nat → List Nat → List Nat
  | 0, w => w
  | n + 1, w => shaSchedule n (shaNext w :: w)

def shaRound (v : List Nat) (kw : Nat) : List Nat :=
  match v with
  | [a, b, c, d, e, f, g, h] =>
    let t1 := h + (rotr64 e 14 ^^^ rotr64 e 18 ^^^ rotr64 e 41)
      + (e &&& f ^^^ (2 ^ 64 - 1 - e) &&& g) + kw
    let t2 := (rotr64 a 28 ^^^ rotr64 a 34 ^^^ rotr64 a 39)
      + (a &&& b ^^^ a &&& c ^^^ b &&& c)
    [(t1 + t2) % 2 ^ 64, a, b, c, (d + t1) % 2 ^ 64, e, f, g]
  | v => v

/-- One 128-byte block. -/
def shaBlock (h : List Nat) (block : Bytes) : List Nat :=
  let w0 := ((List.range 16).map fun i => natAt block (8 * i) 8).reverse
  let w := (shaSchedule 64 w0).reverse
  let v := (List.zipWith (fun k x => k + x) shaK w).foldl shaRound h
  List.zipWith (fun x y => (x + y) % 2 ^ 64) h v

/-- Blocks of a padded message of n blocks. -/
def shaBlocks : Nat → Bytes → List Nat → List Nat
  | 0, _, h => h
  | n + 1, m, h => shaBlocks n (m.drop 128) (shaBlock h m)

/-- SHA-384 of a byte string: 48 bytes (FIPS 180-4). -/
def sha384 (m : Bytes) : Bytes :=
  let pad := (128 - (m.length + 17) % 128) % 128
  let p := m ++ [0x80] ++ zeros pad ++ bytesOf 16 (8 * m.length)
  ((shaBlocks (p.length / 128) p shaInit).take 6).flatMap (bytesOf 8)

/-! ## AES -/

/-- S-box of FIPS 197, section 5.1.1. -/
def aesS : List Nat :=
  [
    0x63, 0x7C, 0x77, 0x7B, 0xF2, 0x6B, 0x6F, 0xC5, 0x30, 0x01, 0x67, 0x2B,
    0xFE, 0xD7, 0xAB, 0x76, 0xCA, 0x82, 0xC9, 0x7D, 0xFA, 0x59, 0x47, 0xF0,
    0xAD, 0xD4, 0xA2, 0xAF, 0x9C, 0xA4, 0x72, 0xC0, 0xB7, 0xFD, 0x93, 0x26,
    0x36, 0x3F, 0xF7, 0xCC, 0x34, 0xA5, 0xE5, 0xF1, 0x71, 0xD8, 0x31, 0x15,
    0x04, 0xC7, 0x23, 0xC3, 0x18, 0x96, 0x05, 0x9A, 0x07, 0x12, 0x80, 0xE2,
    0xEB, 0x27, 0xB2, 0x75, 0x09, 0x83, 0x2C, 0x1A, 0x1B, 0x6E, 0x5A, 0xA0,
    0x52, 0x3B, 0xD6, 0xB3, 0x29, 0xE3, 0x2F, 0x84, 0x53, 0xD1, 0x00, 0xED,
    0x20, 0xFC, 0xB1, 0x5B, 0x6A, 0xCB, 0xBE, 0x39, 0x4A, 0x4C, 0x58, 0xCF,
    0xD0, 0xEF, 0xAA, 0xFB, 0x43, 0x4D, 0x33, 0x85, 0x45, 0xF9, 0x02, 0x7F,
    0x50, 0x3C, 0x9F, 0xA8, 0x51, 0xA3, 0x40, 0x8F, 0x92, 0x9D, 0x38, 0xF5,
    0xBC, 0xB6, 0xDA, 0x21, 0x10, 0xFF, 0xF3, 0xD2, 0xCD, 0x0C, 0x13, 0xEC,
    0x5F, 0x97, 0x44, 0x17, 0xC4, 0xA7, 0x7E, 0x3D, 0x64, 0x5D, 0x19, 0x73,
    0x60, 0x81, 0x4F, 0xDC, 0x22, 0x2A, 0x90, 0x88, 0x46, 0xEE, 0xB8, 0x14,
    0xDE, 0x5E, 0x0B, 0xDB, 0xE0, 0x32, 0x3A, 0x0A, 0x49, 0x06, 0x24, 0x5C,
    0xC2, 0xD3, 0xAC, 0x62, 0x91, 0x95, 0xE4, 0x79, 0xE7, 0xC8, 0x37, 0x6D,
    0x8D, 0xD5, 0x4E, 0xA9, 0x6C, 0x56, 0xF4, 0xEA, 0x65, 0x7A, 0xAE, 0x08,
    0xBA, 0x78, 0x25, 0x2E, 0x1C, 0xA6, 0xB4, 0xC6, 0xE8, 0xDD, 0x74, 0x1F,
    0x4B, 0xBD, 0x8B, 0x8A, 0x70, 0x3E, 0xB5, 0x66, 0x48, 0x03, 0xF6, 0x0E,
    0x61, 0x35, 0x57, 0xB9, 0x86, 0xC1, 0x1D, 0x9E, 0xE1, 0xF8, 0x98, 0x11,
    0x69, 0xD9, 0x8E, 0x94, 0x9B, 0x1E, 0x87, 0xE9, 0xCE, 0x55, 0x28, 0xDF,
    0x8C, 0xA1, 0x89, 0x0D, 0xBF, 0xE6, 0x42, 0x68, 0x41, 0x99, 0x2D, 0x0F,
    0xB0, 0x54, 0xBB, 0x16]

def aesSub (x : Nat) : Nat := aesS.getD x 0

def xtime (x : Nat) : Nat := if x < 128 then 2 * x else (2 * x - 256) ^^^ 0x1B

def subWord (w : Nat) : Nat :=
  natOf ((bytesOf 4 w).map fun b => BitVec.ofNat 8 (aesSub b.toNat))

/-- Expanded key words, newest first: n more words for a key of nk words (FIPS 197, 5.2). -/
def aesExpand (nk : Nat) : Nat → Nat → Nat → List Nat → List Nat
  | 0, _, _, w => w
  | n + 1, i, rcon, w =>
    let t := w.headD 0
    let t' := if i % nk = 0 then subWord (t % 2 ^ 24 * 256 + t / 2 ^ 24) ^^^ rcon * 2 ^ 24
      else if nk > 6 && i % nk == 4 then subWord t else t
    aesExpand nk n (i + 1) (if i % nk = 0 then xtime rcon else rcon)
      ((w.getD (nk - 1) 0 ^^^ t') :: w)

/-- Round keys as 16-byte numbers lists, in order. -/
def aesKeys (key : Bytes) : List (List Nat) :=
  let nk := key.length / 4
  let w0 := ((List.range nk).map fun i => natAt key (4 * i) 4).reverse
  let w := (aesExpand nk (4 * (nk + 7) - nk) nk 1 w0).reverse
  (List.range (nk + 7)).map fun r =>
    (List.range 4).flatMap fun j => (bytesOf 4 (w.getD (4 * r + j) 0)).map BitVec.toNat

def addKey (s k : List Nat) : List Nat := List.zipWith (fun a b => a ^^^ b) s k

/-- SubBytes and ShiftRows. -/
def subShift (s : List Nat) : List Nat :=
  (List.range 16).map fun i => aesSub (s.getD ((i + 4 * (i % 4)) % 16) 0)

def mixColumn (c : List Nat) : List Nat :=
  match c with
  | [a, b, d, e] =>
    [xtime a ^^^ xtime b ^^^ b ^^^ d ^^^ e, a ^^^ xtime b ^^^ xtime d ^^^ d ^^^ e,
     a ^^^ b ^^^ xtime d ^^^ xtime e ^^^ e, xtime a ^^^ a ^^^ b ^^^ d ^^^ xtime e]
  | c => c

def mixColumns (s : List Nat) : List Nat :=
  (List.range 4).flatMap fun j => mixColumn ((s.drop (4 * j)).take 4)

def aesRounds : List (List Nat) → List Nat → List Nat
  | [], s => s
  | [k], s => addKey (subShift s) k
  | k :: ks, s => aesRounds ks (addKey (mixColumns (subShift s)) k)

/-- AES of one 16-byte block under a 16- or 32-byte key. -/
def aesEncrypt (key block : Bytes) : Bytes :=
  let ks := aesKeys key
  let s := (slice block 0 16).map BitVec.toNat
  (aesRounds (ks.drop 1) (addKey s (ks.headD []))).map (BitVec.ofNat 8)

def xorBytes (a b : Bytes) : Bytes := List.zipWith (fun x y => x ^^^ y) a b

/-! ## GCM and GMAC -/

/-- Multiplication in the field of GHASH: x by the bits of y from bit n - 1 down. -/
def ghashMul : Nat → Nat → Nat → Nat → Nat
  | 0, _, _, z => z
  | n + 1, v, y, z =>
    ghashMul n (if v.testBit 0 then v >>> 1 ^^^ 0xE1 * 2 ^ 120 else v >>> 1) y
      (if y.testBit n then z ^^^ v else z)

/-- GHASH of n blocks. -/
def ghash (h : Nat) : Nat → Bytes → Nat → Nat
  | 0, _, y => y
  | n + 1, m, y => ghash h n (m.drop 16) (ghashMul 128 h (y ^^^ natAt m 0 16) 0)

/-- Counter-mode encryption of n blocks from a counter block. -/
def ctrBlocks (key : Bytes) : Nat → Nat → Bytes → Bytes
  | 0, _, _ => []
  | n + 1, ctr, m =>
    xorBytes (m.take 16) (aesEncrypt key (bytesOf 16 ctr))
      ++ ctrBlocks key n (ctr / 2 ^ 32 * 2 ^ 32 + (ctr + 1) % 2 ^ 32) (m.drop 16)

/-- Counter mode from block 2 of a 12-byte IV: encryption and decryption alike. -/
def gcmCrypt (key iv m : Bytes) : Bytes :=
  ctrBlocks key (ceilDiv m.length 16) (natAt iv 0 12 * 2 ^ 32 + 2) m

/-- The GCM tag over AAD and ciphertext, 16 bytes. -/
def gcmTag (key iv aad c : Bytes) : Bytes :=
  let h := natOf (aesEncrypt key (zeros 16))
  let padTo := fun (b : Bytes) => b ++ zeros ((16 - b.length % 16) % 16)
  let m := padTo aad ++ padTo c ++ bytesOf 8 (8 * aad.length) ++ bytesOf 8 (8 * c.length)
  xorBytes (bytesOf 16 (ghash h (m.length / 16) m 0))
    (aesEncrypt key (bytesOf 16 (natAt iv 0 12 * 2 ^ 32 + 1)))

/-- GMAC: the tag with all bytes taken as AAD. -/
def gmac (key iv aad : Bytes) : Bytes := gcmTag key iv aad []

/-! ## CMAC and the KDF -/

def cmacDouble (k : Nat) : Nat :=
  if k.testBit 127 then (2 * k) % 2 ^ 128 ^^^ 0x87 else 2 * k

/-- CBC chaining over n whole blocks. -/
def cbcMac (key : Bytes) : Nat → Bytes → Bytes → Bytes
  | 0, _, c => c
  | n + 1, m, c => cbcMac key n (m.drop 16) (aesEncrypt key (xorBytes (m.take 16) c))

/-- AES-CMAC (SP 800-38B). -/
def cmac (key m : Bytes) : Bytes :=
  let k1 := cmacDouble (natOf (aesEncrypt key (zeros 16)))
  let k2 := cmacDouble k1
  let n := max 1 (ceilDiv m.length 16)
  let last := m.drop (16 * (n - 1))
  let fin := if last.length = 16 then xorBytes last (bytesOf 16 k1)
    else xorBytes (slice (last ++ [0x80]) 0 16) (bytesOf 16 k2)
  aesEncrypt key (xorBytes fin (cbcMac key (n - 1) m (zeros 16)))

/-- The bytes of an ASCII text. -/
def ascii (t : List Char) : Bytes := t.map fun c => BitVec.ofNat 8 c.toNat

/-- The counter-mode KDF of SP 800-108 with AES-256-CMAC, a 32-bit counter before the fixed input
label, zero byte, context, length in bits (R561). -/
def kdf (key label context : Bytes) (bits : Nat) : Bytes :=
  (((List.range (ceilDiv bits 128)).flatMap fun i =>
    cmac key (bytesOf 4 (i + 1) ++ label ++ [0] ++ context ++ bytesOf 4 bits)).take (bits / 8))

/-! ## Cyclic redundancy checks -/

/-- One byte into a reflected 32-bit CRC. -/
def crcByte (poly : Nat) (c : Nat) (b : Byte) : Nat :=
  times (fun x => if x.testBit 0 then x >>> 1 ^^^ poly else x >>> 1) 8 (c ^^^ b.toNat)

/-- The Ethernet CRC-32 of a byte string (IEEE 802.3). -/
def crc32 (m : Bytes) : Nat := m.foldl (crcByte 0xEDB88320) 0xFFFFFFFF ^^^ 0xFFFFFFFF

/-- The FCS bytes of a frame: least significant byte first on the wire. -/
def fcsOf (m : Bytes) : Bytes := leBytes 4 (crc32 m)

end Sys2Proof.Machine
end

