-- ==== Sys2Proof/Machine/Search.lean ====
section
/-! DEFINITION. Search banks, key builders, the exact table, action words, the preparation of slots,
legacy writes and the scrub (R149 to R169, R179, R180, R195 to R200). -/

namespace Sys2Proof.Machine

/-! ## Memories -/

def TcamUnit.zero : TcamUnit := { valid := false, slots := 0, value := 0, mask := 0, action := 0 }
def ExactEnt.zero : ExactEnt := { valid := false, slots := 0, key := 0, action := 0 }

/-- Number of a unit in the whole part: pipe, local bank, unit (R149). -/
def unitNo (p b u : Nat) : Nat := (16 * p + b) * 2048 + u

def tcamAt (s : State) (n : Nat) : TcamUnit := tget TcamUnit.zero s.mem.tcam n
def shadowAt (s : State) (n : Nat) : TcamUnit := tget TcamUnit.zero s.mem.shadow n

/-- The units and exact entries that the searches of this beat see: a write is visible from the next
beat (R167, R168). -/
def seenUnits (s : State) : Tbl TcamUnit := toverlay s.mem.tcam s.mem.oldUnits
def seenExact (s : State) : Tbl ExactEnt := toverlay s.mem.exact s.mem.oldExact

/-- The value that an entry of a table shows until the beat ends: the first that it had in the beat. -/
def keepOld {α : Type} (old : Tbl α) (n : Nat) (x : α) : Tbl α :=
  match tfind old n with
  | some _ => old
  | none => tins old n x

/-- Write a unit in the bank and in its shadow (R167). -/
def putUnit (s : State) (n : Nat) (u : TcamUnit) : State :=
  { s with mem := { s.mem with oldUnits := keepOld s.mem.oldUnits n (tcamAt s n),
                               tcam := tput TcamUnit.zero s.mem.tcam n u,
                               shadow := tput TcamUnit.zero s.mem.shadow n u } }

def exactNo (p row : Nat) : Nat := 32768 * p + row
def exactAt (s : State) (n : Nat) : ExactEnt := tget ExactEnt.zero s.mem.exact n
def putExact (s : State) (n : Nat) (e : ExactEnt) : State :=
  { s with mem := { s.mem with oldExact := keepOld s.mem.oldExact n (exactAt s n),
                               exact := tput ExactEnt.zero s.mem.exact n e } }

def bankWidth (v : VerCfg) (g : Nat) : Nat := cfg v (0x4800 + g) 1
def bankGroup (v : VerCfg) (g : Nat) : Nat := cfg v (0x4800 + g) 2
def bankLegacy (s : State) (g : Nat) : Bool := rw s (0x4800 + g) 3 == 1

/-! ## Rows of `search.tcam` and `search.exact` (R180) -/

def rowValid (row : Bytes) : Bool := row != [] && bit (natAt row 0 4) 31

/-- Unit i of an entry row of width w: value, mask and action; the slot-field bits are ignored. -/
def rowUnit (row : Bytes) (w i : Nat) : Nat × Nat × Nat :=
  let cut := fun n => if i = 0 then n % 2 ^ 76 else n
  (cut (natAt row (4 + 10 * i) 10), cut (natAt row (4 + 10 * w + 10 * i) 10),
   natAt row (4 + 20 * w + 8 * i) 8)

def rowSizeOk (row : Bytes) (w : Nat) : Bool := row.length == 32 * w

def exactRowKey (row : Bytes) : Nat := natAt row 0 16
def exactRowAction (row : Bytes) : Nat := natAt row 16 8
def exactRowValid (row : Bytes) : Bool := row != [] && bit (byteAt row 24) 7

/-! ## Key builders (R153 to R155) -/

def builderRow (v : VerCfg) (k g i : Nat) : Nat := natOf (cfgRow v (0x4900 + k) (g + 1) i)

/-- Width of a builder in units; 0 when it is off (R153). -/
def builderWidth (v : VerCfg) (k g : Nat) : Nat := [0, 1, 2, 4].getD (builderRow v k g 0 % 4) 0

/-- The extracts of a builder: start and length; the list ends at the first all-zero row. -/
def builderExtracts (v : VerCfg) (k g : Nat) : List (Nat × Nat) :=
  (((List.range 24).map fun i => builderRow v k g (i + 1)).takeWhile (· != 0)).map fun r =>
    (bits r 26 16, bits r 5 0)

/-- Bits of the vector from bit `start`, counted from bit 7 of byte 0. -/
def vecBits (vec : Bytes) (start len : Nat) : Nat := natOf vec / 2 ^ (1536 - start - len) % 2 ^ len

/-- The key of builder g: 80w - 4 bits, packed from its most significant bit (R154). -/
def buildKey (v : VerCfg) (k g : Nat) (vec : Bytes) : Nat :=
  let n := 80 * builderWidth v k g - 4
  let (acc, len) := (builderExtracts v k g).foldl
    (fun a e => (a.1 * 2 ^ e.2 + vecBits vec e.1 e.2, a.2 + e.2)) (0, 0)
  acc * 2 ^ (n - len) % 2 ^ n

/-! ## Search (R150, R156 to R160) -/

def keysetOf (v : VerCfg) (node : Nat) : Nat := cfg v (0x4A00 + node) 1

/-- The part of a key that unit i of an entry of width w is compared with. -/
def keyUnit (key w i : Nat) : Nat :=
  if i = 0 then key / 2 ^ (80 * (w - 1)) else key / 2 ^ (80 * (w - 1 - i)) % 2 ^ 80

def unitMatches (u : TcamUnit) (k : Nat) : Bool := (k &&& u.mask) == (u.value &&& u.mask)

/-- An entry matches a packet of a slot (R156, R157). -/
def entryMatches (t : Tbl TcamUnit) (n w slot key : Nat) : Bool :=
  let u := tget TcamUnit.zero t n
  u.valid && bit u.slots slot
    && (List.range w).all fun i => unitMatches (tget TcamUnit.zero t (n + i)) (keyUnit key w i)

/-- Banks of a pipe that a version assigns to a group. -/
def groupBanks (v : VerCfg) (p g : Nat) : List Nat :=
  (List.range 16).filter fun b => bankGroup v (16 * p + b) == g

/-- The lowest matching entry of a bank: its index. -/
def searchBank (t : Tbl TcamUnit) (p b w slot key : Nat) : Option Nat :=
  let lo := unitNo p b 0
  ((trange t lo (lo + 2048)).find? fun e =>
      (e.1 - lo) % w == 0 && entryMatches t e.1 w slot key).map fun e => (e.1 - lo) / w

/-- The search of a group: counter row of the entry and its action word (R158). -/
def searchGroup (units : Tbl TcamUnit) (v : VerCfg) (slot p key : Nat) : List Nat → Option (Nat × Nat)
  | [] => none
  | b :: t =>
    let w := bankWidth v (16 * p + b)
    match searchBank units p b w slot key with
    | some e => some (2048 * (16 * p + b) + e,
        (tget TcamUnit.zero units (unitNo p b (e * w))).action)
    | none => searchGroup units v slot p key t

/-- `exact_bucket` of R164: CRC-32C without its initial and final inversions. -/
def exactBucket (key seed : Nat) : Nat :=
  let c := (bytesOf 16 key).foldl (crcByte 0x82F63B78) seed
  (c ^^^ (c / 2 ^ 13)) % 2 ^ 13

/-- The exact key: the most significant 128 bits of a builder's key and zeros (R164). -/
def exactKey (v : VerCfg) (p k : Nat) (vec : Bytes) : Option Nat :=
  let g := cfg v (0x4B00 + p) 3
  let w := builderWidth v k g
  if w = 0 then none
  else
    let n := 80 * w - 4
    some (buildKey v k g vec * 2 ^ 128 / 2 ^ n)

/-- The lowest way of the bucket that hits (R165): counter row and action word. -/
def exactLookup (s : State) (v : VerCfg) (slot p key : Nat) : Option (Nat × Nat) :=
  let base := exactNo p (4 * exactBucket key (cfg v (0x4B00 + p) 5))
  let at_ := fun i => tget ExactEnt.zero (seenExact s) (base + i)
  ((List.range 4).find? fun i => (at_ i).valid && (at_ i).key == key && bit (at_ i).slots slot).map
    fun i => (262144 + base + i, (at_ i).action)

/-- The exact table of a pipe holds a valid entry that the version can hit (R164). -/
def exactInUse (v : VerCfg) (p : Nat) : Bool :=
  let lo := keyOf (0x4B00 + p) 2 0
  (trange v.cfg lo (lo + 32768)).any fun e => exactRowValid e.2

/-- What pass 1 found: the deciding result, policer, mirror session and every entry hit. -/
structure Pass1 where
  dec : Option (Nat × Nat)
  police : Option Nat
  mirror : Option Nat
  hits : List Nat
  deriving DecidableEq, Repr

def actKind (a : Nat) : Nat := bits a 63 60

/-- Take a result in rank order (R159). -/
def pass1Take (r : Pass1) : Option (Nat × Nat) → Pass1
  | none => r
  | some (row, a) =>
    { dec := if r.dec.isNone && actKind a != 0 then some (row, a) else r.dec,
      police := if r.police.isNone && bit a 58 then some (bits a 32 17) else r.police,
      mirror := if r.mirror.isNone && bit a 57 then some (bits a 16 12) else r.mirror,
      hits := r.hits ++ [row] }

/-- The results of the four groups in order, and of the exact table at its rank (R159). -/
def pass1 (s : State) (v : VerCfg) (slot p node : Nat) (vec : Bytes) (exactBad : Bool) : Pass1 :=
  let k := keysetOf v node
  let groups := (List.range 4).map fun g =>
    if builderWidth v k g = 0 then none
    else searchGroup (seenUnits s) v slot p (buildKey v k g vec) (groupBanks v p g)
  let exact := if exactBad || !exactInUse v p then none else
    match exactKey v p k vec with
    | some key => exactLookup s v slot p key
    | none => none
  let rank := cfg v (0x4B00 + p) 4
  (groups.take rank ++ [exact] ++ groups.drop rank).foldl pass1Take
    { dec := none, police := none, mirror := none, hits := [] }

/-- The default action of a port (R144). -/
def defaultDecision (v : VerCfg) (node : Nat) : Decision :=
  let a := cfg v (0x4100 + node) 3
  if bits a 31 30 = 1 then
    { Decision.none with kind := 5, port := bits a 29 22, queue := bits a 21 19, reason := 0 }
  else if bits a 31 30 = 2 then { Decision.none with kind := 4, ring := bits a 11 0, reason := 4 }
  else { Decision.none with kind := 3 }

/-- The decision of a hit (R161, R162). -/
def actionDecision (v : VerCfg) (node row a : Nat) : Decision :=
  let d := { Decision.none with entry := some row }
  let k := actKind a
  if k = 1 then
    { d with kind := 1, ptp := bit a 59, port := bits a 55 48, queue := bits a 47 45,
             rset := bits a 44 33 }
  else if k = 2 then { d with kind := 2, profile := bits a 55 50 }
  else if k = 3 then { d with kind := 3 }
  else if k = 4 then { d with kind := 4, ring := bits a 44 33, reason := 1 }
  else { defaultDecision v node with entry := some row }

def pass1Decision (v : VerCfg) (node : Nat) (r : Pass1) : Decision :=
  match r.dec with
  | some (row, a) => actionDecision v node row a
  | none => defaultDecision v node

/-! ## Preparation of a slot (R195, R196) -/

/-- The version that a pending one is based on: the one before it, or the current (R188). -/
def baseOf (s : State) (num : Nat) : VerCfg :=
  ((s.ver.pending.takeWhile fun q => q.ver.num != num).getLast?.map Sealed.ver).getD (curVer s)

/-- The version changes the width of a bank (R151, R195). -/
def widthChanged (s : State) (v : VerCfg) (g : Nat) : Bool :=
  bankWidth v g != bankWidth (baseOf s v.num) g

/-- Entries of a bank that a version or the memory may hold, in order. -/
def bankEntries (s : State) (v : VerCfg) (p b w : Nat) : List Nat :=
  let lo := unitNo p b 0
  let klo := keyOf (0x4B00 + p) 1 (2048 * b)
  let a := (trange v.cfg klo (klo + 2048)).map fun e => e.1 - klo
  let m := ((trange s.mem.tcam lo (lo + 2048)).filter fun e => (e.1 - lo) % w == 0).map fun e =>
    (e.1 - lo) / w
  ((a ++ m).foldl (fun (l : List (Nat × Unit)) e => tins l e ()) []).map Prod.fst

def tcamRow (v : VerCfg) (p b e : Nat) : Bytes := cfgRow v (0x4B00 + p) 1 (2048 * b + e)

/-- The units of an entry hold a row's content. -/
def contentIs (s : State) (n w : Nat) (row : Bytes) : Bool :=
  (List.range w).all fun i =>
    let u := tcamAt s (n + i)
    (u.value, u.mask, u.action) == rowUnit row w i

/-- Work that the preparation still has at an entry: 0 none, 1 set the bit, 2 write, 3 clear. -/
def prepNeed (s : State) (v : VerCfg) (sl p b e : Nat) : Nat :=
  let w := bankWidth v (16 * p + b)
  let n := unitNo p b (e * w)
  let row := tcamRow v p b e
  let u := tcamAt s n
  if rowValid row then
    if u.valid && contentIs s n w row then (if bit u.slots sl then 0 else 1) else 2
  else if u.valid && bit u.slots sl then 3 else 0

/-- The same for an exact row. -/
def exactNeed (s : State) (v : VerCfg) (sl p r : Nat) : Nat :=
  let row := cfgRow v (0x4B00 + p) 2 r
  let e := exactAt s (exactNo p r)
  if exactRowValid row then
    if e.valid && e.key == exactRowKey row && e.action == exactRowAction row then
      (if bit e.slots sl then 0 else 1)
    else 2
  else if e.valid && bit e.slots sl then 3 else 0

/-- Exact rows that a version or the memory may hold, in order. -/
def exactRows (s : State) (v : VerCfg) (p : Nat) : List Nat :=
  let klo := keyOf (0x4B00 + p) 2 0
  let a := (trange v.cfg klo (klo + 32768)).map fun e => e.1 - klo
  let m := (trange s.mem.exact (exactNo p 0) (exactNo (p + 1) 0)).map fun e => e.1 - exactNo p 0
  ((a ++ m).foldl (fun (l : List (Nat × Unit)) e => tins l e ()) []).map Prod.fst

/-- The first entry with work at or after a location of the pass, bank by bank (R195). -/
def tcamWork (s : State) (v : VerCfg) (sl p at_ : Nat) : List Nat → Option (Nat × Nat)
  | [] => none
  | b :: t =>
    if bankLegacy s (16 * p + b) then tcamWork s v sl p at_ t
    else
      let w := bankWidth v (16 * p + b)
      match (bankEntries s v p b w).find? fun e =>
        decide (at_ ≤ 2048 * b + e * w) && prepNeed s v sl p b e != 0 with
      | some e => some (b, e)
      | none => tcamWork s v sl p at_ t

def exactWork (s : State) (v : VerCfg) (sl p at_ : Nat) : Option Nat :=
  (exactRows s v p).find? fun r => decide (at_ ≤ 32768 + r) && exactNeed s v sl p r != 0

/-- Banks whose width the version changes, of either mode (R197), and which the pipe has not yet wiped. -/
def unwiped (s : State) (v : VerCfg) (p : Nat) (k : Prep) : List Nat :=
  (List.range 16).filter fun b =>
    widthChanged s v (16 * p + b) && !bit k.wiped b

/-- Every TCAM and exact write of the preparation has completed in a pipe: its one pass finds no work from
where it stands (R190, R195). -/
def prepDone (s : State) (q : Sealed) (sl p : Nat) : Bool :=
  let k := tget Prep.init q.prep p
  decide (65536 ≤ k.cursor)
    || ((unwiped s q.ver p k).isEmpty && k.unit == 0
      && (tcamWork s q.ver sl p k.cursor (List.range 16)).isNone && (exactWork s q.ver sl p k.cursor).isNone)

/-- A live slot t uses the location of an entry: its bit is set and its version assigns the bank
to a group (R196). -/
def usesEntry (s : State) (t p b e w : Nat) : Bool :=
  let u := tcamAt s (unitNo p b (e * w))
  u.valid && bit u.slots t && bankGroup (slotVer s t) (16 * p + b) != 15

/-- Version v needs new content at a location that slot t uses (R196). -/
def conflicts (s : State) (v : VerCfg) (sl t : Nat) : Bool :=
  (List.range 8).any fun p =>
    ((List.range 16).any fun b =>
      !bankLegacy s (16 * p + b) &&
        (bankEntries s v p b (bankWidth v (16 * p + b))).any fun e =>
          prepNeed s v sl p b e == 2 && usesEntry s t p b e (bankWidth v (16 * p + b)))
    || ((exactRows s v p).any fun r =>
      exactNeed s v sl p r == 2
        && (let e := exactAt s (exactNo p r); e.valid && bit e.slots t))

/-- Version v gives some bank that version w assigns to a group another width (R151). -/
def widthClash (v w : VerCfg) : Bool :=
  (List.range 128).any fun g => bankWidth v g != bankWidth w g && bankGroup w g != 15

/-- Preparation waits while a DRAINING slot uses a location or a bank that it needs (R151, R196). -/
def prepWaits (s : State) (q : Sealed) (sl : Nat) : Bool :=
  (List.range 4).any fun t =>
    t != sl && (slotAt s t).state == .draining
      && (widthClash q.ver (slotVer s t) || conflicts s q.ver sl t)

def modSealed (s : State) (num : Nat) (f : Sealed → Sealed) : State :=
  { s with ver := { s.ver with pending := s.ver.pending.map fun q =>
      if q.ver.num = num then f q else q } }

def modPrep (s : State) (num p : Nat) (f : Prep → Prep) : State :=
  modSealed s num fun q => { q with prep := tmod Prep.init q.prep p f }

/-- Write unit i of an entry; the valid bit comes with the last unit, and stands at the first
(R167). -/
def writeUnit (s : State) (n w i slots : Nat) (row : Bytes) (valid : Bool) : State :=
  let (v, m, a) := rowUnit row w i
  let old := tcamAt s (n + i)
  let s := putUnit s (n + i) { valid := i = 0 && w = 1 && valid || (i = 0 && 1 < w && old.valid),
                               slots := if i = 0 then slots else 0, value := v, mask := m,
                               action := a }
  if 1 < w && i + 1 = w then putUnit s n { tcamAt s n with valid := valid } else s

/-- The width that the current version gives a bank. -/
def curWidth (s : State) (g : Nat) : Nat := bankWidth (curVer s) g

/-- The width of the entries that a bank holds: that of the last change of width (R195), else the current
version's. -/
def heldWidth (s : State) (g : Nat) : Nat := (tfind s.mem.widths g).getD (curWidth s g)

/-- Every entry of a bank and of its shadow becomes invalid (R195, R200). -/
def wipeBank (s : State) (g : Nat) : State :=
  { s with mem := { s.mem with tcam := tdrop s.mem.tcam (g * 2048) (g * 2048 + 2048),
                               shadow := tdrop s.mem.shadow (g * 2048) (g * 2048 + 2048) } }

/-- A bank is invalidated for a change of its width (R195). -/
def rewiden (s : State) (g w : Nat) : State :=
  let s := wipeBank s g
  { s with mem := { s.mem with widths := tins s.mem.widths g w } }

/-- The pass of a version in a pipe stands at a location, before unit i of the entry there (R195). -/
def passAt (s : State) (num p at_ i : Nat) : State :=
  modPrep s num p fun k => { k with cursor := at_, unit := i }

/-- One unit of an entry of the preparation: a set or cleared bit, or the next unit of a write; after the last
the pass goes on behind the entry. -/
def prepTcam (s : State) (q : Sealed) (sl p b e : Nat) : State :=
  let w := bankWidth q.ver (16 * p + b)
  let n := unitNo p b (e * w)
  let at_ := 2048 * b + e * w
  let u := tcamAt s n
  let need := prepNeed s q.ver sl p b e
  let i := (tget Prep.init q.prep p).unit
  if need = 2 || i != 0 then
    let s := writeUnit s n w i (2 ^ sl) (tcamRow q.ver p b e) true
    if i + 1 < w then passAt s q.ver.num p at_ (i + 1) else passAt s q.ver.num p (at_ + w) 0
  else
    let s := passAt s q.ver.num p (at_ + w) 0
    if need = 1 then putUnit s n { u with slots := setBit u.slots sl true }
    else
      let m := setBit u.slots sl false
      putUnit s n { u with slots := m, valid := m != 0 }

def prepExact (s : State) (q : Sealed) (sl p r : Nat) : State :=
  let s := passAt s q.ver.num p (32768 + r + 1) 0
  let n := exactNo p r
  let e := exactAt s n
  let row := cfgRow q.ver (0x4B00 + p) 2 r
  let need := exactNeed s q.ver sl p r
  if need = 2 then
    putExact s n { valid := true, slots := 2 ^ sl, key := exactRowKey row,
                   action := exactRowAction row }
  else if need = 1 then putExact s n { e with slots := setBit e.slots sl true }
  else
    let m := setBit e.slots sl false
    putExact s n { e with slots := m, valid := m != 0 }

/-- A version's writes have begun and wait for no DRAINING slot (R190, R196). -/
def prepRuns (s : State) (q : Sealed) (sl : Nat) : Bool :=
  decide (max q.sealNext q.reserveNext ≤ s.rm.tick) && !prepWaits s q sl

/-- One preparation write of a sealed version in a pipe; none when it has no work there. -/
def prepStep (s : State) (q : Sealed) (p : Nat) : Option State :=
  match q.slot with
  | none => none
  | some sl =>
    if !prepRuns s q sl then none
    else
      let k := tget Prep.init q.prep p
      match unwiped s q.ver p k with
      | b :: bs =>
        let s := (b :: bs).foldl
          (fun s b => rewiden s (16 * p + b) (bankWidth q.ver (16 * p + b))) s
        some (modPrep s q.ver.num p fun k =>
          { k with wiped := (b :: bs).foldl (fun a b => setBit a b true) k.wiped })
      | [] =>
        if k.unit != 0 then
          let b := k.cursor / 2048
          some (prepTcam s q sl p b (k.cursor % 2048 / bankWidth q.ver (16 * p + b)))
        else match tcamWork s q.ver sl p k.cursor (List.range 16) with
        | some (b, e) => some (prepTcam s q sl p b e)
        | none => (exactWork s q.ver sl p k.cursor).map fun r => prepExact s q sl p r

/-- The versions, oldest first, whose pass of a pipe has nothing left: it ends (R195). -/
def passOver (p : Nat) : State → List Sealed → State
  | s, [] => s
  | s, q :: t => match q.slot with
    | none => s
    | some sl => if prepRuns s q sl && prepDone s q sl p then passOver p (passAt s q.ver.num p 65536 0) t else s

/-- The next preparation write of a pipe: of the oldest sealed version whose pass of it has not ended, so that
no earlier version's pass comes over a later one's (R195, log entry 159). -/
def prepAny (s : State) (p : Nat) : Option State :=
  (s.ver.pending.find? fun q => decide ((tget Prep.init q.prep p).cursor < 65536)).bind fun q => prepStep s q p

/-! ## Legacy writes (R197 to R199) -/

/-- A queued row whose size no longer fits the entries of its bank. -/
def legacyStale (s : State) (p : Nat) (l : Legacy) : Bool :=
  l.row.length != 32 * heldWidth s (16 * p + l.bank)

/-- One beat of a legacy write: valid cleared first unless the entry is invalid already, then the
units in turn (R199). -/
def legacyBeat (s : State) (p : Nat) (l : Legacy) : State :=
  let w := heldWidth s (16 * p + l.bank)
  let n := unitNo p l.bank (l.entry * w)
  let u := tcamAt s n
  if l.progress = 0 && u.valid then
    modPipe (putUnit s n { u with valid := false }) p fun k =>
      { k with legacy := { l with progress := 1 } :: k.legacy.drop 1 }
  else
    let i := l.progress - 1
    let s := writeUnit s n w i 15 l.row (rowValid l.row)
    if i + 1 < w then
      modPipe s p fun k => { k with legacy := { l with progress := i + 2 } :: k.legacy.drop 1 }
    else
      modPipe s p fun k => { k with legacy := k.legacy.drop 1,
                                    legacyApplied := (k.legacyApplied + 1) % 2 ^ 32,
                                    legacyTick := s.rm.tick }

/-- A legacy row is queued, or rejected (R198). A row that names a bank above 15 or an entry that its bank does not
have is rejected too (DESIGN CHOICE, log entry 161). -/
def legacyPush (p : Nat) (row : Bytes) (s : State) : Option State :=
  let b := natAt row 0 2
  let e := natAt row 2 2
  let g := 16 * p + b
  let body := row.drop 4
  let w := curWidth s g
  if b < 16 && bankLegacy s g && rowSizeOk body w && decide (e < 2048 / w)
      && decide ((pipeAt s p).legacy.length < 256) then
    some (modPipe s p fun k => { k with legacy := k.legacy ++
      [{ bank := b, entry := e, row := keptRow (0x4B00 + p) 1 e body, recv := s.beat, tick := s.rm.tick + 1,
         progress := 0 }] })
  else none

/-- Writes to a bank that have not finished are given up when its mode changes (R4, log entry 147). -/
def dropWrites (s : State) (g : Nat) : State :=
  let s := modPipe s (g / 16) fun k => { k with legacy := k.legacy.filter (·.bank != g % 16) }
  { s with ver := { s.ver with pending := s.ver.pending.map fun q =>
      { q with prep := tmod Prep.init q.prep (g / 16) fun k =>
        if k.unit != 0 && k.cursor / 2048 == g % 16 then { k with cursor := 2048 * (g % 16 + 1), unit := 0 }
        else k } } }

/-- Bank mode: every live slot and pending version leaves the bank unused; the bank becomes empty
in the beat (R200). -/
def setBankMode (g mode : Nat) (s : State) : Option State :=
  let free := fun v => bankGroup v g == 15
  if (List.range 4).all (fun k => !isLive s k || free (slotVer s k))
      && s.ver.pending.all (fun q => free q.ver) then
    let s := if rw s (0x4800 + g) 3 = mode then s else dropWrites s g
    some (wipeBank (setRw s (0x4800 + g) 3 noRow [BitVec.ofNat 8 mode]) g)
  else none

/-! ## Carousel jobs of the ingress half -/

/-- An ingress carousel beat of a pipe that has not run yet in this beat. -/
def ingressReady (s : State) (p : Nat) : Bool :=
  pipeLive s p && isCarousel .ingress s.beat && (pipeAt s p).ingLast != some s.beat

def ranIngress (s : State) (p cls : Nat) : State :=
  countCarousel (modPipe s p fun k => { k with ingLast := some s.beat }) .ingress p cls

/-- One unit or exact-entry write, legacy writes first (R167, R190, R199). A legacy row that no longer fits
its bank is discarded (log entry 147). -/
def twriteBeat (s : State) (p : Nat) : State :=
  let s := modPipe s p fun k => { k with legacy := k.legacy.dropWhile (legacyStale s p) }
  let prepare := match prepAny (passOver p s s.ver.pending) p with
    | some s => ranIngress s p 0
    | none => ranIngress (passOver p s s.ver.pending) p 1
  match (pipeAt s p).legacy with
  | l :: _ => if l.tick ≤ s.rm.tick then ranIngress (legacyBeat s p l) p 0 else prepare
  | [] => prepare

/-- One compare of the scrub (R168, R169). `found` is what the bank unit holds when an upset has
changed it; `sh` what the shadow's code word meets. -/
def scrubBeat (s : State) (p : Nat) (found : Option TcamUnit) (sh : Ecc) : State :=
  let pos := (pipeAt s p).scrubPos % 32768
  let b := pos / 2048
  let u := pos % 2048
  let n := unitNo p b u
  let s := modPipe s p fun k => { k with scrubPos := (pos + 1) % 32768 }
  let s := match found with
    | some x => { s with mem := { s.mem with tcam := tput TcamUnit.zero s.mem.tcam n x } }
    | none => s
  if sh = .double then
    let n0 := n - u % heldWidth s (16 * p + b)
    let clear := fun (t : Tbl TcamUnit) => tmod TcamUnit.zero t n0 fun x => { x with valid := false }
    let s := { s with mem := { s.mem with tcam := clear s.mem.tcam, shadow := clear s.mem.shadow } }
    raiseEv (count s (cPipe p 31) 1) evShadowBad p [b, u]
  else if tcamAt s n != shadowAt s n then
    let s := { s with mem := { s.mem with
        oldUnits := keepOld s.mem.oldUnits n (tcamAt s n),
        tcam := tput TcamUnit.zero s.mem.tcam n (shadowAt s n) } }
    raiseEv (count s (cPipe p 30) 1) evShadowMismatch p [b, u]
  else s

/-! ## The commands' meanings -/

/-- TWRITE: an ingress carousel beat whose job is TWRITE; a PAD beat is wasted (R70, R167). -/
def rowTwrite (pipe : Nat) (s : State) : State :=
  whenRun s fun s => guardS (ingressReady s pipe) s fun s =>
    let j := jobOf s .ingress s.beat
    if j = jobTwrite then twriteBeat s pipe else if j = jobPad then ranIngress s pipe 1 else s

/-- TSCRUB: an ingress carousel beat whose job is TSCRUB; a PAD beat is wasted (R70, R168). -/
def rowTscrub (pipe : Nat) (found : Option TcamUnit) (shadow : Ecc) (s : State) : State :=
  whenRun s fun s => guardS (ingressReady s pipe) s fun s =>
    let j := jobOf s .ingress s.beat
    if j = jobTscrub then ranIngress (scrubBeat s pipe found shadow) pipe 0
    else if j = jobPad then ranIngress s pipe 1 else s

def rowLegacyWrite (src : Origin) (pipe : Nat) (row : Bytes) (s : State) : State :=
  writeCmd s src (0x4D00 + pipe) 1 0 row (legacyPush pipe row)

def rowBankModeWrite (src : Origin) (bank mode : Nat) (s : State) : State :=
  writeCmd s src (0x4800 + bank) 3 noRow [BitVec.ofNat 8 mode] (setBankMode bank mode)

end Sys2Proof.Machine
end

