-- ==== Sys2Proof/Machine/Hash.lean ====
section
/-! DEFINITION. Flow keys, hashes, records and their fields (R216 to R228), and the owner of a
public port (R340). -/

namespace Sys2Proof.Machine

def mul64 (a b : Nat) : Nat := a * b % 2 ^ 64
def rotl64 (x n : Nat) : Nat := (x <<< n ||| x >>> (64 - n)) % 2 ^ 64

/-- mix64 of R217. -/
def mix64 (x : Nat) : Nat :=
  let x := x ^^^ x >>> 31
  let x := mul64 x 0xD6E8FEB86659FD93
  let x := x ^^^ x >>> 29
  let x := mul64 x 0x9FB21C651E98DF25
  x ^^^ x >>> 32

/-- hkey of R217 over the words of a key block. -/
def hkey (seed : Nat) (ws : List Nat) : Nat :=
  mix64 (ws.foldl
    (fun h w => mul64 (rotl64 (h ^^^ mix64 ((w + seed) % 2 ^ 64)) 23) 0xD6E8FEB86659FD93)
    (seed ^^^ mul64 ws.length 0x9FB21C651E98DF25))

/-- The words of a key block: the profile, the key, zeros (R216). -/
def keyBlock (profile : Nat) (key : Bytes) : List Nat :=
  let n := if key.length ≤ 20 then 3 else 7
  let b := slice (BitVec.ofNat 8 profile :: key) 0 (8 * n)
  (List.range n).map fun i => natAt b (8 * i) 8

def popcount8 (m : Nat) : Nat := ((List.range 8).filter fun i => bit m i).length

/-- Seed i of `flow.seeds.active`: home, bucket, fp (R217, R260). -/
def seedActive (s : State) (i : Nat) : Nat := natAt (stored s 0x5000 6 noRow) (8 * i) 8

/-- H0 (R217). -/
def homePipe (s : State) (ws : List Nat) : Nat :=
  let m := homeMask s
  let j := hkey (seedActive s 0) ws / 2 ^ 32 * popcount8 m / 2 ^ 32
  (((List.range 8).filter fun i => bit m i).getD j 0)

def fingerprint (s : State) (ws : List Nat) : Nat := 1 + hkey (seedActive s 2) ws % 253

def altBucket (s : State) (f : Nat) : Nat :=
  let a := mix64 (seedActive s 1 ^^^ f) % 2 ^ 22
  if a = 0 then 1 else a

/-- H1, H2 and the fingerprint (R217). -/
def buckets (s : State) (ws : List Nat) : Nat × Nat × Nat :=
  let b1 := hkey (seedActive s 1) ws % 2 ^ 22
  let f := fingerprint s ws
  (b1, b1 ^^^ altBucket s f, f)

/-- The pipe that owns a public address and port (R340). -/
def steer (s : State) (addr port : Nat) : Nat :=
  let steerProfile := natOf (stored s 0x5040 6 noRow)
  let b := bytesOf 1 steerProfile ++ bytesOf 4 addr ++ bytesOf 2 port ++ zeros 17
  homePipe s ((List.range 3).map fun i => natAt b (8 * i) 8)

/-! ## Slots (R212, R219) -/

def slotOf (p b i : Nat) : Nat := p * 2 ^ 24 + 4 * b + i
def slotPipe (a : Nat) : Nat := a / 2 ^ 24
def slotBucket (a : Nat) : Nat := a % 2 ^ 24 / 4

def dirAt (s : State) (a : Nat) : Nat := tget 0 s.mem.dir a
def putDir (s : State) (a v : Nat) : State :=
  { s with mem := { s.mem with dir := tput 0 s.mem.dir a v } }

/-- The first slot of a double record (R219, R220). -/
def isDouble (s : State) (a : Nat) : Bool :=
  a % 2 == 0 && dirAt s (a + 1) == 254

/-! ## Records (R222 to R226) -/

def recLen (dbl : Bool) : Nat := if dbl then 128 else 64
def keyLen (dbl : Bool) : Nat := if dbl then 52 else 20

def recFlags (dbl : Bool) (r : Bytes) : Nat := natAt r (keyLen dbl) 2
def flagProfile (f : Nat) : Nat := bits f 15 10
def flagDbl (f : Nat) : Bool := bit f 9
def flagStatic (f : Nat) : Bool := bit f 8
def flagLive (f : Nat) : Bool := bit f 6

def lastSeen (dbl : Bool) (r : Bytes) : Nat := natAt r (keyLen dbl + 4) 3
def putLastSeen (dbl : Bool) (r : Bytes) (tick : Nat) : Bytes :=
  putNat r (keyLen dbl + 4) 3 (tick % 2 ^ 24)
def recAlloc (dbl : Bool) (r : Bytes) : Nat := natAt r (keyLen dbl + 8) 4

/-- The step of R225 on one byte. -/
def crc16Byte (c x : Nat) : Nat :=
  times (fun c => if bit c 15 then (2 * c ^^^ 0x1021) % 65536 else 2 * c % 65536) 8
    ((c ^^^ x * 256) % 65536)

/-- record_check of R225. -/
def recordCheck (a : Nat) (dbl : Bool) (r : Bytes) : Nat :=
  let k := keyLen dbl + 2
  (bytesOf 4 a ++ r.take k ++ r.drop (k + 2)).foldl (fun c b => crc16Byte c b.toNat) 0xFFFF

/-- A record as it is written to HBM: its check is computed last. -/
def sealRecord (a : Nat) (dbl : Bool) (r : Bytes) : Bytes :=
  putNat r (keyLen dbl + 2) 2 (recordCheck a dbl r)

/-- A record at creation (R224): key, flags, tick; static and host for a host INSERT. -/
def newRecord (profile : Nat) (dbl : Bool) (key : Bytes) (tick : Nat) (static host : Bool) :
    Bytes :=
  let f := profile * 1024 + b2n dbl * 512 + b2n static * 256 + b2n host * 128 + 64
  slice key 0 (keyLen dbl) ++ bytesOf 2 f ++ [0, 0] ++ bytesOf 3 (tick % 2 ^ 24) ++ [0]
    ++ bytesOf 4 0xFFFFFFFF ++ zeros (if dbl then 64 else 32)

/-- The record with live 0 (R243, R248). -/
def clearLive (dbl : Bool) (r : Bytes) : Bytes :=
  putNat r (keyLen dbl) 2 (setBit (recFlags dbl r) 6 false)

/-- The 64 bytes of a slot in the record area. -/
def slotBytes (s : State) (a : Nat) : Bytes := tget (zeros 64) s.mem.hbm a

def readRecord (s : State) (a : Nat) (dbl : Bool) : Bytes :=
  if dbl then slotBytes s a ++ slotBytes s (a + 1) else slotBytes s a

def putSlot (s : State) (a : Nat) (b : Bytes) : State :=
  { s with mem := { s.mem with hbm := tput (zeros 64) s.mem.hbm a (slice b 0 64) } }

/-- Write a record to its slot, with its check; `raw` bytes go as they are. -/
def writeRaw (s : State) (a : Nat) (dbl : Bool) (r : Bytes) : State :=
  if dbl then putSlot (putSlot s a (r.take 64)) (a + 1) (r.drop 64) else putSlot s a r

def writeRecordAt (s : State) (a : Nat) (dbl : Bool) (r : Bytes) : State :=
  writeRaw s a dbl (sealRecord a dbl r)

/-- What is wrong with a record read without an ECC error: 0 nothing, 2 CHECK, 3 LIVE, 4 SHAPE, by the shape that the
directory gives its slot (R226, R250). Of several faults the first in the order CHECK, LIVE, SHAPE is reported
(DESIGN CHOICE, log entry 166: R250 gives no order). -/
def recordFault (s : State) (a : Nat) (dbl : Bool) : Nat :=
  let r := readRecord s a dbl
  if natAt r (keyLen dbl + 2) 2 != recordCheck a dbl r then 2
  else if !flagLive (recFlags dbl r) then 3
  else if flagDbl (recFlags dbl r) != dbl then 4 else 0

def recHolds (dbl : Bool) (r : Bytes) (profile : Nat) (key : Bytes) : Bool :=
  r.take (keyLen dbl) == key && flagProfile (recFlags dbl r) == profile
    && flagDbl (recFlags dbl r) == dbl

/-! ## Companion and bulk areas (R213) -/

def companionAt (s : State) (a : Nat) : Bytes := tget (zeros 128) s.mem.companion a
def putCompanion (s : State) (a : Nat) (b : Bytes) : State :=
  { s with mem := { s.mem with companion := tput (zeros 128) s.mem.companion a (slice b 0 128) } }


/-! ## Key profiles (R227, R228, R337) -/

def profileRow (v : VerCfg) (k : Nat) : Bytes := slice (cfgRow v 0x5010 1 k) 0 72
def profileValid (v : VerCfg) (k : Nat) : Bool := bit (natAt (profileRow v k) 0 4) 31
def profileDbl (v : VerCfg) (k : Nat) : Bool := bit (natAt (profileRow v k) 0 4) 30
def profileLearn (v : VerCfg) (k : Nat) : Bool := bit (natAt (profileRow v k) 0 4) 29
def profileExport (v : VerCfg) (k : Nat) : Bool := bit (natAt (profileRow v k) 0 4) 28
def profileAge (v : VerCfg) (k : Nat) : Nat := bits (natAt (profileRow v k) 0 4) 23 0

def profileExtracts (row : Bytes) : List (Nat × Nat) :=
  (((List.range 16).map fun i => natAt row (8 + 4 * i) 4).takeWhile (· != 0)).map fun r =>
    (bits r 26 16, bits r 5 0)

/-- The key that a profile builds from a vector (R228). -/
def flowKey (v : VerCfg) (k : Nat) (vec : Bytes) : Bytes :=
  let n := keyLen (profileDbl v k)
  let (acc, len) := (profileExtracts (profileRow v k)).foldl
    (fun a e => (a.1 * 2 ^ e.2 + vecBits vec e.1 e.2, a.2 + e.2)) (0, 0)
  bytesOf n (acc * 2 ^ (8 * n - len))

/-- The checks of a profile row (R228). -/
def profileRowOk (row : Bytes) : Bool :=
  let ex := profileExtracts row
  let dbl := bit (natAt row 0 4) 30
  let age := bits (natAt row 0 4) 23 0
  decide (sumNat (ex.map Prod.snd) ≤ if dbl then 416 else 160)
    && ex.all (fun e => decide (e.1 + e.2 ≤ 1536))
    && (decide (age < 0x800000) || age == 0xFFFFFF)

/-- Trap verdict and expiry template of a profile (R337). -/
def trapVerdict (v : VerCfg) (k : Nat) : Nat := natAt (cfgRow v 0x5030 1 k) 0 8
def expiryTemplate (v : VerCfg) (k : Nat) : Nat := byteAt (cfgRow v 0x5030 1 k) 8

end Sys2Proof.Machine
end

