-- ==== Sys2Proof/Machine/Home.lean ====
section
/-! DEFINITION. What a home half keeps beside its records: the hot cache, HBM reads, the stash,
claims, moves under way, lookups, placements and quarantine (R219 to R254). -/

namespace Sys2Proof.Machine

/-! ## Positions (R229) -/

def Pos.init : Pos :=
  { h := 0, tick := 0, work := .idle, cands := [], opens := [], found := none, outcome := 0,
    overflow := false, noLearn := false, badSlots := [], rebuild := [], dirByte := 0, adm := 0, status := 0,
    done := false }

def modPos (s : State) (p h : Nat) (f : Pos → Pos) : State :=
  modPipe s p fun k => { k with pos := lmod (fun q => q.h == h) f k.pos }

def posAt (s : State) (p h : Nat) : Option Pos := (pipeAt s p).pos.find? fun q => q.h == h

/-- Value i of the objects of R261 for the tick of a home beat. -/
def flowValue (s : State) (h i : Nat) : Nat := (boundOf s h).flow.getD i 0

/-- A tick joins those for which an event has been raised; the last 16 are kept, more than home order can mix. -/
def rememberTick (l : List Nat) (t : Nat) : List Nat := (t :: l).take 16

/-! ## The hot cache (R231) -/

def Cached.size (c : Cached) : Nat := if c.dbl then 2 else 1
def cacheUsed (k : Pipe) : Nat := sumNat (k.cache.map Cached.size)
def isCached (k : Pipe) (a : Nat) : Bool := k.cache.any fun c => c.slot == a

/-- Free room for n entries: the least recently used that is not pinned pending goes first; one
whose write has not landed makes the step wait (none). -/
def cacheRoom : Nat → Pipe → Nat → Option Pipe
  | 0, _, _ => none
  | fuel + 1, k, n =>
    if cacheUsed k + n ≤ 65536 then some k
    else match argMin Cached.used (k.cache.filter fun c => c.pin != .pending) with
      | none => none
      | some c =>
        if c.pin = .write then none
        else cacheRoom fuel { k with cache := k.cache.filter fun x => x.slot != c.slot } n

/-- Enter, write or pin an entry. -/
def cachePut (k : Pipe) (a : Nat) (dbl : Bool) (pin : Pin) : Option Pipe :=
  let e : Cached := { slot := a, dbl := dbl, pin := pin, used := k.cacheUse }
  let k' := { k with cache := k.cache.filter fun c => c.slot != a, cacheUse := k.cacheUse + 1 }
  (cacheRoom 4 k' e.size).map fun k => { k with cache := e :: k.cache }

/-- A lookup finds an entry (its use is renewed). -/
def cacheTouch (k : Pipe) (a : Nat) : Pipe :=
  { k with cache := k.cache.map fun c => if c.slot = a then { c with used := k.cacheUse } else c,
           cacheUse := k.cacheUse + 1 }

def cacheDrop (k : Pipe) (a : Nat) : Pipe :=
  { k with cache := k.cache.filter fun c => c.slot != a }

/-- A cache operation on the state; none makes the home clock hold (pin hold). -/
def putCache (s : State) (p a : Nat) (dbl : Bool) (pin : Pin) : Option State :=
  (cachePut (pipeAt s p) a dbl pin).map fun k => modPipe s p fun _ => k

/-- A record read enters unpinned; one that is held already keeps its pin. -/
def enterRead (s : State) (p a : Nat) (dbl : Bool) : Option State :=
  if isCached (pipeAt s p) a then some (modPipe s p fun k => cacheTouch k a)
  else putCache s p a dbl .none

/-! ## HBM reads (R79, R233) -/

/-- Requests of the pipe that are out: reads not landed and writes not landed (R79, R231). -/
def outstanding (k : Pipe) : Nat := (k.reads.filter fun r => r.issued && !r.landed).length

/-- Later than every home beat. -/
def noLimit : Nat := 2 ^ 80

/-- The requester code of a commit-step write. -/
def writeReq : Nat := 9

/-- Queue a read of a position for a beat or later; `requester` 0 is a packet read (R79), else 1 + the requester
of the HBM background arbiter (R497). -/
def askFrom (s : State) (p h slot bytes area requester after : Nat) : State :=
  modPipe s p fun k =>
    { k with nextRead := k.nextRead + 1, reads := k.reads ++
      [{ id := k.nextRead, h := h, slot := slot, bytes := bytes, area := area,
         requester := requester, after := after, issued := false, landed := false, bad := false,
         issueBeat := 0 }] }

def askRead (s : State) (p h slot bytes area requester : Nat) : State :=
  askFrom s p h slot bytes area requester 0

/-- A commit step's write to the record area (0) or the companion area (1): from beat c + 4 on it takes a request as
soon as one is free, and holds it until it lands (R79, R231, R329). -/
def askWrite (s : State) (p slot area : Nat) : State :=
  askFrom s p noLimit slot 64 area writeReq (beatAfter s 4)

/-- Issue a read, or an idle step's access, that has its request (R79); packet reads are counted (R584),
and every one is a filtered event (R593). -/
def issueRead (s : State) (p id : Nat) : State :=
  match (pipeAt s p).reads.find? fun r => r.id == id with
  | none => s
  | some r =>
    let s := modPipe s p fun k =>
      { k with reads := k.reads.map fun r =>
                 if r.id = id then { r with issued := true, issueBeat := s.beat } else r }
    let s := if r.requester = 0 then count s (cPipe p 40) 1 else s
    let off := if r.area = 0 then r.slot * 64 else if r.area = 1 then 0x200000000 + r.slot * 128
      else 0x600000000 + r.slot
    let writes := r.requester == writeReq
      || (pipeAt s p).comp.any fun c => c.read == some id && c.write.isSome
    if writes then filtered s 5 0 [] off none 1 else filtered s 4 0 [(1, p)] off none 1

/-- Issue packet reads and commit-step writes in order while requests are free; background reads wait for a grant. -/
def issueReads (p : Nat) : Nat → State → State
  | 0, s => s
  | n + 1, s =>
    let k := pipeAt s p
    if 512 ≤ outstanding k then s
    else match k.reads.find? fun r => !r.issued && (r.requester == 0 || r.requester == writeReq)
        && due s r.after with
      | none => s
      | some r => issueReads p n (issueRead s p r.id)

/-- Ask for the next candidates of an OPEN position: two at first, then one at a time, in the beat after a landing
(R233). -/
def askCandidates (s : State) (p h n bytes requester after : Nat) : State :=
  match posAt s p h with
  | none => s
  | some q =>
    let s := (q.cands.take n).foldl (fun s a => askFrom s p h a bytes 0 requester after) s
    modPos s p h fun q => { q with cands := q.cands.drop n }

/-! ## Who occupies a slot (R230, R236, R244) -/

/-- The move not yet committed that fills a slot, of those admitted before home beat lim. -/
def pendingMove (k : Pipe) (a lim : Nat) : Option (Place × Nat) :=
  (k.pos.filterMap fun q =>
    match q.work with
    | .move src dst _ _ _ =>
      if dst = a && decide (q.h < lim) && !q.done then some (src, q.h) else none
    | _ => none).getLast?

/-- A record that waits beside its slot, in the view before home beat lim. -/
def earlyAt (k : Pipe) (a lim : Nat) : Option Early :=
  k.early.find? fun e => e.slot == a && decide (e.since ≤ lim)

/-- How a slot got its occupant in the view before home beat lim: by a move not yet committed from a place, with the
move's home beat; or it lies there, or waits beside it. -/
def lastFill (k : Pipe) (a lim : Nat) : Option (Place × Nat) :=
  let claimed := (k.claims.filter fun c => c.place == .slot a && decide (c.h < lim)).map Claim.h
  match pendingMove k a lim, earlyAt k a lim with
  | some (src, h), some e =>
    if claimed.any fun c => decide (max h e.since ≤ c) then none
    else if h < e.since then some (.early a, lim) else some (src, h)
  | some (src, h), none => if claimed.any fun c => decide (h ≤ c) then none else some (src, h)
  | none, some e => if claimed.any fun c => decide (e.since ≤ c) then none else some (.early a, lim)
  | none, none => none

/-- The place where the occupant of a place still lies, and the limit of its view. -/
def resolve (k : Pipe) : Nat → Place → Nat → Place × Nat
  | 0, pl, lim => (pl, lim)
  | n + 1, .slot a, lim =>
    match lastFill k a lim with
    | some (pl, h) => resolve k n pl h
    | none => (.slot a, lim)
  | _ + 1, pl, lim => (pl, lim)

/-- The newest claim on a place made before home beat lim. -/
def claimAt (k : Pipe) (pl : Place) (lim : Nat) : Option Claim :=
  argMin (fun c => noLimit - c.h) (k.claims.filter fun c => c.place == pl && decide (c.h < lim))

/-- Where the occupant that a place has before home beat lim still lies, and the limit of its view there. -/
def whereAt (k : Pipe) (pl : Place) (lim : Nat) : Place × Nat := resolve k (k.pos.length + 1) pl lim

def whereIs (k : Pipe) (pl : Place) : Place × Nat := whereAt k pl noLimit

/-- The TENTATIVE claim that occupies a place before home beat lim (R230). -/
def occupantAt (k : Pipe) (pl : Place) (lim : Nat) : Option Claim :=
  let (q, lim) := whereAt k pl lim
  claimAt k q lim

/-- The TENTATIVE claim that occupies a place in the latest view. -/
def occupantClaim (k : Pipe) (pl : Place) : Option Claim := occupantAt k pl noLimit

/-- A slot, or the slot of a record, is quarantined (R250). -/
def quarantined (s : State) : Place → Bool
  | .slot a | .early a => s.mem.quarantine.contains a
  | .stash _ => false

def stashAt (k : Pipe) (i : Nat) : Option Stash := k.stash.find? fun e => e.idx == i

def Place.bytes (s : State) (p : Nat) (dbl : Bool) : Place → Bytes
  | .slot a => readRecord s a dbl
  | .stash i => ((stashAt (pipeAt s p) i).map Stash.data).getD (zeros (recLen dbl))
  | .early a => ((earlyAt (pipeAt s p) a noLimit).map Early.data).getD (zeros (recLen dbl))

/-- The occupant that a place has before home beat lim has a key and profile: that of its claim, or else of its
record, which has not ended. -/
def occupantIs (s : State) (p : Nat) (pl : Place) (lim profile : Nat) (key : Bytes) : Bool :=
  let k := pipeAt s p
  let (q, lim) := whereAt k pl lim
  match claimAt k q lim with
  | some c => c.profile == profile && c.key == key
  | none =>
    match q with
    | .slot _ | .early _ =>
      let dbl := decide (20 < key.length)
      let r := q.bytes s p dbl
      flagLive (recFlags dbl r) && recHolds dbl r profile key
    | .stash i =>
      match stashAt k i with
      | some e => e.profile == profile && e.key == key
      | none => false

/-! ## Lookup (R232) -/

/-- The slots of the two buckets whose byte is f and whose shape fits, in order. -/
def candidates (s : State) (p b1 b2 f : Nat) (dbl : Bool) : List Nat :=
  ([b1, b2].flatMap fun b => (List.range 4).map fun i => slotOf p b i).filter fun a =>
    dirAt s a == f && isDouble s a == dbl

structure Lookup where
  /-- 1 KNOWN HIT, 2 CLEAN MISS, 3 OPEN. -/
  outcome : Nat
  found : Option Place
  opens : List Nat

def lookup (s : State) (p profile : Nat) (key : Bytes) : Lookup :=
  let (b1, b2, f) := buckets s (keyBlock profile key)
  let k := pipeAt s p
  match k.stash.find? fun e => e.seen && e.profile == profile && e.key == key with
  | some e => { outcome := 1, found := some (.stash e.idx), opens := [] }
  | none =>
    let cs := candidates s p b1 b2 f (decide (20 < key.length))
    let (cached, rest) := cs.partition fun a => isCached k a
    match cached.find? fun a => occupantIs s p (.slot a) noLimit profile key with
    | some a => { outcome := 1, found := some (.slot a), opens := [] }
    | none => { outcome := if rest = [] then 2 else 3, found := none, opens := rest }

/-- A bucket waits for its rebuild (R254). -/
def rebuilding (k : Pipe) (b : Nat) : Bool :=
  k.pos.any fun q => !q.done && q.rebuild.contains b

/-- A packet found a place: it holds the claim there, if any (R236). -/
def holdClaim (s : State) (p h : Nat) (pl : Place) : State :=
  match occupantAt (pipeAt s p) pl h with
  | none => s
  | some c => modPipe s p fun k => { k with claims := k.claims.map fun x =>
      if x.h = c.h && x.place == c.place && !x.holders.contains h then
        { x with holders := x.holders ++ [h] } else x }

/-! ## Placement (R235, R245) -/

/-- The first empty slot, or pair, of two buckets. -/
def emptyIn (s : State) (p b1 b2 : Nat) (dbl : Bool) : Option Nat :=
  ([b1, b2].flatMap fun b => (if dbl then [0, 2] else [0, 1, 2, 3]).map fun i => slotOf p b i).find?
    fun a => dirAt s a == 0 && (!dbl || dirAt s (a + 1) == 0)

/-- A slot or pair takes a fingerprint (R219, R220). -/
def occupy (s : State) (a f : Nat) (dbl : Bool) : State :=
  let s := putDir s a f
  if dbl then putDir s (a + 1) 254 else s

def vacate (s : State) (a : Nat) (dbl : Bool) : State :=
  let s := putDir s a 0
  if dbl then putDir s (a + 1) 0 else s

/-- The lowest free stash entry. -/
def freeStash (k : Pipe) : Option Nat := (List.range 1024).find? fun i => (stashAt k i).isNone

/-- A place for a key: a slot, else a stash entry, which joins the relocation queue. -/
def takePlace (s : State) (p profile : Nat) (key : Bytes) : Option (State × Place) :=
  let dbl := decide (20 < key.length)
  let (b1, b2, f) := buckets s (keyBlock profile key)
  match emptyIn s p b1 b2 dbl with
  | some a => some (occupy s a f dbl, .slot a)
  | none =>
    (freeStash (pipeAt s p)).map fun i =>
      let e : Stash := { idx := i, profile := profile, dbl := dbl, key := key, fp := f, b1 := b1,
                         b2 := b2, data := zeros (recLen dbl), order := (pipeAt s p).nextOrder,
                         drain := (pipeAt s p).nextOrder, skipped := none, seen := true }
      (modPipe s p fun k =>
        { k with stash := k.stash ++ [e], nextOrder := k.nextOrder + 1,
                 stashPeak := max k.stashPeak (k.stash.length + 1) }, .stash i)

/-- Pin a place pending for a later commit step (R231); a stash entry needs no pin. -/
def pinPlace (s : State) (p : Nat) (dbl : Bool) : Place → Option State
  | .slot a | .early a => putCache s p a dbl .pending
  | .stash _ => some s

/-- A claim in the admission step of home beat h (R235); none is a pin hold; the flag is false
when there was no room. -/
def makeClaim (s : State) (p h profile : Nat) (key : Bytes) : Option (State × Option Place) :=
  match takePlace s p profile key with
  | none => some (s, none)
  | some (s, pl) =>
    (pinPlace s p (decide (20 < key.length)) pl).map fun s =>
      (modPipe s p fun k => { k with claims := k.claims ++
        [{ h := h, place := pl, profile := profile, key := key, holders := [h] }] }, some pl)

/-! ## Records at their places -/

/-- A claim or a move admitted after home beat h fills the slot in a commit step to come. -/
def fillsLater (k : Pipe) (a h : Nat) : Bool :=
  (k.claims.any fun c => c.place == .slot a && decide (h < c.h))
    || k.pos.any fun q => !q.done && match q.work with
      | .move _ dst _ _ _ => dst == a && decide (h < q.h)
      | _ => false
    || k.early.any fun e => e.slot == a

/-- A move that has not committed carries an earlier occupant out of a slot, or into it and on. -/
def crowded (k : Pipe) (a : Nat) : Bool :=
  k.pos.any fun q => !q.done && match q.work with
    | .move src dst _ _ _ => src == .slot a || dst == a
    | _ => false

/-- Where a record of a slot's latest occupant is put: beside the slot while an earlier occupant's record has still to
leave it (R237, R243). -/
def freshPlace (k : Pipe) (lim : Nat) : Place → Place
  | .slot a => if lim = noLimit && crowded k a then .early a else .slot a
  | pl => pl

/-- A record is put beside its slot, in the home beat that the pipe executes. -/
def putEarly (k : Pipe) (a : Nat) (dbl : Bool) (r : Bytes) : Pipe :=
  if k.early.any fun e => e.slot == a then
    { k with early := k.early.map fun e => if e.slot = a then { e with data := r } else e }
  else { k with early := k.early ++ [{ slot := a, since := k.h, dbl := dbl, data := r }] }

def dropEarly (k : Pipe) (a : Nat) : Pipe := { k with early := k.early.filter fun e => e.slot != a }

/-- Write a record at a place in the commit step of position h: a slot's stays pinned until its write lands, and a
slot that a later step will fill keeps its pending pin (R231). The check of a record in the stash, which completion
images show, takes 0x8000_0000 and the entry as its slot address (DESIGN CHOICE, log entry 165: R225 gives a slot's
address only). -/
def storeRecord (s : State) (p h : Nat) (dbl : Bool) (r : Bytes) : Place → Option State
  | .slot a =>
    let s := askWrite (writeRecordAt s a dbl r) p a 0
    if fillsLater (pipeAt s p) a h then some s else putCache s p a dbl .write
  | .stash i => some (modPipe s p fun k => { k with stash := k.stash.map fun e =>
      if e.idx = i then { e with data := sealRecord (0x80000000 + i) dbl r } else e })
  | .early a => putCache (modPipe s p fun k => putEarly k a dbl (sealRecord a dbl r)) p a dbl .pending

/-- A move of an occupant that a place had at home beat h away from it is under way (its directory byte is gone). -/
def carries (k : Pipe) (pl : Place) (h : Nat) (q : Pos) : Bool :=
  !q.done && match q.work, pl with
    | .move src _ _ _ _, .early a =>
      src == .slot a && (earlyAt k a noLimit).any fun e => decide (e.since ≤ q.h)
    | .move src _ _ _ _, pl => src == pl && decide (h < q.h)
    | _, _ => false

def leaving (k : Pipe) (pl : Place) (h : Nat) : Bool := k.pos.any (carries k pl h)

/-- A stash entry is freed; its active path is abandoned and counted (R242, R248). -/
def freeStashEntry (s : State) (p i tick : Nat) : State :=
  let had := match (pipeAt s p).path with
    | some x => x.entry == i
    | none => false
  let s := modPipe s p fun k =>
    { k with stash := k.stash.filter fun e => e.idx != i,
             path := if had then none else k.path }
  if had then countR s (cPipe p 6) 1 tick else s

/-- A place is empty again (R236, R248): directory bytes to 0 or the stash entry freed; a move that is carrying the
occupant away has nothing left to carry (R243). -/
def releasePlace (s : State) (p : Nat) (pl : Place) (dbl : Bool) (h tick : Nat) : State :=
  if leaving (pipeAt s p) pl h then
    modPipe s p fun k => { k with pos := k.pos.map fun q => if carries k pl h q then { q with status := 2 } else q }
  else match pl with
    | .slot a | .early a => modPipe (if dirAt s a = 255 then s else vacate s a dbl) p fun k => { dropEarly k a with
        cache := k.cache.filter fun c => !(c.slot == a && c.pin == .pending) }
    | .stash i => freeStashEntry s p i tick

def dropClaim (s : State) (p : Nat) (c : Claim) : State :=
  modPipe s p fun k => { k with claims := k.claims.filter fun x =>
    !(x.h == c.h && x.place == c.place) }

/-- A holder has committed without confirming: the last one releases the claim, which is counted
(R236). -/
def leaveClaim (s : State) (p : Nat) (c : Claim) (h tick : Nat) : State :=
  let rest := c.holders.filter (· != h)
  if rest = [] then
    let s := releasePlace (dropClaim s p c) p c.place (decide (20 < c.key.length)) c.h tick
    countR s (cPipe p 8) 1 tick
  else modPipe s p fun k => { k with claims := k.claims.map fun x =>
    if x.h = c.h && x.place == c.place then { x with holders := rest } else x }

/-! ## The NAT allocator's entries (R341, R343) -/

def natKey (i port : Nat) : Nat := i * 65536 + port

/-- An entry of the allocator holds an inside address: it is in use (R341). -/
def natInUse (e : Nat) : Bool := e / 65536 != 0

/-- Free an allocation: the entry empties and its port joins the tail of its list, unless it stands there already. -/
def natFreeAt (s : State) (p i port : Nat) : State :=
  modPipe s p fun k =>
    { k with nat := terase k.nat (natKey i port),
             natFree := tmod [] k.natFree i fun l => if l.contains port then l else l ++ [port] }

/-- `nat.release` of an entry; one that names a free entry is ignored (R343). -/
def natRelease (s : State) (p i port : Nat) : State :=
  if natInUse (tget 0 (pipeAt s p).nat (natKey i port)) then natFreeAt s p i port else s

def natEndRecord (s : State) (p : Nat) (dbl : Bool) (r : Bytes) : State :=
  let a := recAlloc dbl r
  if a = 0xFFFFFFFF then s else natFreeAt s p (bits a 19 16) (bits a 15 0)

/-! ## The end of a record (R248, R258) -/

/-- Packets and INSERT commands admitted after home beat h, not yet committed, that found the record that lies at
a place, there or at the destination of a move that carries it. -/
def laterHolders (s : State) (p h : Nat) (pl : Place) (profile : Nat) (key : Bytes) : List Nat :=
  ((pipeAt s p).pos.filter fun q => decide (h < q.h) && !q.done &&
    (match q.work with
     | .packet id =>
       (match pktAt s id with
        | some k => k.flow.key == key && k.flow.profile == profile
        | none => false)
     | .hcmd c => c.kind == 0 && byteAt c.body 0 / 16 == 1
         && slice c.body 8 key.length == key && byteAt c.body 1 % 64 == profile
     | _ => false)
    && (match q.found with
        | some x => (whereAt (pipeAt s p) x q.h).1 == pl
        | none => q.opens.any fun a => (whereAt (pipeAt s p) (.slot a) q.h).1 == pl)).map Pos.h

/-- A confirmed record ends in the commit step of position h: live 0, allocation returned, and a
TENTATIVE claim for its later holders, or the place released. -/
def endRecord (s : State) (p h tick : Nat) (pl : Place) (dbl : Bool) : Option State :=
  let r := pl.bytes s p dbl
  let profile := flagProfile (recFlags dbl r)
  let key := r.take (keyLen dbl)
  let holders := laterHolders s p h pl profile key
  (storeRecord s p h dbl (clearLive dbl r) pl).map fun s =>
    let s := natEndRecord s p dbl r
    let s := match pl, (pipeAt s p).path with
      | .stash i, some x => if x.entry = i then
          countR (modPipe s p fun k => { k with path := none }) (cPipe p 6) 1 tick else s
      | _, _ => s
    if holders = [] then releasePlace s p pl dbl h tick
    else match pl with
      | .early a => modPipe s p fun k => { dropEarly k a with claims := k.claims ++
          [{ h := k.h, place := .slot a, profile := profile, key := key, holders := holders }] }
      | pl => modPipe s p fun k => { k with claims := k.claims ++
          [{ h := h, place := pl, profile := profile, key := key, holders := holders }] }

/-! ## Quarantine (R250) -/

/-- A bad record: its slot, or both of a double, become 255; FLOW_RECORD_BAD with slot and cause. -/
def quarantine (s : State) (p a cause tick : Nat) : State :=
  if s.mem.quarantine.contains a then s
  else
    let slots := if isDouble s a then [a, a + 1] else [a]
    let s := slots.foldl (fun s x => putDir s x 255) s
    let s := { s with mem := { s.mem with
        quarantine := slots.foldl (fun l x => insertUnique x l) s.mem.quarantine } }
    let s := modPipe s p fun k => { cacheDrop k a with
      claims := k.claims.filter fun c => c.place != .slot a }
    raiseAt (countR s (cPipe p 10) 1 tick) evRecordBad p tick [a, cause]

/-- Quarantine every slot whose read of this position was bad; a claim in a bucket that it rebuilds is restored,
whatever its slot holds (R254). -/
def quarantineBad (s : State) (p : Nat) (q : Pos) : State :=
  q.badSlots.foldl (fun s e =>
    if q.rebuild.contains (slotBucket e.1) && (occupantClaim (pipeAt s p) (.slot e.1)).isSome then s
    else quarantine s p e.1 e.2 q.tick) s

/-! ## Alarms (R259) -/

/-- `flow.occupancy`: slots whose byte is 1 to 254. -/
def occupancy (s : State) (p : Nat) : Nat :=
  ((trange s.mem.dir (slotOf p 0 0) (slotOf (p + 1) 0 0)).filter fun e => e.2 != 255).length

/-- Raise the alarms once for each crossing. -/
def alarms (s : State) (p tick : Nat) : State :=
  let oa := rw s 0x5028 1
  let sa := rw s 0x5028 2
  let o := oa != 0 && decide (oa * 2 ^ 24 < occupancy s p * 10000)
  let t := sa != 0 && decide (sa < (pipeAt s p).stash.length)
  let k := pipeAt s p
  let s := modPipe s p fun k => { k with occHigh := o, stashHigh := t }
  let s := if o && !k.occHigh then raiseAt s evOccupancyHigh p tick [] else s
  if t && !k.stashHigh then raiseAt s evStashHigh p tick [] else s

/-! ## Directory errors (R221, R254) -/

/-- A bucket whose word meets a double error in a step of position h; the four reads belong to the position of home
beat c, in whose commit step the rebuild falls. -/
def dirDouble (s : State) (p h c b tick requester : Nat) : State :=
  let s := (List.range 4).foldl (fun s i => putDir s (slotOf p b i) 255) s
  let s := modPos s p h fun q => { q with rebuild := insertUnique b q.rebuild }
  let s := (List.range 4).foldl (fun s i => askRead s p c (slotOf p b i) 64 0 requester) s
  raiseAt (count s (cPipe p 13) 1) evDirEcc p tick [b]

/-- The words of these buckets are read in a step of position h at home beat c; `upset` names one that meets an error
(R221). -/
def readWords (s : State) (p h c tick requester : Nat) (bs : List Nat) (upset : Option (Nat × Ecc)) : State :=
  match upset with
  | some (b, .single) => if bs.contains b then count s (cPipe p 12) 1 else s
  | some (b, .double) => if bs.contains b then dirDouble s p h c b tick requester else s
  | _ => s

/-- The words that an admission step reads. -/
def readDirectory (s : State) (p h tick requester : Nat) (bs : List Nat)
    (upset : Option (Nat × Ecc)) : State :=
  readWords s p h h tick requester bs upset

/-- The rebuild of a bucket in the commit step (R254). -/
def rebuildBucket (s : State) (p : Nat) (q : Pos) (b : Nat) : State :=
  let one := fun (s : State) (i : Nat) =>
    let a := slotOf p b i
    match occupantClaim (pipeAt s p) (.slot a) with
    | some c =>
      let (_, _, f) := buckets s (keyBlock c.profile c.key)
      occupy s a f (decide (20 < c.key.length))
    | none =>
      let here := fun (dbl : Bool) =>
        let r := readRecord s a dbl
        let key := r.take (keyLen dbl)
        let ws := keyBlock (flagProfile (recFlags dbl r)) key
        let (b1, b2, _) := buckets s ws
        flagLive (recFlags dbl r) && flagDbl (recFlags dbl r) == dbl
          && natAt r (keyLen dbl + 2) 2 == recordCheck a dbl r
          && homePipe s ws == p && (b1 == b || b2 == b)
      let fpOf := fun (dbl : Bool) =>
        let r := readRecord s a dbl
        fingerprint s (keyBlock (flagProfile (recFlags dbl r)) (r.take (keyLen dbl)))
      let bad := fun a => q.badSlots.any fun e => e.1 == a
      if bad a then s
      else
        let s := { s with mem := { s.mem with quarantine := s.mem.quarantine.filter (· != a) } }
        if i % 2 == 1 && dirAt s (a - 1) != 255 && dirAt s a == 254 then s
        else if i % 2 == 0 && !bad (a + 1) && here true then occupy s a (fpOf true) true
        else if here false then putDir s a (fpOf false)
        else putDir s a 0
  (List.range 4).foldl one s

/-! ## A read lands (R226, R233) -/

/-- Home beats at or after h at which a slot is the source of a move under way, and at which it is filled again. -/
def leftAt (k : Pipe) (a h : Nat) : List Nat :=
  k.pos.filterMap fun q => match q.work with
    | .move src _ _ _ _ => if src == .slot a && !q.done && decide (h ≤ q.h) then some q.h else none
    | _ => none

def filledAt (k : Pipe) (a h : Nat) : List Nat :=
  (k.claims.filterMap fun c => if c.place == .slot a && decide (h ≤ c.h) then some c.h else none)
    ++ k.pos.filterMap fun q => match q.work with
      | .move _ dst _ _ _ => if dst == a && !q.done && decide (h ≤ q.h) then some q.h else none
      | _ => none

/-- The record that a slot held before home beat h still lies there: it has not ended, though a move may carry it
away (R230). -/
def stillThere (s : State) (p a h : Nat) : Bool :=
  let k := pipeAt s p
  let carried := fun (m : Nat) => (posAt s p m).all fun q => q.status != 2
  match argMin id (leftAt k a h), argMin id (filledAt k a h) with
  | some m, some f => decide (m < f) && carried m
  | some m, none => carried m
  | none, some _ => false
  | none, none => decide (1 ≤ dirAt s a) && decide (dirAt s a ≤ 253)

/-- The fault of a landed read (R226, R250): an ECC error, a record that is quarantined meanwhile, or what the record
that the position's view has in the slot shows. -/
def readFault (s : State) (p : Nat) (r : Read) (bad : Bool) : Nat :=
  if bad || s.mem.quarantine.contains r.slot then 1
  else if (earlyAt (pipeAt s p) r.slot r.h).isSome then 0
  else if (occupantAt (pipeAt s p) (.slot r.slot) r.h).isNone && stillThere s p r.slot r.h then
    recordFault s r.slot (r.bytes == 128)
  else 0

/-- The read-back of a quarantined slot fails: any ECC error, or bytes other than the pattern (R252). -/
def testFails (s : State) (a : Nat) (pattern : Bytes) (ecc : Ecc) : Bool :=
  ecc != .ok || readRecord s a false != pattern

/-- What the landing of read r shows to its position: the hit, a dropped candidate, a bad record. An uncorrectable
error in the companion record that a move reads is no bad record, and the move copies the stored bytes (DESIGN CHOICE,
log entry 164: R250 speaks of records only). -/
def judgeRead (s : State) (p : Nat) (r : Read) (ecc : Ecc) : State :=
  match posAt s p r.h with
  | none => s
  | some q =>
    let dbl := r.bytes == 128
    let pl := Place.slot r.slot
    let bad := ecc == .double
    let fault := readFault s p r bad
    let tested := match q.work with
      | .dscrub _ (some (a, pat)) => if a = r.slot then some pat else none
      | _ => none
    if r.area != 0 then s
    else if let some pat := tested then
      if testFails s r.slot pat ecc then
        modPos s p r.h fun q => { q with badSlots := q.badSlots ++ [(r.slot, 1)] }
      else s
    else if q.rebuild != [] && q.rebuild.contains (slotBucket r.slot) then
      (if bad then modPos s p r.h fun q => { q with badSlots := q.badSlots ++ [(r.slot, 1)] } else s)
    else if fault != 0 then
      modPos s p r.h fun q => { q with badSlots := q.badSlots ++ [(r.slot, fault)], noLearn := true }
    else if q.outcome != 3 then s
    else
      let is := fun (profile : Nat) (key : Bytes) =>
        if q.found.isNone && occupantIs s p pl r.h profile key then
          holdClaim (modPos s p r.h fun q => { q with found := some pl }) p r.h pl
        else s
      match q.work with
      | .packet id =>
        match pktAt s id with
        | some k => is k.flow.profile k.flow.key
        | none => s
      | .hcmd c =>
        let profile := byteAt c.body 1 % 64
        let key := slice c.body 8 (if dbl then 52 else 20)
        if byteAt c.body 0 / 16 = 1 then is profile key
        else if q.found.isNone && occupantIs s p pl r.h profile key then
          modPos s p r.h fun q => { q with found := some pl }
        else s
      | _ => s

/-- Reads of a position that are asked or out. -/
def openReads (k : Pipe) (h : Nat) : List Read := k.reads.filter fun r => r.h == h && !r.landed

/-- Landing: data and ECC; the last of a position's reads without a hit asks for the next
candidate alone (R233). -/
def landRead (s : State) (p id : Nat) (ecc : Ecc) : State :=
  match (pipeAt s p).reads.find? fun r => r.id == id with
  | none => s
  | some r =>
    if !r.issued || r.landed || r.requester = writeReq then s
    else
      let bad := ecc == .double
      let s := if ecc = .single then count s (cPipe p 14) 1 else s
      let s := if r.requester = 0 then count s (cPipe p 41) (s.beat - r.issueBeat) else s
      let s := modPipe s p fun k =>
        { k with reads := k.reads.map fun x =>
                   if x.id = id then { x with landed := true, bad := bad } else x }
      let s := judgeRead s p r ecc
      match posAt s p r.h with
      | none => modPipe s p fun k => { k with reads := k.reads.filter fun x => x.id != id }
      | some q =>
        if q.outcome = 3 && q.found.isNone && (openReads (pipeAt s p) r.h).isEmpty then
          askCandidates s p r.h 1 r.bytes r.requester (beatAfter s 1)
        else s

/-- A write of a slot that is out: not landed. -/
def writeOut (a : Nat) (r : Read) : Bool := r.requester == writeReq && r.issued && r.slot == a

/-- An HBM write lands: its request is free, and with the last record write of the slot its entry is no longer pinned
(R231). -/
def landWrite (s : State) (p a : Nat) : State :=
  if !(pipeAt s p).reads.any (writeOut a) then s
  else
    let s := modPipe s p fun k => { k with reads := ldel (writeOut a) k.reads }
    if (pipeAt s p).reads.any fun r => r.requester == writeReq && r.slot == a && r.area == 0 then s
    else modPipe s p fun k => { k with cache := k.cache.map fun c =>
      if c.slot = a && c.pin == .write then { c with pin := .none } else c }

end Sys2Proof.Machine
end

