-- ==== Sys2Proof/Machine/Engine.lean ====
section
/-! DEFINITION. Engines: the microword, its units, cluster tables, outputs, traps, dispatch and idle
steps (R262 to R298, R312 to R317). -/

namespace Sys2Proof.Machine

/-! ## The microword (R268, R269) -/

/-- Bits hi to lo of a word of 256 bits. -/
def fld (w hi lo : Nat) : Nat := bits w hi lo

/-- A landed register, a landed flag (f0 reads 1; R263). -/
def regAt (e : Engine) (r : Nat) : Word64 := tget 0 e.regs r
def flagAt (e : Engine) (f : Nat) : Bool := f == 0 || tget false e.flags f

/-- A guard is true: the flag, inverted when bit 4 is set (R269). -/
def guardOk (e : Engine) (g : Nat) : Bool := flagAt e (g % 16) != bit g 4

/-! ## Landings (R270, R271) -/

/-- The first beat at which a word reads the result, and its unit's place in the order of R271. -/
def Landing.key : Landing → Nat × Nat
  | .reg b o _ _ => (b, o)
  | .flag b _ _ => (b, 0)
  | .mem b _ _ => (b, 4)
  | .out b _ _ _ _ => (b, 6)

def landLe (a b : Landing) : Bool :=
  decide (a.key.1 < b.key.1) || (a.key.1 == b.key.1 && decide (a.key.2 ≤ b.key.2))

/-- Insert after every landing that comes no later: later issues stand in equal beats. -/
def landInsert (x : Landing) : List Landing → List Landing
  | [] => [x]
  | a :: t => if landLe a x then a :: landInsert x t else x :: a :: t

def putLane (old v : Word64) (hi lo : Bool) : Word64 :=
  (if hi then (v.extractLsb' 32 32) else (old.extractLsb' 32 32))
    ++ (if lo then (v.extractLsb' 0 32) else (old.extractLsb' 0 32))

def applyLanding (e : Engine) : Landing → Engine
  | .reg _ _ r v => { e with regs := tput 0 e.regs r v }
  | .flag _ f v => if f = 0 then e else { e with flags := tput false e.flags f v }
  | .mem _ a b => { e with scratch := (List.range b.length).foldl
                             (fun t i => tput 0 t (a + i) (b.getD i 0)) e.scratch }
  | .out _ w hi lo v => { e with out := tput 0 e.out w (putLane (tget 0 e.out w) v hi lo) }

/-- Everything that has landed for a word that issues at a beat. -/
def landUpTo (e : Engine) (beat : Nat) : Engine :=
  (e.pend.filter fun l => decide (l.key.1 ≤ beat)).foldl applyLanding
    { e with pend := e.pend.filter fun l => decide (beat < l.key.1) }

/-! ## Context memory (R264, R278) -/

def ctxByte (e : Engine) (a : Nat) : Byte :=
  if a < 256 then e.ctx.getD a 0
  else if a < 512 then
    ((tget 0 e.out ((a - 256) / 8)) >>> (8 * (7 - a % 8))).setWidth 8
  else tget 0 e.scratch a

def ctxBytes (e : Engine) (a n : Nat) : Bytes := (List.range n).map fun i => ctxByte e (a + i)

/-! ## Units (R274 to R277) -/

def toW (n : Nat) : Word64 := BitVec.ofNat 64 n

def predOp (e : Engine) (op a b imm : Nat) : Bool :=
  let x := regAt e a
  let y := if 12 ≤ op then toW imm else regAt e b
  let p := flagAt e (a % 16)
  let q := flagAt e (b % 16)
  if op = 1 || op = 12 then x == y
  else if op = 2 then x != y
  else if op = 3 || op = 13 then x.ult y
  else if op = 4 then x.ule y
  else if op = 5 then x.slt y
  else if op = 6 then x.sle y
  else if op = 7 || op = 14 then (x &&& y) != 0
  else if op = 8 then p && q
  else if op = 9 then p || q
  else if op = 10 then p && !q
  else p

def popcountW (x : Word64) : Nat := ((List.range 64).filter fun i => x.getLsbD i).length
def clzW (x : Word64) : Nat := ((List.range 64).takeWhile fun i => !x.getLsbD (63 - i)).length

/-- An ALU's result; none where the destination keeps its value (R275). -/
def aluOp (e : Engine) (op dst a b : Nat) (isel : Bool) (imm : Nat) : Option Word64 :=
  let x := regAt e a
  let y := if isel then
      (if op = 1 || op = 2 then (BitVec.ofNat 32 imm).signExtend 64 else toW imm)
    else regAt e b
  let n := y.toNat % 64
  if op = 1 then some (x + y)
  else if op = 2 then some (x - y)
  else if op = 3 then some (x &&& y)
  else if op = 4 then some (x ||| y)
  else if op = 5 then some (x ^^^ y)
  else if op = 6 then some (x &&& ~~~y)
  else if op = 7 then some (x <<< n)
  else if op = 8 then some (x >>> n)
  else if op = 9 then some (x.sshiftRight n)
  else if op = 10 then some (x.rotateLeft n)
  else if op = 11 then some (if x.ult y then x else y)
  else if op = 12 then some (if x.ult y then y else x)
  else if op = 13 then
    some (if 2 ^ 64 ≤ x.toNat + y.toNat then BitVec.allOnes 64 else x + y)
  else if op = 14 then some (if x.ult y then 0 else x - y)
  else if op = 15 then some x
  else if op = 16 then some (toW imm)
  else if op = 17 then some (toW (imm % 2 ^ 32 * 2 ^ 32 + (regAt e dst).toNat % 2 ^ 32))
  else if op = 18 then some (toW (x.toNat % 2 ^ 32 * (y.toNat % 2 ^ 32)))
  else if op = 19 then (if flagAt e (b % 16) then some x else none)
  else if op = 20 then some (toW (popcountW x))
  else some (toW (clzW x))

def bitFieldOp (e : Engine) (op dst src q l : Nat) : Word64 :=
  let x := (regAt e src).toNat
  let f := bits x (q + l - 1) q
  if op = 1 then toW f
  else if op = 2 then (if f.testBit (l - 1) then toW (2 ^ 64 - 2 ^ l + f) else toW f)
  else
    let d := (regAt e dst).toNat
    toW (d - bits d (q + l - 1) q * 2 ^ q + x % 2 ^ l * 2 ^ q)

/-- Input bytes of the hash/CRC unit: n + 1 registers, each most significant byte first. -/
def hashInput (e : Engine) (src n : Nat) : Bytes :=
  (List.range (n + 1)).flatMap fun i => bytesOf 8 (regAt e (src + i)).toNat

def foldOnes (x : Nat) : Nat :=
  let y := x % 65536 + x / 65536
  y % 65536 + y / 65536

def hashOp (e : Engine) (op dst src n : Nat) : Word64 :=
  let d := (regAt e dst).toNat
  let m := hashInput e src n
  if op = 1 then toW (m.foldl (crcByte 0x82F63B78) (d % 2 ^ 32))
  else if op = 2 then toW (m.foldl (fun c b => crc16Byte c b.toNat) (d % 65536))
  else if op = 3 then toW (mix64 (regAt e src).toNat)
  else toW (foldOnes ((List.range (4 * (n + 1))).foldl (fun a i => a + natAt m (2 * i) 2)
    (d % 65536)))

/-! ## Cluster tables (R281 to R283) -/

structure TableDesc where
  kind : Nat
  lg : Nat
  page : Nat
  count : Nat
  seed : Nat

def descOf (raw : Bytes) (d : Nat) : TableDesc :=
  let b := imgDesc raw d
  { kind := byteAt b 0, lg := byteAt b 1, page := natAt b 2 2, count := natAt b 4 4,
    seed := natAt b 8 4 }

/-- Registers that a lookup writes: their number. -/
def lookupRegs (t : TableDesc) : Nat := if t.kind = 2 then 2 else 2 ^ t.lg / 8

/-- Byte address that a lookup reads first. -/
def lookupAddr (t : TableDesc) (key : Word64) : Nat :=
  if t.kind = 2 then
    t.page * 256 + (bytesOf 8 key.toNat).foldl (crcByte 0x82F63B78) t.seed % t.count * 64
  else t.page * 256 + key.toNat * 2 ^ t.lg

/-- A lookup; `rd` reads bytes of the tables of the side that the packet's slot names (R299). -/
def tableLookup (rd : Nat → Nat → Bytes) (t : TableDesc) (key : Word64) : List Word64 :=
  if t.kind = 2 then
    let b := rd (lookupAddr t key) 64
    match (List.range 4).find? fun i =>
        natAt b (16 * i) 8 == key.toNat && key.toNat != 2 ^ 64 - 1 with
    | some i => [toW (natAt b (16 * i + 8) 8), 1]
    | none => [0, 0]
  else if t.count ≤ key.toNat then List.replicate (lookupRegs t) 0
  else
    let b := rd (lookupAddr t key) (2 ^ t.lg)
    (List.range (lookupRegs t)).map fun i => toW (natAt b (8 * i) 8)

/-! ## Traps (R312 to R315) -/

def trapBudget : Nat := 1
def trapIllegal : Nat := 2
def trapBounds : Nat := 3
def trapStack : Nat := 4
def trapExplicit : Nat := 5
def trapEcc : Nat := 6
def trapCommand : Nat := 7

/-- The trap that a word takes at issue, if any (R272, R273, R276, R278, R279, R282, R283). Of several causes in
one word the first in this order stands (DESIGN CHOICE, log entry 91). -/
def wordTrap (e : Engine) (w addr : Nat) (img : Bytes) : Option Nat :=
  let seq := fld w 253 251
  let sg := guardOk e (fld w 250 246)
  let act := if sg then seq else 0
  let hc := fld w 124 122
  let ct := fld w 74 73
  let em := fld w 52 50
  let ls := fld w 102 100
  let t := descOf img (fld w 61 59)
  let bf := fld w 155 154
  let l := if fld w 130 125 = 0 then 64 else fld w 130 125
  let a := (regAt e (fld w 88 83)).toNat + fld w 82 75
  let n := [0, 1, 2, 4, 8, 4, 8, 1].getD ls 0
  if 6 ≤ seq || fld w 233 230 = 15 || 22 ≤ fld w 213 209 || 22 ≤ fld w 184 180 || 5 ≤ hc
      || 2 ≤ ct || 4 ≤ em
      || (hc != 0 && hc != 3 && decide (63 < fld w 110 105 + fld w 104 103))
      || (ct == 1 && t.kind != 0 && decide (63 < fld w 67 62 + lookupRegs t - 1))
      || ((em == 1 || em == 2) && fld w 38 37 == 3) then some trapIllegal
  else if bf != 0 && guardOk e (fld w 153 149) && decide (64 < fld w 136 131 + l) then
    some trapIllegal
  else if ct = 1 && guardOk e (fld w 72 68) && (t.kind == 0 || decide (2 < t.kind)) then
    some trapIllegal
  else if act = 0 && addr = 4095 then some trapIllegal
  else if ls != 0 && guardOk e (fld w 99 95)
      && (decide (2048 < a + n) || (decide (5 ≤ ls) && decide (a < 512))) then some trapBounds
  else if (act = 2 && decide (4 ≤ e.stack.length)) || (act = 3 && e.stack.isEmpty) then
    some trapStack
  else if act = 5 then some trapExplicit
  else none

/-! ## One word -/

/-- Results of a word issued at beat b; every unit reads e (R270). -/
def wordResults (e : Engine) (w b : Nat) (rd : Nat → Nat → Bytes) (img : Bytes) : List Landing :=
  let imm := fld w 31 0
  let ok := fun hi lo => guardOk e (fld w hi lo)
  let one := fun (c : Bool) (x : Landing) => if c then [x] else []
  let alu := fun (n op g isel dst a bb : Nat) =>
    if op != 0 && guardOk e g then
      (match aluOp e op dst a bb (isel == 1) imm with
       | some x => [Landing.reg (b + if op = 18 then 2 else 1) n dst x]
       | none => [])
    else []
  let pru := fld w 233 230
  let bf := fld w 155 154
  let l := if fld w 130 125 = 0 then 64 else fld w 130 125
  let hc := fld w 124 122
  let ls := fld w 102 100
  let lr := fld w 94 89
  let a := (regAt e (fld w 88 83)).toNat + fld w 82 75
  let n := [0, 1, 2, 4, 8, 4, 8, 1].getD ls 0
  let t := descOf img (fld w 61 59)
  let em := fld w 52 50
  let lane := fld w 38 37
  let src := if em = 1 then regAt e (fld w 44 39) else if em = 2 then toW imm else 0
  let src := if lane = 1 && em != 3 then src <<< 32 else src
  one (pru != 0) (.flag (b + 1) (fld w 229 226) (predOp e pru (fld w 225 220) (fld w 219 214) imm))
    ++ alu 0 (fld w 213 209) (fld w 208 204) (fld w 203 203) (fld w 202 197) (fld w 196 191)
      (fld w 190 185)
    ++ alu 1 (fld w 184 180) (fld w 179 175) (fld w 174 174) (fld w 173 168) (fld w 167 162)
      (fld w 161 156)
    ++ one (bf != 0 && ok 153 149) (.reg (b + 1) 2 (fld w 148 143)
      (bitFieldOp e bf (fld w 148 143) (fld w 142 137) (fld w 136 131) l))
    ++ one (hc != 0 && ok 121 117) (.reg (b + 2) 3 (fld w 116 111)
      (hashOp e hc (fld w 116 111) (fld w 110 105) (fld w 104 103)))
    ++ one (1 ≤ ls && ls ≤ 4 && ok 99 95) (.reg (b + 2) 4 lr (toW (natOf (ctxBytes e a n))))
    ++ one (5 ≤ ls && ok 99 95) (.mem (b + 1) a (bytesOf n ((regAt e lr).toNat % 256 ^ n)))
    ++ (if fld w 74 73 = 1 && ok 72 68 then
        (tableLookup rd t (regAt e (fld w 58 53))).zipIdx.map fun x =>
          Landing.reg (b + 4) 5 (fld w 67 62 + x.2) x.1
       else [])
    ++ one (em != 0 && ok 49 45) (.out (b + 1) (fld w 36 32) (em == 3 || lane != 2)
      (em == 3 || lane != 1) src)

/-- Some unit with a non-zero op has a true guard (R294). -/
def wordUseful (e : Engine) (w : Nat) : Bool :=
  fld w 233 230 != 0
    || (fld w 253 251 != 0 && guardOk e (fld w 250 246))
    || (fld w 213 209 != 0 && guardOk e (fld w 208 204))
    || (fld w 184 180 != 0 && guardOk e (fld w 179 175))
    || (fld w 155 154 != 0 && guardOk e (fld w 153 149))
    || (fld w 124 122 != 0 && guardOk e (fld w 121 117))
    || (fld w 102 100 != 0 && guardOk e (fld w 99 95))
    || (fld w 74 73 != 0 && guardOk e (fld w 72 68))
    || (fld w 52 50 != 0 && guardOk e (fld w 49 45))

/-- Next address and call stack (R273); a CALL at address 4095 pushes 0 (DESIGN CHOICE, log entry 91). -/
def sequence (e : Engine) (w addr : Nat) : Nat × List Nat :=
  let act := if guardOk e (fld w 250 246) then fld w 253 251 else 0
  let tgt := fld w 245 234
  if act = 1 then (tgt, e.stack)
  else if act = 2 then (tgt, (addr + 1) % 4096 :: e.stack)
  else if act = 3 then (e.stack.headD 0, e.stack.drop 1)
  else (addr + 1, e.stack)

/-- The last beat of a path whose RETIRE word issues at beat b. -/
def retireBeat (e : Engine) (b cyc : Nat) : Nat :=
  e.pend.foldl (fun a l => max a (l.key.1 - 1)) (b + cyc)

/-- The engine after a word without a trap. -/
def runWord (e : Engine) (w b : Nat) (rd : Nat → Nat → Bytes) (img : Bytes) : Engine :=
  let res := wordResults e w b rd img
  let (pc, st) := sequence e w e.pc
  let cyc := fld w 255 254
  let e' := { e with pend := res.foldl (fun l x => landInsert x l) e.pend, pc := pc, stack := st,
                     lastPc := e.pc, next := b + cyc + 1, lastIssue := some b }
  if guardOk e (fld w 250 246) && fld w 253 251 == 4 then
    let r := retireBeat e' b cyc
    { e' with retiring := true, freeAt := r + 7 }
  else e'

/-! ## Engines and clusters -/

/-- The cluster runs. A trap stops it from the beat after the one in which it arose (R46, R312). -/
def inRotation (s : State) (c : Nat) : Bool :=
  (clusterAt s c).state == 0 || (clusterAt s c).trapBeat == some s.beat

/-- The engine still holds its packet at a beat (R291). -/
def holdsPacket (e : Engine) (beat : Nat) : Bool :=
  match e.load with
  | .packet _ => !(e.retiring && decide (e.freeAt ≤ beat))
  | _ => false

def runsIdle (e : Engine) : Bool := match e.load with | .idle _ => true | _ => false

/-- A task joins an idle queue of 64, or is discarded and counted (R295). -/
def queueTask (s : State) (c : Nat) (t : Task) : Option State :=
  if (clusterAt s c).idleQ.length < 64 then
    some (modCluster s c fun k => { k with idleQ := k.idleQ ++ [t] })
  else none

/-- The copy of a sample-formatting task whose task is discarded goes out unformatted (R298,
R389). -/
def unformat (s : State) (t : Task) : State :=
  match t.copy with
  | none => s
  | some id => { s with buf := { s.buf with copies := s.buf.copies.map fun c =>
      if c.id = id then { c with waitUntil := none } else c } }

def discardTask (s : State) (c : Nat) (t : Task) : State := unformat (count s (cCluster c 8) 1) t

/-- A buffer granted to a step is freed with its follow-on task (R404). -/
def freeGranted (s : State) (t : Task) : State :=
  match t.granted with
  | none => s
  | some h => { s with host := { s.host with pools :=
      { s.host.pools with freeing := insertUnique h s.host.pools.freeing } } }

def offerTask (s : State) (c : Nat) (t : Task) : State :=
  (queueTask s c t).getD (freeGranted (discardTask s c t) t)

/-- Cancel an idle step; its task goes back to the head of the queue (R297). -/
def cancelIdle (s : State) (c e : Nat) (requeue : Bool) : State :=
  match (engineAt s c e).load with
  | .idle t =>
    let s := modEngine (count s (cCluster c 6) 1) c e fun _ => Engine.init
    if requeue then modCluster s c fun k => { k with idleQ := t :: k.idleQ } else discardTask s c t
  | _ => s

/-- Every idle step of a cluster is cancelled; its tasks stand at the front of the queue, that of the highest
engine first (DESIGN CHOICE, log entry 146). -/
def cancelAllIdle (s : State) (c : Nat) (requeue : Bool) : State :=
  (List.range 16).foldl (fun s e => cancelIdle s c e requeue) s

/-- Packets dispatched to a cluster and not committed will commit with the trap verdict (R313). -/
def markTrapped (s : State) (c : Nat) : State :=
  { s with pkts := s.pkts.map fun k =>
      if k.stage = .admitted && k.flow.cluster = some c then
        { k with flow := { k.flow with trapped := true } } else k }

/-- A trap stops the cluster at the end of its beat, a freeze at once (R312, R313, R315, R316). -/
def trapCluster (s : State) (c cause info : Nat) (vector : Bytes) : State :=
  if (clusterAt s c).state != 0 then s
  else
    let s := cancelAllIdle s c true
    -- the samples whose tasks it holds go out unformatted (R389)
    let s := (clusterAt s c).idleQ.foldl unformat s
    let s := modCluster s c fun k =>
      { k with state := if cause = trapCommand then 3 else 2,
               trapBeat := if cause = trapCommand then none else some s.beat,
               trapInfo := info, trapVector := vector }
    let s := count (markTrapped s c) (cCluster c 10) 1
    let w := frozenWord 6 0xFF c
    raiseEv { s with sys := { s.sys with frozenList := s.sys.frozenList ++ [w] } }
      evMasterFrozen c [6, cause]

def trapWord (cause vslot side idle addr tick : Nat) : Nat :=
  cause * 2 ^ 56 + vslot * 2 ^ 54 + side * 2 ^ 53 + idle * 2 ^ 52 + addr * 2 ^ 32 + tick % 2 ^ 32

/-- A trap that arises in an engine (R315). -/
def trapEngine (s : State) (c e cause : Nat) : State :=
  let g := engineAt s c e
  let addr := if cause = trapBudget then g.lastPc else g.pc
  let info := trapWord cause g.vslot (sideOf (slotVer s g.vslot) c) (b2n (runsIdle g)) addr g.tick
  trapCluster s c cause info (if runsIdle g then slice g.ctx 0 16 else slice g.ctx 0 192)

/-- The image that an engine's packet or step runs. -/
def engineImage (s : State) (c : Nat) (g : Engine) : Bytes :=
  (clusterImage (slotVer s g.vslot) c).getD []

/-- The outputs of a packet's path, complete at a beat (R285, R291, R292). -/
def finishPacket (s : State) (c e : Nat) : State :=
  let g := engineAt s c e
  match g.load with
  | .packet id =>
    let done := g.pend.foldl applyLanding { g with pend := [] }
    modPkt s id fun k => { k with flow := { k.flow with
      out := done.out, complete := true, doneAt := g.freeAt - 6 } }
  | _ => s

/-- The word at the engine's address, on the side that its slot names (R299). -/
def fetchWord (s : State) (c : Nat) (g : Engine) : Nat :=
  storeWord (clusterAt s c) (sideOf (slotVer s g.vslot) c) g.pc

/-- One microword (R270): ECC of the control store and tables, traps, results. Its issue beat counts as
retired or wasted in any case (R294). -/
def issueWord (s : State) (c e : Nat) (ecc : Ecc) : State :=
  let g := { landUpTo (engineAt s c e) s.beat with lastIssue := some s.beat }
  let s := modEngine s c e fun _ => g
  let img := engineImage s c g
  let w := fetchWord s c g
  let s := if ecc = .single then count s (cCluster c 9) 1 else s
  let s := if runsIdle g then s else count s (cCluster c (if wordUseful g w then 0 else 1)) 1
  if ecc = .double then trapEngine s c e trapEcc
  else match wordTrap g w g.pc img with
    | some cause => trapEngine s c e cause
    | none =>
      let t := descOf img (fld w 61 59)
      let s := if fld w 74 73 = 1 && guardOk g (fld w 72 68) then
          filtered s 12 0 [(6, c)] (lookupAddr t (regAt g (fld w 58 53))) none 1
        else s
      let rd := storeBytes (clusterAt s c) (sideOf (slotVer s g.vslot) c)
      let g' := runWord g w s.beat rd img
      let s := modEngine s c e fun _ => g'
      if g'.retiring then finishPacket s c e else s

/-- A path still runs after n beats from its start: not retired by then (R76, R297). -/
def overdue (s : State) (g : Engine) (n : Nat) : Bool :=
  decide (g.start + n ≤ s.beat) && !(g.retiring && decide (g.freeAt < g.start + n + 7))

/-- An engine that may issue a word now: its word's beat has come, it has issued none in this beat, and its path has
beats left, 120 for a packet (R76), 32 for an idle step (R297). -/
def mayIssue (s : State) (c e : Nat) : Bool :=
  let g := engineAt s c e
  g.load != .none && !g.retiring && decide (g.next ≤ s.beat)
    && !overdue s g (if runsIdle g then 32 else 120) && inRotation s c && pipeLive s (c / 8)
    && g.lastIssue != some s.beat
    && (!runsIdle g || rwBool s 0x5800 7)

/-! ## Dispatch (R289 to R291, R314) -/

/-- The cluster under the pointer: the next local cluster in rotation from the pointer on. -/
def pointed (s : State) (p : Nat) : Option Nat :=
  ((List.range 8).map fun i => ((pipeAt s p).pointer + i) % 8).find? fun c => inRotation s (8 * p + c)

/-- The cluster under the pointer has not yet passed its 8 beats (R290). -/
def dispatchHeld (s : State) (p : Nat) : Bool :=
  match pointed s p with
  | none => false
  | some c => match (clusterAt s (8 * p + c)).lastAccept with
    | some b => decide (s.beat < b + 8)
    | none => false

/-- The context of a packet (R264, R265). -/
def packetContext (k : Pkt) (p : Nat) : Bytes :=
  slice k.vec 0 192 ++ bytesOf 8 k.tick ++ slice k.flow.key 0 52
    ++ bytesOf 1 k.flow.profile ++ bytesOf 1 p ++ bytesOf 1 k.vslot ++ [0]

/-- Give an admitted packet to the lowest engine that holds no packet. -/
def dispatch (s : State) (p id : Nat) : State :=
  match pktAt s id, pointed s p with
  | some k, some lc =>
    let c := 8 * p + lc
    let s := modPipe s p fun q => { q with pointer := (lc + 1) % 8 }
    match (List.range 16).find? fun e => !holdsPacket (engineAt s c e) s.beat with
    | none => s
    | some e =>
      let s := cancelIdle s c e true
      let img := (clusterImage (slotVer s k.vslot) c).getD []
      let g : Engine := { Engine.init with
        load := .packet id, start := s.beat + 2, pc := (imgEntry img k.flow.profile).getD 0xFFF,
        next := s.beat + 2, ctx := packetContext k p, vslot := k.vslot, tick := k.tick }
      let s := modEngine s c e fun _ => g
      let s := modCluster s c fun q =>
        { q with lastAccept := some s.beat, reseq := q.reseq ++ [id] }
      -- a cluster in its trap's own beat still takes a packet, which then commits as trapped (R313)
      modPkt (count s (cCluster c 4) 1) id fun k =>
        { k with flow := { k.flow with cluster := some c, trapped := (clusterAt s c).state != 0 } }
  | _, _ => s

/-! ## Idle steps (R295 to R297) -/

/-- The highest engine that holds no packet and runs no step. -/
def idleEngine (s : State) (c : Nat) : Option Nat :=
  ((List.range 16).map fun i => 15 - i).find? fun e =>
    let g := engineAt s c e
    !holdsPacket g s.beat && !runsIdle g

def idleContext (s : State) (t : Task) : Bytes :=
  bytesOf 16 (t.kind * 2 ^ 120 + t.arg % 2 ^ 120) ++ slice t.data 0 176 ++ zeros 62
    ++ bytesOf 1 s.ver.current ++ [0]

/-- Start the oldest task; one whose kind the image leaves unused is discarded (log entry 21). -/
def startIdle (s : State) (c : Nat) : State :=
  match (clusterAt s c).idleQ with
  | [] => s
  | t :: rest =>
    match idleEngine s c, clusterImage (curVer s) c with
    | some e, some img =>
      let s := modCluster s c fun k => { k with idleQ := rest }
      match imgIdleEntry img t.kind with
      | none => discardTask s c t
      | some a =>
        modEngine s c e fun _ => { Engine.init with
          load := .idle t, start := s.beat, pc := a, next := s.beat, ctx := idleContext s t,
          vslot := s.ver.current, tick := s.rm.tick }
    | _, _ => s

/-! ## The commands' meanings -/

/-- MICROWORD_ISSUE (R270 to R284, R312). -/
def rowMicrowordIssue (cluster engine : Nat) (ecc : Ecc) (s : State) : State :=
  whenRun s fun s => guardS (mayIssue s cluster engine) s fun s =>
    issueWord s cluster engine ecc

/-- ENGINE_BUDGET_TRAP (R76, R312). -/
def rowEngineBudgetTrap (cluster engine : Nat) (s : State) : State :=
  whenRun s fun s =>
    let g := engineAt s cluster engine
    guardS (holdsPacket g s.beat && overdue s g 120 && inRotation s cluster
        && pipeLive s (cluster / 8)) s
      fun s => trapEngine s cluster engine trapBudget

/-- IDLE_STEP_START (R296): in a cluster that runs, while `engine.idle.enable` is 1. A trap has already cancelled its
cluster's steps, so none starts in the beat of the trap (R312). -/
def rowIdleStepStart (cluster : Nat) (s : State) : State :=
  whenRun s fun s =>
    guardS (rwBool s 0x5800 7 && (clusterAt s cluster).state == 0 && pipeLive s (cluster / 8)) s
      fun s => startIdle s cluster

/-- IDLE_OVERRUN (R297). -/
def rowIdleOverrun (cluster engine : Nat) (s : State) : State :=
  whenRun s fun s =>
    let g := engineAt s cluster engine
    guardS (runsIdle g && overdue s g 32 && inRotation s cluster && pipeLive s (cluster / 8)) s
      fun s => raiseEv (count (cancelIdle s cluster engine false) (cCluster cluster 7) 1)
        evIdleOverrun cluster []

end Sys2Proof.Machine
end

