-- ==== Sys2Proof/Machine/Commit.lean ====
section
/-! DEFINITION. Commit programs: operations, verdicts, template binding, exports and samples
(R286, R287, R320 to R357). -/

namespace Sys2Proof.Machine

/-! ## Programs (R320, R321) -/

/-- Record n - 1 of the COMMIT section; none where program n is not defined. -/
def program (raw : Bytes) (n : Nat) : Option Bytes :=
  let b := imgBody raw 6
  if n = 0 || b.length < 136 * n then none
  else
    let r := slice b (136 * (n - 1)) 136
    if bit (byteAt r 0) 7 then some r else none

def progHeader (r : Bytes) : Nat := natAt r 0 8
def progLearn (r : Bytes) : Bool := bit (progHeader r) 62
def progVerify (r : Bytes) : Bool := bit (progHeader r) 61
def progVerifyArg (r : Bytes) : Nat := bits (progHeader r) 60 58
def progCount (r : Bytes) : Nat := bits (progHeader r) 57 53
def progOps (r : Bytes) : List Nat :=
  (List.range (progCount r)).map fun i => natAt r (8 + 8 * i) 8

/-! ## The step's own state -/

/-- What a commit program works on. -/
structure CommitSt where
  s : State
  /-- The record, or zeros where none is presented. -/
  rcd : Bytes
  /-- A record is presented or created. -/
  has : Bool
  q : Tbl Nat
  /-- Bit i is predicate Pi. -/
  preds : Nat
  cand : Nat
  /-- Port and queue that a VERDICT puts in place of the candidate's. -/
  port : Option (Nat × Nat)
  exports : Nat
  exporting : Option Nat
  sample : Option (Nat × Nat)
  acted : Bool

/-- What stays fixed during the step. -/
structure CommitCtx where
  p : Nat
  k : Pkt
  v : VerCfg
  raw : Bytes
  dbl : Bool
  /-- last_seen as the step found it (R334). -/
  seen : Nat

def outWord (k : Pkt) (i : Nat) : Nat := (tget 0 k.flow.out i).toNat

/-- Count k events of the packet's tick on an offset of the home pipe. -/
def pipeCount (c : CommitCtx) (s : State) (o : Nat) : State := countR s (cPipe c.p o) 1 c.k.tick

/-! ## Operations (R331) -/

def opCode (w : Nat) : Nat := bits w 63 58
def opGuard (w : Nat) : Nat := bits w 57 54
def opSize (w : Nat) : Nat := bits w 53 52
def opField (w : Nat) : Nat := bits w 51 45
def opA (w : Nat) : Nat := bits w 44 40
def opB (w : Nat) : Nat := bits w 39 35
def opDst (w : Nat) : Nat := bits w 34 31
def opPdst (w : Nat) : Nat := bits w 30 28
def opImm (w : Nat) : Nat := bits w 27 0
def opWidth (w : Nat) : Nat := 2 ^ opSize w

/-- Operations that read the field, that write it, that take A, that take B. -/
def usesField (op : Nat) : Bool := (1 ≤ op && op ≤ 6) || [8, 9, 11, 14, 15, 16, 17].contains op
def writesField (op imm : Nat) : Bool :=
  (1 ≤ op && op ≤ 6) || [8, 11, 14, 15, 16, 17].contains op || (op == 9 && bit imm 2)
def usesA (op : Nat) : Bool := [7, 8, 9, 10, 11, 16, 17, 18, 19].contains op
def usesB (op imm : Nat) : Bool :=
  (1 ≤ op && op ≤ 6) || [7, 8, 10, 14, 15, 17, 18].contains op || (op == 12 && bit imm 2)

/-- Bytes that an operation may write: the state byte or the profile data (R326). -/
def writable (dbl : Bool) (off n : Nat) : Bool :=
  (off == keyLen dbl + 7 && n == 1) || decide (keyLen dbl + 12 ≤ off)

/-- Length overhead of a port node in a tick (R422). -/
def overhead (s : State) (n tick : Nat) : Int :=
  signed 32 (natOf (digRowAt s tick (0x7100 + n) 3 noRow))

/-- A frame's length with an overhead, at least 0. -/
def withOverhead (len : Nat) (o : Int) : Nat := ((len : Int) + o).toNat

/-- An operand (R325). -/
def operand (c : CommitCtx) (t : CommitSt) (w src : Nat) : Nat :=
  if src = 0 then 0
  else if src = 1 then opImm w
  else if src ≤ 9 then outWord c.k (15 + src)
  else if src = 10 then (if t.has then natAt t.rcd (opField w) (opWidth w) else 0)
  else if src = 11 then c.k.tick % 2 ^ 64
  else if src = 12 then c.k.inBeat % 2 ^ 64
  else if src = 13 then c.k.tailBeat % 2 ^ 64
  else if src = 14 then c.k.stampNs
  else if src = 15 then c.k.bytes.length
  else tget 0 t.q (src - 16)

/-- seqwin of R332: the field, the class and the gap. -/
def seqwin (f x m w : Nat) (resync : Bool) : Nat × Nat × Nat :=
  let m := if m = 0 then 65536 else m
  let x := x % m
  let fresh := x * 2 ^ 48 + 2 ^ 47
  if !bit f 47 then (fresh, 0, 0)
  else
    let top := bits f 63 48
    let d := (x + m - top % m) % m
    if 1 ≤ d && d < (m + 1) / 2 then
      let seen := ((if d < 47 then bits f 46 0 * 2 ^ d else 0)
        ||| (if d ≤ 47 then 2 ^ (d - 1) else 0)) % 2 ^ 47
      if d = 1 then (fresh + seen, 1, 0) else (fresh + seen, 2, d - 1)
    else
      let e := (top + m - x) % m
      if e = 0 || (e ≤ w && bit f (e - 1)) then (f, 3, 0)
      else if e ≤ w then (f ||| 2 ^ (e - 1), 4, 0)
      else (if resync then fresh else f, 5, 0)

/-- police of R334: the field, the tokens, conformance. -/
def policeFlow (f rate burst n t tick seen : Nat) : Nat × Nat × Bool :=
  let tok := if f = 0 || 1024 ≤ (tick % 2 ^ 24 + 2 ^ 24 - seen) % 2 ^ 24 then burst
    else
      let el := (t % 2 ^ 32 + 2 ^ 32 - f / 2 ^ 32) % 2 ^ 32
      min burst (f % 2 ^ 32 + el * rate % 2 ^ 64 / 2 ^ 20)
  if n ≤ tok then (t % 2 ^ 32 * 2 ^ 32 + (tok - n), tok - n, true)
  else (t % 2 ^ 32 * 2 ^ 32 + tok, tok, false)

/-- TCPSTATE (R349): the new state, and whether the packet is allowed. -/
def tcpState (old a : Nat) : Nat × Bool :=
  let syn := bit a 1
  let fin := bit a 0
  let rst := bit a 2
  let ack := bit a 4
  let resp := bit a 8
  if rst then (7, true)
  else if old = 0 && !resp && syn && !ack then (1, true)
  else if old = 1 && !resp && syn && !ack then (1, true)
  else if old = 1 && resp && syn && ack then (2, true)
  else if old = 2 && !resp && ack && !syn then (3, true)
  else if old = 3 && fin then (if resp then 5 else 4, true)
  else if old = 4 && resp && fin then (6, true)
  else if old = 5 && !resp && fin then (6, true)
  else if old = 6 && ack then (7, true)
  else (old, decide (3 ≤ old) && decide (old ≤ 6))

/-- GOOSE (R350), on A and B as 32-bit numbers, the width of stNum and sqNum: the code and whether the field takes A and B. -/
def gooseClass (f a b : Nat) : Nat × Bool :=
  let st := f / 2 ^ 32
  let sq := f % 2 ^ 32
  let succ := fun x => if x = 0xFFFFFFFF then 1 else x + 1
  let d := (a + 2 ^ 32 - st) % 2 ^ 32
  if f = 0 then (0, true)
  else if a = succ st && b = 0 then (2, true)
  else if a = st && b = succ sq then (1, true)
  else if a = st && sq < b then (3, true)
  else if a = st then (6, false)
  else if a = 1 && b = 0 then (5, true)
  else if 1 ≤ d && d < 2 ^ 31 then (4, true)
  else (7, false)


/-- svjit of R351: e, and whether it is within the tolerance. -/
def svjit (stamp sec cnt rate : Nat) (delay : Int) (tol : Nat) : Int × Bool :=
  let x := ((stamp : Int) - sec - (cnt * 1000000000 / rate : Nat)) % 2 ^ 32
  let e := if x < 2 ^ 31 then x else x - 2 ^ 32
  let e := if 500000000 < e then e - 1000000000 else e
  let e := if e ≤ -500000000 then e + 1000000000 else e
  (e, decide ((e - delay).natAbs ≤ tol))

/-! ### Translation (R342, R344) -/

def natAddr (s : State) (i : Nat) : Nat := natOf (stored s 0x5040 2 i)

/-- alloc of R342 on a record: the state, the record, the result, and whether it holds. -/
def natAlloc (c : CommitCtx) (t : CommitSt) (a b first cnt : Nat) (paired : Bool) :
    CommitSt × Nat × Bool :=
  if !t.has then (t, 0, false)
  else
    let old := recAlloc c.dbl t.rcd
    if old != 0xFFFFFFFF then
      (t, natAddr t.s (bits old 19 16) * 65536 + bits old 15 0, true)
    else
      let st := a % cnt
      let try1 := fun j => first + (st + j) % cnt
      let js := if paired then [0] else List.range cnt
      match js.find? fun j =>
          let i := try1 j
          decide (i ≤ 15) && natAddr t.s i != 0
            && !(tget [] (pipeAt t.s c.p).natFree i).isEmpty with
      | some j =>
        let i := try1 j
        let x := (tget [] (pipeAt t.s c.p).natFree i).headD 0
        let s := modPipe t.s c.p fun k =>
          { k with natFree := tmod [] k.natFree i (·.drop 1),
                   nat := tput 0 k.nat (natKey i x) (b % 2 ^ 48) }
        ({ t with s := s, rcd := putNat t.rcd (keyLen c.dbl + 8) 4 (i * 65536 + x) },
         natAddr s i * 65536 + x, true)
      | none =>
        let k := pipeAt t.s c.p
        if k.natTicks.contains c.k.tick then (t, 0, false)
        else
          let s := modPipe t.s c.p fun k => { k with natTicks := rememberTick k.natTicks c.k.tick }
          ({ t with s := raiseAt s evNatExhausted c.p c.k.tick [try1 0] }, 0, false)

/-- NATREV (R344). A misroute counts whenever steer gives another pipe, whatever else fails. -/
def natRev (c : CommitCtx) (t : CommitSt) (a : Nat) : CommitSt × Nat × Bool :=
  let addr := bits a 47 16
  let port := bits a 15 0
  let away := steer t.s addr port != c.p
  let t := if away then { t with s := pipeCount c t.s 24 } else t
  match (List.range 16).find? fun i => natAddr t.s i == addr && addr != 0 with
  | none => (t, 0, false)
  | some i =>
    let e := tget 0 (pipeAt t.s c.p).nat (natKey i port)
    if port < natOf (stored t.s 0x5040 4 noRow) || away || e / 65536 == 0 then (t, 0, false)
    else (t, e, true)

/-! ### Load balancing (R346, R347) -/

def lbPool (v : VerCfg) (n : Nat) : Nat := natOf (cfgRow v 0x5050 1 n)
def lbMember (v : VerCfg) (n : Nat) : Bytes := slice (cfgRow v 0x5050 2 n) 0 32
def lbBucket (v : VerCfg) (n : Nat) : Nat := natOf (cfgRow v 0x5050 3 n)

def memberActive (m : Bytes) : Bool := bit (byteAt m 18) 6

/-- select of R347: the member and the field. -/
def lbSelect (v : VerCfg) (f pool a : Nat) (repin : Bool) : Option (Nat × Nat) :=
  if bit f 31 && (!repin || memberActive (lbMember v (bits f 15 0))) then some (bits f 15 0, f)
  else
    let pr := lbPool v pool
    let z := bits pr 63 59
    if z = 0 then none
    else
      let m := lbBucket v (bits pr 51 32 + mix64 (a ^^^ pool) % 2 ^ z)
      some (m, 2 ^ 31 + m)

/-- Q[dst + 2] of SELECT, in the layout of a port override. -/
def memberWord (m : Bytes) : Nat :=
  b2n (bit (byteAt m 18) 7) * 2 ^ 32 + byteAt m 19 % 8 * 2 ^ 24 + byteAt m 20 * 65536 + natAt m 16 2

/-! ### One operation -/

def setQ (t : CommitSt) (d v : Nat) : CommitSt :=
  if d ≤ 15 then { t with q := tput 0 t.q d (v % 2 ^ 64) } else t

def setP (t : CommitSt) (w : Nat) (b : Bool) : CommitSt :=
  if 4 ≤ opPdst w then { t with preds := setBit t.preds (opPdst w) b } else t

/-- Write the field; without a record the write is discarded (R327), and Q and the predicate are those of a field
that reads as zero. -/
def setF (t : CommitSt) (w v : Nat) : CommitSt :=
  if t.has then { t with rcd := putNat t.rcd (opField w) (opWidth w) v } else t

/-- The effect of an operation that acts. -/
def opEffect (c : CommitCtx) (t : CommitSt) (w : Nat) : CommitSt :=
  let op := opCode w
  let imm := opImm w
  let a := operand c t w (opA w)
  let b0 := operand c t w (opB w)
  let m := 256 ^ opWidth w
  let b := if op = 2 || op = 4 then min b0 (m - 1) else b0 % m
  let f := if t.has then natAt t.rcd (opField w) (opWidth w) else 0
  let d := opDst w
  let fin := fun (t : CommitSt) (nf q : Nat) (p : Bool) => setP (setQ (setF t w nf) d q) w p
  if op = 1 then fin t ((f + b) % m) ((f + b) % m) (decide (m ≤ f + b))
  else if op = 2 then fin t (min (f + b) (m - 1)) (min (f + b) (m - 1)) (decide (m ≤ f + b))
  else if op = 3 then
    let nf := if f = 0 || b < f then b else f
    fin t nf nf (nf != f)
  else if op = 4 then
    let nf := max f b
    fin t nf nf (nf != f)
  else if op = 5 then fin t b f (f != b)
  else if op = 6 then
    let nf := if f = 0 then b else f
    fin t nf nf (f == 0)
  else if op = 7 then
    let x := toW a
    let y := toW b0
    let k := imm % 8
    let r := if k = 0 then x == y else if k = 1 then x != y else if k = 2 then x.ult y
      else if k = 3 then x.ule y else if k = 4 then x.slt y else if k = 5 then x.sle y
      else (x &&& y) != 0
    setP (setQ t d (x - y).toNat) w r
  else if op = 8 then
    let (nf, cls, gap) := seqwin f a b0 (imm % 64) (bit imm 6)
    setQ (fin t nf cls (cls != 3)) (d + 1) gap
  else if op = 9 then
    let dv := [1, 1000, 1000000].getD (imm % 4) 1
    let q := if f = 0 then 0 else (a % m + m - f) % m / dv
    setP (setQ (if bit imm 2 then setF t w (a % m) else t) d q) w (f != 0)
  else if op = 10 then
    let (t, q, ok) := natAlloc c t a b0 (imm % 16) (bits imm 7 4 + 1) (bit imm 8)
    setP (setQ t d q) w ok
  else if op = 11 then
    match lbSelect c.v f (imm % 4096) a (bit imm 12) with
    | none => setP t w false
    | some (mb, nf) =>
      let r := lbMember c.v mb
      let t := fin t nf (natAt r 0 8) true
      setQ (setQ t (d + 1) (natAt r 8 8)) (d + 2) (memberWord r)
  else if op = 12 then
    { t with cand := imm % 4,
             port := if bit imm 2 then some (bits b0 23 16, bits b0 26 24) else none }
  else if op = 13 then
    let t := { t with exports := t.exports + 1 }
    if 1 < t.exports then { t with s := pipeCount c t.s 19 }
    else
      let n := if imm % 256 = 0 then outWord c.k 25 / 2 ^ 56 else imm % 256
      if n = 0 then t
      else if cfgRow c.v 0x5060 1 n = [] then { t with s := pipeCount c t.s 16 }
      else { t with exporting := some n }
  else if op = 14 then
    let n := (f + 1) % m
    let hit := b != 0 && decide (b ≤ n)
    let nf := if hit then 0 else n
    let t := fin t nf nf hit
    if !hit then t
    else
      let rq := outWord c.k 27
      if bit rq 55 then { t with sample := some (bits rq 63 59, bits rq 58 56) }
      else if bit imm 8 then { t with sample := some (imm % 32, bits imm 7 5) }
      else { t with s := pipeCount c t.s 21 }
  else if op = 15 then
    let n := withOverhead c.k.bytes.length (overhead t.s c.k.node c.k.tick)
    let (nf, tok, ok) := policeFlow f (b0 / 2 ^ 32) (b0 % 2 ^ 32) n c.k.tailBeat c.k.tick c.seen
    fin t nf tok ok
  else if op = 16 then
    let (nf, ok) := tcpState f a
    fin t nf nf ok
  else if op = 17 then
    let (code, take) := gooseClass f (a % 2 ^ 32) (b0 % 2 ^ 32)
    fin t (if take then a % 2 ^ 32 * 2 ^ 32 + b0 % 2 ^ 32 else f) code (decide (code ≤ 5))
  else if op = 18 then
    let sec := ((boundOfTick t.s c.k.tick).map Bound.sec).getD 0
    let (e, ok) := svjit c.k.stampNs sec (a % 65536) (bits a 31 16) (signed 32 (b0 % 2 ^ 32)) imm
    setP (setQ (setQ t d (unsigned 64 e)) (d + 1) (unsigned 64 (e + 0x80000000))) w ok
  else if op = 19 then
    let (t, q, ok) := natRev c t a
    setP (setQ t d q) w ok
  else t

/-- Why an operation whose guard is true does not act: an operation fault (16), a stamp skip (17)
or an SV skip (18), as pipe counters (R325, R326, R332, R351). Of several the first in this order counts, and no
stamp at all is a stamp of no time base (DESIGN CHOICE: the rules give no order). -/
def opSkip (c : CommitCtx) (t : CommitSt) (w : Nat) : Option Nat :=
  let op := opCode w
  let imm := opImm w
  let reads := usesField op || (usesA op && opA w == 10) || (usesB op imm && opB w == 10)
  let off := opField w
  let n := opWidth w
  if reads && decide (recLen c.dbl < off + n) then some 16
  else if writesField op imm && !writable c.dbl off n then some 16
  else if op = 8 && 65536 < operand c t w (opB w) then some 16
  else if ((usesA op && opA w == 14) || (usesB op imm && opB w == 14)) && !c.k.stampValid then
    some 17
  else if op = 18 && (bits (operand c t w (opA w)) 31 16 == 0 || !c.k.stampValid
      || ((boundOfTick t.s c.k.tick).map Bound.source).getD 0 != c.k.stampTb + 1
      || !(((boundOfTick t.s c.k.tick).map Bound.locked).getD false)) then some 18
  else none

/-- One operation word (R324, R328). -/
def runOp (c : CommitCtx) (t : CommitSt) (w : Nat) : CommitSt :=
  let g := opGuard w
  if bit t.preds (g % 8) == bit g 3 then t
  else match opSkip c t w with
    | some o => { t with s := pipeCount c t.s o }
    | none => { opEffect c t w with acted := true }

def runOps (c : CommitCtx) (t : CommitSt) (ws : List Nat) : CommitSt := ws.foldl (runOp c) t

/-! ## Verdicts (R286, R335) -/

/-- The decision of a candidate word with an override; the templates that it names. -/
def verdictOf (w : Nat) (over1 : Option (Nat × Nat)) : Decision × Nat :=
  let kind := bits w 63 60
  let tpl := bits w 48 45
  let drop := fun r => ({ Decision.none with kind := 3, reason := r }, 0)
  if kind = 1 then
    let (port, queue) := over1.getD (bits w 59 52, bits w 51 49)
    if 133 < port then drop 15
    else ({ Decision.none with kind := 5, port := port, queue := queue }, tpl)
  else if kind = 2 then drop (bits w 44 41)
  else if kind = 3 then ({ Decision.none with kind := 4, ring := bits w 40 29, reason := 2 }, tpl)
  else drop 14

/-- The trap verdict of a profile; an absent or reserved kind is DROP 15 (R337). -/
def trapDecision (v : VerCfg) (k : Nat) : Decision :=
  let w := trapVerdict v k
  let kind := bits w 63 60
  if kind = 0 || 3 < kind then { Decision.none with kind := 3, reason := 15 }
  else (verdictOf w none).1

/-! ## Template binding (R287, R336) -/

/-- A template bound: the rewrite in the layout of R171, or none where it is skipped. -/
def bindTemplate (c : CommitCtx) (t : CommitSt) (abi2 : Bool) (i : Nat) : Option Nat :=
  let w0 := outWord c.k (4 + 3 * i)
  let value := outWord c.k (5 + 3 * i)
  let mask := outWord c.k (6 + 3 * i)
  let size := bits w0 47 45 + 1
  let src := if abi2 then 0 else bits w0 44 43
  let field := bits w0 42 36
  let head := w0 / 2 ^ 45 * 2 ^ 45
  let out := fun v => some ((head * 2 ^ 64 + v % 2 ^ 64) * 2 ^ 64 + mask)
  if src = 0 then out value
  else if src = 3 then (if 15 < field then none else out (tget 0 t.q field % 256 ^ size))
  else if !t.has || recLen c.dbl < field + size then none
  else
    let x := natAt t.rcd field size
    out (if src = 1 then x else (x + value) % 256 ^ size)

/-- Bind the named templates in order; skips are counted at the output port node. -/
def bindTemplates (c : CommitCtx) (t : CommitSt) (abi2 : Bool) (mask node : Nat) :
    State × List Nat :=
  ((List.range (if abi2 then 2 else 4)).filter fun i => bit mask i).foldl
    (fun a i =>
      match bindTemplate c t abi2 i with
      | some e => (a.1, a.2 ++ [e])
      | none => (countR a.1 (cPort node 21) 1 c.k.tick, a.2))
    (t.s, [])

/-! ## Exports (R354 to R356) -/

/-- The elements of an export template: src, offset, length, identifier. -/
def exportElems (row : Bytes) : List (Nat × Nat × Nat × Nat) :=
  (List.range (min 15 (byteAt row 0))).map fun i =>
    let e := natAt row (4 + 4 * i) 4
    (bits e 31 29, bits e 28 21, bits e 20 16, bits e 14 0)

/-- The data of a record: fields from the record, the export data, results and the vector. -/
def exportData (row rcd data vec : Bytes) (q : Tbl Nat) : Bytes :=
  (exportElems row).flatMap fun (src, off, len, _) =>
    if src = 0 then slice rcd off len
    else if src = 1 then slice data off len
    else if src = 2 then bytesOf len (tget 0 q off)
    else slice vec off len

/-- The pipe's buffer of 4,096 commit-requested records is full (R356). -/
def exportFull (s : State) (p : Nat) : Bool := decide (4096 ≤ (pipeAt s p).exportQ.length)

def pushExport (s : State) (p template : Nat) (data : Bytes) : State :=
  modPipe s p fun k => { k with exportQ := k.exportQ ++ [{ template := template, data := data }] }

/-- The record that the program requested; none holds the home clock (export hold). -/
def emitExport (c : CommitCtx) (t : CommitSt) : Option State :=
  match t.exporting with
  | none => some t.s
  | some n =>
    if exportFull t.s c.p then none
    else
      let row := cfgRow c.v 0x5060 1 n
      let data := bytesOf 16 (outWord c.k 25 * 2 ^ 64 + outWord c.k 26)
      some (pushExport t.s c.p n
        (exportData row (if t.has then t.rcd else []) (data.drop 4) c.k.vec t.q))

/-- An expiry's record (R248, R354): the profile's template, or the raw record under
`export.pen`. -/
def expiryExport (s : State) (p tick : Nat) (v : VerCfg) (profile : Nat) (rcd : Bytes) :
    Option State :=
  let n := expiryTemplate v profile
  if n = 0 && rw s 0x5060 7 = 0 then some (countR s (cPipe p 20) 1 tick)
  else if exportFull s p then none
  else if n = 0 then some (pushExport s p 0 rcd)
  else some (pushExport s p n (exportData (cfgRow v 0x5060 1 n) rcd [] [] []))

/-! ## Samples (R357, R387 to R389) -/

/-- The header of a copy (R388), unformatted. -/
def copyHeader (k : Pkt) (sample : Bool) (session copied last8 : Nat) : Bytes :=
  bytesOf 1 (b2n sample * 128 + session) ++ bytesOf 1 (k.vslot * 64 + nodePipe k.node * 8)
    ++ bytesOf 2 k.node ++ bytesOf 2 k.bytes.length ++ bytesOf 2 copied ++ bytesOf 8 k.inBeat
    ++ bytesOf 4 k.stampNs ++ bytesOf 1 k.stampFrac
    ++ bytesOf 1 (b2n k.stampValid * 128 + k.stampTb)
    ++ [0] ++ bytesOf 1 (if sample then k.flow.profile else 0) ++ bytesOf 8 last8

/-- A sample yields one copy, made 4 beats after the commit step; with a format, a task for the packet's cluster. -/
def emitSample (c : CommitCtx) (t : CommitSt) (s : State) : State :=
  match t.sample with
  | none => s
  | some (sess, len) =>
    let n := min ((len + 1) * 64) (c.k.bytes.length - 4)
    let fmt := cfg c.v (0x6480 + sess) 2
    let task : Task :=
      { kind := fmt, arg := sess * 2 ^ 99 + c.k.flow.profile * 2 ^ 93 + c.p * 2 ^ 90 + c.k.tick % 2 ^ 64,
        data := [], copy := none, granted := none }
    let copy : Copy :=
      { id := 0, sample := true, session := sess, ring := cfg c.v (0x6480 + sess) 1,
        header := copyHeader c.k true sess n c.k.tick, body := c.k.bytes.take n, record := [],
        words := rxWords c.k 5 c.k.bytes.length, waitUntil := none, cells := 0 }
    let x : Sample := { due := s.beat + 4, copy := copy,
                        task := if fmt = 0 then none else c.k.flow.cluster.map fun i => (i, task) }
    { s with buf := { s.buf with samples := s.buf.samples ++ [x] } }

end Sys2Proof.Machine
end

