-- ==== Sys2Proof/Machine/HomeCommit.lean ====
section
/-! DEFINITION. The commit steps of a home half: packets, sweep steps, moves, directory scrubs and
host table commands (R229 to R258, R327, R329, R335, R337, R343). A step answers the pipe counter
of the hold that keeps it from running, or the state after it and whether it did work (R590). -/

namespace Sys2Proof.Machine

/-! ## Holds (R231, R356) -/

def holdSlip : Nat := 33
def holdMerge : Nat := 35
def holdDispatch : Nat := 37
def holdExport : Nat := 38
def holdPin : Nat := 39

/-- A cache operation that cannot be done at once is a pin hold. -/
def orPin (o : Option State) : Except Nat State :=
  match o with
  | some s => .ok s
  | none => .error holdPin

/-- A record for a full export buffer is an export hold. -/
def orExport (o : Option State) : Except Nat State :=
  match o with
  | some s => .ok s
  | none => .error holdExport

/-! ## What every commit step does first -/

/-- The records that a position read enter the hot cache, and its reads are done (R231). -/
def enterReads (s : State) (p : Nat) (q : Pos) : Except Nat State :=
  let rs := (pipeAt s p).reads.filter fun r => r.h == q.h && r.area == 0 && !r.bad
  let s := modPipe s p fun k => { k with reads := k.reads.filter fun r => r.h != q.h }
  rs.foldlM (fun s r =>
    if decide (1 ≤ dirAt s r.slot) && decide (dirAt s r.slot ≤ 253)
        && !q.badSlots.any (fun e => e.1 == r.slot) then
      orPin (enterRead s p r.slot (r.bytes == 128))
    else .ok s) s

/-- Bad records are quarantined, damaged buckets rebuilt, read records entered (R231, R250, R254). -/
def beforeCommit (s : State) (p : Nat) (q : Pos) : Except Nat State :=
  let s := quarantineBad s p q
  enterReads (q.rebuild.foldl (fun s b => rebuildBucket s p q b) s) p q

/-! ## Finding and making records (R234 to R238) -/

/-- The slots of a bucket that waits for its rebuild, whose directory bytes say nothing (R254): those that are not
quarantined and whose occupant no move has carried away. -/
def unreadable (s : State) (p b : Nat) (dbl : Bool) : List Nat :=
  if rebuilding (pipeAt s p) b then
    ((if dbl then [0, 2] else [0, 1, 2, 3]).map (slotOf p b)).filter fun a =>
      !s.mem.quarantine.contains a && (leftAt (pipeAt s p) a 0).isEmpty
  else []

/-- What holds a key at this point: a stash entry or a slot of its buckets, claims included; a bucket that waits for
its rebuild is searched by what its slots hold, so that no key is held twice (R220, R237). -/
def placeNow (s : State) (p profile : Nat) (key : Bytes) : Option Place :=
  let (b1, b2, f) := buckets s (keyBlock profile key)
  let k := pipeAt s p
  let dbl := decide (20 < key.length)
  match k.stash.find? fun e => e.seen && e.profile == profile && e.key == key with
  | some e => some (.stash e.idx)
  | none => ((candidates s p b1 b2 f dbl ++ unreadable s p b1 dbl ++ unreadable s p b2 dbl).find? fun a =>
      occupantIs s p (.slot a) noLimit profile key).map .slot

/-- The record that lies at a place is confirmed in the view before home beat lim, with this profile and key. -/
def confirmedAt (s : State) (p : Nat) (pl : Place) (lim profile : Nat) (key : Bytes) : Bool :=
  let dbl := decide (20 < key.length)
  let r := pl.bytes s p dbl
  (claimAt (pipeAt s p) pl lim).isNone && !quarantined s pl && flagLive (recFlags dbl r)
    && recHolds dbl r profile key

/-- The claim on a place that a position holds. -/
def heldClaim (s : State) (p h : Nat) (pl : Place) : Option Claim :=
  (pipeAt s p).claims.find? fun c => c.place == pl && c.holders.contains h

/-- What a commit step has to work on: nothing, a record at a place, or one that it creates. -/
inductive Find where
  | miss
  | hit (pl : Place)
  | create (pl : Place)
  deriving DecidableEq, Repr

/-- LEARN_OVERFLOW: counted, and raised at most once per pipe and tick (R238). -/
def learnOverflow (s : State) (p tick : Nat) : State :=
  let s := countR s (cPipe p 3) 1 tick
  if (pipeAt s p).learnTicks.contains tick then s
  else raiseAt (modPipe s p fun k => { k with learnTicks := rememberTick k.learnTicks tick })
    evLearnOverflow p tick []

/-- Placement in a commit step at home beat c, remembered for H home beats (R237). -/
def placeLate (s : State) (p c tick profile : Nat) (key : Bytes) : State × Find :=
  match takePlace s p profile key with
  | none => (learnOverflow s p tick, .miss)
  | some (s, pl) =>
    let pl := freshPlace (pipeAt s p) noLimit pl
    let s := modPipe s p fun k => { k with late := k.late ++
      [{ profile := profile, key := key, place := pl, expiry := c + horizon s }] }
    (countR s (cPipe p 9) 1 tick, .create pl)

/-- A record of the key that a late placement made since the position's admission (R237). -/
def latePlaced (s : State) (p c profile : Nat) (key : Bytes) : Option Place :=
  match (pipeAt s p).late.find? fun l => l.profile == profile && l.key == key && decide (c < l.expiry) with
  | none => none
  | some l =>
    let (x, lim) := whereIs (pipeAt s p) ((placeNow s p profile key).getD l.place)
    if confirmedAt s p x lim profile key then some x else none

/-- An OPEN miss that learns, of the position of home beat h: its step reads the words of the key's buckets (R221);
a record or claim made since its admission, or a late placement. -/
def openMiss (s : State) (p h c tick profile : Nat) (key : Bytes) (upset : Option (Nat × Ecc)) : State × Find :=
  let (b1, b2, _) := buckets s (keyBlock profile key)
  let s := readWords s p h c tick 0 [b1, b2] upset
  match placeNow s p profile key with
  | none => placeLate s p c tick profile key
  | some pl =>
    let k := pipeAt s p
    let (x, lim) := whereIs k pl
    match claimAt k x lim with
    | some cl => (dropClaim s p cl, .create (freshPlace k lim x))
    | none => if confirmedAt s p x lim profile key then (s, .hit x) else placeLate s p c tick profile key

/-- Whatever claim a position still holds, it leaves (R236). -/
def leaveClaims (s : State) (p h tick : Nat) : State :=
  ((pipeAt s p).claims.filter fun c => c.holders.contains h).foldl
    (fun s c => leaveClaim s p c h tick) s

/-- The record of a position at home beat c: found, claimed, made since, or placed late. A slot quarantined since it
was found, and a bucket that waited for its rebuild, give a miss without learn (R250, R254). -/
def findRecord (s : State) (p c : Nat) (q : Pos) (profile : Nat) (key : Bytes) (learns : Bool)
    (upset : Option (Nat × Ecc)) : State × Find :=
  let learns := learns && !q.noLearn
  let missed := fun (s : State) =>
    match latePlaced s p c profile key with
    | some pl => (s, Find.hit pl)
    | none =>
      if learns && q.overflow then (learnOverflow s p q.tick, .miss)
      else if learns && q.outcome == 3 then openMiss s p q.h c q.tick profile key upset
      else (s, .miss)
  match q.found with
  | none => if q.outcome = 4 then (s, .miss) else missed s
  | some pl =>
    if quarantined s pl then (s, .miss)
    else match heldClaim s p q.h pl with
    | some cl =>
      if learns then (dropClaim s p cl, .create pl) else (leaveClaim s p cl q.h q.tick, .miss)
    | none => if confirmedAt s p pl (q.h + 1) profile key then (s, .hit pl) else missed s

/-! ## The commit step of a packet (R329) -/

/-- Place code of completions and write-backs (R256, R526). -/
def placeCode : Option Place → Nat
  | none => 0xFFFFFFFF
  | some (.slot a) | some (.early a) => a
  | some (.stash i) => 0x80000000 + i

/-- The verdict of a packet, with its templates; the state counts the chosen verdict's reserved kind (R286, R309,
R320, R335). -/
def packetVerdict (c : CommitCtx) (t : CommitSt) (n : Nat) (defined : Bool) :
    State × Decision × Nat :=
  if n != 0 && !defined then (t.s, { Decision.none with kind := 3, reason := 13 }, 0)
  else
    let w := if imgAbi c.raw = 2 && 2 ≤ t.cand then 0 else outWord c.k t.cand
    let s := if 4 ≤ w / 2 ^ 60 then pipeCount c t.s 22 else t.s
    let (d, tpl) := verdictOf w t.port
    (s, d, tpl)

/-- The vector leaves for the egress half, 24 beats after the commit beat; a DROP ends the packet
(R83, R286, R329). -/
def sendOn (s : State) (k : Pkt) (d : Decision) (edits : List Nat) (hint : Nat) : State :=
  if d.kind = 3 then discardPkt (countR s (cDrop k.flow.profile d.reason) 1 k.tick) k.id
  else modPkt s k.id fun x =>
    { x with stage := .toEgress, due := beatAfter s 24,
             dec := { d with ptp := k.dec.ptp, profile := k.flow.profile, entry := k.dec.entry },
             out := { x.out with edits := edits, hint := hint } }

/-- A packet commits with its key profile's trap verdict: no operation, no write (R313, R327). -/
def commitTrapped (s : State) (p : Nat) (q : Pos) (k : Pkt) (c : Nat) : State :=
  let (s, f) := findRecord s p c q k.flow.profile k.flow.key false none
  let hit := f != .miss
  let s := countR (countR s (cPipe p (if hit then 0 else 1)) 1 k.tick) (cPipe p 15) 1 k.tick
  let hint := placeCode (match f with | .hit pl => some pl | _ => none)
  sendOn (leaveClaims s p q.h k.tick) k (trapDecision (slotVer s k.vslot) k.flow.profile) [] hint

/-- The commit step of a packet whose output is in the join. -/
def commitProgram (s : State) (p : Nat) (q : Pos) (k : Pkt) (c : Nat) (raw : Bytes)
    (upset : Option (Nat × Ecc)) : Except Nat (State × Bool) := do
  let v := slotVer s k.vslot
  let profile := k.flow.profile
  let dbl := decide (20 < k.flow.key.length)
  let n := outWord k 16 / 2 ^ 56
  let prog := program raw n
  let learns := (prog.map progLearn).getD false && profileLearn v profile
  let (s, f) := findRecord s p c q profile k.flow.key learns upset
  let s := leaveClaims s p q.h k.tick
  let place := match f with
    | .miss => none
    | .hit pl => some pl
    | .create pl => some pl
  let created := match f with | .create _ => true | _ => false
  let rcd := match f with
    | .miss => zeros (recLen dbl)
    | .hit pl => pl.bytes s p dbl
    | .create _ => newRecord profile dbl k.flow.key k.tick false false
  let s := countR s (cPipe p (if created then 2 else if place.isSome then 0 else 1)) 1 k.tick
  let ctx : CommitCtx :=
    { p := p, k := k, v := v, raw := raw, dbl := dbl, seen := lastSeen dbl rcd }
  let st : CommitSt :=
    { s := s, rcd := rcd, has := place.isSome, q := [],
      preds := 1 + 2 * b2n (place.isSome && !created) + 4 * b2n created
        + 8 * b2n (k.flow.verify == 2),
      cand := 0, port := none, exports := 0, exporting := none, sample := none, acted := false }
  let t := runOps ctx st ((prog.map progOps).getD [])
  let t := if t.has then { t with rcd := putLastSeen dbl t.rcd k.tick } else t
  let s ← match place with
    | some pl => orPin (storeRecord t.s p q.h dbl t.rcd pl)
    | none => .ok t.s
  -- exports and templates see the record as the step leaves it, its check included (R336, R354)
  let t := match place with
    | some pl => { t with rcd := pl.bytes s p dbl }
    | none => t
  let s ← orExport (emitExport ctx { t with s := s })
  let s := emitSample ctx t s
  let (s, d, tpl) := packetVerdict ctx { t with s := s } n prog.isSome
  let (s, edits) := if d.kind = 3 then (s, [])
    else bindTemplates ctx { t with s := s } (imgAbi raw == 2) tpl (decNode d)
  .ok (sendOn s k d edits (placeCode place), t.acted)

/-- PACKET_COMMIT's work at home beat c. -/
def commitPacket (s : State) (p : Nat) (q : Pos) (id c : Nat) (upset : Option (Nat × Ecc)) :
    Except Nat (State × Bool) :=
  match pktAt s id with
  | none => .ok (leaveClaims s p q.h q.tick, false)
  | some k =>
    if k.flow.trapped || k.flow.cluster.isNone then .ok (commitTrapped s p q k c, false)
    else
      let raw := (clusterImage (slotVer s k.vslot) (k.flow.cluster.getD 0)).getD []
      commitProgram s p q k c raw upset

/-! ## Aging (R247, R248) -/

def ageSlot (a : Nat) (dbl : Bool) : Nat := a + b2n dbl * 2 ^ 27

/-- Judge one record of a sweep step, and end it when it is too old. -/
def ageRecord (s : State) (p : Nat) (q : Pos) (pl : Place) (dbl : Bool) : Except Nat State := do
  let r := pl.bytes s p dbl
  let fl := recFlags dbl r
  let b := boundOf s q.h
  let profile := flagProfile fl
  let a := profileAge b.ver profile
  let l := if a = 0xFFFFFF then flowValue s q.h 1 else a
  if (claimAt (pipeAt s p) pl (q.h + 1)).isSome || quarantined s pl || !flagLive fl || flagStatic fl
      || !profileValid b.ver profile || l == 0
      || decide ((q.tick % 2 ^ 24 + 2 ^ 24 - lastSeen dbl r) % 2 ^ 24 ≤ l) then .ok s
  else
    let s ← if profileExport b.ver profile then
        orExport (expiryExport s p q.tick b.ver profile r)
      else .ok s
    let s ← orPin (endRecord s p q.h q.tick pl dbl)
    .ok (countR s (cPipe p 4) 1 q.tick)

/-- AGE_COMMIT: the bucket's slots in order, or the stash entry. -/
def commitAge (s : State) (p : Nat) (q : Pos) (item : Nat) (slots : List Nat) : Except Nat State :=
  if item < 0x400000 then
    slots.foldlM (fun s x =>
      let a := x % 2 ^ 27
      if q.badSlots.any (fun e => e.1 == a) then .ok s
      else ageRecord s p q (.slot a) (decide (2 ^ 27 ≤ x))) s
  else
    match stashAt (pipeAt s p) (item - 0x400000) with
    | some e => ageRecord s p q (.stash e.idx) e.dbl
    | none => .ok s

/-! ## Moves (R243) -/

/-- A stash entry leaves without an abandoned path. -/
def dropStash (s : State) (p i : Nat) : State :=
  modPipe s p fun k => { k with stash := k.stash.filter fun e => e.idx != i }

/-- A move that carries nothing: the destination is empty again, its pin ends, a stash entry is
freed, and the path is abandoned and counted. -/
def abandonMove (s : State) (p : Nat) (q : Pos) (src : Place) (dst : Nat) (dbl : Bool)
    (entry : Nat) : State :=
  let s := vacate s dst dbl
  let s := modPipe s p fun k => { cacheDrop k dst with
    path := match k.path with
      | some x => if x.entry = entry then none else some x
      | none => none }
  let s := match src with
    | .stash i => dropStash s p i
    | _ => s
  countR s (cPipe p 6) 1 q.tick

/-- RELOC_MOVE_COMMIT. -/
def commitMove (s : State) (p : Nat) (q : Pos) (src : Place) (dst : Nat) (dbl : Bool)
    (entry : Nat) : Except Nat State := do
  let r := src.bytes s p dbl
  let claim := claimAt (pipeAt s p) src (q.h + 1)
  let bad := match src with
    | .slot a | .early a => quarantined s src || q.badSlots.any fun e => e.1 == a
    | .stash _ => false
  if bad || (claim.isNone && !flagLive (recFlags dbl r)) then
    .ok (abandonMove s p q src dst dbl entry)
  else
    let s ← match claim with
      | some c => .ok (modPipe (askWrite (writeRecordAt s dst dbl r) p dst 0) p fun k =>
          { k with claims := k.claims.map fun x =>
              if x.h = c.h && x.place == c.place then { x with place := .slot dst } else x })
      | none => orPin (storeRecord s p q.h dbl r (.slot dst))
    let s ← match src with
      | .slot a | .early a =>
        let s := askWrite (putCompanion s dst (companionAt s a)) p dst 1
        orPin (storeRecord s p q.h dbl (clearLive dbl r) src)
      | .stash i => .ok (dropStash (askWrite (putCompanion s dst (zeros 128)) p dst 1) p i)
    let follow := fun (x : Comp) => if src = .slot x.slot then { x with slot := dst } else x
    let s := modPipe s p fun k => { k with comp := k.comp.map follow }
    .ok (countR s (cPipe p 5) 1 q.tick)

/-! ## Directory scrub (R252, R254) -/

/-- A quarantined slot is written with zeros and is empty again; the event reports it, for a release by the host too
(DESIGN CHOICE, log entry 153: R251 names no event). -/
def releaseSlot (s : State) (p a tick : Nat) : State :=
  let s := putDir (askWrite (putSlot s a (zeros 64)) p a 0) a 0
  let s := { s with mem := { s.mem with quarantine := s.mem.quarantine.filter (· != a) } }
  raiseAt s evQuarantineReleased p tick [a]

/-- DSCRUB_COMMIT: the rebuild is done before; here the test of a quarantined slot ends. -/
def commitDscrub (s : State) (p : Nat) (q : Pos) (test : Option Nat) : State :=
  match test with
  | none => s
  | some a =>
    if dirAt s a != 255 then s
    else if q.badSlots.any fun e => e.1 == a then countR s (cPipe p 11) 1 q.tick
    else releaseSlot s p a q.tick

/-! ## Host table commands (R255 to R258) -/

def cmdOp (b : Bytes) : Nat := byteAt b 0 / 16
def cmdStatic (b : Bytes) : Bool := bit (byteAt b 0) 3
def cmdBySlot (b : Bytes) : Bool := bit (byteAt b 0) 2
def cmdProfile (b : Bytes) : Nat := byteAt b 1 % 64
def cmdSlot (b : Bytes) : Nat := natAt b 60 4 % 2 ^ 27

/-- The status that a command has before any lookup: REJECTED, WRONG_PIPE, BAD_PROFILE, or 0
(R257). -/
def cmdStatus (s : State) (p h : Nat) (b : Bytes) : Nat :=
  let v := (boundOf s h).ver
  let op := cmdOp b
  if op = 0 || 4 < op || (cmdBySlot b && (op == 1 || op == 3)) then 7
  else if cmdBySlot b then (if slotPipe (cmdSlot b) = p then 0 else 8)
  else if !profileValid v (cmdProfile b) then 4
  else
    let key := slice b 8 (keyLen (profileDbl v (cmdProfile b)))
    if homePipe s (keyBlock (cmdProfile b) key) = p then 0 else 8

/-- The key of a command by the profile of its apply tick. -/
def cmdKey (s : State) (h : Nat) (b : Bytes) : Bytes :=
  slice b 8 (keyLen (profileDbl (boundOf s h).ver (cmdProfile b)))

/-- The command ring has completed its oldest command (R520). -/
def consumed (s : State) (p count : Nat) : State :=
  modRing s (cmdRing p) fun x => if x.cons = count then { x with cons := (count + 1) % 2 ^ 32 } else x

/-- The completion body (R256) joins the store of the pipe, and the ring's consumer count passes the command
(R520); a command that a FUNCTION reset has lost has neither (R541). -/
def complete (s : State) (p : Nat) (q : Pos) (c : Cmd) (status place : Nat) (image : Bytes) :
    State :=
  let body := bytesOf 1 status ++ bytesOf 1 (cmdProfile c.body) ++ [0, 0] ++ slice c.body 4 4
    ++ bytesOf 4 place ++ zeros 4 ++ bytesOf 8 q.tick ++ slice image 0 128 ++ zeros 8
  if c.held then
    consumed (modPipe s p fun k => { k with cpls := k.cpls ++ [{ body := body, count := c.count }] }) p c.count
  else s

/-- The record that an INSERT creates: state byte and profile data from the command (R224, R258). -/
def insertRecord (b key : Bytes) (tick : Nat) : Bytes :=
  let dbl := decide (20 < key.length)
  let k := keyLen dbl
  let r := newRecord (cmdProfile b) dbl key tick (cmdStatic b) true
  splice (splice r (k + 7) (slice b 67 1)) (k + 12) (slice b 72 (recLen dbl - k - 12))

/-- The record after a MODIFY: masked data bytes but 4 to 7, and static from the flag. -/
def modifyRecord (b r : Bytes) (dbl : Bool) : Bytes :=
  let k := keyLen dbl
  let n := recLen dbl - (k + 4)
  let r := (List.range n).foldl (fun r j =>
    if (j < 4 || 8 ≤ j) && (byteAt b (136 + j / 8)).testBit (7 - j % 8) then
      splice r (k + 4 + j) (slice b (64 + j) 1)
    else r) r
  putNat r k 2 (setBit (recFlags dbl r) 8 (cmdStatic b))

/-- The record that a command by key may have named was bad or is quarantined (R250). -/
def namedBad (s : State) (q : Pos) : Bool :=
  match q.found with
  | some pl => quarantined s pl
  | none => q.badSlots.any fun e => q.opens.contains e.1

/-- INSERT in its commit step at home beat c. -/
def commitInsert (s : State) (p c : Nat) (q : Pos) (m : Cmd) (upset : Option (Nat × Ecc)) : Except Nat State := do
  let key := cmdKey s q.h m.body
  let dbl := decide (20 < key.length)
  let profile := cmdProfile m.body
  if namedBad s q then
    .ok (complete s p q m 5 0xFFFFFFFF [])
  else if q.overflow then .ok (complete s p q m 3 0xFFFFFFFF [])
  else
    let (s, f) := match q.found with
      | some pl =>
        (match heldClaim s p q.h pl with
         | some cl => (dropClaim s p cl, Find.create pl)
         | none => if confirmedAt s p pl (q.h + 1) profile key then (s, Find.hit pl)
           else openMiss s p q.h c q.tick profile key upset)
      | none =>
        (match latePlaced s p c profile key with
         | some pl => (s, Find.hit pl)
         | none => openMiss s p q.h c q.tick profile key upset)
    let s := leaveClaims s p q.h q.tick
    match f with
    | .miss => .ok (complete s p q m 3 0xFFFFFFFF [])
    | .hit pl => .ok (complete s p q m 2 (placeCode (some pl)) (pl.bytes s p dbl))
    | .create pl =>
      let s ← orPin (storeRecord s p q.h dbl (insertRecord m.body key q.tick) pl)
      .ok (complete s p q m 0 (placeCode (some pl)) (pl.bytes s p dbl))

/-- The place of the confirmed record that a command names by key. -/
def namedByKey (s : State) (p c : Nat) (q : Pos) (m : Cmd) : Option Place :=
  let key := cmdKey s q.h m.body
  let profile := cmdProfile m.body
  match q.found with
  | some pl => if confirmedAt s p pl (q.h + 1) profile key then some pl
    else latePlaced s p c profile key
  | none => latePlaced s p c profile key

/-- DELETE, MODIFY or READ of a record at a place. -/
def actOnRecord (s : State) (p : Nat) (q : Pos) (m : Cmd) (pl : Place) (dbl : Bool) :
    Except Nat State := do
  let r := pl.bytes s p dbl
  if cmdOp m.body = 2 then
    let s ← orPin (endRecord s p q.h q.tick pl dbl)
    .ok (complete (countR s (cPipe p 4) 1 q.tick) p q m 0 (placeCode (some pl)) r)
  else if cmdOp m.body = 3 then
    let s ← orPin (storeRecord s p q.h dbl (modifyRecord m.body r dbl) pl)
    .ok (complete s p q m 0 (placeCode (some pl)) (pl.bytes s p dbl))
  else .ok (complete s p q m 0 (placeCode (some pl)) r)

/-- A command that names a slot: READ or DELETE, by the directory byte that its admission step found and the claims
that its commit step sees (R257, R258). A record that has ended since is read as the commit step sees it. -/
def commitBySlot (s : State) (p : Nat) (q : Pos) (m : Cmd) : Except Nat State :=
  let a := cmdSlot m.body
  let pl := Place.slot a
  let d := q.dirByte % 256
  let dbl := decide (256 ≤ q.dirByte)
  let read := cmdOp m.body == 4
  let r := readRecord s a dbl
  if d = 255 && read then .ok (complete s p q m 6 a (readRecord s a false))
  else if d = 0 || 254 ≤ d then .ok (complete s p q m 1 a [])
  else if quarantined s pl || q.badSlots.any (fun e => e.1 == a) then .ok (complete s p q m 5 a [])
  else if (claimAt (pipeAt s p) pl (q.h + 1)).isSome || (!read && !flagLive (recFlags dbl r)) then
    .ok (complete s p q m 1 a [])
  else actOnRecord s p q m pl dbl

/-- The commit step of an HCMD position. -/
def commitCmd (s : State) (p c : Nat) (q : Pos) (m : Cmd) (upset : Option (Nat × Ecc)) : Except Nat State :=
  if m.kind = 1 then
    .ok (if dirAt s m.arg = 255 then releaseSlot s p m.arg q.tick else s)
  else if m.kind = 2 then .ok (natRelease s p (bits m.arg 19 16) (bits m.arg 15 0))
  else if q.status != 0 then .ok (complete s p q m q.status 0xFFFFFFFF [])
  else if cmdBySlot m.body then commitBySlot s p q m
  else if cmdOp m.body = 1 then commitInsert s p c q m upset
  else
    match namedByKey s p c q m with
    | some pl => actOnRecord s p q m pl (decide (20 < (cmdKey s q.h m.body).length))
    | none =>
      .ok (complete s p q m (if namedBad s q then 5 else 1) 0xFFFFFFFF [])

/-! ## One commit step -/

/-- Records that waited beside their slots are written there once no earlier move has to pass (R243). -/
def settleEarly (s : State) (p : Nat) : State :=
  let k := pipeAt s p
  let free := fun (e : Early) => k.pos.all fun q => q.done || decide (e.since ≤ q.h) || match q.work with
    | .move src dst _ _ _ => src != .slot e.slot && dst != e.slot
    | _ => true
  (k.early.filter free).foldl (fun s e =>
    let s := askWrite (writeRecordAt (modPipe s p fun k => dropEarly k e.slot) e.slot e.dbl e.data) p e.slot 0
    (putCache s p e.slot e.dbl .write).getD s) s

/-- The commit step of position q at home beat c = q.h + H; the flag is R590's. `upset` names a directory word that
meets an error as the step reads it. -/
def commitStep (s : State) (p : Nat) (q : Pos) (c : Nat) (upset : Option (Nat × Ecc)) :
    Except Nat (State × Bool) := do
  let s ← beforeCommit s p q
  let (s, worked) ← match q.work with
    | .packet id => commitPacket s p q id c upset
    | .age item slots => (commitAge s p q item slots).map fun s => (s, true)
    | .move src dst _ dbl entry => (commitMove s p q src dst dbl entry).map fun s => (s, true)
    | .dscrub _ test => .ok (commitDscrub s p q (test.map Prod.fst), true)
    | .hcmd m => (commitCmd s p c q m upset).map fun s => (s, true)
    | .idle => .ok (s, q.status == 1)
  let s := settleEarly (modPos s p q.h fun x => { x with done := true }) p
  .ok (alarms (count s (cPipe p (if worked then 48 else 49)) 1) p q.tick, worked)

end Sys2Proof.Machine
end

