-- ==== Sys2Proof/Machine/HomeSteps.lean ====
section
/-! DEFINITION. The home beat: admission of packets, carousel jobs, holds, catch-up, landings, the
resequencer and the verify path (R65 to R80, R232 to R261, R285 to R292, R353, R458, R459, R590,
R591). -/

namespace Sys2Proof.Machine

/-! ## Positions -/

def newPos (h tick : Nat) (w : Work) : Pos := { Pos.init with h := h, tick := tick, work := w }

/-- A position is admitted; buckets that its home beat has to rebuild already stay with it. -/
def addPos (s : State) (p : Nat) (q : Pos) : State :=
  let before := ((posAt s p q.h).map Pos.rebuild).getD []
  modPipe s p fun k => { k with pos := (k.pos.filter fun x => x.h != q.h) ++
    [{ q with adm := s.beat, rebuild := before ++ q.rebuild }] }

/-! ## Admission of a packet (R65, R66, R232 to R235, R289 to R291, R314) -/

/-- Flow-path packets of a home pipe that wait to be admitted. -/
def flowWaiting (s : State) (p : Nat) : List Pkt :=
  s.pkts.filter fun k => (k.stage == .crossing || k.stage == .holding) && k.dec.kind == 2
    && k.flow.home == p && k.tailDone

/-- Home-order key as one number: tail-arrival beat, ingress pipe, port node. -/
def orderKey (k : Pkt) : Nat := k.tailBeat * 2 ^ 16 + nodePipe k.node * 2 ^ 8 + k.node

/-- A vector has found the holding queue, of 1,024 vectors, or its home pipe's share of 512, full (R80). -/
def overLimit (held : List Pkt) (q : Pkt) : Bool :=
  let before := held.filter fun x => decide (orderKey x < orderKey q)
  decide (1024 ≤ before.length)
    || decide (512 ≤ (before.filter fun x => x.flow.home == q.flow.home).length)

/-- The vector at which pass 1 of an ingress half holds; those before it stand in the holding queue. -/
def passStop (held : List Pkt) : Option Pkt := argMin orderKey (held.filter (overLimit held))

/-- The eligible packet with the smallest key. -/
def eligible (s : State) (p h : Nat) : Option Pkt :=
  argMin orderKey ((flowWaiting s p).filter fun k => k.stage == .crossing
    && decide (k.tailBeat + 40 ≤ h))

/-- A packet with a tail-arrival beat of h - 40 or earlier has not been delivered (R66). -/
def mergeHeld (s : State) (p h : Nat) : Bool :=
  (flowWaiting s p).any fun k => decide (k.tailBeat + 40 ≤ h)
    && (k.stage == .holding || !due s k.due)

/-- The lookup of a position and what follows from it: the claim it joins or makes, or its reads.
`learn` lets a clean miss claim a place. -/
def lookupStep (s : State) (p h profile : Nat) (key : Bytes) (learn hold : Bool)
    (requester : Nat) : Except Nat State := do
  let (b1, b2, _) := buckets s (keyBlock profile key)
  let r := lookup s p profile key
  let blocked := rebuilding (pipeAt s p) b1 || rebuilding (pipeAt s p) b2
  let r := if blocked && requester == 0 then { outcome := 4, found := none, opens := [] } else r
  let s := modPos s p h fun q =>
    { q with outcome := r.outcome, found := r.found, opens := r.opens, cands := r.opens,
             noLearn := q.noLearn || blocked }
  match r.found with
  | some pl =>
    let s := if hold then holdClaim s p h pl else s
    match pl with
    | .slot a | .early a => .ok (modPipe s p fun k => cacheTouch k a)
    | .stash _ => .ok s
  | none =>
    if r.outcome = 3 then
      .ok (askCandidates s p h 2 (if 20 < key.length then 128 else 64) requester 0)
    else if learn && !blocked then
      match makeClaim s p h profile key with
      | none => .error holdPin
      | some (s, some pl) => .ok (modPos s p h fun q => { q with found := some pl })
      | some (s, none) => .ok (modPos s p h fun q => { q with overflow := true })
    else .ok s

/-- The admission step of a packet. -/
def admitPacket (s : State) (p h : Nat) (k : Pkt) (upset : Option (Nat × Ecc)) :
    Except Nat State := do
  let (b1, b2, _) := buckets s (keyBlock k.flow.profile k.flow.key)
  let s := addPos s p (newPos h k.tick (.packet k.id))
  let s := readDirectory s p h k.tick 0 [b1, b2] upset
  let s ← lookupStep s p h k.flow.profile k.flow.key
    (profileLearn (slotVer s k.vslot) k.flow.profile) true 0
  let s := modPkt s k.id fun x =>
    { x with stage := .admitted, flow := { x.flow with h := h } }
  .ok (issueReads p 8 (dispatch s p k.id))

/-! ## AGE (R246) -/

/-- The next item of a sweep: the buckets, then the 1,024 stash entries. -/
def nextItem (i : Nat) : Nat := if i = 0x4003FF then 0 else i + 1

def ageSlots (s : State) (p b : Nat) : List (Nat × Bool) :=
  ((List.range 4).map (slotOf p b)).filterMap fun a =>
    if 1 ≤ dirAt s a && decide (dirAt s a ≤ 253)
        && (occupantClaim (pipeAt s p) (.slot a)).isNone then some (a, isDouble s a) else none

def jobAge1 (s : State) (p h tick : Nat) (upset : Option (Nat × Ecc)) : Option State :=
  if flowValue s h 0 = 0 then none
  else
    let item := (pipeAt s p).agePos
    let s := modPipe s p fun k =>
      let start := if item = 0 then tick else k.ageStart
      { k with agePos := nextItem item, ageStart := start,
               agePass := if nextItem item = 0 then tick - start else k.agePass }
    if item < 0x400000 then
      let s := addPos s p (newPos h tick (.age item []))
      let s := readDirectory s p h tick 1 [item] upset
      let slots := ageSlots s p item
      let s := modPos s p h fun q =>
        { q with work := .age item (slots.map fun e => ageSlot e.1 e.2) }
      some (slots.foldl (fun s e =>
        if isCached (pipeAt s p) e.1 then s
        else askRead s p h e.1 (if e.2 then 128 else 64) 0 1) s)
    else some (addPos s p (newPos h tick (.age item [])))

/-! ## RELOC and STASH (R240 to R242, R245) -/

/-- The slot may be moved by a plan (R241). -/
def movable (s : State) (p a : Nat) : Bool :=
  decide (1 ≤ dirAt s a) && decide (dirAt s a ≤ 253) && !isDouble s a
    && (occupantClaim (pipeAt s p) (.slot a)).isNone

/-- plan(e) of R241. A queue element is a bucket with the slots on the way from the stash entry to
it, outermost first. The answer is those slots and the empty slot that ends the path, and the buckets examined. -/
def planFrom (s : State) (p maxMoves : Nat) :
    Nat → List (Nat × List Nat) → List Nat → List Nat → Option (List Nat) × List Nat
  | 0, _, _, read => (none, read)
  | _ + 1, [], _, read => (none, read)
  | fuel + 1, (b, way) :: q, seen, read =>
    match ((List.range 4).map (slotOf p b)).find? fun a => dirAt s a == 0 with
    | some a => (some (way ++ [a]), b :: read)
    | none =>
      let (q, seen) := ((List.range 4).map (slotOf p b)).foldl
        (fun (acc : List (Nat × List Nat) × List Nat) a =>
          let c := b ^^^ altBucket s (dirAt s a)
          if movable s p a && decide (way.length + 1 < maxMoves) && !acc.2.contains c then
            (acc.1 ++ [(c, way ++ [a])], c :: acc.2)
          else acc) (q, seen)
      planFrom s p maxMoves fuel q seen (b :: read)

/-- The moves of a path, from its far end toward the stash entry. -/
def pathMoves (s : State) (e : Stash) (way : List Nat) : List (Place × Nat × Nat) :=
  ((Place.stash e.idx :: way.map Place.slot).zip way).reverse.map fun m =>
    (m.1, m.2, match m.1 with | .slot a | .early a => dirAt s a | .stash _ => e.fp)

/-- A path's or a drain's move in the admission step of position h, which has read the buckets; none fails the checks
of R242. -/
def admitMove (s : State) (p h : Nat) (m : Place × Nat × Nat) (dbl : Bool) (entry : Nat) :
    Option (Except Nat State) :=
  let (src, dst, fp) := m
  let srcOk := match src with
    | .slot a | .early a => dirAt s a == fp && (occupantClaim (pipeAt s p) (.slot a)).isNone
    | .stash i => (stashAt (pipeAt s p) i).any Stash.seen
  if dirAt s dst != 0 || (dbl && dirAt s (dst + 1) != 0) || !srcOk then none
  else
    let s := modPos s p h fun q => { q with work := .move src dst fp dbl entry, status := 0 }
    let s := occupy s dst fp dbl
    let s := match src with
      | .slot a | .early a =>
        let s' := putDir s a 0
        let s' := if isCached (pipeAt s p) a then s' else askRead s' p h a 64 0 1
        askRead s' p h a 128 1 1
      | .stash i => modPipe s p fun k => { k with stash := k.stash.map fun e =>
          if e.idx = i then { e with seen := false } else e }
    some (orPin (putCache s p dst dbl .pending))

/-- The buckets whose words a move reads. -/
def moveBuckets (m : Place × Nat × Nat) : List Nat :=
  match m.1 with
  | .slot a | .early a => [slotBucket m.2.1, slotBucket a]
  | .stash _ => [slotBucket m.2.1]

def workDone (s : State) (p h tick : Nat) : State :=
  addPos s p { newPos h tick .idle with status := 1 }

/-- The oldest queued entry of the relocation queue not skipped in this tick. -/
def queuedEntry (k : Pipe) (tick : Nat) : Option Stash :=
  argMin Stash.order (k.stash.filter fun e => e.seen && !e.dbl && e.skipped != some tick)

def jobReloc1 (s : State) (p h tick : Nat) (upset : Option (Nat × Ecc)) :
    Except Nat (Option State) :=
  match (pipeAt s p).path with
  | some x =>
    match x.moves with
    | [] => .ok (some (modPipe s p fun k => { k with path := none }))
    | m :: rest =>
      let s := readDirectory (workDone s p h tick) p h tick 1 (moveBuckets m) upset
      match admitMove s p h m false x.entry with
      | none =>
        .ok (some (countR (modPipe s p fun k => { k with path := none }) (cPipe p 6) 1 tick))
      | some r => r.map fun s => some (modPipe s p fun k =>
          { k with path := if rest = [] then none else some { x with moves := rest } })
  | none =>
    match queuedEntry (pipeAt s p) tick with
    | none => .ok none
    | some e =>
      let plan := fun (s : State) => planFrom s p (flowValue s h 2) (flowValue s h 3)
        [(e.b1, []), (e.b2, [])] [e.b1, e.b2] []
      let s := readDirectory (workDone s p h tick) p h tick 1 (plan s).2 upset
      match (plan s).1 with
      | some way =>
        .ok (some (modPipe s p fun k =>
          { k with path := some { entry := e.idx, moves := pathMoves s e way } }))
      | none =>
        .ok (some (countR (modPipe s p fun k => { k with stash := k.stash.map fun x =>
          if x.idx = e.idx then { x with skipped := some tick } else x }) (cPipe p 7) 1 tick))

def jobStash1 (s : State) (p h tick : Nat) (upset : Option (Nat × Ecc)) :
    Except Nat (Option State) :=
  let k := pipeAt s p
  let busy := k.path.map Path.entry
  match argMin Stash.drain (k.stash.filter fun e => e.seen && busy != some e.idx) with
  | none => .ok none
  | some e =>
    let s := readDirectory (addPos s p (newPos h tick .idle)) p h tick 1 [e.b1, e.b2] upset
    let last := fun (n : Nat) (x : Stash) => if x.idx = e.idx then { x with drain := n } else x
    let back := modPipe s p fun k =>
      { k with nextOrder := k.nextOrder + 1, stash := k.stash.map (last k.nextOrder) }
    match emptyIn s p e.b1 e.b2 e.dbl with
    | none => .ok (some back)
    | some a =>
      match admitMove s p h (.stash e.idx, a, e.fp) e.dbl e.idx with
      | none => .ok (some back)
      | some r => r.map some

/-! ## DSCRUB (R252 to R254) -/

def jobDscrub1 (s : State) (p h tick : Nat) (upset : Option (Nat × Ecc)) : State :=
  let b := (pipeAt s p).dscrub
  let s := modPipe s p fun k => { k with dscrub := (b + 1) % 2 ^ 22 }
  let s := addPos s p (newPos h tick (.dscrub b none))
  let s := readDirectory s p h tick 1 [b] upset
  let bad := ((List.range 4).map (slotOf p b)).find? fun a => dirAt s a == 255
  match bad with
  | some a =>
    if flowValue s h 4 = 0 || rebuilding (pipeAt s p) b then s
    else
      let (s, pat) := freshBytes 8 s
      askRead (modPos (putSlot s a pat) p h fun q => { q with work := .dscrub b (some (a, pat)) })
        p h a 64 0 1
  | none => s

/-! ## HCMD (R251, R255 to R258, R343, R537) -/

/-- The completion store has no room for one more command (R537). -/
def storeFull (k : Pipe) : Bool :=
  decide (4096 ≤ k.cpls.length + (k.pos.filter fun q => match q.work with
    | .hcmd m => m.kind == 0 && !q.done
    | _ => false).length)

/-- The admission step of a command. -/
def admitCmd (s : State) (p h tick : Nat) (m : Cmd) (upset : Option (Nat × Ecc)) :
    Except Nat State :=
  let s := addPos s p (newPos h tick (.hcmd m))
  if m.kind = 1 then .ok (readDirectory s p h tick 2 [slotBucket m.arg] upset)
  else if m.kind != 0 then .ok s
  else
    let st := cmdStatus s p h m.body
    if st != 0 then .ok (modPos s p h fun q => { q with status := st })
    else if cmdBySlot m.body then
      let a := cmdSlot m.body
      let s := readDirectory s p h tick 2 [slotBucket a] upset
      let d := dirAt s a
      let dbl := isDouble s a && decide (d ≤ 253) && decide (1 ≤ d)
      let s := modPos s p h fun q => { q with dirByte := d + b2n dbl * 256 }
      .ok (if d = 0 || d = 254 || isCached (pipeAt s p) a then s
        else askRead s p h a (if dbl then 128 else 64) 0 2)
    else
      let key := cmdKey s h m.body
      let (b1, b2, _) := buckets s (keyBlock (cmdProfile m.body) key)
      let s := readDirectory s p h tick 2 [b1, b2] upset
      let insert := cmdOp m.body == 1
      (lookupStep s p h (cmdProfile m.body) key insert insert 2).map fun s =>
        modPos s p h fun q =>
          -- an INSERT whose bucket waits for its rebuild is placed in its commit step
          if insert && q.outcome == 2 && q.found.isNone && !q.overflow then
            { q with outcome := 3 } else q

/-! ## COMP (R70, R243, R296) -/

/-- The slot is the source or the destination of a move under way. -/
def moving (k : Pipe) (a : Nat) : Bool :=
  k.pos.any fun q => !q.done && match q.work with
    | .move src dst _ _ _ => src == Place.slot a || dst == a
    | _ => false

def jobComp1 (s : State) (p h tick : Nat) : Option State :=
  match (pipeAt s p).comp.find? fun c => c.read.isNone with
  | none => none
  | some c =>
    if moving (pipeAt s p) c.slot then none
    else
      let id := (pipeAt s p).nextRead
      let take := fun (x : Comp) =>
        { x with read := some id, task := x.task.map fun t =>
          (t.1, { t.2 with data := slice (companionAt s c.slot) c.off c.len }) }
      let s := modPipe s p fun k => { k with comp := lmod (fun c => c.read.isNone) take k.comp }
      let s := match c.write with
        | some b => putCompanion s c.slot (splice (companionAt s c.slot) c.off b)
        | none => s
      some (workDone (askRead s p noLimit c.slot 128 1 3) p h tick)

/-! ## One carousel beat (R65, R72, R591) -/

/-- The job of home carousel beat h: the state, and its class in R591's order. -/
def carouselBeat (s : State) (p h : Nat) (upset : Option (Nat × Ecc)) :
    Except Nat (State × Nat) :=
  let tick := (boundOf s h).tick
  let j := jobOf s .home h
  let none' := fun (o : Option State) => match o with
    | some t => (t, match posAt t p h with
        | some q => if q.work == .idle && q.status == 0 then 1 else 0
        | none => 0)
    | none => (addPos s p (newPos h tick .idle), 1)
  -- a job that did work without a position of its own has an idle one
  let ensure := fun (r : State × Nat) =>
    if (posAt r.1 p h).isSome then r else (workDone r.1 p h tick, r.2)
  if j = jobAge then .ok (ensure (none' (jobAge1 s p h tick upset)))
  else if j = jobReloc then (jobReloc1 s p h tick upset).map fun o => ensure (none' o)
  else if j = jobStash then (jobStash1 s p h tick upset).map fun o => ensure (none' o)
  else if j = jobDscrub then .ok (jobDscrub1 s p h tick upset, 0)
  else if j = jobComp then .ok (ensure (none' (jobComp1 s p h tick)))
  else if j = jobHcmd then
    if storeFull (pipeAt s p) then .ok ((none' none).1, 3)
    else match (pipeAt s p).cmds with
      | m :: rest =>
        if tick < m.tick then .ok (none' none)
        -- a command of this window that the part does not hold yet starves the beat (R537, R591)
        else if !m.held then .ok ((none' none).1, 2)
        else
          (admitCmd (modPipe s p fun k => { k with cmds := rest }) p h tick m upset).map
            fun s => (s, 0)
      | [] => .ok (none' none)
  else .ok (none' none)

/-! ## Holds and the home beat -/

/-- A read or a verification of the position whose deadline is home beat h is still out (R78,
R353). -/
def slipping (s : State) (p h : Nat) : Bool :=
  decide (horizon s ≤ h + 4) &&
    (let a := h + 4 - horizon s
     match posAt s p a with
     | none => false
     | some q =>
       !(openReads (pipeAt s p) a).isEmpty
       || match q.work with
          | .packet id => (pktAt s id).any fun k =>
              (k.flow.verify == 1 || k.flow.verify == 4) && !k.flow.trapped
          | _ => false)

/-- The position whose commit step falls on home beat h, if it has not run. -/
def duePos (s : State) (p h : Nat) : Option Pos :=
  if horizon s ≤ h then (posAt s p (h - horizon s)) else none

/-- A packet's output is in the join, or it needs none (R83, R292, R313, R314). -/
def outputReady (s : State) (q : Pos) : Bool :=
  match q.work with
  | .packet id => (pktAt s id).all fun k =>
      k.flow.joined || k.flow.trapped || k.flow.cluster.isNone
  | _ => true

/-- The home half may still act in this beat (R67): the first home beat of a beat, or a further one
of at most four. -/
def passedNow (s : State) (p : Nat) : Nat :=
  let k := pipeAt s p
  if k.lastBeat = s.beat then k.passed else 0

/-- A home beat with nothing in it: not a carousel beat, no admission, no commit (R67). -/
def emptyBeat (s : State) (p h : Nat) : Bool :=
  !isCarousel .home h && (eligible s p h).isNone && (duePos s p h).isNone

/-- Buckets whose words met a double error in the commit step of position q (log entry 157). -/
def lateDamage (new : State) (p : Nat) (q : Pos) : List Nat :=
  ((posAt new p q.h).map Pos.rebuild).getD [] |>.filter fun b => !q.rebuild.contains b

/-- The position of home beat h rebuilds these buckets in its commit step. -/
def rebuildLater (s : State) (p h : Nat) (bs : List Nat) : State :=
  if bs = [] then s
  else
    let s := if (posAt s p h).isSome then s else addPos s p (newPos h (boundOf s h).tick .idle)
    modPos s p h fun q => { q with rebuild := bs.foldl (fun l b => insertUnique b l) q.rebuild }

/-- The whole of home beat h, or the hold that keeps it from running. -/
def homeTry (s : State) (p h : Nat) (upset : Option (Nat × Ecc)) : Except Nat State := do
  if slipping s p h then .error holdSlip
  else if mergeHeld s p h then .error holdMerge
  else if !isCarousel .home h && (eligible s p h).isSome && dispatchHeld s p then
    .error holdDispatch
  else
    let (s, damage) ← match duePos s p h with
      | none => .ok (count s (cPipe p 50) 1, [])
      | some q =>
        (if q.done then .ok (s, [])
         else (commitStep s p q h upset).map fun r => (r.1, lateDamage r.1 p q))
    let s := modPipe s p fun k =>
      { k with pos := k.pos.filter (fun q => q.h + horizon s != h),
               late := k.late.filter fun l => decide (h < l.expiry) }
    let s := rebuildLater s p h damage
    let s ← if isCarousel .home h then
        (carouselBeat s p h upset).map fun r => countCarousel r.1 .home p r.2
      else match eligible s p h with
        | some k => admitPacket s p h k upset
        | none => .ok s
    .ok (alarms s p (boundOf s h).tick)

/-- Count a beat of a hold (R81, R290, R356, R231, R590). -/
def holdBeat (s : State) (p c : Nat) : State :=
  let k := pipeAt s p
  let s := if c = holdSlip && k.slip = 0 then count s (cPipe p 34) 1 else s
  let s := count (count s (cPipe p c) 1)
    (cPipe p (if c = holdSlip || c = holdMerge then 50 else 51)) 1
  modPipe s p fun k =>
    { k with lastBeat := s.beat, passed := 4, slip := if c = holdSlip then k.slip + 1 else k.slip }

/-- The home half of a pipe may try its next home beat. -/
def homeReady (s : State) (p : Nat) : Bool :=
  let k := pipeAt s p
  pipeLive s p && decide (k.h ≤ s.beat) && decide (passedNow s p < 4)
    && (passedNow s p == 0 || emptyBeat s p k.h)
    && (match duePos s p k.h with
        | some q => q.done || outputReady s q
        | none => true)

/-- HOME_BEAT (R65 to R67). -/
def homeBeat (s : State) (p : Nat) (upset : Option (Nat × Ecc)) : State :=
  let h := (pipeAt s p).h
  let n := passedNow s p
  let quiet := emptyBeat s p h
  match homeTry s p h upset with
  | .error c => holdBeat s p c
  | .ok t => modPipe (issueReads p 8 t) p fun k =>
      { k with h := h + 1, lastBeat := s.beat, passed := if quiet then n + 1 else 4 }

/-- A commit row: the commit step that is due, when it is of the row's kind and the home beat it
belongs to can run. -/
def commitDue (s : State) (p : Nat) (isKind : Pos → Bool) : State :=
  let h := (pipeAt s p).h
  match duePos s p h with
  | none => s
  | some q =>
    if q.done || !isKind q || passedNow s p != 0 || !homeReady s p then s
    else match homeTry s p h none, commitStep s p q h none with
      | .ok _, .ok (t, _) => t
      | _, _ => s

/-! ## Landings (R78, R81, R231, R233) -/

/-- The slip ends with the last landing that it waited for; the beat of the landing is still a slip
beat (R78, R81). -/
def endSlip (s : State) (p : Nat) : State :=
  let k := pipeAt s p
  if k.slip = 0 || slipping s p k.h then s
  else
    let s := if k.lastBeat = s.beat && k.passed == 4 then s else holdBeat s p holdSlip
    let n := (pipeAt s p).slip
    let s := modPipe s p fun k => { k with slip := 0, slipLongest := max k.slipLongest n }
    if rw s 0x2A00 5 < n then raiseEv s evSlipLong p [n] else s

/-! ## The resequencer and the verify path (R285, R292, R295, R353, R458, R459) -/

/-- Length of the verify path's work: the range, start, tag offset and association of R353. -/
def verifyArg (k : Pkt) (raw : Bytes) : Option (Nat × Nat × Nat × Nat) :=
  match program raw (outWord k 16 / 2 ^ 56) with
  | none => none
  | some r =>
    if progVerify r then
      let a := outWord k (17 + progVerifyArg r)
      some (bits a 63 52, bits a 51 38, bits a 37 24, bits a 23 10)
    else none

/-- A verification enters the path: it occupies it for a beat for each 80 bytes, and lands 24 beats after the last
(R459). -/
def enterVerify (s : State) (p : Nat) (k : Pkt) : State :=
  match verifyArg k ((clusterImage (slotVer s k.vslot) (k.flow.cluster.getD 0)).getD []) with
  | none => s
  | some (_, _, len, _) =>
    let stop := max s.beat (pipeAt s p).verifyFree + ceilDiv len 80
    let s := modPipe s p fun q => { q with verifyFree := stop }
    modPkt s k.id fun x =>
      { x with flow := { x.flow with verify := 1, verifyDue := stop + 23 } }

/-- The first packet of a home pipe, in home order, that waits for the verify path; none while an output before it has
still to enter the join (R459). -/
def verifyNext (s : State) (p : Nat) : Option Pkt :=
  let waits := fun (k : Pkt) => k.flow.verify == 4
  match argMin (fun k => k.flow.h) (s.pkts.filter fun k => k.stage == .admitted && k.flow.home == p
      && !k.flow.trapped && k.flow.cluster.isSome && (waits k || !k.flow.joined)) with
  | some k => if waits k then some k else none
  | none => none

/-- The verifications whose turn has come enter the path. -/
def enterVerifies (p : Nat) : Nat → State → State
  | 0, s => s
  | n + 1, s => match verifyNext s p with
    | some k => enterVerifies p n (enterVerify s p k)
    | none => s

/-- An output that enters the commit join asks for the verification that its program names (R353). -/
def requestVerify (s : State) (k : Pkt) (raw : Bytes) : State :=
  if (verifyArg k raw).isNone then s
  else modPkt s k.id fun x => { x with flow := { x.flow with verify := 4 } }

/-- An idle request of an output that reached the resequencer queues a task (R285, R288, R309). -/
def idleRequest (s : State) (c : Nat) (k : Pkt) (raw : Bytes) : State :=
  let w := outWord k 28 * 2 ^ 64 + outWord k 29
  let kind := w / 2 ^ 120
  if imgAbi raw = 2 || kind = 0 then s
  else if 15 < kind then count s (cCluster c 8) 1
  else offerTask s c { kind := kind, arg := w % 2 ^ 120, data := [], copy := none, granted := none }

/-- RESEQUENCER_RELEASE: the oldest entry, when its output is complete; one a beat. -/
def releaseOldest (s : State) (c : Nat) : State :=
  let q := clusterAt s c
  match q.reseq with
  | [] => s
  | id :: rest =>
    match pktAt s id with
    | none => modCluster s c fun x => { x with reseq := rest }
    | some k =>
      if !k.flow.complete || !due s k.flow.doneAt || q.released = some s.beat then s
      else
        let raw := (clusterImage (slotVer s k.vslot) c).getD []
        let s := modCluster s c fun x => { x with reseq := rest, released := some s.beat }
        let s := modPkt s id fun x => { x with flow := { x.flow with joined := true } }
        enterVerifies (c / 8) s.pkts.length (requestVerify s k raw)

/-- A retired engine whose packet has no place among the resequencer's 32 entries (R293). -/
def waitsEntry (k : Cluster) (e : Engine) : Bool :=
  match e.load with
  | .packet id => e.retiring && !(k.reseq.take 32).contains id && k.reseq.contains id
  | _ => false

/-- The beat in which an engine's output is complete in the resequencer: its idle request makes its
task; an output without an entry waits a beat (R288, R291, R293). -/
def reachEntry (s : State) (c e : Nat) : State :=
  let g := engineAt s c e
  match g.load with
  | .packet id =>
    if !g.retiring || g.freeAt != s.beat + 6 then s
    else if waitsEntry (clusterAt s c) g then
      modPkt (modEngine s c e fun x => { x with freeAt := x.freeAt + 1 }) id fun k =>
        { k with flow := { k.flow with doneAt := k.flow.doneAt + 1 } }
    else match pktAt s id with
      | some k => idleRequest s c k ((clusterImage (slotVer s k.vslot) c).getD [])
      | none => s
  | _ => s

/-- Every output that the present beat completes. -/
def reachEntries (s : State) : State :=
  (tkeys s.clusters).foldl (fun s c =>
    if inRotation s c then (tkeys (clusterAt s c).engines).foldl (fun s e => reachEntry s c e) s
    else s) s

end Sys2Proof.Machine
end

