-- ==== Sys2Proof/Machine/HomeRows.lean ====
section
/-! DEFINITION. The commands of the home halves: home beats, commit steps, landings, holding queues,
resequencers, and the table writes that join a command window (R63 to R80, R229 to R258, R292, R343). -/

namespace Sys2Proof.Machine

/-- HOME_BEAT (R65). -/
def rowHomeBeat (pipe : Nat) (upset : Option (Nat × Ecc)) (s : State) : State :=
  whenRun s fun s => guardS (homeReady s pipe) s fun s => homeBeat s pipe upset

/-- A companion-area or bulk-area access of an idle step lands: the follow-on task takes what it read;
what an uncorrectable error leaves there is open (R214, R296, log entry 5). -/
def landIdle (s : State) (p id : Nat) (ecc : Ecc) : State :=
  let s := if ecc = .single then count s (cPipe p 14) 1 else s
  let c := (pipeAt s p).comp.find? fun c => c.read == some id
  let s := modPipe s p fun k =>
    { k with reads := k.reads.filter fun x => x.id != id, comp := ldel (fun c => c.read == some id) k.comp }
  match c.bind Comp.task with
  | none => s
  | some (cl, t) =>
    if ecc = .double then
      let (s, b) := freshBytes 22 s
      offerTask s cl { t with data := b }
    else offerTask s cl t

/-- An access lands. -/
def landAccess (s : State) (p id : Nat) (ecc : Ecc) : State :=
  match (pipeAt s p).reads.find? fun r => r.id == id && r.issued && r.requester == 3 with
  | some _ => landIdle s p id ecc
  | none => landRead s p id ecc

/-- HBM_READ_LAND (R214, R226, R233, R78). -/
def rowHbmReadLand (pipe read : Nat) (ecc : Ecc) (s : State) : State :=
  whenRun s fun s => guardS (pipeLive s pipe) s fun s =>
    endSlip (issueReads pipe 8 (landAccess s pipe read ecc)) pipe

/-- HBM_WRITE_LAND (R231). -/
def rowHbmWriteLand (pipe slot : Nat) (s : State) : State :=
  whenRun s fun s => guardS (pipeLive s pipe) s fun s =>
    issueReads pipe 8 (landWrite s pipe slot)

/-! ## Holding queues (R80) -/

/-- Vectors in, or on their way to, the input buffer of a home half (2,048). -/
def inputUsed (s : State) (home : Nat) : Nat :=
  ((flowWaiting s home).filter fun k => k.stage == .crossing).length

/-- Vectors that wait in the holding queue of an ingress half, in tail order. -/
def heldIn (s : State) (p : Nat) : List Pkt :=
  s.pkts.filter fun k => k.stage == .holding && nodePipe k.node == p

/-- Vectors in the holding queue whose home half has credit, the first in home order of all that wait for it (R66).
One at which pass 1 holds, or behind it, has not
entered the queue. -/
def mayCross (s : State) (p : Nat) : List Pkt :=
  let held := heldIn s p
  let stop := passStop held
  held.filter fun k => decide (inputUsed s k.flow.home < 2048)
    && !((flowWaiting s k.flow.home).any fun x => x.stage == .holding && decide (orderKey x < orderKey k))
    && (match stop with
        | some q => decide (orderKey k < orderKey q)
        | none => true)

/-- The earliest vector that may cross does. -/
def releaseHeld (p : Nat) : Nat → State → State
  | 0, s => s
  | n + 1, s =>
    match argMin orderKey (mayCross s p) with
    | none => s
    | some k =>
      releaseHeld p n (modPkt s k.id fun x =>
        { x with stage := .crossing, due := beatAfter s 20 })

/-- HOLDING_QUEUE_RELEASE of an ingress half. -/
def rowHoldingQueueRelease (pipe : Nat) (s : State) : State :=
  whenRun s fun s => guardS (pipeLive s pipe) s fun s =>
    releaseHeld pipe (heldIn s pipe).length s

/-- RESEQUENCER_RELEASE (R292): a trapped or frozen cluster releases nothing more (R312). -/
def rowResequencerRelease (cluster : Nat) (s : State) : State :=
  whenRun s fun s =>
    guardS (inRotation s cluster && pipeLive s (cluster / 8)) s fun s => releaseOldest s cluster

/-! ## Commit rows -/

/-- PACKET_COMMIT (R329). -/
def rowPacketCommit (pipe : Nat) (s : State) : State :=
  whenRun s fun s => commitDue s pipe fun q =>
    match q.work with | .packet _ => true | _ => false

/-- AGE_COMMIT (R247, R248). -/
def rowAgeCommit (pipe : Nat) (s : State) : State :=
  whenRun s fun s => commitDue s pipe fun q =>
    match q.work with | .age _ _ => true | _ => false

/-- RELOC_MOVE_COMMIT (R243). -/
def rowRelocMoveCommit (pipe : Nat) (s : State) : State :=
  whenRun s fun s => commitDue s pipe fun q =>
    match q.work with | .move _ _ _ _ _ => true | _ => false

/-- DSCRUB_COMMIT (R252, R254): the rebuild of a bucket that any position found damaged, or the end
of a quarantine test. -/
def rowDscrubCommit (pipe : Nat) (s : State) : State :=
  whenRun s fun s => commitDue s pipe fun q =>
    match q.work with | .dscrub _ _ => true | _ => q.rebuild != []

/-- A command of one opcode that its admission step has accepted, and no releases of chapter 7. -/
def isCmd (op : Nat) (q : Pos) : Bool :=
  match q.work with
  | .hcmd m => m.kind == 0 && q.status != 7 && cmdOp m.body == op
  | _ => false

/-- HCMD_INSERT (R258). -/
def rowHcmdInsert (pipe : Nat) (s : State) : State :=
  whenRun s fun s => commitDue s pipe (isCmd 1)

/-- HCMD_DELETE (R258). -/
def rowHcmdDelete (pipe : Nat) (s : State) : State :=
  whenRun s fun s => commitDue s pipe (isCmd 2)

/-- HCMD_MODIFY (R258). -/
def rowHcmdModify (pipe : Nat) (s : State) : State :=
  whenRun s fun s => commitDue s pipe (isCmd 3)

/-- HCMD_READ (R258). -/
def rowHcmdRead (pipe : Nat) (s : State) : State :=
  whenRun s fun s => commitDue s pipe (isCmd 4)

/-- HCMD_REJECTED (R257). -/
def rowHcmdRejected (pipe : Nat) (s : State) : State :=
  whenRun s fun s => commitDue s pipe fun q =>
    match q.work with | .hcmd m => m.kind == 0 && q.status == 7 | _ => false

/-! ## Releases that join a command window (R63, R251, R343) -/

/-- A write that is carried out in an HCMD position of the next window. -/
def pushCmd (s : State) (p kind arg : Nat) : State :=
  modPipe s p fun k => { k with cmds := k.cmds ++
    [{ count := 0, recv := s.beat, tick := s.rm.tick + 1, kind := kind, held := true, body := [], arg := arg }] }

/-- FLOW_QUARANTINE_RELEASE (R251). -/
def rowFlowQuarantineRelease (src : Origin) (slot : Nat) (s : State) : State :=
  writeCmd s src 0x501C 1 noRow (bytesOf 4 slot) fun s =>
    if slotPipe slot < 8 then some (pushCmd s (slotPipe slot) 1 slot) else some s

/-- NAT_RELEASE (R343): the allocator of the pipe that owns the public endpoint (R340). -/
def rowNatRelease (src : Origin) (entry : Nat) (s : State) : State :=
  writeCmd s src 0x5040 7 noRow (bytesOf 4 entry) fun s =>
    let a := natAddr s (bits entry 19 16)
    some (pushCmd s (steer s a (bits entry 15 0)) 2 (entry % 2 ^ 20))

/-! ## Cluster freeze and release (R316) -/

/-- ENGINE_CLUSTER_FREEZE: at the boundary that R204 counts. -/
def rowEngineClusterFreeze (src : Origin) (cluster : Nat) (s : State) : State :=
  writeCmd s src (0x5900 + cluster) 8 noRow [1] fun s =>
    some (deferWrite s (keyOf (0x5900 + cluster) 8 noRow) [1])

/-- ENGINE_CLUSTER_RELEASE: at the boundary that R204 counts. -/
def rowEngineClusterRelease (src : Origin) (cluster : Nat) (s : State) : State :=
  writeCmd s src (0x5900 + cluster) 9 noRow [1] fun s =>
    some (deferWrite s (keyOf (0x5900 + cluster) 9 noRow) [1])

/-- A release at its boundary (R316): ignored unless the cluster is trapped or frozen. -/
def releaseCluster (s : State) (c : Nat) : State :=
  if (clusterAt s c).state = 0 then s
  else
    let s := modCluster s c fun k =>
      { k with state := 0, trapBeat := none, reseq := [], released := none, engines := [] }
    releaseMaster s 6 0xFF c

end Sys2Proof.Machine
end

