-- ==== Sys2Proof/Machine/Editor.lean ====
section
/-! DEFINITION. The egress editor: rewrites, incremental checksums, the mark of a policer and the PTP
correction (R171, R172, R175, R426). -/

namespace Sys2Proof.Machine

/-! ## Incremental checksums (R172) -/

/-- A ones' complement sum folded to 16 bits. -/
def foldCarry (n : Nat) : Nat :=
  let a := n % 65536 + n / 65536
  a % 65536 + a / 65536

/-- Ones' complement sum of 16-bit lanes; an odd last byte is padded. -/
def laneSum : Bytes → Nat
  | [] => 0
  | [a] => a.toNat * 256
  | a :: b :: t => foldCarry (a.toNat * 256 + b.toNat + laneSum t)

/-- A stretch of whole lanes: a last odd byte stands with a zero byte. -/
def wholeLanes (b : Bytes) : Bytes := if b.length % 2 = 1 then b ++ [0] else b

/-- HC' = ~(~HC + ~m + m') over the lanes of a changed stretch. -/
def checksumMove (check : Nat) (old new : Bytes) : Nat :=
  65535 - foldCarry (foldCarry ((65535 - check)
    + laneSum ((wholeLanes old).map fun b => 255 - b)) + laneSum new)

/-- A checksum: the stretches that it covers, each from an even offset of the covered area; where
it stands; whether it is a UDP one, whose zero result is sent as all ones; whether a zero there means that
the frame has none. -/
structure Covered where
  spans : List (Nat × Nat)
  place : Nat
  udp : Bool
  zeroNone : Bool
  deriving DecidableEq, Repr

/-- The IP header before a header of the list. -/
def ipBefore (hdrs : List (Nat × Nat)) (o : Nat) : Option (Nat × Nat) :=
  (hdrs.filter fun h => (h.1 == 6 || h.1 == 7) && decide (h.2 < o)).getLast?

/-- Checksums of a frame whose body ends at fin: the first IPv4 header's, and that of every TCP and
UDP header over its pseudo-header's addresses and its segment. A zero UDP checksum stays zero, but for the PTP
update over IPv6 (R172, R175). -/
def coveredOf (ptp : Bool) (b : Bytes) (hdrs : List (Nat × Nat)) (fin : Nat) : List Covered :=
  let ip4 := match hdrs.find? fun h => h.1 == 6 with
    | some h => [{ spans := [(h.2, min fin (h.2 + 4 * (byteAt b h.2 % 16)))], place := h.2 + 10,
                   udp := false, zeroNone := false }]
    | none => []
  let l4 := (hdrs.filter fun h => h.1 == 9 || h.1 == 10).filterMap fun h =>
    match ipBefore hdrs h.2 with
    | none => none
    | some ip =>
      let stop := if ip.1 = 6 then ip.2 + natAt b (ip.2 + 2) 2 else ip.2 + 40 + natAt b (ip.2 + 4) 2
      let stop := min fin stop
      let stop := if h.1 = 9 then min stop (h.2 + natAt b (h.2 + 4) 2) else stop
      let addr := if ip.1 = 6 then (ip.2 + 12, ip.2 + 20) else (ip.2 + 8, ip.2 + 40)
      let place := h.2 + (if h.1 = 9 then 6 else 16)
      if stop < place + 2 then none
      else some { spans := [addr, (h.2, stop)], place := place, udp := h.1 == 9,
                   zeroNone := h.1 == 9 && !(ptp && ip.1 == 7) }
  ip4 ++ l4

/-- A write of the bits of `mask` in bytes p to p + n - 1 reaches a checksum itself. -/
def writesPlace (p n mask : Nat) (c : Covered) : Bool :=
  (List.range n).any fun i => decide (c.place ≤ p + i) && decide (p + i < c.place + 2)
    && byteAt (bytesOf n (mask % 256 ^ n)) i != 0

/-- One checksum after bytes p to p + n - 1 of `old` became those of `new`. -/
def fixOne (old new : Bytes) (p n : Nat) (b : Bytes) (c : Covered) : Bytes :=
  c.spans.foldl (fun b sp =>
    let lo := max p sp.1
    let hi := min (p + n) sp.2
    let check := natAt b c.place 2
    if hi ≤ lo || (c.zeroNone && check == 0) then b
    else
      let lo := sp.1 + (lo - sp.1) / 2 * 2
      let hi := min sp.2 (sp.1 + (hi - sp.1 + 1) / 2 * 2)
      let x := checksumMove check (slice old lo (hi - lo)) (slice new lo (hi - lo))
      putNat b c.place 2 (if x = 0 && c.udp then 65535 else x)) b

/-- Write a field, of which the bits of `mask` are written, and bring every checksum that covers it up to date;
a checksum whose own bits are written stands as written (log entry 65). -/
def writeField (cs : List Covered) (b : Bytes) (p n v mask : Nat) : Bytes :=
  let new := putNat b p n v
  (cs.filter fun c => !writesPlace p n mask c).foldl (fixOne b new p n) new

/-! ## Rewrites (R171, R172) -/

/-- What became of an edit: the body so far, rewrites skipped, TTL expired. -/
structure Edited where
  body : Bytes
  skips : Nat
  expired : Bool
  deriving DecidableEq, Repr

/-- Offset of a rewrite's anchor; none where the entry is unused or the anchor reserved. -/
def anchorOf (hdrs : List (Nat × Nat)) (a : Nat) : Option Nat :=
  if a = 31 then some 0 else if a < 16 then (hdrs[a]?).map Prod.snd else none

/-- One rewrite in the layout of R171. -/
def rewriteStep (hdrs : List (Nat × Nat)) (fin : Nat) (cs : List Covered) (e : Edited) (w : Nat) :
    Edited :=
  let op := bits w 191 189
  let n := bits w 175 173 + 1
  let value := bits w 127 64
  let mask := bits w 63 0
  if op = 0 || e.expired then e
  else match anchorOf hdrs (bits w 188 184) with
    | none => { e with skips := e.skips + 1 }
    | some base =>
      let p := base + bits w 183 176
      if 3 < op || (op == 3 && n != 1) || 128 < p + n || fin < p + n then
        { e with skips := e.skips + 1 }
      else
        let f := natAt e.body p n
        let m := 256 ^ n
        if op = 1 then
          let keep := f &&& (m - 1 - mask % m)
          { e with body := writeField cs e.body p n (keep ||| (value &&& mask) % m) mask }
        else if op = 2 then { e with body := writeField cs e.body p n ((f + value) % m) (m - 1) }
        else if f = 0 then { e with expired := true }
        else { e with body := writeField cs e.body p n (f - 1) (m - 1) }

/-- The outer VLAN tag of a frame: the first tag of its first Ethernet header (R364, R426). -/
def outerTag (hdrs : List (Nat × Nat)) : Option (Nat × Nat) :=
  ((hdrs.drop 1).takeWhile fun h => h.1 != 1).find? fun h => h.1 == 2

/-- Headers of the list in a packet vector: type and offset (R136). -/
def vecHeaders (vec : Bytes) : List (Nat × Nat) :=
  ((List.range 16).map fun i => (byteAt vec (160 + 2 * i), byteAt vec (161 + 2 * i))).takeWhile
    fun h => h.1 != 0

/-- Rewrites in order over a frame's body (without its FCS). -/
def applyRewrites (body vec : Bytes) (ws : List Nat) : Edited :=
  let hdrs := vecHeaders vec
  ws.foldl (rewriteStep hdrs body.length (coveredOf false body hdrs body.length))
    { body := body, skips := 0, expired := false }

/-- The rewrites of a set of `express.rewrite` (R171). -/
def setRewrites (row : Bytes) : List Nat :=
  if row = [] then [] else (List.range 4).map fun i => natAt row (24 * i) 24

/-- VLAN tags placed (R135). -/
def vecVlans (vec : Bytes) : Nat := bits (natAt vec 156 4) 26 25

/-- DEI of the outer VLAN tag becomes 1; an untagged frame stays (R426). -/
def markDei (body vec : Bytes) : Bytes :=
  match outerTag (vecHeaders vec) with
  | some h => putNat body h.2 2 (setBit (natAt body h.2 2) 12 true)
  | none => body

/-! ## PTP (R174, R175, R488) -/

def vecClass (vec : Bytes) : Nat := byteAt vec 131 / 32
def ptpType (vec : Bytes) : Nat := byteAt vec 112 % 16

/-- A class 1 frame with messageType 0 to 3, one-step where the type is Sync or Pdelay_Resp. -/
def ptpOneStep (vec : Bytes) : Bool :=
  vecClass vec == 1 && decide (ptpType vec ≤ 3)
    && !((ptpType vec == 0 || ptpType vec == 3) && bit (byteAt vec 115) 1)

/-- correctionField plus an amount in 2^-16 ns, at most 0x7FFF_FFFF_FFFF_FFFF. -/
def correctionAdd (old : Nat) (add : Int) : Nat :=
  let x := signed 64 old + add
  if (2 : Int) ^ 63 ≤ x then 2 ^ 63 - 1 else unsigned 64 x

/-- Add to the correctionField of a frame's PTP header, with its checksums. -/
def addCorrection (body vec : Bytes) (add : Int) : Bytes :=
  let hdrs := vecHeaders vec
  match (hdrs.filter fun h => h.1 == 13).getLast? with
  | none => body
  | some h =>
    let p := h.2 + 8
    writeField (coveredOf true body hdrs body.length) body p 8 (correctionAdd (natAt body p 8) add)
      (2 ^ 64 - 1)

/-- A difference of two stamps in 1/256 ns, less the steps between them in 2^-32 ns, modulo 2^32 ns,
in 2^-16 ns (R175, R486). -/
def residence (te ti : Nat) (steps : List Int) : Int :=
  let d := ((te : Int) - ti - (steps.foldl (· + ·) 0) / 2 ^ 24) % (2 : Int) ^ 40
  d * 256

end Sys2Proof.Machine
end

