-- ==== Sys2Proof/Machine/Parse.lean ====
section
/-! DEFINITION. The parser of pass 1: head and tail windows, native and custom states, the packet
vector, header list and exceptions (R116 to R141). -/

namespace Sys2Proof.Machine

/-- What a parse reads: the frame with its FCS, the settings of its version and port, the graph. -/
structure ParseCtx where
  frame : Bytes
  /-- End of frame, L - 4 (R116). -/
  fin : Nat
  tpidExtra : Nat
  cwNext : Nat
  udp905 : Nat
  graph : Graph

/-- The parse in progress. -/
structure ParseState where
  off : Nat
  /-- Least declared end of the enclosing layers (R138). -/
  lim : Nat
  vec : Bytes
  hdrs : List (Nat × Nat)
  /-- Exceptions in parse order: bit of byte 131, header offset, head exception, and the state that
  was entered (R137, R139). -/
  excs : List (Nat × Nat × Bool × Nat)
  /-- Tags of the Ethernet header in progress, and whether it is the first. -/
  tags : Nat
  ethNo : Nat
  /-- The Ethernet header whose tags are placed: the first that has any (R124). -/
  vlanEth : Nat
  vlanCount : Nat
  /-- End of the first Ethernet header's VLAN tags (R126). -/
  ethEnd : Nat
  mplsRun : Nat
  mplsNo : Nat
  mplsCount : Nat
  cut : Bool
  vlanMore : Bool
  mplsMore : Bool
  /-- The last IP header is IPv6. -/
  ip6 : Bool
  /-- PTP transport (R132). -/
  transport : Nat
  cls : Nat
  endState : Nat
  /-- The last state was a decision state (R121). -/
  decided : Bool
  /-- End of the bytes that select fields, payload items and BER walks have read (R123). -/
  reach : Nat
  /-- The parse ends whatever the image adds to the state (R122, R124). -/
  final : Bool
  /-- Next state: 0 end, a native header type, 18 a native decision state, or a custom state number. -/
  next : Nat
  /-- The number by which a transition has named the native state that is next. -/
  named : Option Nat

def ParseState.init : ParseState :=
  { off := 0, lim := 2 ^ 20, vec := zeros 192, hdrs := [], excs := [], tags := 0, ethNo := 0,
    vlanEth := 0, vlanCount := 0, ethEnd := 14, mplsRun := 0, mplsNo := 0, mplsCount := 0, cut := false,
    vlanMore := false, mplsMore := false, ip6 := false, transport := 0, cls := 0, endState := 0,
    decided := false, reach := 0, final := false, next := 1, named := none }

/-- Exception bits of byte 131 (R133). -/
def xDepth : Nat := 4
def xLength : Nat := 3
def xTrunc : Nat := 2
def xChecksum : Nat := 1
def xBer : Nat := 0

def ParseCtx.at (c : ParseCtx) (o n : Nat) : Nat := natAt c.frame o n

/-- Effective end of the innermost layer (R138). -/
def effEnd (c : ParseCtx) (p : ParseState) : Nat := min p.lim c.fin

/-- The frame continues past the head window (R116, R139). -/
def ParseCtx.long (c : ParseCtx) : Bool := decide (256 < c.fin)

def raiseExc (p : ParseState) (bit off : Nat) (head : Bool) : ParseState :=
  { p with excs := p.excs ++ [(bit, off, head, p.next)] }

def stopExc (p : ParseState) (bit off : Nat) : ParseState :=
  { raiseExc p bit off true with next := 0, final := true }

/-- The parse ends after this header (R124). -/
def endParse (p : ParseState) : ParseState := { p with next := 0, final := true }

/-- Offset of the header that was completed last. -/
def lastHeader (p : ParseState) : Nat := ((p.hdrs.getLast?).map Prod.snd).getD p.off

/-- LENGTH where `bad` holds of the end of frame. It is a head exception when the head window alone
establishes it: the frame ends in it, or every longer frame would break the rule too (R139). -/
def checkLength (c : ParseCtx) (p : ParseState) (off : Nat) (ends : List Nat) (bad : Nat → Bool) :
    ParseState :=
  if bad c.fin then
    raiseExc p xLength off (!c.long || (257 :: 2 ^ 20 :: ends.filter (257 ≤ ·)).all bad)
  else p

def putVec (p : ParseState) (dst n v : Nat) : ParseState :=
  { p with vec := splice p.vec dst (bytesOf n v) }

/-- A field as its effective length leaves it: the bytes before `stop` (R138). -/
def ParseCtx.upTo (c : ParseCtx) (stop src n : Nat) : Nat := c.at src (min n (stop - src))

/-- A field within the effective end of its layer (R138). -/
def ParseCtx.got (c : ParseCtx) (p : ParseState) (src n : Nat) : Nat := c.upTo (effEnd c p) src n

/-- The whole field lies before the effective end of its layer. -/
def ParseCtx.whole (c : ParseCtx) (p : ParseState) (src n : Nat) : Bool := decide (src + n ≤ effEnd c p)

/-- A value made of the n bytes at src is placed; cut where an effective length shortens them (R138). -/
def placeVal (c : ParseCtx) (p : ParseState) (dst w src n v : Nat) : ParseState :=
  { putVec p dst w v with cut := p.cut || !c.whole p src n }

/-- Copy n bytes at frame offset src to vector byte dst, right-aligned and cut at `stop`. -/
def placeTo (c : ParseCtx) (p : ParseState) (stop dst src n : Nat) : ParseState :=
  { putVec p dst n (c.upTo stop src n) with cut := p.cut || decide (stop < src + n) }

/-- Copy n bytes at frame offset src to vector byte dst, right-aligned and cut where the effective
length ends (R138). -/
def place (c : ParseCtx) (p : ParseState) (dst src n : Nat) : ParseState :=
  placeTo c p (effEnd c p) dst src n

/-- A declared end: where the field that gives it is cut off there is none to compare (R138). -/
def checkDeclared (c : ParseCtx) (p : ParseState) (src n : Nat) (check : ParseState → ParseState) :
    ParseState :=
  if c.whole p src n then check p else p

/-- The next header by a field of n bytes; a field that is cut off names none (R138). -/
def nextBy (c : ParseCtx) (p : ParseState) (src n : Nat) (f : Nat → Nat) : ParseState :=
  { p with next := if c.whole p src n then f (c.at src n) else 0 }

/-- The parse has read the frame up to an offset, or to its end (R123). -/
def readTo (c : ParseCtx) (p : ParseState) (e : Nat) : ParseState :=
  { p with reach := max p.reach (min e c.fin) }

/-- What stops a header of n bytes: TRUNC where the frame ends in it, DEPTH where it passes the head
window of a longer frame (R137). -/
def headerStop (c : ParseCtx) (off n : Nat) : Option Nat :=
  if c.long then (if 256 < off + n then some xDepth else none)
  else if c.fin < off + n then some xTrunc else none

/-- n bytes of a select field: the state goes on when they lie in the frame and the window. Behind the end of
the frame they end the parse there, and behind the window of a longer frame they raise DEPTH at the header whose
transition it is (R122, R137). A field behind the effective end of its layer and inside the frame ends the parse
at that end (DESIGN CHOICE, log entry 152). -/
def withSelect (c : ParseCtx) (p : ParseState) (off n : Nat) (k : ParseState → ParseState) :
    ParseState :=
  if effEnd c p < off + n then { endParse p with off := max p.off (effEnd c p) }
  else if 256 < off + n then stopExc p xDepth (lastHeader p)
  else k { p with reach := max p.reach (off + n) }

def occurrence (p : ParseState) (t : Nat) : Nat := (p.hdrs.filter fun h => h.1 == t).length

/-- The native state that a header type enters at its n-th occurrence, a state of that type (R120, log entry 8). -/
def nativeNumber (t n : Nat) : Nat :=
  let own := (List.range 96).filter fun i => (Config.nativeRow i).toNat == t
  let x := (Config.nativeState t n).toNat
  own.getD (x % own.length) (x % 96)

/-- Complete a header of type t and n bytes (R121, R136); `first` of its type places fields. -/
def enter (c : ParseCtx) (p : ParseState) (t n : Nat) : ParseState :=
  { p with hdrs := p.hdrs ++ [(t, p.off)], off := min (p.off + n) (max p.off (effEnd c p)),
           decided := false, named := none,
           endState := p.named.getD (nativeNumber t (occurrence p t)) }

/-- Go on with n bytes of a header: 16 headers at most, and whole within window and frame. -/
def withBytes (c : ParseCtx) (p : ParseState) (n : Nat) (k : ParseState → ParseState) :
    ParseState :=
  if 16 ≤ p.hdrs.length then stopExc p xDepth p.off
  else match headerStop c p.off n with
    -- a header that the frame's end cuts short is known as such when that end has come (R123)
    | some x => stopExc (if x = xTrunc then readTo c p c.fin else p) x p.off
    | none => k p

/-- Run a header of n bytes. One that passes its enclosing layer raises LENGTH and goes on with what
the layer leaves (R137, R138). -/
def withHeader (c : ParseCtx) (p : ParseState) (n : Nat) (k : ParseState → ParseState) :
    ParseState :=
  withBytes c p n fun p => k (if p.lim < p.off + n then raiseExc p xLength p.off true else p)

/-! ## Native headers (R124 to R129) -/

/-- Next header by an Ethernet type (R124). -/
def etherNext (c : ParseCtx) (t : Nat) : Nat :=
  if t = 0x8100 || t = 0x88A8 || (c.tpidExtra != 0 && t == c.tpidExtra) then 2
  else if t = 0x892F then 3
  else if t = 0x8847 || t = 0x8848 then 4
  else if t = 0x0800 then 6
  else if t = 0x86DD then 7
  else if t = 0x88F7 then 13
  else if t = 0x88E5 then 14
  else if t = 0x88B8 then 15
  else if t = 0x88BA then 16
  else 0

/-- The type field that ends an Ethernet header, its tags or its HSR tag: bytes 12-13 hold the
first header's (R130). -/
def typeField (c : ParseCtx) (p : ParseState) (src : Nat) : ParseState :=
  let p := if p.ethNo = 1 then place c p 12 src 2 else p
  nextBy c p src 2 (etherNext c)

def parseEth (c : ParseCtx) (p : ParseState) : ParseState :=
  withHeader c p 14 fun p =>
    let o := p.off
    let p := { p with ethNo := p.ethNo + 1, tags := 0 }
    let p := if p.ethNo = 1 then place c (place c p 0 o 6) 6 (o + 6) 6 else p
    let p := { p with mplsRun := 0 }
    typeField c (enter c p 1 14) (o + 12)

def parseVlan (c : ParseCtx) (p : ParseState) : ParseState :=
  if 3 ≤ p.tags then { p with vlanMore := true, next := 0 }
  else withHeader c p 4 fun p =>
    let o := p.off
    let p := if p.vlanEth = 0 || p.vlanEth = p.ethNo then
        { place c p (14 + 2 * p.tags) o 2 with vlanCount := p.vlanCount + 1, vlanEth := p.ethNo }
      else p
    let p := enter c { p with tags := p.tags + 1 } 2 4
    let p := if p.ethNo = 1 && occurrence p 3 = 0 then { p with ethEnd := o + 4 } else p
    typeField c p (o + 2)

/-- HSR: LSDUsize counts from the tag to the last byte before the FCS (R126). -/
def parseHsr (c : ParseCtx) (p : ParseState) : ParseState :=
  withHeader c p 6 fun p =>
    let o := p.off
    let p := if occurrence p 3 = 0 then place c (place c p 20 o 2) 22 (o + 2) 2 else p
    let size := c.at o 2 % 4096
    let p := checkDeclared c p o 2 fun p =>
      { checkLength c p o [o + size] fun e => size != e - o && (e - o < size || e != 60) with
        lim := min p.lim (o + size) }
    typeField c (enter c p 3 6) (o + 4)

/-- After the bottom of stack (R125). -/
def mplsBottom (c : ParseCtx) (p : ParseState) : ParseState :=
  withSelect c p p.off 1 fun p =>
    let n := c.at p.off 1 / 16
    { p with next := if n = 4 then 6 else if n = 6 then 7 else if n = 0 then 5 else 0 }

def parseMpls (c : ParseCtx) (p : ParseState) : ParseState :=
  if 8 ≤ p.mplsRun then { p with mplsMore := true, next := 0 }
  else withHeader c p 4 fun p =>
    let o := p.off
    let p := { p with mplsNo := if p.mplsRun = 0 then p.mplsNo + 1 else p.mplsNo }
    let p := if p.mplsNo = 1 then
        { place c p (28 + 4 * p.mplsRun) o 4 with mplsCount := p.mplsCount + 1 } else p
    let p := enter c { p with mplsRun := p.mplsRun + 1 } 4 4
    if !c.whole p o 4 then { p with next := 0 }
    else if bit (c.at o 4) 8 then mplsBottom c { p with mplsRun := 0 } else { p with next := 4 }

def parsePw (c : ParseCtx) (p : ParseState) : ParseState :=
  withHeader c p 4 fun p =>
    let p := if occurrence p 5 = 0 then place c p 60 p.off 4 else p
    { enter c p 5 4 with next := if c.cwNext = 1 then 1 else 0 }

/-- Next header by an IP protocol number (R124). -/
def protoNext (n : Nat) : Nat :=
  if n = 17 then 9 else if n = 6 then 10 else if n = 132 then 11 else if n = 47 then 12 else 0

/-- One's complement sum of 16-bit words (for the IPv4 header checksum). -/
def onesSum (b : Bytes) : Nat :=
  let t := (List.range ((b.length + 1) / 2)).foldl (fun a i => a + natAt b (2 * i) 2) 0
  let t := t % 65536 + t / 65536
  t % 65536 + t / 65536

/-- IPv4 (R124, R131). The checksum of a header whose IHL is below 5 is not checked, and that of one which its
layer shortens is taken over what the layer leaves (DESIGN CHOICE, log entry 152). -/
def parseIp4 (c : ParseCtx) (p : ParseState) : ParseState :=
  withBytes c p 20 fun p =>
    let o := p.off
    let ihl := c.got p o 1 % 16
    let n := if ihl < 5 then 20 else 4 * ihl
    withHeader c p n fun p =>
      let total := c.at (o + 2) 2
      let outer := p.lim
      let p := if ihl < 5 then raiseExc p xLength o true else p
      let p := checkDeclared c p (o + 2) 2 fun p =>
        { checkLength c p o [o + total] fun e => decide (min outer e < o + total) with
          lim := min p.lim (o + total) }
      let p := { p with ip6 := false, transport := 1 }
      let frag := c.got p (o + 6) 2
      let p := if occurrence p 6 = 0 then
          let p := putVec (place c p 64 (o + 12) 4) 68 12 0
          let p := putVec (place c p 80 (o + 16) 4) 84 12 0
          let p := place c (place c (place c p 96 (o + 9) 1) 97 (o + 8) 1) 98 (o + 1) 1
          let p := putVec (place c p 100 (o + 4) 2) 102 2 0
          placeVal c p 99 1 (o + 6) 2 (b2n (bit frag 13) * 64 + b2n (frag % 8192 != 0) * 32
            + b2n (bit frag 14) * 8 + b2n (decide (5 < ihl)) * 4)
        else p
      let p := if 5 ≤ ihl && onesSum (slice c.frame o (min n (effEnd c p - o))) != 0xFFFF then
          raiseExc p xChecksum o true else p
      let p := enter c p 6 n
      if ihl < 5 || frag % 8192 != 0 then endParse p else nextBy c p (o + 9) 1 protoNext

/-- Next header by an IPv6 next-header number: 8 for an extension (R124). -/
def v6Next (n : Nat) : Nat :=
  if n = 0 || n = 43 || n = 44 || n = 60 then 8 else protoNext n

def parseIp6 (c : ParseCtx) (p : ParseState) : ParseState :=
  withHeader c p 40 fun p =>
    let o := p.off
    let total := 40 + c.at (o + 4) 2
    let outer := p.lim
    let p := checkDeclared c p (o + 4) 2 fun p =>
      { checkLength c p o [o + total] fun e => decide (min outer e < o + total) with
        lim := min p.lim (o + total) }
    let p := { p with ip6 := true, transport := 2 }
    let word := c.got p o 4
    let p := if occurrence p 7 = 0 then
        let p := place c (place c p 64 (o + 8) 16) 80 (o + 24) 16
        let p := place c (place c p 96 (o + 6) 1) 97 (o + 7) 1
        let p := placeVal c p 98 1 o 2 (bits word 27 20)
        placeVal c (putVec p 99 1 128) 100 4 o 4 (word % 2 ^ 20)
      else p
    nextBy c (enter c p 7 40) (o + 6) 1 v6Next

/-- An IPv6 extension header: its kind is the next-header value of the header before it, or of the native state
that a transition of a custom graph names (R124; log entry 8). -/
def parseExt (c : ParseCtx) (p : ParseState) : ParseState :=
  withBytes c p 8 fun p =>
    let o := p.off
    -- the header that leads here names this extension's type in its next-header byte
    let prev := (p.hdrs.getLast?).getD (0, 0)
    let kind := match p.named with
      | some m => (Config.nativeExt m).toNat
      | none => if prev.1 = 7 then c.at (prev.2 + 6) 1 else c.at prev.2 1
    let n := if kind = 44 then 8 else 8 * (c.got p (o + 1) 1 + 1)
    withHeader c p n fun p =>
      let frag := c.got p (o + 2) 2
      let isFrag := kind = 44
      let p := if occurrence p 7 = 1 then
          let b := byteAt p.vec 99
          let b := setBit b 4 true
          let b := if isFrag then setBit (setBit b 6 (bit frag 0)) 5 (decide (8 ≤ frag)) else b
          place c { putVec p 99 1 b with cut := p.cut || (isFrag && !c.whole p (o + 2) 2) } 96 o 1
        else p
      let p := enter c p 8 n
      if isFrag && decide (8 ≤ frag) then endParse p else nextBy c p o 1 v6Next

/-- UDP: a length that differs from the IP effective payload raises LENGTH (R138). -/
def parseUdp (c : ParseCtx) (p : ParseState) : ParseState :=
  withHeader c p 8 fun p =>
    let o := p.off
    let len := c.at (o + 4) 2
    let outer := p.lim
    let dport := c.got p (o + 2) 2
    let p := checkDeclared c p (o + 4) 2 fun p =>
      { checkLength c p o [o + len] fun e => min outer e != o + len with lim := min p.lim (o + len) }
    let p := if occurrence p 9 = 0 then
        let p := place c (place c p 104 o 2) 106 (o + 2) 2
        if occurrence p 12 = 0 then place c p 110 (o + 4) 2 else p
      else p
    let p := enter c p 9 8
    if dport = 319 || dport = 320 then { p with next := 13 }
    else if dport = c.udp905 then
      withSelect c p p.off 1 fun p =>
        let b := c.at p.off 1
        { p with next := if 0xA0 ≤ b && b ≤ 0xA3 then 17 else 0 }
    else { p with next := 0 }

def parseTcp (c : ParseCtx) (p : ParseState) : ParseState :=
  withBytes c p 20 fun p =>
    let o := p.off
    let doff := c.got p (o + 12) 1 / 16
    let n := if doff < 5 then 20 else 4 * doff
    withHeader c p n fun p =>
      let p := if doff < 5 then raiseExc p xLength o true else p
      let p := if occurrence p 10 = 0 then
          place c (place c (place c p 104 o 2) 106 (o + 2) 2) 108 (o + 13) 1 else p
      let p := enter c p 10 n
      if doff < 5 then endParse p else { p with next := 0 }

def parseSctp (c : ParseCtx) (p : ParseState) : ParseState :=
  withHeader c p 12 fun p =>
    let o := p.off
    let p := if occurrence p 11 = 0 then place c (place c p 104 o 2) 106 (o + 2) 2 else p
    { enter c p 11 12 with next := 0 }

/-- GRE, version 0 only: 4 to 16 bytes by the C, K and S bits (R124). Its first two bytes are read as a select
field is, so that where they are cut off the parse ends before it without TRUNC (DESIGN CHOICE, log entry 152). -/
def parseGre (c : ParseCtx) (p : ParseState) : ParseState :=
  withSelect c p p.off 2 fun p =>
    let fl := c.at p.off 2
    if fl % 8 != 0 then { p with next := 0 }
    else
      let n := 4 + 4 * (b2n (bit fl 15) + b2n (bit fl 13) + b2n (bit fl 12))
      withHeader c p n fun p =>
        let o := p.off
        let p := if occurrence p 12 = 0 then place c p 110 (o + 2) 2 else p
        nextBy c (enter c p 12 n) (o + 2) 2 fun t =>
          if t = 0x0800 then 6 else if t = 0x86DD then 7 else if t = 0x6558 then 1 else 0

/-- Clear the union for a header of a class (R132). -/
def unionOf (p : ParseState) (cls : Nat) : ParseState := { putVec p 112 16 0 with cls := cls }

def parsePtp (c : ParseCtx) (p : ParseState) : ParseState :=
  withHeader c p 34 fun p =>
    let o := p.off
    let len := c.at (o + 2) 2
    let outer := p.lim
    let p := checkDeclared c p (o + 2) 2 fun p =>
      { checkLength c p o [o + len] fun e => decide (min outer e < o + len) with lim := min p.lim (o + len) }
    let p := unionOf p 1
    let p := place c (placeVal c (place c p 112 o 1) 113 1 (o + 1) 1 (c.got p (o + 1) 1 % 16)) 114 (o + 4) 1
    let p := place c (place c (place c p 115 (o + 6) 1) 116 (o + 8) 8) 124 (o + 30) 2
    let overUdp := (p.hdrs.getLast?).map Prod.fst == some 9
    let p := putVec p 126 1 (if overUdp then p.transport else 0)
    { enter c p 13 34 with next := 0 }

/-- SecTAG: TCI and AN, SL, PN, SCI with the SC bit, then the next type (R124, R132). -/
def parseMacsec (c : ParseCtx) (p : ParseState) : ParseState :=
  withBytes c p 8 fun p =>
    let o := p.off
    let sc := bit (c.got p o 1) 5
    withHeader c p (if sc then 16 else 8) fun p =>
      let p := unionOf p 2
      let p := place c (place c (place c p 112 o 1) 113 (o + 1) 1) 114 (o + 2) 4
      let p := if sc then place c p 118 (o + 6) 8 else p
      nextBy c (enter c p 14 (if sc then 16 else 8)) (o + (if sc then 14 else 6)) 2 (etherNext c)

/-! ### The BER outer walk (R128) -/

/-- A child of the walk: tag, optional, vector place of an integer (byte, bytes), constructed. -/
structure BerChild where
  tag : Nat
  opt : Bool
  put : Option (Nat × Nat)
  /-- An integer: more than 5 content bytes raise BER. -/
  int : Bool

def gooseChildren : List BerChild :=
  [⟨0x80, false, none, false⟩, ⟨0x81, false, some (124, 4), true⟩, ⟨0x82, false, none, false⟩,
   ⟨0x83, true, none, false⟩, ⟨0x84, false, none, false⟩, ⟨0x85, false, some (116, 4), true⟩,
   ⟨0x86, false, some (120, 4), true⟩]

def svChildren : List BerChild :=
  [⟨0x80, false, some (115, 1), true⟩, ⟨0x81, true, none, false⟩, ⟨0xA2, false, none, false⟩]

def asduChildren : List BerChild :=
  [⟨0x80, false, none, false⟩, ⟨0x81, true, none, false⟩, ⟨0x82, false, some (116, 2), true⟩,
   ⟨0x83, false, some (120, 4), true⟩, ⟨0x84, true, none, false⟩,
   ⟨0x85, false, some (118, 1), true⟩, ⟨0x86, true, some (124, 2), true⟩]

/-- Tag and length bytes up to `e` that are not there: TRUNC behind the end of frame, LENGTH behind the
effective end of the parent, DEPTH behind the head window (R128, R137). -/
def berStop (c : ParseCtx) (p : ParseState) (hdr e d : Nat) : Option ParseState :=
  if !c.long && decide (c.fin < e) then some (raiseExc p xTrunc hdr true)
  else if min d c.fin < e then some (checkLength c p hdr [e] fun f => decide (min d f < e))
  else if c.long && decide (256 < e) then some (raiseExc p xDepth hdr true)
  else none

/-- Tag and length bytes at pos within a parent of declared end d: content start and length, or the
parse with the exception that stops the walk (R128, R137). -/
def berHead (c : ParseCtx) (p : ParseState) (hdr pos d : Nat) : ParseState ⊕ (Nat × Nat) :=
  let p := readTo c p (pos + 2)
  match berStop c p hdr (pos + 2) d with
  | some q => .inl q
  | none =>
    let b := c.at (pos + 1) 1
    let n := if b < 0x80 then 0 else b - 0x80
    if b = 0x80 || 0x83 < b then .inl (raiseExc p xBer hdr true)
    else
      let p := readTo c p (pos + 2 + n)
      match berStop c p hdr (pos + 2 + n) d with
      | some q => .inl q
      | none => .inr (pos + 2 + n, if n = 0 then b else c.at (pos + 2) n)

/-- Walk the children from pos; `d` is the parent's declared end and `outer` the least that encloses it: the
parent ends, in effect, at the smaller (R138). The result carries where the last child's content lies. -/
def berWalk (c : ParseCtx) (hdr d outer : Nat) :
    List BerChild → Nat → ParseState → ParseState × Option (Nat × Nat)
  | [], pos, p => (p, some (pos, pos))
  | ch :: rest, pos, p =>
    let dd := min d outer
    let eff := min dd c.fin
    if eff ≤ pos then
      if (ch :: rest).all (·.opt) then (p, some (pos, pos))
      else if eff < d then (p, none)
      else (raiseExc p xBer hdr true, none)
    else
      match headerStop c pos 1 with
      | some x => (raiseExc p x hdr true, none)
      | none =>
        let p := readTo c p (pos + 1)
        if c.at pos 1 != ch.tag then
          if ch.opt then berWalk c hdr d outer rest pos p
          else (raiseExc p xBer hdr true, none)
        else
          match berHead c p hdr pos dd with
          | .inl q => (q, none)
          | .inr (cs, len) =>
            let p := readTo c p cs
            if ch.int && decide (5 < len) then (raiseExc p xBer hdr true, none)
            else
              let p := checkLength c p hdr [cs + len] fun e => decide (min dd e < cs + len)
              let ce := min (cs + len) eff
              let p := if ch.put.isSome then readTo c p ce else p
              let p := match ch.put with
                | none => p
                | some (dst, w) =>
                  if c.long && decide (256 < ce) then p
                  else { putVec p dst w (c.at cs (ce - cs)) with
                         cut := p.cut || decide (ce < cs + len) }
              let blocked := ch.put.isSome && c.long && decide (256 < ce)
              if blocked then (raiseExc p xDepth hdr true, none)
              else if rest.isEmpty then (p, some (cs, cs + len))
              else berWalk c hdr d outer rest ce p

/-- One TLV that must be present with a tag: its content start and declared end. -/
def berOne (c : ParseCtx) (p : ParseState) (hdr tag pos d outer : Nat) :
    ParseState × Option (Nat × Nat) :=
  berWalk c hdr d outer [⟨tag, false, none, false⟩] pos p

/-- The walk of a GOOSE or sampled-values PDU that starts at pos and must fill up to `d`. -/
def pduWalk (c : ParseCtx) (p : ParseState) (hdr : Nat) (sv : Bool) (pos d : Nat) : ParseState :=
  if min d c.fin ≤ pos then checkLength c p hdr [pos] fun e => decide (min d e ≤ pos)
  else match berOne c p hdr (if sv then 0x60 else 0x61) pos d d with
  | (p, none) => p
  | (p, some (cs, fin)) =>
    let p := if fin = min d c.fin then p else
      if min d c.fin < fin then p
      else checkLength c p hdr [fin] fun e => min d e != fin
    if !sv then (berWalk c hdr fin d gooseChildren cs { p with lim := min p.lim d }).1
    else
      match berWalk c hdr fin d svChildren cs p with
      | (p, none) => p
      | (p, some (as, afin)) =>
        match berOne c p hdr 0x30 as afin (min d fin) with
        | (p, none) => p
        | (p, some (bs, bfin)) =>
          -- the optional tail of the first ASDU ends at the first later tag
          (berWalk c hdr bfin (min d (min fin afin)) asduChildren bs p).1

/-- GOOSE and sampled values over Ethernet: an 8-byte header, then the walk (R124, R128). -/
def parseGse (c : ParseCtx) (p : ParseState) (sv : Bool) : ParseState :=
  withHeader c p 8 fun p =>
    let o := p.off
    let len := c.at (o + 2) 2
    let outer := p.lim
    let p := checkDeclared c p (o + 2) 2 fun p =>
      { checkLength c p o [o + len] fun e => decide (min outer e < o + len) with lim := min p.lim (o + len) }
    let p := place c (unionOf p (if sv then 4 else 3)) 112 o 2
    let p := placeVal c p 114 1 (o + 4) 1 (b2n (bit (c.got p (o + 4) 1) 7) * 128)
    let p := pduWalk c p o sv (o + 8) p.lim
    { enter c p (if sv then 16 else 15) 8 with next := 0 }

/-- The 90-5 session header, laid out as IEC 61850-90-5 does, and the first payload item
(R129; log entry 11). Its APDU is listed as a header without bytes of its own, which counts toward the 16
(DESIGN CHOICE, log entry 152). -/
def parse905 (c : ParseCtx) (p : ParseState) : ParseState :=
  withBytes c p 2 fun p =>
    let o := p.off
    let n := 2 + c.got p (o + 1) 1
    withHeader c p n fun p =>
      let outer := p.lim
      let p := unionOf p 5
      let spdu := c.at (o + 4) 4
      let p := if n < 8 then p else checkDeclared c p (o + 4) 4 fun p =>
        { checkLength c p o [o + spdu] fun e => decide (min outer e < o + spdu) with
          lim := min p.lim (o + spdu) }
      -- a header that its length indicator makes shorter shortens its fields (R138)
      let put := fun p dst src w => placeTo c p (min (effEnd c p) (o + n)) dst (o + src) w
      let p := put (put (put p 112 0 1) 113 20 1) 114 21 1
      let p := put (put (put p 116 8 4) 120 22 4) 124 14 4
      let p := { enter c p 17 n with next := 0 }
      let outer := p.lim
      let si := c.at o 1
      let i := o + n + 4
      if !(si = 0xA1 || si = 0xA2) || n < 21 || c.at (o + 20) 1 != 0 then p
      else withSelect c p i 6 fun p =>
          let kind := c.at i 1
          if !(kind = 0x81 || kind = 0x82) then p
          else
            let alen := c.at (i + 4) 2
            let sv := kind = 0x82
            let p := { p with off := i + 6 }
            if 16 ≤ p.hdrs.length then stopExc p xDepth p.off
            else
              let a := i + 6
              let p := checkLength c p o [a + alen] fun e => decide (min outer e < a + alen)
              let p := { p with lim := min p.lim (a + alen) }
              let p := putVec (unionOf p (if sv then 4 else 3)) 112 2 (c.at (i + 2) 2)
              let p := putVec p 114 1 (b2n (c.at (i + 1) 1 != 0) * 128 + 16)
              let p := pduWalk c p a sv a (min outer (a + alen))
              { enter c p (if sv then 16 else 15) 0 with next := 0 }

/-! ## Custom states (R120, R121) -/

def findState (g : Graph) (n : Nat) : Option GraphState := g.states.find? fun q => q.num == n

/-- The state that a transition names by its number: a custom one, or a native one of the type that it enters,
18 for a decision state (R120). -/
def goTo (p : ParseState) (n : Nat) : ParseState :=
  if 96 ≤ n then { p with next := n, named := none }
  else
    let t := (Config.nativeRow n).toNat
    { p with next := if t = 0 then 18 else if t ≤ 17 then t else 0, named := some n }

/-- Bits at a bit offset from `base`, most significant first. -/
def bitField (c : ParseCtx) (base off n : Nat) : Nat :=
  let b0 := off / 8
  let b1 := (off + n + 7) / 8
  bits (c.at (base + b0) (b1 - b0)) (8 * (b1 - b0) - 1 - off % 8)
    (8 * (b1 - b0) - off % 8 - n)

/-- The transition of a graph state whose header began at `base` (R120, R122). -/
def transition (c : ParseCtx) (p : ParseState) (q : GraphState) (base native : Nat) : ParseState :=
  let fall := fun p => match q.dflt with
    | some d => goTo p d
    | none => { p with next := native }
  if q.selBits = 0 then fall p
  else withSelect c p (base + q.selOff / 8) ((q.selOff % 8 + q.selBits + 7) / 8) fun p =>
    let v := bitField c base q.selOff q.selBits
    match q.entries.find? fun e => v &&& e.2.1 == e.1 &&& e.2.1 with
    | some e => goTo p e.2.2
    | none => fall p

/-- A decision state: it consumes no bytes, and a second one in a chain ends the parse (R120, R121). -/
def decide1 (c : ParseCtx) (p : ParseState) (q : GraphState) (num : Nat) : ParseState :=
  let p := { p with endState := num, named := none, next := 0 }
  if p.decided then p else transition c { p with decided := true } q p.off 0

/-- A custom header: its length rule, extractions and transition (R120). One whose rule gives 0 is listed as a
header of no bytes (DESIGN CHOICE, log entry 152). -/
def parseCustom (c : ParseCtx) (p : ParseState) (q : GraphState) : ParseState :=
  let base := p.off
  if q.fixedLen = 0 && q.lenBits = 0 then decide1 c p q q.num
  else
    let need := if q.lenBits = 0 then q.fixedLen else (q.lenOff + q.lenBits + 7) / 8
    withBytes c p need fun p =>
      let n := if q.lenBits = 0 then q.fixedLen
        else bitField c base q.lenOff q.lenBits * q.lenScale + q.lenAdd
      withHeader c p n fun p =>
        let stopAt := min (base + n) (effEnd c p)
        let p := q.extracts.foldl (fun p e =>
          let av := min e.2.1 (stopAt - (base + e.1))
          { putVec p e.2.2 e.2.1 (c.at (base + e.1) av) with
            cut := p.cut || decide (av < e.2.1) }) p
        let p := { p with hdrs := p.hdrs ++ [(q.hdrType, base)], decided := false,
                          off := min (base + n) (max base (effEnd c p)), endState := q.num }
        transition c p q base 0

/-- What the image adds to a native state: its transition, after the state's own and over it; its extractions are
ignored (DESIGN CHOICE, log entry 8: the manual does not say what such a row of the image does). -/
def addition (c : ParseCtx) (before p : ParseState) : ParseState :=
  if p.hdrs.length ≤ before.hdrs.length then p
  else match findState c.graph p.endState with
    | none => p
    | some q => if p.final || p.excs.any (fun x => x.1 == xDepth || x.1 == xTrunc) then p
      else transition c p q before.off p.next

/-- A native decision state that a graph names: its select field and entries are open (log entry 8). -/
def parseDecision (c : ParseCtx) (p : ParseState) : ParseState :=
  let n := p.named.getD 0
  let q := Config.nativeDecision n
  decide1 c p { q with selBits := q.selBits % 33 } n

/-- One state. -/
def parseState (c : ParseCtx) (p : ParseState) : ParseState :=
  let n := p.next
  if 96 ≤ n then
    match findState c.graph n with
    | some q => parseCustom c p q
    | none => { p with next := 0 }
  else if n = 18 then parseDecision c p
  else
    addition c p
      (if n = 1 then parseEth c p else if n = 2 then parseVlan c p else if n = 3 then parseHsr c p
       else if n = 4 then parseMpls c p else if n = 5 then parsePw c p
       else if n = 6 then parseIp4 c p else if n = 7 then parseIp6 c p
       else if n = 8 then parseExt c p else if n = 9 then parseUdp c p
       else if n = 10 then parseTcp c p else if n = 11 then parseSctp c p
       else if n = 12 then parseGre c p else if n = 13 then parsePtp c p
       else if n = 14 then parseMacsec c p else if n = 15 then parseGse c p false
       else if n = 16 then parseGse c p true else if n = 17 then parse905 c p
       else { p with next := 0 })

/-- States until the end: at most 16 headers, each after at most one decision state (R121). -/
def parseRun (c : ParseCtx) : Nat → ParseState → ParseState
  | 0, p => p
  | n + 1, p => if p.next = 0 then p else parseRun c n (parseState c p)

def parseFrame (c : ParseCtx) : ParseState := parseRun c 40 ParseState.init

/-- Bytes behind byte 127 that the parse, and so a key field, waits for (R82, R123). -/
def lateBytes (p : ParseState) : Nat := max p.off p.reach - 128

/-- The exception bits of byte 131, head exceptions alone or all (R133, R139). -/
def excBits (p : ParseState) (all : Bool) : Nat :=
  p.excs.foldl (fun a x => if all || x.2.2.1 then setBit a x.1 true else a) 0

/-- Offset of the first exception in parse order (R137). Of a header at byte 256 the low 8 bits are kept
(DESIGN CHOICE, log entry 152). -/
def excOffset (p : ParseState) (all : Bool) : Nat :=
  match p.excs.find? fun x => all || x.2.2.1 with
  | some x => x.2.1 % 256
  | none => 0

/-- Header type of the header at which the first exception arose (R137, R147). -/
def excHeader (c : ParseCtx) (p : ParseState) : Nat :=
  match p.excs with
  | [] => 0
  | (_, off, _, n) :: _ =>
    match p.hdrs.find? fun h => h.2 == off with
    | some h => h.1
    | none => if n < 96 then n else ((findState c.graph n).map GraphState.hdrType).getD 0

/-- The header list of 32 bytes (R136). -/
def headerList (p : ParseState) : Bytes :=
  slice (p.hdrs.flatMap fun h => [BitVec.ofNat 8 h.1, BitVec.ofNat 8 h.2]) 0 32

/-- The parse summary (R135). -/
def parseSummary (p : ParseState) (all : Bool) : Nat :=
  p.hdrs.length * 2 ^ 27 + p.vlanCount * 2 ^ 25 + p.mplsCount * 2 ^ 21 + p.endState % 512 * 2 ^ 12
    + excOffset p all * 16 + b2n p.vlanMore * 8 + b2n p.mplsMore * 4 + b2n p.cut * 2

/-- The exception of highest precedence: TRUNC, DEPTH, BER, LENGTH, CHECKSUM, as the shift of its
policy field (R140, R143). -/
def policyShift (exc : Nat) : Option Nat :=
  if bit exc xTrunc then some 4 else if bit exc xDepth then some 8 else if bit exc xBer then some 0
  else if bit exc xLength then some 6 else if bit exc xChecksum then some 2 else none

/-- The policy that applies: 0 CONTINUE, 1 DEFAULT, 2 DROP, 3 HOST (R142). -/
def policyOf (policy exc : Nat) : Nat :=
  match policyShift exc with
  | none => 0
  | some sh => policy >>> sh % 4

/-- The PRP trailer of the tail window, when it is one (R126). -/
def prpTrailer (c : ParseCtx) (p : ParseState) : Option (Nat × Nat) :=
  let t := c.fin - 6
  if c.fin < 6 + p.ethEnd || c.at (c.fin - 2) 2 != 0x88FB then none
  else if c.at (t + 2) 2 % 4096 = c.fin - p.ethEnd then some (c.at t 2, c.at (t + 2) 2)
  else none

end Sys2Proof.Machine
end

