-- ==== Sys2Proof/Machine/Cipher.lean ====
section
/-! DEFINITION. The cipher units: keys and associations, the MACsec receive decision and transmit
protection, counter warnings, and units out of service (R436 to R467). -/

namespace Sys2Proof.Machine

/-! ## Port settings and associations (R442 to R445, R469) -/

/-- A MACsec port object in force (R445). -/
def macObj (s : State) (n sub : Nat) : Nat := if n < 128 then dig s (0x7900 + n) sub else 0

def macRxOn (s : State) (n : Nat) : Bool := macObj s n 1 == 1
def macTxOn (s : State) (n : Nat) : Bool := macObj s n 5 == 1

def saRow (s : State) (i : Nat) : Bytes := slice (digRow s 0x7810 1 i) 0 32
def saValid (r : Bytes) : Bool := bit (byteAt r 0) 7
def saTx (r : Bytes) : Bool := bit (byteAt r 0) 6
def saSuite (r : Bytes) : Nat := bits (byteAt r 0) 5 4
def saEncrypt (r : Bytes) : Bool := bit (byteAt r 0) 3
def saAn (r : Bytes) : Nat := byteAt r 0 % 4
def saPort (r : Bytes) : Nat := byteAt r 1
def saOffset (r : Bytes) : Nat := byteAt r 2
def saSci (r : Bytes) : Nat := natAt r 4 8
def saSsci (r : Bytes) : Nat := natAt r 12 4
def saPn (r : Bytes) : Nat := natAt r 16 8
def saXpn (r : Bytes) : Bool := decide (2 ≤ saSuite r)

def keyEnt (s : State) (k : Nat) : KeyEnt := tget KeyEnt.init s.cipher.keys k

/-- The key entry's length is that of the suite (R443). -/
def saKeyOk (s : State) (i : Nat) (r : Bytes) : Bool :=
  (keyEnt s i).len == if saSuite r % 2 = 0 then 16 else 32

/-- The 16 or 32 key bytes of an entry (R441). -/
def keyBytes (e : KeyEnt) : Bytes := e.key.take e.len

def pnNext (s : State) (i : Nat) : Nat := tget 0 s.cipher.pn i
def putPn (s : State) (i v : Nat) : State :=
  { s with cipher := { s.cipher with pn := tput 0 s.cipher.pn i v } }

/-- The limit of an association's PN (R455). -/
def saLimit (r : Bytes) : Nat := if saXpn r then 2 ^ 64 - 1 else 2 ^ 32 - 1

/-- Unit of a front port node (R436). -/
def unitOf (n : Nat) : Nat := nodePipe n

def cipherUnit (s : State) (u : Nat) : CipherUnit := tget CipherUnit.init s.cipher.units u
def unitServes (s : State) (u : Nat) : Bool := (cipherUnit s u).state == 0

/-- A unit is out of service (R466). -/
def unitOut (s : State) (u : Nat) : State :=
  { s with cipher := { s.cipher with
    units := tmod CipherUnit.init s.cipher.units u fun x => { x with state := 1, passed := false } } }

/-- The record and the event of a fault: path 0 entropy, 1 receive, 2 transmit, 3 verify, 4 job
(R466, R469). -/
def noteFault (s : State) (u path : Nat) : State :=
  let s := { s with cipher := { s.cipher with
    units := tmod CipherUnit.init s.cipher.units u fun x =>
      { x with fault := path * 2 ^ 56 + s.rm.tick % 2 ^ 56 } } }
  raiseEv s evCipherFault u [path]

/-- A mismatch takes a unit out of service from the next beat (R466). -/
def faultUnit (s : State) (u path : Nat) : State := soonDo (noteFault s u path) (.unitOut u)

/-- REKEY_SOON once for an association (number) or a key (4,096 and beyond) whose next value exceeds
the limit less the margin (R455). -/
def rekeyCheck (s : State) (unit item next limit : Nat) : State :=
  if limit - rw s 0x7800 3 < next && !s.cipher.rekeyed.contains item then
    raiseEv { s with cipher := { s.cipher with rekeyed := s.cipher.rekeyed ++ [item] } }
      evRekeySoon unit [item]
  else s

/-- The row of `iec.key` in force. -/
def iecRow (s : State) (k : Nat) : Bytes := slice (digRow s 0x7820 1 k) 0 16

/-- Every association and every counting key in use against the margin in force, whatever brought its value there:
frames, jobs, a row or the margin itself; a beat's work (R455). -/
def rekeyAll (s : State) : State :=
  let s := (tkeys s.cipher.pn).foldl (fun s i =>
    let r := saRow s i
    if saValid r then rekeyCheck s (unitOf (saPort r)) i (pnNext s i) (saLimit r) else s) s
  (tkeys s.cipher.iecCtr).foldl (fun s k =>
    let r := iecRow s k
    if bit (byteAt r 0) 7 && bits (byteAt r 0) 3 2 == 2 then
      rekeyCheck s 8 (4096 + k) (tget 0 s.cipher.iecCtr k) (2 ^ 64 - 1)
    else s) s

/-- SA_EXHAUSTED once for an association or a key (R456, R457). -/
def exhaust (s : State) (unit item : Nat) : State :=
  if s.cipher.exhausted.contains item then s
  else raiseEv { s with cipher := { s.cipher with exhausted := s.cipher.exhausted ++ [item] } }
    evSaExhausted unit [item]

/-! ## The SecTAG (R447, R452) -/

/-- Bytes of the SecTAG of a frame whose type is 0x88E5, the type included. -/
def secTagLen (b : Bytes) : Nat := if bit (byteAt b 14) 5 then 16 else 8

/-- The frame without its SecTAG. -/
def stripTag (b : Bytes) : Bytes := b.take 12 ++ b.drop (12 + secTagLen b)

/-- Types that pass unprotected (R447, R452). -/
def bypasses (s : State) (n type : Nat) : Bool :=
  type == 0x888E || (macObj s n 4 != 0 && type == macObj s n 4)

/-- The 96-bit IV of IEEE 802.1AE-2018 Clause 14. -/
def macIv (e : KeyEnt) (r : Bytes) (sci pn : Nat) : Bytes :=
  if saXpn r then xorBytes (slice e.salt 0 12) (bytesOf 4 (saSsci r) ++ bytesOf 8 pn)
  else bytesOf 8 sci ++ bytesOf 4 pn

/-! ## Transmit (R452 to R456) -/

/-- Bytes of the SecTAG that a port's transmit path inserts (R452). -/
def txTagLen (s : State) (n : Nat) : Nat := if macObj s n 7 = 0 then 16 else 8

/-- Bytes that a port's transmit path adds to a frame (R453). -/
def protectAdds (s : State) (n type : Nat) : Nat :=
  if macTxOn s n && !bypasses s n type then txTagLen s n + 16 else 0

/-- `macsec.tx.state`: 0 off, 1 running, 2 held exhausted, 3 held no association, 4 held unit out
of service (R456, R466, R469). -/
def txState (s : State) (n : Nat) : Nat :=
  if !macTxOn s n then 0
  else if !unitServes s (unitOf n) then 4
  else
    let i := macObj s n 6
    let r := saRow s i
    if !saValid r || !saTx r || saPort r != n || !saKeyOk s i r then 3
    else if saLimit r < pnNext s i then 2 else 1

/-- Protect a body that starts at a port's MAC: the state after the PN, and the bytes before the
FCS. -/
def protect (s : State) (n : Nat) (body : Bytes) : State × Bytes :=
  if !macTxOn s n || bypasses s n (natAt body 12 2) then (s, body)
  else
    let i := macObj s n 6
    let r := saRow s i
    let e := keyEnt s i
    let pn := pnNext s i
    let data := body.drop 12
    let es := macObj s n 7 = 1
    let tci := (if es then 64 else 32) + (if saEncrypt r then 12 else 0) + saAn r
    let tag := bytesOf 2 0x88E5 ++ bytesOf 1 tci
      ++ bytesOf 1 (if data.length < 48 then data.length else 0) ++ bytesOf 4 (pn % 2 ^ 32)
      ++ (if es then [] else bytesOf 8 (saSci r))
    let head := body.take 12 ++ tag
    let off := if saEncrypt r then saOffset r else data.length
    let iv := macIv e r (saSci r) pn
    let aad := head ++ data.take off
    let c := gcmCrypt (keyBytes e) iv (data.drop off)
    let icv := gcmTag (keyBytes e) iv aad c
    let s := putPn s i (pn + 1)
    let s := rekeyCheck s (unitOf n) i (pn + 1) (saLimit r)
    let s := if saLimit r < pn + 1 then exhaust s (unitOf n) i else s
    (s, aad ++ c ++ icv)

/-! ## Receive (R446 to R451) -/

/-- Discard reasons of R447 as counters of the MACsec port block (R587). -/
def rxNoTag : Nat := 0
def rxBadTag : Nat := 1
def rxNoSa : Nat := 2
def rxLate : Nat := 3
def rxTagFail : Nat := 4
def rxFault : Nat := 5

/-- Step 2 of R447: the SecTAG's TCI and SL. -/
def tagOk (b : Bytes) : Bool :=
  let tci := byteAt b 14
  let sl := byteAt b 15 % 64
  let stop := 12 + secTagLen b + sl + 16
  !bit tci 7 && !(bit tci 6 && bit tci 5) && !(bit tci 5 && bit tci 4) && decide (sl < 48)
    && decide (12 + secTagLen b + 16 ≤ b.length)
    && (sl == 0 || stop == b.length || (decide (stop < b.length) && b.length == 60))

/-- The frame's SCI (R447). -/
def frameSci (b : Bytes) : Nat := if bit (byteAt b 14) 5 then natAt b 20 8 else natAt b 6 6 * 65536 + 1

/-- The valid receive association of a port, SCI and AN. -/
def findSa (s : State) (n sci an : Nat) : Option Nat :=
  let lo := keyOf 0x7810 1 0
  ((trange s.digObjs lo (lo + 4096)).find? fun e =>
    let r := slice e.2 0 32
    saValid r && !saTx r && saPort r == n && saSci r == sci && saAn r == an).map fun e => e.1 - lo

/-- The lowest acceptable PN (R448). -/
def lowestPn (s : State) (n i : Nat) (r : Bytes) : Nat :=
  max 1 (max (saPn r) (pnNext s i - macObj s n 3))

/-- The 64-bit PN of an XPN frame: the first at or above the lowest acceptable PN's window whose low
half is the SecTAG's (IEEE 802.1AE-2018 10.6.2). -/
def recoverPn (r : Bytes) (low pn : Nat) : Nat :=
  if saXpn r then
    let hi := low / 2 ^ 32
    if pn < 2 ^ 31 && 2 ^ 31 ≤ low % 2 ^ 32 then (hi + 1) * 2 ^ 32 + pn else hi * 2 ^ 32 + pn
  else pn

/-- What the receive path decides (R447): the counter offset of a discard, or the frame delivered
(without FCS), its association and PN where it was protected. -/
inductive RxVerdict where
  | discard (reason : Nat) (mismatch : Bool)
  | deliver (body : Bytes) (sa : Option (Nat × Nat))

def rxDecide (s : State) (n : Nat) (b : Bytes) (faulty : Bool) : RxVerdict :=
  let type := natAt b 12 2
  if type != 0x88E5 then
    (if bypasses s n type then .deliver b none else .discard rxNoTag false)
  else if !tagOk b then .discard rxBadTag false
  else match findSa s n (frameSci b) (byteAt b 14 % 4) with
    | none => .discard rxNoSa false
    | some i =>
      let r := saRow s i
      if !saKeyOk s i r then .discard rxNoSa true
      else
        let low := lowestPn s n i r
        let pn := recoverPn r low (natAt b 16 4)
        if macObj s n 2 = 1 && pn < low then .discard rxLate false
        else
          let e := keyEnt s i
          let t := 12 + secTagLen b
          let sl := byteAt b 15 % 64
          let dlen := if sl = 0 then b.length - t - 16 else sl
          let data := slice b t dlen
          let icv := slice b (t + dlen) 16
          let off := if bit (byteAt b 14) 3 then min (saOffset r) dlen else dlen
          let iv := macIv e r (frameSci b) pn
          let c := data.drop off
          if gcmTag (keyBytes e) iv (b.take t ++ data.take off) c != icv then
            .discard rxTagFail false
          else if faulty then .discard rxFault false
          else
            .deliver (b.take t ++ data.take off ++ gcmCrypt (keyBytes e) iv c
              ++ b.drop (t + dlen + 16)) (some (i, pn))

/-! ## Writes that take effect at a boundary (R441 to R445) -/

/-- A row of `macsec.sa` that R443 accepts. -/
def saRowOk (s : State) (i : Nat) (v : Bytes) : Bool :=
  let r := slice v 0 32
  let lo := keyOf 0x7810 1 0
  v == [] || (decide (saPort r ≤ 127) && [0, 30, 50].contains (saOffset r) && saPn r != 0
    && (saXpn r || decide (saPn r < 2 ^ 32))
    && (!(saValid r && !saTx r) || (trange s.objs lo (lo + 4096)).all fun e =>
      let q := slice e.2 0 32
      e.1 == lo + i || !(saValid q && !saTx q && saPort q == saPort r && saSci q == saSci r
        && saAn q == saAn r)))

/-- A row of `iec.key` that R444 accepts. -/
def iecRowOk (v : Bytes) : Bool :=
  let m := bits (byteAt v 0) 3 2
  v == [] || (m != 3 && !(m == 2 && bit (byteAt v 0) 5) && (m == 2 || decide (12 ≤ byteAt v 1)))

/-- A key write applies (R441, R445). -/
def applyKey (s : State) (v : Bytes) : State :=
  let e := natAt v 0 2
  let n := byteAt v 2
  let ent : KeyEnt := { len := n, salt := slice v 3 12, key := (slice v 15 32).take n }
  { s with cipher := { s.cipher with
      keys := tput KeyEnt.init s.cipher.keys e (if n = 0 then KeyEnt.init else ent),
      exhausted := if 4096 ≤ e then s.cipher.exhausted.filter (· != e) else s.cipher.exhausted } }

/-- A row write sets the association's PN or the key's counter, and a new count begins. -/
def applySaRow (s : State) (i : Nat) (v : Bytes) : State :=
  let s := putPn s i (saPn (slice v 0 32))
  { s with cipher := { s.cipher with rekeyed := s.cipher.rekeyed.filter (· != i),
                                     exhausted := s.cipher.exhausted.filter (· != i) } }

def applyIecRow (s : State) (i : Nat) (v : Bytes) : State :=
  { s with cipher := { s.cipher with
      iecCtr := tput 0 s.cipher.iecCtr i (natAt v 4 8),
      rekeyed := s.cipher.rekeyed.filter (· != 4096 + i),
      exhausted := s.cipher.exhausted.filter (· != 4096 + i) } }

/-! ## Verification of IEC 62351-6 codes (R458) -/

/-- A key entry and an `iec.key` row as in force in a tick. -/
def keyEntAt (s : State) (tick k : Nat) : KeyEnt :=
  match boundOfTick s tick with
  | some b => tget KeyEnt.init b.keys k
  | none => keyEnt s k

/-- The IV that a key's iv_mode forms from the 12 or 8 bytes that it names. -/
def iecIv (e : KeyEnt) (row named : Bytes) : Bytes :=
  if bits (byteAt row 0) 3 2 = 0 then slice named 0 12
  else slice e.salt 0 4 ++ slice named (named.length - 8) 8

/-- The outcome of a verification: 0 verified, else the counter offset of its cause (R458, R584). Of several causes the
first in the order key, range, unit, tag counts; a check of R465 that fails counts with the tag (DESIGN CHOICE: R458
gives no order). -/
def verifyFrame (s : State) (unit tick : Nat) (frame : Bytes) (assoc start len tagOff : Nat)
    (faulty : Bool) : Nat :=
  let row := slice (digRowAt s tick 0x7820 1 assoc) 0 16
  let e := keyEntAt s tick (4096 + assoc)
  let fin := frame.length - 4
  let back := byteAt row 1
  let ivLen := if bits (byteAt row 0) 3 2 = 0 then 12 else 8
  if !(bit (byteAt row 0) 7 && bit (byteAt row 0) 5)
      || e.len != (if bit (byteAt row 0) 6 then 32 else 16) then 25
  else if fin < start + len || fin < tagOff + 16 || tagOff < back
      || (start < tagOff + 16 && tagOff < start + len) then 26
  else if !unitServes s unit then 27
  else if gmac (keyBytes e) (iecIv e row (slice frame (tagOff - ivLen) ivLen))
      (slice frame start len) != slice frame tagOff 16 || faulty then 28
  else 0

end Sys2Proof.Machine
end

