-- ==== Sys2Proof/Machine/Ecdsa.lean ====
section
/-! DEFINITION. ECDSA over P-384 with SHA-384, by which images are signed (R307, R308; FIPS 186-5, log entry 141). -/

namespace Sys2Proof.Machine

/-! ## The curve y^2 = x^3 - 3x + b modulo p -/

def p384P : Nat := 2 ^ 384 - 2 ^ 128 - 2 ^ 96 + 2 ^ 32 - 1

def p384N : Nat :=
  0xFFFFFFFFFFFFFFFFFFFFFFFFFFFFFFFFFFFFFFFFFFFFFFFFC7634D81F4372DDF581A0DB248B0A77AECEC196ACCC52973

def p384B : Nat :=
  0xB3312FA7E23EE7E4988E056BE3F82D19181D9C6EFE8141120314088F5013875AC656398D8A2ED19D2A85C8EDD3EC2AEF

/-- A point: none is the point at infinity. -/
abbrev CurvePoint : Type := Option (Nat × Nat)

def p384G : CurvePoint :=
  some (0xAA87CA22BE8B05378EB1C71EF320AD746E1D3B628BA79B9859F741E082542A385502F25DBF55296C3A545E3872760AB7,
    0x3617DE4A96262C6F5D9E98BF9292DC29F8F41DBD289A147CE9DA3113B5F0B8C00A60B1CE1D7E819D7A431D7C90EA0E5F)

/-- x to the power e modulo m, over `bits` bits of e. -/
def powMod (m : Nat) : Nat → Nat → Nat → Nat
  | 0, _, _ => 1
  | n + 1, x, e =>
    let y := powMod m n (x * x % m) (e / 2)
    if e % 2 = 1 then x * y % m else y

/-- The inverse modulo a prime of at most 384 bits. -/
def invMod (m x : Nat) : Nat := powMod m 384 (x % m) (m - 2)

/-- The chord or tangent with slope l through two points with first coordinates x1 and x2. -/
def curveThird (l x1 y1 x2 : Nat) : CurvePoint :=
  let x := (l * l + 2 * p384P - x1 - x2) % p384P
  some (x, (l * (x1 + p384P - x) + p384P - y1) % p384P)

def curveAdd : CurvePoint → CurvePoint → CurvePoint
  | none, q => q
  | q, none => q
  | some (x1, y1), some (x2, y2) =>
    if x1 ≠ x2 then
      curveThird ((y2 + p384P - y1) * invMod p384P (x2 + p384P - x1) % p384P) x1 y1 x2
    else if y1 = y2 && y1 != 0 then
      curveThird ((3 * x1 * x1 + p384P - 3) * invMod p384P (2 * y1) % p384P) x1 y1 x2
    else none

/-- k times a point, over `bits` bits of k. -/
def curveMul : Nat → Nat → CurvePoint → CurvePoint
  | 0, _, _ => none
  | n + 1, k, q =>
    let r := curveMul n (k / 2) (curveAdd q q)
    if k % 2 = 1 then curveAdd q r else r

def onCurve (x y : Nat) : Bool :=
  decide (x < p384P) && decide (y < p384P)
    && y * y % p384P == (x * x % p384P * x + (p384P - 3) * x + p384B) % p384P

/-! ## Verification -/

/-- A signature r, s of 96 bytes over a message verifies with a public key of 97 bytes in uncompressed form. -/
def ecdsaVerify (key m sig : Bytes) : Bool :=
  let x := natAt key 1 48
  let y := natAt key 49 48
  let r := natAt sig 0 48
  let s := natAt sig 48 48
  let w := invMod p384N s
  let one := curveMul 384 (natOf (sha384 m) * w % p384N) p384G
  let two := curveMul 384 (r * w % p384N) (some (x, y))
  key.length == 97 && byteAt key 0 == 4 && onCurve x y && r != 0 && decide (r < p384N) && s != 0
    && decide (s < p384N)
    && match curveAdd one two with
      | some v => v.1 % p384N == r
      | none => false

end Sys2Proof.Machine
end

