-- ==== Sys2Proof/Machine/Staging.lean ====
section
/-! DEFINITION. The staging area, the staged image and its checks, and the key fuses (R188, R305 to
R311, R319, R571, R610). -/

namespace Sys2Proof.Machine

/-! ## The staging area (R188, R571) -/

/-- The key that stands for a whole table among the emptied ones. -/
def tableKey (idx sub : Nat) : Nat := keyOf idx sub noRow

/-- Stage a value or a row. -/
def stageRow (s : State) (idx sub row : Nat) (v : Bytes) : State :=
  { s with mabin := { s.mabin with
      staged := tins s.mabin.staged (keyOf idx sub row) (keptRow idx sub row v) } }

/-- Stage the emptying of a table: rows staged before are gone (R559). -/
def stageEmpty (s : State) (idx sub : Nat) : State :=
  let lo := keyOf idx sub 0
  { s with mabin := { s.mabin with
      staged := tdrop s.mabin.staged lo (keyOf idx sub noRow),
      emptied := insertUnique (tableKey idx sub) s.mabin.emptied } }

/-- A configuration with a table emptied: its default rows are absent too (R202). -/
def emptyTable (t : Tbl Bytes) (k : Nat) : Tbl Bytes :=
  let idx := keyIdx k
  let sub := keySub k
  let t := tdrop t (keyOf idx sub 0) (keyOf idx sub noRow)
  match lookupObj idx sub with
  | none => t
  | some r => (List.range (defaultRows r idx)).foldl (fun t i => tins t (keyOf idx sub i) []) t

/-- One staged value over a configuration. -/
def putStaged (t : Tbl Bytes) (e : Nat × Bytes) : Tbl Bytes :=
  putCfg t (keyIdx e.1) (keySub e.1) (keyRow e.1) e.2

/-- A configuration with the staged changes applied. -/
def withStaged (base : Tbl Bytes) (staged : Tbl Bytes) (emptied : List Nat) : Tbl Bytes :=
  staged.foldl putStaged (emptied.foldl emptyTable base)

/-- Discard the staging area (R571, R573). -/
def clearStaging (s : State) : State :=
  { s with mabin := { s.mabin with staged := [], emptied := [], image := [], imageDone := false,
                                   imageHere := false, target := none, imageStatus := 0 } }

/-- The lock becomes free; the staging area is gone. -/
def freeLock (s : State) : State :=
  let s := clearStaging s
  { s with mabin := { s.mabin with holder := none, expires := 0 } }

/-- The lease has expired: the staging area is discarded, the lock free, LOCK_EXPIRED raised (R570). The check
comes before what a beat's messages and writes do. -/
def lockExpiry (s : State) : State :=
  match s.mabin.holder with
  | none => s
  | some h =>
    if due s s.mabin.expires then raiseEv (freeLock s) evLockExpired 0 [h, s.rm.tick] else s

/-! ## The checks of an image (R311) -/

def reasonFormat : Nat := 1
def reasonSignature : Nat := 2
def reasonKey : Nat := 3
def reasonAbi : Nat := 4
def reasonContract : Nat := 5
def reasonCapacity : Nat := 6

/-- Sections in pairs without overlap. -/
def disjoint : List (Nat × Nat × Nat) → Bool
  | [] => true
  | (_, o, n) :: t => t.all (fun e => decide (o + n ≤ e.2.1) || decide (e.2.1 + e.2.2 ≤ o))
      && disjoint t

def noRepeat : List Nat → Bool
  | [] => true
  | a :: t => !t.contains a && noRepeat t

/-- The container: magic, format, length, section table and placement (R305, R306). -/
def containerOk (raw : Bytes) : Bool :=
  let n := imgCount raw
  let secs := imgSections raw
  let types := secs.map Prod.fst
  let total := imgTotal raw
  natAt raw 0 4 == 0x524E5354 && natAt raw 4 2 == 3 && total == raw.length
    && decide (1 ≤ n) && decide (n ≤ 15) && decide (128 + 16 * n + 104 ≤ total)
    && types.all (fun t => decide (1 ≤ t) && decide (t ≤ 9)) && noRepeat types
    && types.contains 1 && types.contains 4
    && secs.all (fun e => decide (128 + 16 * n ≤ e.2.1) && decide (e.2.1 + e.2.2 + 104 ≤ total))
    && disjoint secs
    && secs.foldl (fun m e => max m (e.2.1 + e.2.2)) 0 + 104 == total

/-- The signer's slot holds a key that is not revoked and that PUBKEY matches (R308). -/
def keyOk (s : State) (raw : Bytes) : Bool :=
  let k := imgSigner raw
  k == 0 || (decide (k ≤ 4) && !s.sys.fuses.revoked.contains k
    && (match tfind s.sys.fuses.slots k, imgSection raw 9 with
        | some h, some b => sha384 b == h
        | _, _ => false))

/-- The signature verifies over the signed bytes (R307, R308). -/
def signatureOk (raw : Bytes) : Bool :=
  let sig := raw.drop (imgTotal raw - 104)
  let key := if imgSigner raw = 0 then bytesOf 97 Config.vendorPubKey.toNat else imgBody raw 9
  natAt sig 0 2 == 1 && !(imgSigner raw == 0 && Config.vendorRefused)
    && ecdsaVerify key (imgSigned raw) (slice sig 8 96)

/-- Lengths that the bodies of sections allow (R306, R321). -/
def lengthsOk (raw : Bytes) : Bool :=
  (imgSections raw).all fun e =>
    let n := e.2.2
    if e.1 = 1 then n % 32 == 0 && decide (n ≤ 32 * imgWords raw)
    else if e.1 = 2 then n == 128
    else if e.1 = 3 then n % 260 == 0
    else if e.1 = 4 then n == 512
    else if e.1 = 6 then n == 34680
    else if e.1 = 7 then n == 120
    else if e.1 = 8 then n == 3072
    else if e.1 = 9 then n == 97 else true

def powerOfTwo (n : Nat) : Bool := (List.range 33).any fun i => 2 ^ i == n

/-- A table descriptor (R281). -/
def descOk (raw : Bytes) (d : Nat) : Bool :=
  let b := imgDesc raw d
  let kind := byteAt b 0
  let lg := byteAt b 1
  let count := natAt b 4 4
  let room := imgPages raw * 256
  let start := natAt b 2 2 * 256
  if kind = 0 then true
  else if kind = 1 then
    decide (3 ≤ lg) && decide (lg ≤ 5) && decide (start + count * 2 ^ lg ≤ room)
  else if kind = 2 then lg == 4 && powerOfTwo count && decide (start + count * 64 ≤ room)
  else false

/-- Results that an operation writes beyond Q[dst], and the size that it demands (R331). -/
def opExtra (op : Nat) : Nat := if op = 8 || op = 18 then 1 else if op = 11 then 2 else 0
def opSizeOk (op size : Nat) : Bool :=
  if op = 8 || op = 15 || op = 17 then size == 3
  else if op = 11 || op = 14 then size == 2
  else if op = 16 then size == 0 else true

/-- An operation word passes the image check (R324, R331). -/
def opWordOk (w : Nat) : Bool :=
  let op := bits w 63 58
  let imm := bits w 27 0
  let pd := bits w 30 28
  decide (op ≤ 19) && (pd == 0 || decide (4 ≤ pd)) && opSizeOk op (bits w 53 52)
    && !(op == 7 && imm % 8 == 7) && !(op == 9 && imm % 4 == 3)
    && !(op == 8 && (imm % 64 == 0 || decide (47 < imm % 64)))
    && decide (bits w 34 31 + opExtra op ≤ 15)

/-- The header words and operations of the defined programs. -/
def imgPrograms (raw : Bytes) : List Bytes :=
  let b := imgBody raw 6
  ((List.range (b.length / 136)).map fun i => slice b (136 * i) 136).filter fun r =>
    bit (byteAt r 0) 7

def programOps (r : Bytes) : List Nat :=
  (List.range (min 16 (bits (natAt r 0 8) 57 53))).map fun i => natAt r (8 + 8 * i) 8

/-- Records of ENTRY and IDLE in use: address and declared length. -/
def imgEntries (raw : Bytes) (t n : Nat) : List (Nat × Nat) :=
  match imgSection raw t with
  | none => []
  | some b => ((List.range n).map fun i => (natAt b (8 * i) 2, natAt b (8 * i + 2) 2)).filter
      fun e => e.1 != 0xFFFF

/-- Every other FORMAT check. -/
def contentOk (raw : Bytes) : Bool :=
  decide (1 ≤ imgWords raw) && lengthsOk raw
    && ((imgSection raw 2).isNone || (List.range 8).all (descOk raw))
    && (List.range ((imgBody raw 3).length / 260)).all
        (fun i => decide (natAt (imgBody raw 3) (260 * i) 2 < imgPages raw))
    && (imgEntries raw 4 64 ++ imgEntries raw 7 15).all (fun e => decide (e.1 < imgWords raw))
    && (imgPrograms raw).all (fun r => (programOps r).all opWordOk)

/-- The declared bounds of the static contract (R75, R311). -/
def contractOk (raw : Bytes) : Bool :=
  decide (imgPath raw ≤ 120) && decide (imgOps raw ≤ 16) && decide (imgHeaders raw ≤ 16)
    && decide (imgStates raw ≤ 512) && decide (imgIdle raw ≤ 32)
    && (imgEntries raw 4 64).all (fun e => decide (e.2 ≤ 120))
    && (imgEntries raw 7 15).all (fun e => decide (e.2 ≤ 32))
    && (imgPrograms raw).all (fun r => decide (bits (natAt r 0 8) 57 53 ≤ 16))

/-- The reason of the first check that fails, or 0 (R311). -/
def imageReason (s : State) (raw : Bytes) : Nat :=
  if !containerOk raw then reasonFormat
  else if !keyOk s raw then reasonKey
  else if !signatureOk raw then reasonSignature
  else if !(imgAbi raw == 2 || imgAbi raw == 3) then reasonAbi
  else if 4096 < imgWords raw || 2048 < imgPages raw then reasonCapacity
  else if !contentOk raw then reasonFormat
  else if !contractOk raw then reasonContract else 0

/-! ## Staging and verifying an image (R306, R310, R311) -/

/-- Rows of one plan of a PLANS section: they end at the first all-zero entry. -/
def planBytes (raw : Bytes) (half : Nat) : List Bytes :=
  ((List.range 256).map fun i => slice (imgBody raw 8) (1024 * half + 4 * i) 4).takeWhile
    fun r => natOf r != 0

/-- The plans of an image are staged with it. -/
def stagePlans (s : State) (raw : Bytes) : State :=
  if (imgSection raw 8).isNone then s
  else (List.range 3).foldl (fun s h =>
    (planBytes raw h).zipIdx.foldl (fun s r => stageRow s 0x2900 (h + 1) r.2 r.1)
      (stageEmpty s 0x2900 (h + 1))) s

/-- Bytes for `engine.image.stage`; a new transfer replaces the earlier bytes. -/
def stageImage (s : State) (image : Bytes) (last : Bool) : Option State :=
  let m := s.mabin
  let b := if m.imageHere && !m.imageDone then m.image ++ image else image
  if 16777216 < b.length then none
  else some { s with mabin := { m with image := b, imageHere := true, imageDone := last,
                                       imageStatus := 2 ^ 24 } }

/-- The firmware's verdict on the staged image. -/
def verifyImage (s : State) : State :=
  let m := s.mabin
  if m.imageHere && m.imageDone && m.imageStatus == 2 ^ 24 then
    let r := imageReason s m.image
    if r = 0 then
      stagePlans { s with mabin := { m with imageStatus := 2 * 2 ^ 24 } } m.image
    else raiseEv { s with mabin := { m with imageStatus := 3 * 2 ^ 24 + r } }
      evImageRejected 0 [r, imgBuild m.image]
  else s

/-- Staging needs the lock (R571). -/
def stagingWrite (s : State) (src : Origin) (idx sub : Nat) (eff : State → Option State) : State :=
  let s := lockExpiry s
  if (tierOf s src).isNone then s
  else if (match tierOf s src with | some t => decide (t < 2) | none => true) then
    rejectWrite s src idx sub errTier
  else if s.mabin.holder != some (originNum src) then rejectWrite s src idx sub errNotLocked
  else
    match eff (renewLease s (originNum src)) with
    | some t =>
      filtered t 2 ((tierOf s src).getD 0) (originMasters src) (idx * 256 + sub) none 1
    | none => rejectWrite s src idx sub errFormat

/-- ENGINE_IMAGE_STAGE (R310). -/
def rowEngineImageStage (src : Origin) (image : Bytes) (last : Bool) (s : State) : State :=
  whenRun s fun s => stagingWrite s src 0x5800 1 fun s => stageImage s image last

/-- IMAGE_VERIFY (R311). -/
def rowImageVerify (s : State) : State :=
  whenRun s verifyImage

/-! ## Fuses (R308, R319, R610) -/

/-- A fuse word holds what was programmed into it. -/
def putFuse (s : State) (j : FuseJob) (revoked : Bool) (hash : Bytes) : State :=
  let f := s.sys.fuses
  let f := if j.hash = [] then
      (if revoked then { f with revoked := insertUnique j.slot f.revoked } else f)
    else { f with slots := tins f.slots j.slot hash }
  { s with sys := { s.sys with fuses := f } }

/-- Program one fuse word and read it back: a failing read-back raises FUSE_PROGRAM_FAIL, and the
manual does not say what the fuse then holds (a free value, log entry 5). -/
def burnFuse (s : State) (j : FuseJob) : State :=
  match j.badRead with
  | some v =>
    let (s, b) := freshBytes 6 s
    raiseEv (putFuse s j (bit (natOf b) 0) b) evFuseFail j.slot [v]
  | none => putFuse s j true j.hash

/-- Fuse words start while no supply warning is in force, in the order of their writes. -/
def startFuses (s : State) : State :=
  if s.sys.warnSince.isSome then s
  else s.sys.fuseQ.foldl burnFuse { s with sys := { s.sys with fuseQ := [] } }

def queueFuse (s : State) (j : FuseJob) : State :=
  startFuses { s with sys := { s.sys with fuseQ := s.sys.fuseQ ++ [j] } }

def slotTaken (s : State) (k : Nat) : Bool :=
  (tfind s.sys.fuses.slots k).isSome || s.sys.fuseQ.any fun j => j.slot == k && j.hash != []
def slotRevoked (s : State) (k : Nat) : Bool :=
  s.sys.fuses.revoked.contains k || s.sys.fuseQ.any fun j => j.slot == k && j.hash == []

/-- ENGINE_KEY_ENROL (R308): slot in byte 0, SHA-384 hash in bytes 1 to 48. -/
def rowEngineKeyEnrol (src : Origin) (slot : Nat) (hash : Bytes) (badRead : Option Nat)
    (s : State) : State :=
  writeCmd s src 0x5800 5 noRow (bytesOf 1 slot ++ slice hash 0 48) fun s =>
    if slot = 0 || 4 < slot || slotTaken s slot then none
    else some (queueFuse s { slot := slot, hash := slice hash 0 48, badRead := badRead })

/-- ENGINE_KEY_REVOKE (R308). -/
def rowEngineKeyRevoke (src : Origin) (slot : Nat) (badRead : Option Nat) (s : State) : State :=
  writeCmd s src 0x5800 6 noRow (bytesOf 1 slot) fun s =>
    if slot = 0 || 4 < slot || !slotTaken s slot || slotRevoked s slot then none
    else some (queueFuse s { slot := slot, hash := [], badRead := badRead })

end Sys2Proof.Machine
end

