-- ==== Sys2Proof/Machine/Versions.lean ====
section
/-! DEFINITION. Versions: the checks of a whole version, sealing, slots, reservation, cancelling,
retiring, and the configuration digest (R181 to R204). -/

namespace Sys2Proof.Machine

/-! ## Reasons of R189 -/

def rejCheck : Nat := 1
def rejContract : Nat := 2
def rejConflict : Nat := 3
def rejPredecessor : Nat := 4
def rejBusy : Nat := 5
def rejTarget : Nat := 6
def rejMode : Nat := 7
def rejCancelled : Nat := 8

/-! ## Checks of search banks (R149 to R154, R163 to R165, R180) -/

/-- The present rows of a staged table in a version: row number and value. -/
def cfgRows (v : VerCfg) (idx sub : Nat) : List (Nat × Bytes) :=
  let lo := keyOf idx sub 0
  ((trange v.cfg lo (lo + noRow)).filter fun e => e.2 != []).map fun e => (e.1 - lo, e.2)

/-- Ingress port nodes of a pipe (R27). -/
def pipeNodes (p : Nat) : List Nat := (List.range 134).filter fun n => nodePipe n == p

/-- The banks of one group of a pipe have one width (R150). -/
def groupWidthOk (v : VerCfg) (p g : Nat) : Bool :=
  let ws := (groupBanks v p g).map fun b => bankWidth v (16 * p + b)
  match ws with
  | [] => true
  | w :: t => t.all (· == w)

/-- A width changes only while no live slot assigns the bank to a group (R151). -/
def widthChangeOk (s : State) (base v : VerCfg) (g : Nat) : Bool :=
  bankWidth v g == bankWidth base g
    || (List.range 4).all fun k => !isLive s k || bankGroup (slotVer s k) g == 15

/-- Vector bits that the tail window or the tail writes (R118): their first bit and length. -/
def tailBits (g : Graph) : List (Nat × Nat) :=
  [(192, 32), (1042, 1), (1045, 2), (1120, 64), (1232, 16)]
    ++ (tailExtracts g).map fun e => (8 * e.2.2, 8 * e.2.1)

/-- A builder: total length, the end of the vector, no tail field (R154). One that is off has no key whose
length its extracts could pass. -/
def builderOk (v : VerCfg) (g : Graph) (k i : Nat) : Bool :=
  let w := builderWidth v k i
  let ex := builderExtracts v k i
  (w == 0 || decide (sumNat (ex.map Prod.snd) + 4 ≤ 80 * w))
    && ex.all fun e => decide (e.1 + e.2 ≤ 1536)
      && (tailBits g).all fun t => decide (e.1 + e.2 ≤ t.1) || decide (t.1 + t.2 ≤ e.1)

/-- The builders that a pipe's ports select agree with the pipe's banks (R154). -/
def pipeWidthsOk (v : VerCfg) (p : Nat) : Bool :=
  (pipeNodes p).all fun n => (List.range 4).all fun g =>
    match groupBanks v p g with
    | [] => true
    | b :: _ =>
      let w := builderWidth v (keysetOf v n) g
      w == 0 || w == bankWidth v (16 * p + b)

/-- The exact table's builder is on where the table holds a valid entry (R164). -/
def exactKeyOk (v : VerCfg) (p : Nat) : Bool :=
  !exactInUse v p || (pipeNodes p).all fun n =>
    builderWidth v (keysetOf v n) (cfg v (0x4B00 + p) 3) != 0

/-- An action word (R163). -/
def actionOk (s : State) (v : VerCfg) (a : Nat) : Bool :=
  let k := actKind a
  let set := bits a 44 33
  decide (k ≤ 5)
    && !(k == 1 && (decide (133 < bits a 55 48) || (set != 0 && cfgRow v 0x4C00 1 set == [])))
    && !(k == 2 && !profileDefined s v (bits a 55 50))
    && !(k == 4 && decide (4095 < bits a 44 33))

/-- Rows of `search.tcam`: size, place, and action words (R149, R163, R180). -/
def tcamRowsOk (s : State) (v : VerCfg) (p : Nat) : Bool :=
  (cfgRows v (0x4B00 + p) 1).all fun e =>
    let w := bankWidth v (16 * p + e.1 / 2048)
    rowSizeOk e.2 w && decide (e.1 % 2048 < 2048 / w)
      && (!rowValid e.2 || actionOk s v (rowUnit e.2 w 0).2.2)

/-- Rows of `search.exact`: bucket and action words (R163, R165). -/
def exactRowsOk (s : State) (v : VerCfg) (p : Nat) : Bool :=
  (cfgRows v (0x4B00 + p) 2).all fun e =>
    exactBucket (exactRowKey e.2) (cfg v (0x4B00 + p) 5) == e.1 / 4
      && (!exactRowValid e.2 || actionOk s v (exactRowAction e.2))

/-- Rewrite sets that the action words of a live slot's valid entries reference, legacy banks included: the
action word of an entry is that of its first unit (R158, R173). -/
def setsOf (s : State) (v : VerCfg) : List Nat :=
  let sets := fun (l : List Nat) => (l.filter fun a => actKind a == 1).map fun a => bits a 44 33
  (List.range 8).flatMap fun p =>
    sets (((cfgRows v (0x4B00 + p) 1).filter fun e => rowValid e.2).map fun e =>
        (rowUnit e.2 (bankWidth v (16 * p + e.1 / 2048)) 0).2.2)
    ++ sets (((cfgRows v (0x4B00 + p) 2).filter fun e => exactRowValid e.2).map fun e =>
        exactRowAction e.2)
    ++ (List.range 16).flatMap fun b =>
      if bankLegacy s (16 * p + b) then
        sets (((trange s.mem.tcam (unitNo p b 0) (unitNo p b 2048)).filter fun e =>
          e.2.valid && e.1 % heldWidth s (16 * p + b) == 0).map fun e => e.2.action)
      else []

/-- Staged writes reach only rewrite sets that no live slot references (R173). -/
def rewriteOk (s : State) (base : VerCfg) : Bool :=
  let lo := keyOf 0x4C00 1 0
  let rows := (trange s.mabin.staged lo (lo + 4096)).map fun e => e.1 - lo
  let gone := if s.mabin.emptied.contains (tableKey 0x4C00 1) then
      (cfgRows base 0x4C00 1).map Prod.fst else []
  let used := (List.range 4).flatMap fun k => if isLive s k then setsOf s (slotVer s k) else []
  (rows ++ gone).all fun r => !used.contains r

def searchOk (s : State) (base v : VerCfg) : Bool :=
  (List.range 8).all (fun p => (List.range 4).all (groupWidthOk v p))
    && (List.range 128).all (widthChangeOk s base v)
    && (List.range 16).all (fun k => (List.range 4).all (builderOk v (verGraph s v) k))
    && (List.range 8).all (fun p => pipeWidthsOk v p && exactKeyOk v p && tcamRowsOk s v p
      && exactRowsOk s v p)
    && rewriteOk s base

/-! ## Checks of flow and load-balancing tables (R228, R348, R354) -/

def profilesOk (v : VerCfg) : Bool := (cfgRows v 0x5010 1).all fun e => profileRowOk (slice e.2 0 72)

/-- An export template names what it can reach (R354). -/
def templateOk (row : Bytes) : Bool :=
  let n := byteAt row 0
  decide (1 ≤ n) && decide (n ≤ 15) && (List.range n).all fun i =>
    let e := natAt row (4 + 4 * i) 4
    let off := bits e 28 21
    let len := bits e 20 16
    let lim := fun m => decide (off + len ≤ m)
    decide (1 ≤ len) && decide (len ≤ 16)
      && (match bits e 31 29 with
          | 0 => lim 128
          | 1 => lim 12
          | 2 => decide (off ≤ 15)
          | 3 => lim 192
          | _ => false)

/-- Templates that the programs of an image and the expiry attributes name (R354). -/
def templatesNamed (v : VerCfg) : List Nat :=
  ((v.images.flatMap fun i => (imgPrograms i.raw).flatMap programOps).filter
      fun w => bits w 63 58 == 13).map (· % 256)
    ++ (cfgRows v 0x5030 1).map fun e => byteAt e.2 8

def templatesOk (v : VerCfg) : Bool :=
  (cfgRows v 0x5060 1).all (fun e => templateOk e.2)
    && (templatesNamed v).all fun n => n == 0 || cfgRow v 0x5060 1 n != []

/-- A pool that is not empty: base and bucket count (R346). -/
def poolSpan (row : Bytes) : Option (Nat × Nat) :=
  let w := natOf row
  if bits w 63 59 = 0 then none else some (bits w 51 32, 2 ^ bits w 63 59)

def spans (v : VerCfg) : List (Nat × Nat) := (cfgRows v 0x5050 1).filterMap fun e => poolSpan e.2

def noOverlap : List (Nat × Nat) → Bool
  | [] => true
  | a :: t => t.all (fun b => decide (a.1 + a.2 ≤ b.1) || decide (b.1 + b.2 ≤ a.1)) && noOverlap t

/-- Members that the buckets of a pool name, each once. -/
def poolMembers (v : VerCfg) (base n : Nat) : List Nat :=
  ((List.range n).foldl (fun (l : List (Nat × Unit)) i =>
    tins l (natOf (cfgRow v 0x5050 3 (base + i))) ()) []).map Prod.fst

def memberOk (v : VerCfg) (m : Nat) : Bool :=
  let b := byteAt (cfgRow v 0x5050 2 m) 18
  bit b 5 && bit b 6

def balanceOk (v : VerCfg) : Bool :=
  (spans v).all (fun p => decide (p.1 + p.2 ≤ 1048576)
      && (let ms := poolMembers v p.1 p.2; decide (ms.length ≤ 1024) && ms.all (memberOk v)))
    && noOverlap (spans v)

/-! ## Checks of plans, topology and gates (R71, R412, R428) -/

def plansOk (v : VerCfg) : Bool :=
  [Half.ingress, Half.home, Half.egress].all fun h => planOk h (planRows v h) (tickRate v)

def subParent (v : VerCfg) (n : Nat) : Nat := natOf (cfgRow v 0x7000 7 n)
def svcParent (v : VerCfg) (n : Nat) : Nat := natOf (cfgRow v 0x7000 8 n)
def subEnabled (v : VerCfg) (n : Nat) : Bool := bit (subParent v n) 15
def subService (v : VerCfg) (n : Nat) : Nat := subParent v n % 1024
def svcAttached (v : VerCfg) (n : Nat) : Bool := bit (svcParent v n) 15
def svcPort (v : VerCfg) (n : Nat) : Nat := svcParent v n % 256

/-- A subscriber node stands under a port node in a version. -/
def subUnder (v : VerCfg) (n port : Nat) : Bool :=
  subEnabled v n && svcAttached v (subService v n) && svcPort v (subService v n) == port

/-- Some live slot enables a subscriber node (R412). -/
def enabledLive (s : State) (n : Nat) : Bool :=
  (List.range 4).any fun k => isLive s k && subEnabled (slotVer s k) n

/-- Rows of a topology table that a version changes from its base. -/
def changedRows (base v : VerCfg) (idx sub : Nat) : List Nat :=
  let lo := keyOf idx sub 0
  let ks := ((trange base.cfg lo (lo + noRow)) ++ (trange v.cfg lo (lo + noRow))).map fun e =>
    e.1 - lo
  (ks.foldl (fun (l : List (Nat × Unit)) k => tins l k ()) []).map Prod.fst
    |>.filter fun r => cfgRow base idx sub r != cfgRow v idx sub r

/-- Service nodes that are the parent, in some live slot, of a node that some live slot enables. -/
def servesLive (s : State) (svc : Nat) : Bool :=
  (List.range 8192).any fun n => enabledLive s n
    && (List.range 4).any fun k => isLive s k && subService (slotVer s k) n == svc

def portSelOk (v : VerCfg) (n : Nat) : Bool :=
  let sel := cfg v (0x7100 + n) 1
  let mode := bits sel 31 30
  let count := bits sel 28 16
  subUnder v (cfg v (0x7100 + n) 2) n && mode != 3
    && (mode == 0 || (decide (1 ≤ count) && decide (count ≤ 4096)))

def topologyOk (s : State) (base v : VerCfg) : Bool :=
  (changedRows base v 0x7000 7).all (fun n =>
      subService base n == subService v n || !enabledLive s n)
    && (changedRows base v 0x7000 8).all (fun n => !servesLive s n)
    && (List.range 8192).all (fun n => !subEnabled v n || svcAttached v (subService v n))
    && (List.range 136).all (portSelOk v)

/-- The rows of a gate list in force: up to the first row with interval 0 (R428). -/
def gateRows (v : VerCfg) (n : Nat) : List Nat :=
  ((List.range 256).map fun i => natOf (cfgRow v (0x7200 + n) 5 i)).takeWhile
    fun r => r % 2 ^ 32 != 0

def gateOk (v : VerCfg) (n : Nat) : Bool :=
  let cycle := cfg v (0x7200 + n) 4
  cfg v (0x7200 + n) 1 == 0 || (!(gateRows v n).isEmpty && decide (1000 ≤ cycle)
    && decide (cycle ≤ 1000000000) && decide (cfg v (0x7200 + n) 2 ≤ 3))

/-! ## Checks of images (R299 to R304) -/

/-- Rows of `engine.table.write` in a version. -/
def tableWrites (v : VerCfg) : List (Nat × Bytes) := cfgRows v 0x5800 9

/-- Two versions give the logical pages of an image the same contents (R300, R303). -/
def sameTables (v w : VerCfg) (raw : Bytes) : Bool :=
  tableWrites v == tableWrites w
    || (List.range (imgPages raw)).all fun n => verPage v raw n == verPage w raw n

/-- The version changes a cluster's image or the contents of its tables (R300). -/
def clusterChanged (base v : VerCfg) (c : Nat) : Bool :=
  match clusterImage base c, clusterImage v c with
  | none, none => false
  | some a, some b => a != b || !sameTables base v a
  | _, _ => true

/-- Pages that two sides of a cluster use together: those with equal content count once (R299,
R302). -/
def pagesTogether (a b : VerCfg) (c : Nat) : Nat :=
  match clusterImage a c, clusterImage b c with
  | some x, some y =>
    let shared := (List.range (min (imgPages x) (imgPages y))).filter fun n =>
      verPage a x n == verPage b y n
    imgPages x + imgPages y - shared.length
  | some x, none => imgPages x
  | none, some y => imgPages y
  | none, none => 0

def imagesOk (s : State) (base v : VerCfg) : Bool :=
  let mask := maskClusters (homeMask s)
  let homes := ((List.range 64).filter (bit mask)).map fun c => clusterImage v c
  (match homes with
    | [] => true
    | h :: t => t.all (· == h))
    && v.images.all (fun i => (tableWrites v).all fun e => decide (natAt e.2 0 2 < imgPages i.raw))
    && (List.range 64).all fun c => !clusterChanged base v c
      || decide (pagesTogether base v c ≤ 2048)

/-- Every whole-version check of R189 CHECK. -/
def versionOk (s : State) (base v : VerCfg) : Bool :=
  plansOk v && searchOk s base v && profilesOk v && templatesOk v && balanceOk v
    && topologyOk s base v && (List.range 136).all (gateOk v) && imagesOk s base v

/-! ## Sealing (R188, R189, R310) -/

/-- What the next sealed version is based on: the newest pending, or the current (R188). -/
def newestVer (s : State) : VerCfg := (s.ver.pending.getLast?.map Sealed.ver).getD (curVer s)

def nextNum (n : Nat) : Nat := if n = 0xFFFF then 1 else n + 1

/-- The images after a load: exactly the target's clusters take the new one (R310). -/
def loadImage (old : List Image) (target : Nat) (raw : Bytes) : List Image :=
  ((old.map fun i => { i with clusters := i.clusters &&& (2 ^ 64 - 1 - target) }).filter
    fun i => i.clusters != 0) ++ [{ clusters := target, raw := raw }]

/-- The version that sealing would give. -/
def stagedVer (s : State) : VerCfg :=
  let base := newestVer s
  let m := s.mabin
  let images := if m.imageHere then loadImage base.images (m.target.getD 0) m.image else base.images
  let cfg0 := if m.imageHere then emptyTable base.cfg (tableKey 0x5800 9) else base.cfg
  { num := nextNum s.ver.newest, cfg := withStaged cfg0 m.staged m.emptied, images := images,
    sides := base.sides }

/-- Something is staged (R572). -/
def anyStaged (s : State) : Bool :=
  !s.mabin.staged.isEmpty || !s.mabin.emptied.isEmpty || s.mabin.imageHere
    || s.mabin.target.isSome

/-- The version that sealing would give holds rows of `search.tcam` for a bank in legacy mode, staged or
inherited (R189 MODE, R200). -/
def stagedLegacy (s : State) : Bool :=
  let v := stagedVer s
  (List.range 8).any fun p => (cfgRows v (0x4B00 + p) 1).any fun e =>
    bankLegacy s (16 * p + e.1 / 2048)

/-- The image and its target go together (R310). -/
def imagePairOk (s : State) : Bool :=
  s.mabin.imageHere == s.mabin.target.isSome && (!s.mabin.imageHere || s.mabin.target != some 0)

/-- The reason for which a COMMIT is rejected; 0 when it is accepted (R189). Of several, the first in the order BUSY,
TARGET, MODE, CONTRACT, CHECK (DESIGN CHOICE, log entry 154: the manual gives no order). -/
def sealReason (s : State) (target : Nat) : Nat :=
  let st := s.mabin.imageStatus
  if 3 ≤ s.ver.pending.length then rejBusy
  else if s.rm.tick + 2 ^ 24 < target then rejTarget
  else if stagedLegacy s then rejMode
  else if s.mabin.imageHere && st == 3 * 2 ^ 24 + reasonContract then rejContract
  else if s.mabin.imageHere && st != 2 * 2 ^ 24 then rejCheck
  else if !imagePairOk s then rejCheck
  else if !versionOk s (newestVer s) (stagedVer s) then rejCheck else 0

/-- VERSION_REJECTED, with its number and reason (R189, R209, R211). -/
def reject (s : State) (num reason : Nat) : State :=
  raiseEv { s with ver := { s.ver with lastReject := num * 65536 + reason } } evRejected 0
    [num, reason]

/-- A COMMIT of the lock holder with something staged: the state, and the reason or the number. -/
def sealVersion (s : State) (target : Nat) : State × Except Nat Nat :=
  let r := sealReason s target
  if r = 0 then
    let v := stagedVer s
    let q : Sealed := { ver := v, target := target, sealNext := s.rm.tick + 1, slot := none,
                        reserveNext := 0, causes := 0, prep := [], doneTick := none }
    let s := clearStaging s
    ({ s with ver := { s.ver with pending := s.ver.pending ++ [q], newest := v.num } }, .ok v.num)
  else (reject s 0 r, .error r)

/-! ## Slots (R185 to R187, R190, R193, R194) -/

def modSlot (s : State) (k : Nat) (f : Slot → Slot) : State :=
  { s with ver := { s.ver with slots := s.ver.slots.modify k f } }

/-- Packets and idle programs that hold a slot (R186). -/
def holders (s : State) (k : Nat) : Nat :=
  (s.pkts.filter fun x => x.holds && x.vslot == k).length
    + sumNat (s.clusters.map fun c =>
        (c.2.engines.filter fun e => runsIdle e.2 && e.2.vslot == k).length)

/-- The slot of a pending version becomes FREE. -/
def freeSlot (s : State) (k : Option Nat) : State :=
  match k with
  | some k => modSlot s k fun _ => Slot.zero
  | none => s

/-- The width that a bank counts as holding when only some pending versions stay: that of the last of them that
has invalidated it, else the current version's (R195). -/
def keptWidth (keep : List Sealed) (g : Nat) : Option Nat :=
  ((keep.filter fun q => bit (tget Prep.init q.prep (g / 16)).wiped (g % 16)).getLast?).map fun q =>
    bankWidth q.ver g

/-- Versions that fall leave no width and no load that a later version of their number would take for its own
(R193 to R195, R301). -/
def forgetVersions (s : State) (keep drop : List Sealed) : State :=
  let gone := fun (l : Load) => drop.any fun q => q.ver.num == l.num
  { s with
    mem := { s.mem with widths := s.mem.widths.filterMap fun e => (keptWidth keep e.1).map fun w => (e.1, w) },
    clusters := s.clusters.map fun c =>
      (c.1, if (c.2.load.map gone).getD false then { c.2 with load := none } else c.2) }

/-- The pending version num falls with a reason and every later one with PREDECESSOR; their slots
become FREE and their numbers are returned (R193, R194). -/
def rejectFrom (s : State) (num reason : Nat) : State :=
  let keep := s.ver.pending.takeWhile fun q => q.ver.num != num
  let drop := s.ver.pending.dropWhile fun q => q.ver.num != num
  let newest := (keep.getLast?.map fun q => q.ver.num).getD (curVer s).num
  let s := drop.foldl (fun s q => freeSlot s q.slot) (forgetVersions s keep drop)
  let s := { s with ver := { s.ver with pending := keep, newest := newest } }
  drop.foldl (fun s q =>
    reject s q.ver.num (if q.ver.num = num then reason else rejPredecessor)) s

/-- A new version and an earlier PREPARING slot want different content at one location (R196). -/
def plansConflict (s : State) (v w : VerCfg) : Bool :=
  (List.range 128).any fun g =>
    !bankLegacy s g && bankGroup w g != 15
      && (let lo := keyOf (0x4B00 + g / 16) 1 (2048 * (g % 16))
          (trange v.cfg lo (lo + 2048)).any fun e =>
            let other := (tfind w.cfg e.1).getD []
            rowValid e.2 && rowValid other && e.2 != other)

def exactPlansConflict (v w : VerCfg) : Bool :=
  (List.range 8).any fun p => (cfgRows v (0x4B00 + p) 2).any fun e =>
    let other := cfgRow w (0x4B00 + p) 2 e.1
    exactRowValid e.2 && exactRowValid other
      && !(exactRowKey e.2 == exactRowKey other && exactRowAction e.2 == exactRowAction other)

/-- At reservation: a CURRENT slot or an earlier PREPARING one uses a bank whose width the version changes,
or a location that it needs, or an earlier PREPARING version changes the same cluster (R151, R196,
R300). That a bank whose width the version changes, and which such a slot assigns to a group, is a SLOT_CONFLICT
too is a DESIGN CHOICE (log entry 163: R196 speaks of locations only). -/
def reserveConflict (s : State) (q : Sealed) (k : Nat) : Bool :=
  let base := baseOf s q.ver.num
  (List.range 4).any fun t => t != k &&
    (match (slotAt s t).state with
      | .current => widthClash q.ver (slotVer s t) || conflicts s q.ver k t
      | .preparing =>
        let w := slotVer s t
        widthClash q.ver w || conflicts s q.ver k t || plansConflict s q.ver w || exactPlansConflict q.ver w
          || (List.range 64).any fun c => clusterChanged base q.ver c
            && clusterChanged (baseOf s w.num) w c
      | _ => false)

/-- The sides of a version: those of its base, but the other one from CURRENT's where it changes
the cluster (R300). -/
def newSides (s : State) (base v : VerCfg) : Nat :=
  (List.range 64).foldl (fun a c =>
    let side := if clusterChanged base v c then !bit (curVer s).sides c else bit base.sides c
    a + b2n side * 2 ^ c) 0

/-- Rows that the egress halves must write: those that the version changes, and those where they hold
something else, left by a version that fell (R194). -/
def rowsToWrite (base v : VerCfg) (idx sub : Nat) (written : List Nat) (holds : Nat → Bytes) : List Key :=
  let rows := (cfgRows v idx sub).map Prod.fst ++ written
  (distinct (changedRows base v idx sub ++ rows.filter fun r => holds r != cfgRow v idx sub r)).map
    (keyOf idx sub)

/-- Rewrite sets and topology rows that the egress halves must write (R173, R413). -/
def egressWrites (s : State) (base v : VerCfg) : List Key :=
  rowsToWrite base v 0x4C00 1 [] (tget [] s.mem.rewrite)
    ++ rowsToWrite base v 0x7000 7 (tkeys s.mem.subParent) (fun n => bytesOf 2 (subLink s n))
    ++ rowsToWrite base v 0x7000 8 (tkeys s.mem.svcParent) (fun n => bytesOf 2 (svcLink s n))

/-- The oldest sealed version without a slot takes the lowest FREE slot, or falls (R190). -/
def reserve (s : State) : State :=
  match s.ver.pending.find? (fun q => q.slot.isNone),
        (List.range 4).find? (fun k => (slotAt s k).state == .free) with
  | some q, some k =>
    if reserveConflict s q k then rejectFrom s q.ver.num rejConflict
    else
      let base := baseOf s q.ver.num
      let v := { q.ver with sides := newSides s base q.ver }
      let prep : Tbl Prep := (List.range 8).map fun p =>
        (p, { Prep.init with egress := egressWrites s base v })
      let s := modSlot s k fun _ => { state := .preparing, ver := v }
      modSealed s v.num fun q => { q with ver := v, slot := some k, reserveNext := s.rm.tick + 1,
                                          prep := prep.filter fun e => e.2 != Prep.init }
  | _, _ => s

/-- DRAINING slots still name the side of a cluster that the version writes (R300). -/
def sidesWait (s : State) (q : Sealed) (k : Nat) : Bool :=
  let base := baseOf s q.ver.num
  (List.range 4).any fun t => t != k && (slotAt s t).state == .draining
    && (List.range 64).any fun c => clusterChanged base q.ver c
      && bit (slotVer s t).sides c == bit q.ver.sides c

/-- The load port has written a version's side of a cluster, or has nothing to write there (R300, R301). -/
def sideWritten (s : State) (q : Sealed) (c : Nat) : Bool :=
  let k := clusterAt s c
  match clusterImage q.ver c with
  | none => true
  | some raw => !clusterChanged (baseOf s q.ver.num) q.ver c
      || match k.load with
         | some l => l.num == q.ver.num && decide (loadTotal k (sideOf q.ver c) q.ver raw ≤ l.at_)
         | none => false

/-- The pending version whose side of a cluster the load port writes in this beat (R190, R300, R301). -/
def loadedNow (s : State) (c : Nat) : Option Sealed :=
  s.ver.pending.find? fun q => match q.slot with
    | none => false
    | some k => decide (max q.sealNext q.reserveNext ≤ s.rm.tick) && !sidesWait s q k
        && !sideWritten s q c

/-- One beat of a cluster's load port: 32 bytes. -/
def loadBeat (s : State) (c : Nat) : State :=
  if (pipeAt s (c / 8)).power != 0 then s
  else match loadedNow s c with
    | none => s
    | some q => match clusterImage q.ver c with
      | none => s
      | some raw => modCluster s c fun k =>
        let side := sideOf q.ver c
        match k.load with
        | some l =>
          if l.num = q.ver.num then loadWrite k side q.ver raw l.at_
          else loadWrite (loadStart k side q.ver raw) side q.ver raw 0
        | none => loadWrite (loadStart k side q.ver raw) side q.ver raw 0

/-- The writes of a pipe are complete; an OFF pipe is skipped, a WAKING one is not ready (R190,
R612, R613). -/
def pipeWritten (s : State) (q : Sealed) (k p : Nat) : Bool :=
  let x := pipeAt s p
  x.power == 1 || (x.power == 0 && prepDone s q k p && (tget Prep.init q.prep p).egress.isEmpty)

/-- Every write of a sealed version has completed (R190, R301). -/
def writesDone (s : State) (q : Sealed) : Bool :=
  match q.slot with
  | none => false
  | some k => decide (max q.sealNext q.reserveNext ≤ s.rm.tick) && !sidesWait s q k
      && !prepWaits s q k && (List.range 8).all (pipeWritten s q k)
      && (List.range 64).all fun c => (pipeAt s (c / 8)).power == 1 || sideWritten s q c

/-- SLOT_RESERVE (R190). -/
def rowSlotReserve (s : State) : State :=
  whenRun s reserve

/-- SLOT_RETIRE (R187). A slot that becomes FREE keeps no version: its field of `version.slots` reads 0 (DESIGN
CHOICE, log entry 160: R210 says nothing of a FREE slot's). -/
def rowSlotRetire (slot : Nat) (s : State) : State :=
  whenRun s fun s =>
    guardS ((slotAt s slot).state == .draining && holders s slot == 0) s fun s =>
      modSlot s slot fun _ => Slot.zero

/-- Cancel the newest pending version (R193). -/
def cancelVersion (num : Nat) (s : State) : Option State :=
  match s.ver.pending.getLast? with
  | some q => if q.ver.num = num then some (rejectFrom s num rejCancelled) else none
  | none => none

/-- VERSION_CANCEL (R193). -/
def rowVersionCancel (src : Origin) (version : Nat) (s : State) : State :=
  writeCmd s src 0x1400 6 noRow (bytesOf 2 version) (cancelVersion version)

/-! ## Staged values that their own chapters reject at once (R144, R148, R153, R228, R558 VALUE) -/

/-- A rewrite without a reserved op or anchor (R13, R171). -/
def rewriteWordOk (w : Nat) : Bool :=
  decide (bits w 191 189 ≤ 3) && (decide (bits w 188 184 < 16) || bits w 188 184 == 31)

/-- A staged value that its chapter does not reject. -/
def stagedValueOk (idx sub row : Nat) (v : Bytes) : Bool :=
  let n := natOf v
  if 0x4100 ≤ idx && idx < 0x4200 && sub = 3 then
    bits n 31 30 != 3 && !(bits n 31 30 == 1 && decide (133 < bits n 29 22))
  else if 0x4800 ≤ idx && idx < 0x4880 && sub = 1 then n == 1 || n == 2 || n == 4
  else if 0x4800 ≤ idx && idx < 0x4880 && sub = 2 then decide (n ≤ 3) || n == 15
  else if 0x4900 ≤ idx && idx < 0x4910 && row != 0 then
    let e := natOf (keptRow idx sub row v)
    e == 0 || (decide (1 ≤ bits e 5 0) && decide (bits e 5 0 ≤ 32) && decide (bits e 26 16 ≤ 1535))
  else if idx = 0x5010 && sub = 1 then v == [] || profileRowOk (slice (keptRow idx sub row v) 0 72)
  else if idx = 0x4C00 && sub = 1 then (List.range 4).all fun i => rewriteWordOk (natAt v (24 * i) 24)
  else if 0x6400 ≤ idx && idx < 0x6420 && sub = 2 then n % 64 == 0
  else if 0x7200 ≤ idx && idx < 0x7282 && sub = 5 then decide (n % 2 ^ 32 ≤ 1000000000)
  else true

/-! ## The configuration digest (R201 to R204) -/

/-- record_hash of R203. -/
def recordHash (idx sub row kind : Nat) (value : Bytes) : Nat :=
  natAt (sha384 (bytesOf 2 idx ++ bytesOf 1 sub ++ bytesOf 1 kind ++ bytesOf 4 row
    ++ bytesOf 4 value.length ++ value)) 0 8

/-- A row is a record: search rows only while they are valid (R202). -/
def rowRecorded (idx sub : Nat) (v : Bytes) : Bool :=
  if 0x4B00 ≤ idx && idx < 0x4B08 && sub = 1 then rowValid v
  else if 0x4B00 ≤ idx && idx < 0x4B08 && sub = 2 then exactRowValid v
  else v != []

/-- The sum over the records of one object (R202, R203). -/
def objectHash (t : Tbl Bytes) (r : ObjRow) (idx : Nat) : Nat :=
  let at1 := fun row => (tfind t (keyOf idx r.sub row)).getD (defaultOf r idx row)
  if r.kind = 9 then
    sumNat ((presentRows t r idx).map fun i =>
      if rowRecorded idx r.sub (at1 i) then recordHash idx r.sub i 9 (at1 i) else 0)
  else recordHash idx r.sub noRow r.kind (at1 noRow)

def clusterHash (v : VerCfg) : Nat :=
  sumNat ((List.range 64).map fun c =>
    match clusterImage v c with
    | some raw => recordHash 0 c noRow 8 (sha384 (imgDigestInput raw))
    | none => 0)

/-- A bank is in legacy mode as the last boundary counted its mode (R204). -/
def countedLegacy (s : State) (g : Nat) : Bool := natOf (digRow s (0x4800 + g) 3 noRow) == 1

/-- The rows of `search.tcam` of a bank. -/
def dropBank (t : Tbl Bytes) (g : Nat) : Tbl Bytes :=
  let lo := keyOf (0x4B00 + g / 16) 1 (2048 * (g % 16))
  tdrop t lo (lo + 2048)

/-- A version's rows without those of legacy banks, whose contents stand for them (R201). -/
def dropLegacy (s : State) (t : Tbl Bytes) : Tbl Bytes :=
  (List.range 128).foldl (fun t g => if countedLegacy s g then dropBank t g else t) t

/-- `config.digest`: the configuration in force at the start of the current tick (R201 to R204).
Rows of legacy banks stand among the RW values as the last boundary found them. -/
def configDigest (s : State) : Nat :=
  let objs := toverlay (dropLegacy s s.digVer.cfg) s.digObjs
  let sums := objRows.map fun r =>
    if r.acc = .rw || r.acc = .st then
      sumNat ((List.range r.insts).map fun i =>
        if covered (r.base + i) then objectHash objs r (r.base + i) else 0)
    else 0
  (sumNat sums + clusterHash s.digVer) % 2 ^ 64

/-- The row of R180 that an entry's content spells; empty when it is not valid. -/
def entryRow (s : State) (p b w e : Nat) : Bytes :=
  let n := unitNo p b (e * w)
  let us := (List.range w).map fun i => tcamAt s (n + i)
  if (tcamAt s n).valid then
    bytesOf 4 0x80000000 ++ us.flatMap (fun u => bytesOf 10 u.value)
      ++ us.flatMap (fun u => bytesOf 10 u.mask) ++ us.flatMap (fun u => bytesOf 8 u.action)
      ++ zeros (4 * w - 4)
  else []

/-- The entry that a pipe's legacy write is in the middle of (R204: not yet counted). -/
def legacyOpen (s : State) (p b e : Nat) : Bool :=
  match (pipeAt s p).legacy with
  | l :: _ => l.bank == b && l.entry == e && l.progress != 0
  | [] => false

/-- The rows of a bank in legacy mode as a boundary finds them; one past its last entry is none (R201, R204). -/
def legacyRows (s : State) (t : Tbl Bytes) (g : Nat) : Tbl Bytes :=
  let p := g / 16
  let b := g % 16
  let lo := keyOf (0x4B00 + p) 1 (2048 * b)
  if !(countedLegacy s g && bankLegacy s g) then dropBank t g
  else
    let w := heldWidth s g
    (List.range (2048 / w)).foldl (fun t e =>
      if legacyOpen s p b e then t else tput [] t (lo + e) (entryRow s p b w e))
      (tdrop t (lo + 2048 / w) (lo + 2048))

/-- The RW values that count from a boundary on (R204). -/
def countLegacy (s : State) : State :=
  { s with digObjs := (List.range 128).foldl (legacyRows s) s.digObjs }

end Sys2Proof.Machine
end

