-- ==== Sys2Proof/Machine/Gates.lean ====
section
/-! DEFINITION. Time gates: lists in operation, instants, the hedge, the longest opening, and what the
validity of a time base does to them (R428 to R432, R476, R477). -/

namespace Sys2Proof.Machine

/-! ## The cycle of a list (R428) -/

/-- Entries of a cycle from a start: first nanosecond, end, states; cut at the cycle end, the last
entry's states holding until it. -/
def cycleFrom (cycle : Nat) : Nat → List Nat → List (Nat × Nat × Nat)
  | _, [] => []
  | start, r :: t =>
    let stop := start + r % 2 ^ 32
    if t = [] || cycle ≤ stop then [(start, cycle, bits r 39 32)]
    else (start, stop, bits r 39 32) :: cycleFrom cycle stop t

def cycleSegs (list : List Nat) (cycle : Nat) : List (Nat × Nat × Nat) := cycleFrom cycle 0 list

/-- The cycle moved by some nanoseconds. -/
def shiftSegs (d : Nat) (l : List (Nat × Nat × Nat)) : List (Nat × Nat × Nat) :=
  l.map fun e => (e.1 + d, e.2.1 + d, e.2.2)

/-- Lengths of the unbroken openings of a class along some entries. -/
def openRuns (k : Nat) (l : List (Nat × Nat × Nat)) : List Nat × Nat :=
  l.foldl (fun a e =>
    if bit e.2.2 k then (a.1, a.2 + (e.2.1 - e.1)) else (a.1 ++ [a.2], 0)) ([], 0)

/-- W(k): the longest opening, measured around the cycle end; none when the class never closes
(R431). -/
def longestOpen (list : List Nat) (cycle k : Nat) : Option Nat :=
  let c := cycleSegs list cycle
  if c.all fun e => bit e.2.2 k then none
  else
    let r := openRuns k (c ++ shiftSegs cycle c)
    some ((r.1 ++ [r.2]).foldl max 0)

/-- Gate-oversize of a frame of length n to a port in a version (R431). -/
def gateOversize (s : State) (v : VerCfg) (port k n : Nat) : Bool :=
  cfg v (0x7200 + port) 1 == 1 && decide (port < 130)
    && (match longestOpen (gateRows v port) (cfg v (0x7200 + port) 4) k with
        | some w => decide (w < ceilDiv (n * 8000) (portRate s port))
        | none => false)

/-! ## The list in operation (R429, R430, R432) -/

def gateAt (s : State) (n : Nat) : Gate := (portAt s n).gate
def modGate (s : State) (n : Nat) (f : Gate → Gate) : State :=
  modPort s n fun p => { p with gate := f p.gate }

def ahead32 (t now : Nat) : Nat := (t + 2 ^ 32 - now % 2 ^ 32) % 2 ^ 32

/-- The gate of a class is open in this beat. -/
def gateOpen (s : State) (n k : Nat) : Bool :=
  let g := gateAt s n
  !g.running || (match (cycleSegs g.list g.cycle)[g.entry]? with
    | some e => bit e.2.2 k
    | none => true)

/-- v of a time base some beats ahead, at the rate and slew in force (R472). -/
def readAhead (s : State) (t beats : Nat) : Int :=
  tbAfter (tbAt s t).v.toNat (tbRate s t) (tbSppm s t) (tbAt s t).slew beats

/-- The first nanosecond at or after a position in a list's cycle in which it closes a class, in this cycle or the
next. -/
def closesFrom (list : List Nat) (cycle k pos : Nat) : Option Nat :=
  let c := cycleSegs list cycle
  ((c ++ shiftSegs cycle c).find? fun e => decide (pos < e.2.1) && !bit e.2.2 k).map Prod.fst

/-- A list whose cycle starts at nanosecond `zero` of its time base keeps a class open from a position in the cycle
through the reading of some beat ahead. -/
def staysOpen (s : State) (tb : Nat) (zero : Int) (list : List Nat) (cycle k pos beats : Nat) : Bool :=
  match closesFrom list cycle k pos with
  | none => true
  | some c => decide (readAhead s tb beats < (zero + c) * 2 ^ 64)

/-- Nanoseconds until a time base reaches an instant; 0 when it has. -/
def untilNs (s : State) (tb t : Nat) : Nat := if reached32 (tbNs s tb) t then 0 else ahead32 t (tbNs s tb)

/-- The least beat between two, by halving, that a property has which stays once it holds; the upper one when none
before it has it. -/
def firstBeat (holds : Nat → Bool) : Nat → Nat → Nat → Nat
  | 0, _, hi => hi
  | f + 1, lo, hi =>
    if hi ≤ lo then hi
    else
      let m := (lo + hi) / 2
      if holds m then firstBeat holds f lo m else firstBeat holds f (m + 1) hi

/-- The list in operation keeps a class open through some beats ahead. -/
def runStaysOpen (s : State) (g : Gate) (k beats : Nat) : Bool :=
  let pos := ahead32 (tbNs s g.tb) g.cycleStart
  !g.running || staysOpen s g.tb ((tbNs s g.tb : Int) - pos) g.list g.cycle k pos beats

/-- A frame of d beats may start: the gate is open and stays open through its last beat, a change time cutting in
with the new list on its own time base (R430). -/
def gateAllows (s : State) (n k d : Nat) : Bool :=
  let g := gateAt s n
  match g.change with
  | none => gateOpen s n k && runStaysOpen s g k (d - 1)
  | some (t, tb, cycle, _, list) =>
    let left := untilNs s tb t
    let zero : Int := tbNs s tb + left
    let j := firstBeat (fun b => decide (zero * 2 ^ 64 ≤ readAhead s tb b)) 32 0 d
    (j == 0 || (gateOpen s n k && runStaysOpen s g k (min d j - 1)))
      && (decide (d ≤ j) || staysOpen s tb zero list cycle k 0 (d - 1))

/-- The change time of a list (R429). -/
def changeTime (now base cycle : Nat) : Nat :=
  let x := (now + 10000 + 2 ^ 32 - base % 2 ^ 32) % 2 ^ 32
  if 2 ^ 31 ≤ x then base else (base + ceilDiv x cycle * cycle) % 2 ^ 32

/-- Every gate open because the time base is not valid; GATE_TB_LOST once (R432). -/
def gateTbLost (s : State) (n : Nat) (f : Gate → Gate) : State :=
  let was := (gateAt s n).lost
  let s := modGate s n fun g => { f g with lost := true }
  if was then s else raiseEv s evGateTbLost n []

/-- The gate objects of the current version wait for their change time (R429, R432). -/
def gateCommit (s : State) (n : Nat) : State :=
  let v := curVer s
  let o := 0x7200 + n
  if cfg v o 1 = 0 then modGate s n fun _ => Gate.init
  else
    let tb := cfg v o 2
    if tbValid s tb then
      modGate s n fun g => { g with
        lost := false,
        change := some (changeTime (tbNs s tb) (cfg v o 3) (cfg v o 4), tb, cfg v o 4, v.num,
                        gateRows v n) }
    else gateTbLost s n fun g => { g with running := false, change := none }

/-- A version changes the gate objects of a port. -/
def gateChanged (a b : VerCfg) (n : Nat) : Bool :=
  (List.range 4).any (fun i => cfg a (0x7200 + n) (i + 1) != cfg b (0x7200 + n) (i + 1))
    || cfgRows a (0x7200 + n) 5 != cfgRows b (0x7200 + n) 5

def gatesCommit (s : State) (old : VerCfg) : State :=
  (List.range 130).foldl (fun s n =>
    if gateChanged old (curVer s) n then gateCommit s n else s) s

/-- The reading of a time base has reached an instant (R54). -/
def tbReached (s : State) (t at0 : Nat) : Bool := reached32 (tbNs s t) at0

/-- The instant after entry e of the cycle that starts at a time. -/
def instantAfter (list : List Nat) (cycle start e : Nat) : Nat :=
  match (cycleSegs list cycle)[e]? with
  | some x => (start + x.2.1) % 2 ^ 32
  | none => (start + cycle) % 2 ^ 32

/-- The new list starts at entry 0 at its change time. -/
def gateStart (s : State) (n : Nat) : State :=
  match (gateAt s n).change with
  | none => s
  | some (t, tb, cycle, num, list) =>
    if tbValid s tb && tbReached s tb t then
      let s := modGate s n fun _ =>
        { running := true, version := num, tb := tb, cycle := cycle, list := list, entry := 0,
          cycleStart := t, next := instantAfter list cycle t 0, change := none, lost := false }
      raiseEv s evGateStarted n [num, t]
    else s

/-- The next entry, or the next cycle. -/
def gateAdvance (s : State) (n : Nat) : State :=
  let g := gateAt s n
  if g.running && tbReached s g.tb g.next then
    let last := decide ((cycleSegs g.list g.cycle).length ≤ g.entry + 1)
    let start := if last then (g.cycleStart + g.cycle) % 2 ^ 32 else g.cycleStart
    let e := if last then 0 else g.entry + 1
    modGate s n fun g =>
      { g with entry := e, cycleStart := start, next := instantAfter g.list g.cycle start e }
  else s

/-- Ports whose gates a list governs. -/
def gatedPorts (s : State) : List Nat :=
  (s.ports.filter fun e => e.2.gate != Gate.init).map Prod.fst

/-- A time base stops being valid: its lists stop. -/
def gatesLose (s : State) (t : Nat) : State :=
  (gatedPorts s).foldl (fun s n =>
    let g := gateAt s n
    let next := match g.change with | some (_, tb, _) => tb == t | none => false
    if (g.running && g.tb == t) || next then
      -- the base of a list that waits times the port's gates as much as that of the list in operation (R432)
      gateTbLost s n fun g => { g with running := false, change := if next then none else g.change }
    else s) s

/-- A time base becomes valid: the lists that had lost it start again. -/
def gatesRegain (s : State) (t : Nat) : State :=
  (gatedPorts s).foldl (fun s n =>
    if (gateAt s n).lost && cfg (curVer s) (0x7200 + n) 2 == t then gateCommit s n else s) s

/-! ## The commands' meanings -/

/-- GATE_LIST_STARTED (R429). -/
def rowGateListStarted (node : Nat) (s : State) : State :=
  whenRun s fun s => gateStart s node

/-- GATE_INSTANT (R430). -/
def rowGateInstant (node : Nat) (s : State) : State :=
  whenRun s fun s => gateAdvance s node

/-- TB_VALID (R476): at the second tick boundary after the enable. -/
def rowTbValid (tb : Nat) (s : State) : State :=
  whenRun s fun s =>
    guardS ((tbAt s tb).state == .settling && decide (2 ≤ (tbAt s tb).boundaries)) s fun s =>
      gatesRegain (tbBecomeValid s tb) tb

/-- A time base becomes DISABLED, and its gate lists stop (R477, R432). -/
def tbStops (s : State) (tb : Nat) : State :=
  if (tbAt s tb).state = .disabled then s else gatesLose (tbStop tb s) tb

/-- TB_DISABLE (R477). -/
def rowTbDisable (src : Origin) (tb : Nat) (s : State) : State :=
  writeCmd s src (0x2000 + tb) 1 noRow [0] (tbDisable tb)

end Sys2Proof.Machine
end

