-- ==== Sys2Proof/Machine/Sched.lean ====
section
/-! DEFINITION. The scheduling tree: rows in force, buckets, readiness, the choice of the next frame,
charges and credits, and the writes of the tables of chapter 12 (R410 to R422, R434, R435). -/

namespace Sys2Proof.Machine

/-! ## Rows (R433 to R435) -/

def nodeLevel (k : Nat) : Nat := k / 2 ^ 17
def nodeIndex (k : Nat) : Nat := k % 2 ^ 17

/-- The stored row of a node; a removed row reads as its default. -/
def nodeRow (s : State) (k : Nat) : Bytes :=
  let r := stored s 0x7000 (nodeLevel k + 1) (nodeIndex k)
  if r = [] then defaultAt 0x7000 (nodeLevel k + 1) (nodeIndex k) else r

/-- The row that the scheduler follows: a queued write has not replaced it yet (R435). -/
def liveRow (s : State) (k : Nat) : Bytes :=
  match s.buf.schedQ.find? fun w => w.node == k && w.row.isSome with
  | some w => w.old
  | none => nodeRow s k

def rowCir (r : Bytes) : Nat := natAt r 0 4
def rowCirBurst (r : Bytes) : Nat := natAt r 4 3
def rowPrio (r : Bytes) : Nat := byteAt r 7 / 32
def rowPir (r : Bytes) : Nat := natAt r 8 4
def rowPirBurst (r : Bytes) : Nat := natAt r 12 3
def rowWeight (r : Bytes) : Nat := byteAt r 15

/-- Units of a level: 10^-7 byte (R418). -/
def levelUnit : Nat := 10000000

/-- One beat of a bucket (R418). -/
def gain (level : Int) (rate burst : Nat) : Int :=
  if rate = 0 then level else min ((burst * levelUnit : Nat) : Int) (level + rate)

/-- Nodes with a row other than its default, or a queued write. -/
def rowedNodes (s : State) : List Nat :=
  let lo := keyOf 0x7000 1 0
  let hi := keyOf 0x7000 5 0
  ((trange s.objs lo hi).map fun e => nodeKey (keySub e.1 - 1) (keyRow e.1))
    ++ (distinct (s.buf.schedQ.map SchedWrite.node)).filter fun k =>
        (tfind s.objs (keyOf 0x7000 (nodeLevel k + 1) (nodeIndex k))).isNone

/-- Every bucket in use gains its rate (R418); a beat's work. -/
def gainAll (s : State) : State :=
  (rowedNodes s).foldl (fun s k =>
    let r := liveRow s k
    modNode s k fun x => { x with cir := gain x.cir (rowCir r) (rowCirBurst r),
                                  pir := gain x.pir (rowPir r) (rowPirBurst r) }) s

/-! ## Frame lengths (R176, R422, R430, R453) -/

/-- M: the smaller of the MTUs of ingress and egress port (R176); host nodes have none. -/
def cutMtu (s : State) (inNode outNode : Nat) : Nat :=
  let m := rw s (0x3100 + outNode) 12
  if inNode < 130 then min (rw s (0x3100 + inNode) 12) m else m

/-- A frame's length as it leaves, FCS included, with the SecTAG and ICV that its port adds. A frame
that cuts through is taken at M (R420, R430). -/
def leaveLen (s : State) (k : Pkt) : Nat :=
  let n := decNode k.dec
  let len := if k.out.cut then cutMtu s k.node n else k.out.sent.length
  len + protectAdds s n (natAt k.out.sent 12 2)

/-- n of R422: with the egress port's overhead. -/
def frameN (s : State) (k : Pkt) : Nat :=
  withOverhead (leaveLen s k) (overhead s (decNode k.dec) s.rm.tick)

/-- d(n) of R430. -/
def frameBeats (s : State) (node n : Nat) : Nat := ceilDiv (n * 10000) (portRate s node)

/-! ## Readiness (R369, R415, R430, R456) -/

def paused (s : State) (n k : Nat) : Bool := decide (s.beat < tget 0 (portAt s n).pauseEnd k)

/-- The head frame of a queue. -/
def headOf (s : State) (q : Nat) : Option Pkt := (queueAt s q).head?.bind (pktAt s)

/-- A front or management port may send: UP and not in QUIET, in link state NORMAL, its
transmit not held. -/
def maySend (s : State) (n : Nat) : Bool :=
  isUp s n && !(portAt s n).lpi && (portAt s n).link == 0 && decide (txState s n ≤ 1)

/-- The frame may start at once, but for the shapers (R415): its way through the egress half is over
(R82, R83). -/
def frameReady (s : State) (n : Nat) (k : Pkt) : Bool :=
  let cls := k.out.qid % 8
  (k.tailDone || k.out.cut) && k.bad == 0 && due s k.due && !paused s n cls
    && gateAllows s n cls (frameBeats s n (frameN s k))

def queueReady (s : State) (n q : Nat) : Bool :=
  match headOf s q with
  | some k => decNode k.dec == n && frameReady s n k
  | none => false

/-- Queues of a port node whose head frame may start at once. -/
def openQueues (s : State) (n : Nat) : List Nat := (busyQueues s).filter (queueReady s n)

/-- The queue of a frame that cuts through and is on its way to the MAC: the scheduler has let it start
at its egress entry (R82, R377). -/
def cutQueue (s : State) (n : Nat) : Option Nat :=
  (busyQueues s).find? fun q => match headOf s q with
    | some k => k.out.cut && decNode k.dec == n
    | none => false

/-- The ready queues among which a port node chooses. -/
def readyQueues (s : State) (n : Nat) : List Nat :=
  match cutQueue s n with
  | some q => if queueReady s n q then [q] else []
  | none => openQueues s n

/-! ## The choice (R415 to R417) -/

/-- A bucket that is in use is below 0: no frame starts through the node. -/
def inDebt (s : State) (t : Tbl Node) (k : Nat) : Bool :=
  rowPir (liveRow s k) != 0 && decide ((tget Node.init t k).pir < 0)

def committed (s : State) (t : Tbl Node) (k : Nat) : Bool :=
  rowCir (liveRow s k) != 0 && decide (0 ≤ (tget Node.init t k).cir)

/-- A child that is not BLOCKED: its number, the queue whose head it would send, that frame's length,
and the nodes after the choices beneath it. -/
structure Kid where
  child : Nat
  queue : Nat
  len : Nat
  nodes : Tbl Node

/-- The loop of R417 over (child, length, quantum) in rising order: deficits that changed, pointer. -/
def dwrr (kids : List (Nat × Nat × Nat)) (deficit : Nat → Nat) :
    Nat → Tbl Nat → Nat → Option (Nat × Tbl Nat × Nat)
  | 0, _, _ => none
  | f + 1, ds, ptr =>
    match (kids.find? fun e => decide (ptr ≤ e.1)).or kids.head? with
    | none => none
    | some (c, n, q) =>
      let d := (tfind ds c).getD (deficit c)
      if n ≤ d then some (c, tins ds c (d - n), ptr)
      else dwrr kids deficit f (tins ds c (d + q)) (c + 1)

/-- The choice among the children of a node, whose level is given (R416). -/
def chooseKid (s : State) (t : Tbl Node) (parent level : Nat) (kids : List Kid) : Option Kid :=
  let key := nodeKey level
  let com := kids.filter fun c => committed s t (key c.child)
  let kids := if com.isEmpty then kids else com
  let prio := fun (c : Kid) => rowPrio (liveRow s (key c.child))
  let top := kids.foldl (fun a c => max a (prio c)) 0
  let kids := kids.filter fun c => prio c == top
  let list := kids.map fun c => (c.child, c.len, rowWeight (liveRow s (key c.child)) * 256)
  match dwrr list (fun c => (tget Node.init t (key c)).deficit) (80 * list.length) []
      (tget 0 (tget Node.init t parent).pointers top) with
  | none => none
  | some (c, ds, ptr) =>
    (kids.find? fun x => x.child == c).map fun x =>
      let t := ds.foldl (fun t e => tmod Node.init t (key e.1) fun y => { y with deficit := e.2 })
        x.nodes
      { x with nodes := tmod Node.init t parent fun y =>
          { y with pointers := tput 0 y.pointers top ptr } }

/-- The queue that a subscriber node would send from. -/
def chooseSub (s : State) (t : Tbl Node) (ready : List Nat) (sub : Nat) : Option Kid :=
  if inDebt s t (nodeKey 1 sub) then none
  else
    let qs := ready.filter fun q => q / 8 == sub && !inDebt s t (nodeKey 0 q)
    (chooseKid s t (nodeKey 1 sub) 0 (qs.map fun q =>
      { child := q, queue := q, len := ((headOf s q).map (frameN s)).getD 0, nodes := t })).map
      fun c => { c with child := sub }

def chooseSvc (s : State) (t : Tbl Node) (ready : List Nat) (svc : Nat) : Option Kid :=
  if inDebt s t (nodeKey 2 svc) then none
  else
    let subs := (distinct (ready.map (· / 8))).filter fun b => subSvc s b == svc
    (chooseKid s t (nodeKey 2 svc) 1 (subs.filterMap (chooseSub s t ready))).map
      fun c => { c with child := svc }

/-- The queue that a port node chooses among its ready queues, with the nodes after the choice
(R416). -/
def choosePort (s : State) (n : Nat) (ready : List Nat) : Option Kid :=
  let t := s.buf.nodes
  if inDebt s t (nodeKey 3 n) then none
  else
    let svcs := (distinct (ready.map fun q => subSvc s (q / 8))).filter fun v => svcNode s v == some n
    chooseKid s t (nodeKey 3 n) 2 (svcs.filterMap (chooseSvc s t ready))

/-! ## Charges and credits (R419, R420) -/

/-- The nodes on a queue's path to a port node. -/
def pathOf (s : State) (n q : Nat) : List Nat :=
  [nodeKey 0 q, nodeKey 1 (q / 8), nodeKey 2 (subSvc s (q / 8)), nodeKey 3 n]

/-- Charge a frame of length n to one node: which buckets it charged. -/
def chargeNode (s : State) (k n : Nat) : State × (Nat × Bool × Bool) :=
  let r := liveRow s k
  let c := rowCir r != 0 && decide (0 ≤ (nodeAt s k).cir)
  let p := rowPir r != 0
  let u : Int := (n * levelUnit : Nat)
  (modNode s k fun x => { x with cir := if c then x.cir - u else x.cir,
                                 pir := if p then x.pir - u else x.pir }, (k, c, p))

def chargePath (s : State) (ks : List Nat) (n : Nat) : State × List (Nat × Bool × Bool) :=
  ks.foldl (fun a k => let (s, e) := chargeNode a.1 k n; (s, a.2 ++ [e])) (s, [])

/-- Credit the buckets and deficits that a cut-through frame charged beyond what it sent. -/
def creditFrame (s : State) (k : Pkt) (n : Nat) : State :=
  let d := k.out.charged - n
  let u : Int := (d * levelUnit : Nat)
  let s := k.out.path.foldl (fun s e =>
    let r := liveRow s e.1
    modNode s e.1 fun x =>
      { x with
        cir := if e.2.1 && rowCir r != 0 then min ((rowCirBurst r * levelUnit : Nat) : Int) (x.cir + u)
          else x.cir,
        pir := if e.2.2 && rowPir r != 0 then min ((rowPirBurst r * levelUnit : Nat) : Int) (x.pir + u)
          else x.pir,
        deficit := if nodeLevel e.1 < 3 then x.deficit + d else x.deficit }) s
  settleDeficits s k.out.qid

/-! ## Table writes (R421, R434, R435) -/

/-- A row that R434 accepts. -/
def nodeRowOk (r : Bytes) : Bool :=
  r == [] || (rowWeight r != 0 && decide (rowCir r ≤ 400000000) && decide (rowPir r ≤ 400000000))

/-- A level after a change of rate and burst (R421). -/
def changeLevel (level : Int) (rate rate' burst' : Nat) : Int :=
  if rate' = 0 then 0
  else if rate = 0 then ((burst' * levelUnit : Nat) : Int)
  else min ((burst' * levelUnit : Nat) : Int) level

/-- The change point of a queued write. -/
def applySched (s : State) (w : SchedWrite) : State :=
  match w.row with
  | none => modNode s w.node fun x => { x with cir := max 0 x.cir, pir := max 0 x.pir }
  | some row =>
    let r := if row = [] then defaultAt 0x7000 (nodeLevel w.node + 1) (nodeIndex w.node) else row
    modNode s w.node fun x =>
      { x with cir := changeLevel x.cir (rowCir w.old) (rowCir r) (rowCirBurst r),
               pir := changeLevel x.pir (rowPir w.old) (rowPir r) (rowPirBurst r) }

/-- The port node that serves a node, for the egress half that applies its writes (R435). -/
def servedBy (s : State) (k : Nat) : Option Nat :=
  let i := nodeIndex k
  if nodeLevel k = 0 then svcNode s (subSvc s (i / 8))
  else if nodeLevel k = 1 then svcNode s (subSvc s i)
  else if nodeLevel k = 2 then svcNode s i
  else some i

def schedPipe (s : State) (k : Nat) : Nat := ((servedBy s k).map nodePipe).getD 0

/-- Queue a write; none when the queue of 1,024 is full. -/
def queueSched (s : State) (k : Nat) (row : Option Bytes) : Option State :=
  if 1024 ≤ s.buf.schedQ.length then none
  else
    let last := (s.buf.schedQ.filter fun w => w.node == k && w.row.isSome).getLast?
    let old := match last.bind SchedWrite.row with
      | some r => if r = [] then defaultAt 0x7000 (nodeLevel k + 1) (nodeIndex k) else r
      | none => nodeRow s k
    some { s with buf := { s.buf with
      schedQ := s.buf.schedQ ++ [{ node := k, row := row, old := old }] } }

/-- SCHED_ROW_WRITE's effect: level 0 queue, 1 subscriber, 2 service, 3 port. -/
def schedRow (level index : Nat) (row : Bytes) (s : State) : Option State :=
  if !nodeRowOk row then none
  else (queueSched s (nodeKey level index) (some row)).map fun s =>
    setRw s 0x7000 (level + 1) index row

/-- The nodes of a level (R410). -/
def levelSize (level : Nat) : Nat := [65536, 8192, 1024, 136].getD level 0

def schedClear (value : Nat) (s : State) : Option State :=
  let level := bits value 31 30
  let i := bits value 16 0
  if i < levelSize level then queueSched s (nodeKey level i) none else none

/-! ## The commands' meanings -/

def rowSchedRowWrite (src : Origin) (level index : Nat) (row : Bytes) (s : State) : State :=
  writeCmd s src 0x7000 (level + 1) index row (schedRow level index row)

def rowSchedClearDebt (src : Origin) (value : Nat) (s : State) : State :=
  writeCmd s src 0x7000 5 noRow (bytesOf 4 value) (schedClear value)

end Sys2Proof.Machine
end

