-- ==== Sys2Proof/Machine/VersionCommit.lean ====
section
/-! DEFINITION. The ringmaster's schedule (R52 to R60), the commit of a version at a tick boundary
(R58, R61, R182, R187, R191, R210) and the comparison of digests (R208). -/

namespace Sys2Proof.Machine

/-! ## The ringmaster's schedule -/

/-- floor(1,250,000,000 / R): the nominal beats of a tick. -/
def tickBeats (rate : Nat) : Nat := 1250000000 / rate

/-- The time base that `tick.source` selects (R53). -/
def tickSource (s : State) : Option Nat :=
  let n := rw s 0x2800 2
  if n = 0 then none else some (n - 1)

def tickAnchor (s : State) : Nat := rw s 0x2800 3

/-- t(j, k) of R53. -/
def lockedValue (s : State) (j k rate : Nat) : Nat :=
  (tickAnchor s + j * 1000000000 + k * 1000000000 / rate) % 2 ^ 32

/-- The first boundary of R53 after a place in a second. -/
def boundaryAfter (j pos rate : Nat) : Nat × Nat :=
  let k := ceilDiv ((pos + 1) * rate) 1000000000
  if k < rate then (j, k) else (j + 1, 0)

/-- The boundary of R53 that follows one. -/
def nextLocked (j k rate : Nat) : Nat × Nat := if k + 1 < rate then (j, k + 1) else (j + 1, 0)

/-- The boundary of the schedule in force falls in this beat or has passed (R54 to R57). -/
def boundaryDue (s : State) : Bool :=
  let r := s.rm
  if r.mode = .free then due s (r.b0 + r.k * 1250000000 / r.rate)
  else if r.lost then due s (max (r.boundaryBeat + tickBeats r.rate) r.notBefore)
  else match tickSource s with
    | none => due s (r.boundaryBeat + tickBeats r.rate)
    | some t => due s r.notBefore && reached32 (tbNs s t) (lockedValue s r.j r.kk r.rate)

/-- A LOCKED value that its beat reaches before the tick may end is passed over (R56, R58). -/
def passEarly (s : State) : State :=
  let r := s.rm
  match tickSource s with
  | none => s
  | some t =>
    if r.mode != .free && !r.lost && !due s r.notBefore
        && reached32 (tbNs s t) (lockedValue s r.j r.kk r.rate) then
      let (j, k) := nextLocked r.j r.kk r.rate
      { s with rm := { r with j := j, kk := k } }
    else s

/-- The next tick is a joining one when the selected time base is valid (R56). -/
def joinNext (s : State) : State :=
  match tickSource s with
  | none => s
  | some t =>
    if !tbValid s t then s
    else
      let e := (tbNs s t + 2 ^ 32 - tickAnchor s) % 2 ^ 32
      let (j, k) := boundaryAfter (e / 1000000000) (e % 1000000000) s.rm.rate
      { s with rm := { s.rm with mode := .joining, j := j, kk := k,
                                 notBefore := s.beat + tickBeats s.rm.rate } }

/-- The schedule passes a boundary: its next boundary, and the state in the tick that begins
(R53 to R57). -/
def passBoundary (s : State) : State :=
  let r := s.rm
  if r.mode = .free then joinNext { s with rm := { r with k := r.k + 1 } }
  else if r.lost || (tickSource s).isNone then
    let s := { s with rm := { r with mode := .free, b0 := s.beat, k := 1, lost := false } }
    raiseEv s evTickLost 0 []
  else
    let joined := r.mode == .joining
    let (j, k) := nextLocked r.j r.kk r.rate
    let s := { s with rm := { r with mode := .locked, j := j, kk := k } }
    if joined then raiseEv s evTickJoined 0 [] else s

/-- The first tick at a new rate begins (R58). -/
def changeRate (s : State) (rate : Nat) : State :=
  if rate = s.rm.rate then s
  else
    let r := { s.rm with rate := rate }
    match r.mode with
    | .free => { s with rm := { r with b0 := s.beat, k := 1 } }
    | _ =>
      let old := if r.kk = 0 then (r.j - 1, s.rm.rate - 1) else (r.j, r.kk - 1)
      let pos := old.2 * 1000000000 / s.rm.rate
      let (j, k) := boundaryAfter old.1 pos rate
      { s with rm := { r with j := j, kk := k, notBefore := s.beat + tickBeats rate } }

/-! ## The comparison of digests (R208) -/

/-- The comparison of a boundary, while the current version expects a digest. -/
def compareDigest (s : State) : State :=
  let want := natOf (cfgRow s.digVer 0x1500 2 noRow)
  if want = 0 then s
  else
    let have_ := configDigest s
    let put := fun (b : Bool) => { s with ver := { s.ver with compared := some b } }
    if have_ = want then
      (if s.ver.compared = some false then raiseEv (put true) evAgreed 0 [have_, want, s.digVer.num]
       else put true)
    else if s.ver.compared = some false then s
    else raiseEv (put false) evDiverged 0 [have_, want, s.digVer.num]

/-! ## Commit (R61 step 2, R182, R187, R191, R210) -/

/-- The version becomes current: the slot that it supersedes drains; the history, the digest's
configuration, the tick rate, the gates and the current boundary follow. -/
def makeCurrent (s : State) (q : Sealed) (k : Nat) : State :=
  let old := curVer s
  let s := modSlot s s.ver.current fun x => { x with state := .draining }
  let s := modSlot s k fun x => { x with state := .current }
  let s := { s with
    ver := { s.ver with current := k, committedAt := none,
                        pending := s.ver.pending.filter fun x => x.ver.num != q.ver.num },
    rm := { s.rm with bounds := match s.rm.bounds with
      | b :: t => { b with ver := q.ver } :: t
      | [] => [] },
    digVer := q.ver }
  let row : History := { num := q.ver.num, slot := k, causes := q.causes, target := q.target,
                         commitTick := s.rm.tick, digest := configDigest s }
  let s := { s with ver := { s.ver with history := (row :: s.ver.history).take 64 } }
  let s := changeRate s (tickRate q.ver)
  raiseEv (gatesCommit s old) evCommitted 0 [q.ver.num]

/-- The version that the boundary has taken commits, and the digest is compared (R61, R208). -/
def commitDueVersion (s : State) : State :=
  match s.ver.committedAt with
  | none => s
  | some num =>
    match s.ver.pending.find? fun q => q.ver.num == num with
    | some q => match q.slot with
      | some k => compareDigest (makeCurrent s q k)
      | none => { s with ver := { s.ver with committedAt := none } }
    | none => { s with ver := { s.ver with committedAt := none } }

/-- VERSION_COMMIT (R191): in the boundary that has taken a version. -/
def rowVersionCommit (s : State) : State :=
  whenRun s commitDueVersion

end Sys2Proof.Machine
end

