-- ==== Sys2Proof/Machine/Frames.lean ====
section
/-! DEFINITION. Frames on their way in: the MAC, pass 1, the tail, the policers and the egress entry
(R29 to R31, R80, R95, R96, R116 to R148, R158 to R166, R177, R178, R338, R364, R374 to R379, R385,
R386, R411, R423 to R427, R431, R554). -/

namespace Sys2Proof.Machine

/-! ## Receive stamps (R483, R484) -/

/-- A reading moved by some picoseconds: epoch, and 1/256 ns within it, halves rounded up. -/
def stampPs (b : TimeBase) (ps : Int) : Nat × Nat :=
  let a : Int := ((b.epoch.toNat * 2 ^ 96 + b.v.toNat : Nat) : Int) * 1000 + ps * 2 ^ 64
  let d : Int := 1000 * 2 ^ 56
  let x := (((2 * a + d) / (2 * d)) % 2 ^ 72).toNat
  (x / 2 ^ 40, x % 2 ^ 40)

/-- A stamp: its beat, whole nanoseconds, 1/256 ns, time base, valid. -/
structure Stamp where
  beat : Nat
  ns : Nat
  frac : Nat
  tb : Nat
  valid : Bool

def Stamp.none : Stamp := { beat := 0, ns := 0, frac := 0, tb := 0, valid := false }

/-- The stamp of a delimiter's bit `phase` ps before the reading of a beat (R484). -/
def stampFrom (s : State) (n phase beat t adjust : Nat) (b : TimeBase × Bool) : Stamp :=
  let p := portAt s n
  let ps : Int := signed 32 adjust - (((delayPs p.modeActive p.fecActive).1 + phase : Nat) : Int)
  let x := (stampPs b.1 ps).2
  { beat := beat, ns := x / 256, frac := x % 256, tb := t, valid := b.2 }

/-- The receive stamp of a frame whose delimiter's bit lies `phase` ps before this beat's reading. -/
def rxStamp (s : State) (n phase : Nat) : Stamp :=
  if 130 ≤ n || !rwBool s (0x2100 + n) 2 then Stamp.none
  else
    let t := rw s (0x2100 + n) 1
    stampFrom s n phase s.beat t (rw s (0x2100 + n) 3) (tbAt s t, tbValid s t)

/-- The receive stamp of a frame whose last byte has come: its delimiter came the frame's time on the wire earlier,
and the reading and the objects of that beat make the stamp (R484, R496; log entry 171). -/
def rxStampThen (s : State) (n phase bytes : Nat) : Stamp :=
  let beat := s.beat - bytes * 10000 / portRate s n
  if 130 ≤ n || ptpThen s n 2 beat = 0 then Stamp.none
  else
    let t := ptpThen s n 1 beat
    stampFrom s n phase beat t (ptpThen s n 3 beat) (tbThen s t beat)

/-! ## The parse of a frame -/

/-- A frame as it reaches a MAC: what a transmit descriptor gives comes with host frames. -/
structure Arrival where
  node : Nat
  frame : Bytes
  stamp : Stamp
  /-- SecTAG verified (R127). -/
  macsec : Bool
  /-- The frame comes from the MACsec staging cells (R446). -/
  staged : Bool
  exactEcc : Ecc
  /-- Class that the descriptor gives (R364). -/
  cls : Option Nat
  /-- DIRECT: port node and queue class (R533). -/
  direct : Option (Nat × Nat)
  tx : Option TxInfo

def parseCtx (s : State) (v : VerCfg) (frame : Bytes) : ParseCtx :=
  { frame := frame, fin := frame.length - 4, tpidExtra := cfg v 0x4000 4, cwNext := cfg v 0x4000 5,
    udp905 := cfg v 0x4000 6, graph := verGraph s v }

/-- The packet vector (R130, R133); the fields of the tail stay zero. -/
def vecOf (k : Pkt) (p : ParseState) (all : Bool) (status : Nat) : Bytes :=
  p.vec.take 128 ++ bytesOf 2 k.node ++ bytesOf 1 status
    ++ bytesOf 1 (p.cls * 32 + excBits p all) ++ bytesOf 8 k.inBeat ++ zeros 8
    ++ bytesOf 4 k.stampNs ++ bytesOf 1 k.stampFrac
    ++ bytesOf 1 (b2n k.stampValid * 128 + k.stampTb) ++ zeros 2
    ++ bytesOf 4 (parseSummary p all) ++ headerList p

/-- The vector with what the tail window gives: the graph's tail extractions and the PRP trailer
(R117, R126). -/
def fullVec (c : ParseCtx) (prp : Bool) (k : Pkt) (p : ParseState) (status : Nat) : Bytes :=
  let b := (tailExtracts c.graph).foldl (fun b e =>
    if e.1 ≤ c.fin then splice b e.2.2 (slice c.frame (c.fin - e.1) e.2.1) else b)
    (vecOf k p true status)
  match (if prp then prpTrailer c p else none) with
  | some (x, y) => putNat (putNat (putNat b 24 2 x) 26 2 y) 130 1 (setBit status 2 true)
  | none => b

/-- The vector after the tail (R117, R118, R133, R134): completed, with the tail's own fields. The header list of a
frame that has left the editor stands as that leaves it. -/
def tailVec (k : Pkt) : Bytes :=
  let v := if k.stage == .queued || k.stage == .sending then splice k.full 160 (k.vec.drop 160) else k.full
  let status := setBit (setBit (byteAt v 130) 5 true) 1 (k.bad == 1)
  putNat (putNat (putNat v 130 1 status) 140 8 k.tailBeat) 154 2 k.bytes.length

/-- The frame's SecTAG was verified (R134). -/
def vecMacsec (vec : Bytes) : Bool := bit (byteAt vec 130) 3

/-! ## Ingress class, limits, diversion, overflow (R364, R96, R554, R374) -/

/-- The ingress class of a frame (R364). -/
def ingressClass (s : State) (a : Arrival) (p : ParseState) : Nat :=
  match a.cls with
  | some k => k
  | none =>
    let o := 0x6100 + a.node
    let trust := rw s o 3
    let dflt := rw s o 4
    if trust = 1 then
      match outerTag p.hdrs with
      | some h => rw s o 5 >>> (3 * (byteAt a.frame h.2 / 32)) % 8
      | none => dflt
    else if trust = 2 then
      match p.hdrs.find? fun h => h.1 == 6 || h.1 == 7 with
      | some h =>
        let d := if h.1 = 6 then byteAt a.frame (h.2 + 1) / 4 else natAt a.frame h.2 2 / 64 % 64
        byteAt (rwBytes s o 6) d % 8
      | none => dflt
    else dflt

/-- The MAC's limit (R96). -/
def frameLimit (s : State) (n : Nat) : Nat :=
  if n < 130 then rw s (0x3100 + n) 12 + (if macRxOn s n then 16 else 0) else 65535

/-- A frame that the MAC diverts to the management processor (R554). -/
def isDiverted (s : State) (n : Nat) (f : Bytes) : Bool :=
  let tag := natAt f 12 2 == 0x8100 || natAt f 12 2 == 0x88A8
  let type := natAt f (if tag then 16 else 12) 2
  ((128 ≤ n && n < 130) || (decide (n < 128) && bitOf (rwBytes s 0x1100 6) n))
    && natAt f 0 6 == Config.macBase.toNat && (type == 0x0800 || type == 0x86DD || type == 0x0806)

/-- A pause or PFC frame as a MAC recognises it. -/
def isControl (f : Bytes) : Bool :=
  f.length == 64 && natAt f 0 6 == 0x0180C2000001 && natAt f 12 2 == 0x8808
    && (natAt f 14 2 == 0x0001 || natAt f 14 2 == 0x0101) && fcsOf (f.take 60) == f.drop 60

/-- A headroom overflow: the frame is discarded, and the port, or the port and class, freezes (R374). -/
def headroomOverflow (s : State) (n k : Nat) : State :=
  let s := count s (cPort n 13) 1
  if rw s (0x6100 + n) 0x0E = 0 then
    freezeMaster (modPort s n fun p => { p with frozen := true }) 1 0xFF n
  else freezeMaster (modPort s n fun p => { p with frozenCls := setBit p.frozenCls k true }) 1 k n

/-! ## Pass 1 (R29, R31, R140 to R166, R385) -/

/-- The packet as its start-of-frame finds it. -/
def newPkt (s : State) (a : Arrival) (cls cells : Nat) : Pkt :=
  { id := s.nextPkt, node := a.node, cls := cls, vslot := s.ver.current, vnum := (curVer s).num,
    bytes := a.frame, inBeat := s.beat, tailBeat := 0, tick := s.rm.tick, stampBeat := a.stamp.beat, stampNs := a.stamp.ns,
    stampFrac := a.stamp.frac, stampTb := a.stamp.tb, stampValid := a.stamp.valid, vec := zeros 192, full := zeros 192,
    exc := [], excWord := 0, policy := 0, tailDone := false, bad := 0,
    dec := Decision.none, policer := none, colour := 0, search := none, lateStart := false, mirror := none, hits := [], cells := cells,
    given := 0, stage := .gone, due := 0, holds := false, flow := FlowPart.none, out := OutPart.none,
    tx := a.tx }

/-- The decision after a parser policy (R142). -/
def applyPolicy (v : VerCfg) (n : Nat) (d : Decision) (policy : Nat) : Decision :=
  if policy = 1 then defaultDecision v n
  else if policy = 2 then { Decision.none with kind := 3 }
  else if policy = 3 then
    { Decision.none with kind := 4, ring := cfg v (0x4100 + n) 2, reason := 3 }
  else d

/-- Every entry that hit counts the hit (R160). -/
def countHits (s : State) (hits : List Nat) (tick : Nat) : State :=
  hits.foldl (fun s r => countEntry s r 1 0 0 tick) s

/-- What an ECC error of the exact bucket does (R166, R584). -/
def exactError (s : State) (p bucket : Nat) : Ecc → State
  | .ok => s
  | .single => count s (cPipe p 32) 1
  | .double => raiseEv (count s (cPipe p 29) 1) evExactEcc p [bucket]

/-- The counter of a mirror session in a pipe; its selection with session, length, ring and number. -/
def selectMirror (s : State) (v : VerCfg) (p sess : Nat) :
    State × Option (Nat × Nat × Nat × Nat) :=
  let n := cfg v (0x6400 + sess) 1
  if n = 0 then (s, none)
  else
    let c := tget 0 (pipeAt s p).mirror sess + 1
    if c < n then (modPipe s p fun k => { k with mirror := tput 0 k.mirror sess c }, none)
    else
      let m := tget 0 (pipeAt s p).mirrorSel sess + 1
      (modPipe s p fun k => { k with mirror := terase k.mirror sess,
                                     mirrorSel := tput 0 k.mirrorSel sess m },
       some (sess, cfg v (0x6400 + sess) 2, cfg v (0x6400 + sess) 3, m))

/-- The beat in which a half that has taken its last packet in some beat takes one that comes in `b`: one
a beat, and none on its carousel beat (R26, log entry 151). -/
def entryBeat (half : Half) (last : Option Nat) (b : Nat) : Nat :=
  let x := match last with
    | some l => max b (l + 1)
    | none => b
  if isCarousel half x then x + 1 else x

/-- The beat of egress entry of an express packet, 26 beats after its pass-1 entry, and later by the time in
which `late` bytes behind byte 127 arrive at a port's rate (R82, R123). -/
def expressEntry (entry late rate : Nat) : Nat :=
  entry + 26 + (if rate = 0 then 0 else ceilDiv (late * 10000) rate)

/-- Pass 1 of an accepted frame of 64 bytes or more, in its version slot: at its entry its head is parsed and
the banks are searched, its mirror session counts it, and its decision stands (R82, R385). -/
def passOne (s : State) (k : Pkt) (a : Search) : State :=
  let v := slotVer s k.vslot
  let n := k.node
  let pipe := nodePipe n
  let c := parseCtx s v k.bytes
  let p := parseFrame c
  let status := k.vslot * 64 + b2n a.macsec * 8
  let vec := vecOf k p false status
  let key := if a.direct.isSome || !exactInUse v pipe then none
    else exactKey v pipe (keysetOf v n) vec
  let s := match key with
    | some x => exactError s pipe (exactBucket x (cfg v (0x4B00 + pipe) 5)) a.exactEcc
    | none => s
  let r : Pass1 := if a.direct.isSome then { dec := none, police := none, mirror := none, hits := [] }
    else pass1 s v k.vslot pipe n vec (a.exactEcc == .double)
  let d := match a.direct with
    | some (port, q) => { Decision.none with kind := 1, port := port, queue := q }
    | none => pass1Decision v n r
  let flow := d.kind == 2
  let policy := policyOf (cfg v (0x4100 + n) 1) (excBits p flow)
  let dec := if flow then d else applyPolicy v n d policy
  let s := if flow then s else countHits s r.hits k.tick
  let (s, m) := match if policy = 2 || policy = 3 then none else r.mirror with
    | some sess => selectMirror s v pipe sess
    | none => (s, none)
  modPkt s k.id fun k => { k with
    search := none, vec := vec, full := fullVec c (cfg v (0x4100 + n) 4 == 1) k p status, exc := p.excs.map fun e => e.1,
    excWord := excBits p true * 2 ^ 24 + excHeader c p * 2 ^ 16 + excOffset p true * 256 + policy,
    policy := policy, dec := dec, policer := r.police,
    mirror := m, hits := if flow then r.hits else [],
    due := expressEntry (a.entry.getD s.beat) (lateBytes p) (portRate s n),
    stage := if flow then .receiving else if dec.kind = 3 then .gone else .toEgress }

/-- Packets of a pipe whose beat of arrival is over take their pass-1 entries in the order of their nodes, the first
6 beats after their arrival (R26, R82; log entry 151). -/
def takeEntries : Nat → State → State
  | 0, s => s
  | n + 1, s =>
    match argMin Pkt.node (s.pkts.filter fun k => (k.search.map Search.entry) == some none) with
    | none => s
    | some k =>
      let pipe := nodePipe k.node
      let b := entryBeat .ingress (pipeAt s pipe).inEntry (k.inBeat + 6)
      let s := modPipe s pipe fun x => { x with inEntry := some b }
      takeEntries n (modPkt s k.id fun x => { x with search := x.search.map fun q => { q with entry := some b } })

/-- The packet of a pipe with the earliest pass-1 entry, if that is a beat or before. -/
def nextSearch (s : State) (p beat : Nat) : Option (Nat × Pkt × Search) :=
  argMin Prod.fst (s.pkts.filterMap fun k => do
    let q ← k.search
    let e ← q.entry
    if nodePipe k.node = p ∧ e ≤ beat then some (e, k, q) else none)

/-- The packets of a pipe enter pass 1 in order, up to a beat. -/
def searchThrough (p beat : Nat) : Nat → State → State
  | 0, s => s
  | n + 1, s =>
    match nextSearch s p beat with
    | none => s
    | some (_, k, q) => searchThrough p beat n (passOne s k q)

/-- A beat's pass 1 in every pipe, and the entries of what has arrived in it. -/
def passOneBeat (s : State) : State :=
  takeEntries s.pkts.length
    ((List.range 8).foldl (fun s p => searchThrough p s.beat s.pkts.length s) s)

/-- A start-of-frame at a MAC: refused, frozen, diverted, overflowing, or accepted for pass 1. -/
def arrive (s : State) (a : Arrival) : State :=
  let n := a.node
  let cls := ingressClass s a (parseFrame (parseCtx s (curVer s) a.frame))
  let port := portAt s n
  if port.refusing then s
  else if port.frozen || bit port.frozenCls cls then count s (cPort n 12) 1
  else if isDiverted s n a.frame then emit (count s (cPort n 26) 1) (.diverted n a.frame)
  else
    -- the frame has brought its first cell; the others are taken as its bytes arrive (R360)
    match takeCells s n cls 1 with
    | none => headroomOverflow s n cls
    | some s =>
      let k := newPkt s a cls 1
      let s := modPort { s with nextPkt := s.nextPkt + 1 } n fun x =>
        { x with rx := some k.id, rxWhole := a.staged }
      let k := if a.frame.length < 64 then { k with bad := 2 }
        else { k with stage := .receiving, holds := true,
                      search := some { entry := none, exactEcc := a.exactEcc, direct := a.direct, macsec := a.macsec } }
      { s with pkts := s.pkts ++ [k] }

/-! ## The tail (R28, R41, R96, R141, R177, R178, R338, R386) -/

/-- The inverse of the CRC over the bytes sent (R177). -/
def stompFcs (body : Bytes) : Bytes := (fcsOf body).map fun b => 255 - b

/-- The bytes of a stomped frame (R177). -/
def stompBytes (s : State) (k : Pkt) (bad : Nat) (cut : Bool) : Bytes :=
  let sent := k.out.sent.take (k.out.sent.length - 4)
  let body := if bad = 3 then sent.take (cutMtu s k.node (decNode k.dec) - 4)
    else if cut then
      let b := sent.take k.bytes.length
      b ++ zeros (60 - b.length)
    else sent
  body ++ stompFcs body

/-- The egress MAC stomps a frame in transmission: bytes, end, counter and credit (R177, R178,
R420). -/
def stomp (s : State) (k : Pkt) (bytes : Bytes) : State :=
  let n := decNode k.dec
  let s := count s (cPort n 17) 1
  let s := if k.out.cut then
      creditFrame s k (withOverhead bytes.length (overhead s n s.rm.tick)) else s
  modPkt s k.id fun x => { x with out := { x.out with
    sent := bytes, stomped := true,
    endBeat := max s.beat (x.out.startBeat + frameBeats s n bytes.length) } }

/-- The counters of an accepted frame (R36, R582, R593). -/
def countAccepted (s : State) (k : Pkt) : State :=
  let s := countR (countR s (cPort k.node 0) 1 k.tick) (cPort k.node 1) k.bytes.length k.tick
  let s := filtered s 8 0 [(1, k.node)] 0 (some k.cls) 1
  filtered s 9 0 [(1, k.node)] 0 (some k.cls) k.bytes.length

/-- The frame ends with the FCS of what goes before. -/
def fcsGood (f : Bytes) : Bool := fcsOf (f.take (f.length - 4)) == f.drop (f.length - 4)

/-- Which of R96 and R41 a tail shows: 0 good, 1 FCS or cut short, 2 runt, 3 oversize. -/
def judgeTail (s : State) (k : Pkt) (cut : Bool) : Nat :=
  let n := k.bytes.length
  let limit := if k.out.cut then min (frameLimit s k.node) (cutMtu s k.node (decNode k.dec))
    else frameLimit s k.node
  if limit < n then 3
  else if cut then 1
  else if k.bad = 2 then 2
  else if k.bad = 0 && fcsGood k.bytes then 0 else 1

/-- The write-back of a host frame that has wholly entered (R531); its descriptor's grant ends (R498). -/
def enterWriteback (s : State) (k : Pkt) (bad : Nat) : State :=
  match k.tx with
  | none => s
  | some t =>
    let done := !t.ts || (bad == 1 && k.stage != .sending)
    let s := if done then completeCount s (txRing t.ring) t.count
        (txWords (if bad = 1 then 3 else 0) 0 0 false t.cookie) else s
    -- what is still to come of it is a one-step update (R488)
    let s := modPkt s k.id fun x => { x with tx := if done && t.ts then none else x.tx }
    if holds s arbDma (txRing t.ring) then endGrant s arbDma else s

/-- Each exception that the parse has raised counts (R141). -/
def countExcs (s : State) (k : Pkt) : State :=
  k.exc.foldl (fun s b => countR s (cPort k.node (9 - b)) 1 k.tick) s

/-- A bad frame: counted once for its cause and once for its entry, then stomped or discarded, unless it has been
stomped already (R178). The exceptions of one whose FCS is good count (R141). -/
def badTail (s : State) (k : Pkt) (bad : Nat) (cut : Bool) : State :=
  let s := countR s (cPort k.node (if bad = 1 then 2 else if bad = 2 then 3 else 4)) 1 k.tick
  let s := match k.dec.entry with
    | some r => countEntry s r 0 1 0 k.tick
    | none => s
  let s := if k.mirror.isSome then countR s (cPart 3) 1 k.tick else s
  let s := if bad = 3 then countExcs s k else s
  if k.stage != .sending then discardPkt s k.id
  else if k.out.stomped then s else stomp s k (stompBytes s k bad cut)

/-- The mirror copy of a good selected frame, and whether the reads of its cells found it damaged (R363, R386, R388). -/
def mirrorCopy (s : State) (k : Pkt) (cells : List (Nat × Ecc)) : State × Bool :=
  match k.mirror with
  | none => (s, false)
  | some (sess, len, ring, m) =>
    let n := min len (k.bytes.length - 4)
    let (s, bad) := readCells (decNode k.dec) cells s
    if bad.isSome then (s, true)
    else
      let c : Copy :=
        { id := 0, sample := false, session := sess, ring := ring, header := copyHeader k false sess n m,
          body := k.bytes.take n, record := [], words := rxWords k 5 k.bytes.length, waitUntil := none, cells := 0 }
      (addCopy s c, false)

/-- A vector crosses at its tail unless one before it in home order waits, its own pipe holds pass 1, or the input
buffer is full; of a full buffer the last vector waits in its place when that comes behind it (R66, R80). -/
def crossesNow (s : State) (k : Pkt) (home : Nat) : Bool × Option Pkt :=
  let before := fun x => decide (orderKey x < orderKey k)
  let ahead := (passStop (heldIn s (nodePipe k.node))).any before
    || (flowWaiting s home).any fun x => x.stage == .holding && before x
  let last := argMin (fun x => 2 ^ 80 - orderKey x) ((flowWaiting s home).filter fun x => x.stage == .crossing)
  if ahead then (false, none)
  else if inputUsed s home < 2048 then (true, none)
  else match last with
    | some x => if orderKey k < orderKey x then (true, some x) else (false, none)
    | none => (false, none)

/-- A good flow-path frame builds its key and goes to its home pipe, or waits (R31, R80, R83). -/
def crossHome (s : State) (k : Pkt) : State :=
  let v := slotVer s k.vslot
  let key := flowKey v k.dec.profile k.vec
  let home := homePipe s (keyBlock k.dec.profile key)
  let (now, out) := crossesNow s k home
  let waits := !now
  let s := match out with
    | some x => modPkt s x.id fun x => { x with stage := .holding }
    | none => s
  modPkt s k.id fun x =>
    { x with stage := if waits then .holding else .crossing, due := k.tailBeat + 40,
             flow := { FlowPart.none with profile := k.dec.profile,
                                          dbl := profileDbl v k.dec.profile, key := key,
                                          home := home } }

/-- First beat in which a stored frame may start: 46 beats after its egress entry, and 26 beats after
its tail, at which it becomes eligible (R83, R377). -/
def storedDue (entry tail : Nat) (tailDone : Bool) : Nat :=
  max (entry + 46) (if tailDone then tail + 26 else 0)

/-- A good tail (R141, R142, R338). The exceptions of a frame with a bad tail are not written to `parse.exc.last`
(DESIGN CHOICE, log entry 152: R147 does not say). -/
def goodTail (s : State) (k : Pkt) (cells : List (Nat × Ecc)) : State :=
  let s := countExcs s k
  let s := if k.exc.isEmpty then s else modPort s k.node fun p => { p with excLast := k.excWord }
  let (s, damaged) := mirrorCopy s k cells
  let s := if k.policy = 2 then countR s (cPort k.node 10) 1 k.tick else s
  if k.stage = .gone || (damaged && k.stage != .sending) then discardPkt s k.id
  else if damaged && !k.out.stomped then stomp s k (stompBytes s k 1 false)
  else if k.dec.kind = 2 && k.stage = .receiving then
    if k.policy = 0 then crossHome s k
    else
      let d := applyPolicy (slotVer s k.vslot) k.node k.dec k.policy
      let s := modPkt s k.id fun x => { x with dec := d, stage := .toEgress, due := s.beat }
      if d.kind = 3 then discardPkt s k.id else s
  else if k.stage = .sending then
    creditFrame s k (withOverhead (k.out.sent.length) (overhead s (decNode k.dec) s.rm.tick))
  else if k.stage = .queued && !k.out.cut then
    modPkt s k.id fun x => { x with due := max x.due (storedDue 0 k.tailBeat true) }
  else s

/-- Bytes of a frame that have arrived before a beat: at a front port's rate, and 32 a beat at a host node
(R360, R532). -/
def arrivedBytes (s : State) (k : Pkt) : Nat :=
  if 130 ≤ k.node then (s.beat - k.inBeat) * 32 else (s.beat - k.inBeat) * portRate s k.node / 10000

/-- Cells that the first bytes of a frame need; bytes beyond the MAC's limit take none (R96, R360). -/
def cellsNeeded (s : State) (k : Pkt) (bytes : Nat) : Nat :=
  cellsOf (max 1 (min bytes (min k.bytes.length (frameLimit s k.node))))

/-- The headroom overflows within a frame: it is discarded, stomped where it is being sent, and no more of it is
taken (R374). -/
def overflowWithin (s : State) (k : Pkt) : State :=
  let s := modPort s k.node fun p => { p with rx := none, rxWhole := false }
  let k := { k with tailDone := true, bad := 1, policer := none }
  let s := modPkt s k.id fun _ => k
  -- a transmit ring's descriptor is written back as if its frame had been refused
  let s := match k.tx with
    | some t => if t.ts then s else completeCount s (txRing t.ring) t.count (txWords 0 0 0 false t.cookie)
    | none => s
  let s := if k.stage = .sending then
      stomp s k (stompBytes s { k with bytes := k.bytes.take (arrivedBytes s k) } 1 true)
    else discardPkt s k.id
  headroomOverflow s k.node k.cls

/-- The MAC takes the cells that a frame's bytes need by now; none when the headroom overflows (R360). -/
def takeUpTo (s : State) (k : Pkt) (bytes : Nat) : Option State :=
  let n := cellsNeeded s k bytes
  (takeCells s k.node k.cls (n - k.cells)).map fun s =>
    modPkt s k.id fun x => { x with cells := max x.cells n }

/-- The bytes that have arrived at each MAC take their cells; a beat's work (R360). -/
def cellsArrive (s : State) : State :=
  (s.ports.filterMap fun e => e.2.rx).foldl (fun s id =>
    match pktAt s id with
    | none => s
    | some k => (takeUpTo s k (arrivedBytes s k)).getD (overflowWithin s k)) s

/-- A cell returns in the beat after its last byte has been sent, once the tail has arrived; a beat's work (R361). -/
def cellsSent (s : State) : State :=
  s.ports.foldl (fun s e =>
    match e.2.tx.bind (pktAt s) with
    | none => s
    | some k =>
      let n := min k.cells ((s.beat - k.out.startBeat) * portRate s e.1 / 10000 / 256)
      if !k.tailDone || n ≤ k.given then s
      else modPkt (giveCells s k.node k.cls (n - k.given)) k.id fun x => { x with given := n }) s

/-- What the tail of a frame brings, its cells taken. -/
def tailEffects (s : State) (k : Pkt) (cut : Bool) (cells : List (Nat × Ecc)) : State :=
  let s := modPort s k.node fun p => { p with rx := none, rxWhole := false }
  let flow := k.dec.kind == 2 && k.stage == .receiving
  let tick := if flow then s.rm.tick else k.tick
  let bad := judgeTail s k cut
  -- the exceptions of a frame that fails its FCS do not count (R141)
  let k := { k with exc := if bad = 3 && (cut || k.bad = 1 || !fcsGood k.bytes) then [] else k.exc }
  let k := { k with tailBeat := s.beat, tick := tick, tailDone := true, bad := bad }
  let k := { k with vec := tailVec k }
  let s := modPkt s k.id fun _ => k
  let s := countAccepted s k
  let s := if flow then countHits s k.hits tick else s
  let s := enterWriteback s k bad
  if bad = 0 then goodTail s k cells else badTail s k bad cut

/-- A frame whose tail comes before its pass-1 entry is searched with it (log entry 151). One that its port cuts
short before 64 bytes, or in its beat of arrival, never reaches pass 1. -/
def searchBeforeTail (s : State) (k : Pkt) : State :=
  match k.search with
  | none => s
  | some q => match (if k.bytes.length < 64 then none else q.entry) with
    | some b => searchThrough (nodePipe k.node) b s.pkts.length (modPkt s k.id fun _ => k)
    | none => modPkt s k.id fun x => { x with search := none, stage := .gone }

/-- The tail of the frame that a MAC receives; `cut` when its port has left UP. -/
def frameEnd (s : State) (k : Pkt) (cut : Bool) (cells : List (Nat × Ecc)) : State :=
  let s := searchBeforeTail s k
  let k := if k.search.isSome then { (pktAt s k.id).getD k with bytes := k.bytes } else k
  match takeUpTo s k k.bytes.length with
  | none => overflowWithin s k
  | some s => tailEffects s { k with cells := max k.cells (cellsNeeded s k k.bytes.length) } cut cells

/-- The beat in which the part itself brings the last byte of a frame: 32 bytes a beat from a host node, the port's
data rate from the MACsec staging cells; none for a frame on a wire (R449, R532). -/
def ownTail (s : State) (k : Pkt) : Option Nat :=
  if 130 ≤ k.node then some (k.inBeat + ceilDiv k.bytes.length 32 - 1)
  else if (portAt s k.node).rxWhole then
    some (k.inBeat + ceilDiv (k.bytes.length * 10000) (portRate s k.node) - 1)
  else none

/-- The last byte of a frame may arrive in this beat: after its first beat on a wire, and when the part brings it
(R95). -/
def tailReady (s : State) (k : Pkt) : Bool :=
  match ownTail s k with
  | some b => due s b
  | none => decide (k.inBeat < s.beat)

/-- `cells` are what the reads of the frame's cells meet that make its mirror copy. -/
def frameTail (s : State) (n : Nat) (cells : List (Nat × Ecc)) : State :=
  match (portAt s n).rx.bind (pktAt s) with
  | some k => guardS (tailReady s k) s fun s => frameEnd s k false cells
  | none => s

/-- The tail of a frame that the part itself brings: a beat's work. -/
def ownFrameTail (s : State) (n : Nat) : State :=
  match ((portAt s n).rx.bind (pktAt s)).bind (ownTail s) with
  | some _ => frameTail s n []
  | none => s

/-- The port leaves UP: the frame being received ends with the bytes that have arrived (R96). A frame
from the MACsec staging cells has wholly arrived (R446). -/
def cutReceive (s : State) (n : Nat) : State :=
  match (portAt s n).rx.bind (pktAt s) with
  | none => s
  | some k =>
    if (portAt s n).rxWhole then s else
    let got := min k.bytes.length ((s.beat - k.inBeat) * portRate s n / 10000)
    frameEnd s { k with bytes := k.bytes.take got } true []

/-! ## Policers (R423 to R427) -/

def policerPipe (i : Nat) : Nat := i / 8192

/-- The row of a policer for a tail-arrival beat (R424, R427). -/
def policeRow (s : State) (tailBeat i : Nat) : Bytes :=
  slice (digRowAt s (boundOf s tailBeat).tick 0x7400 1 i) 0 32

def policeMode (r : Bytes) : Nat := byteAt r 0 / 64

/-- Action of a colour: 0 forward, 1 forward marked, 2 drop; a mode-0 policer's frames are green (R424, R426). -/
def policeAction (r : Bytes) (colour : Nat) : Nat :=
  bits (byteAt r 1) (7 - 2 * colour) (6 - 2 * colour)

/-- One judgement (R425): the buckets after it and the colour, 1 green, 2 yellow, 3 red. -/
def police (r : Bytes) (p : Policer) (t n : Nat) (yellow : Bool) : Policer × Nat :=
  let el := min (t - p.last) (2 ^ 32 - 1)
  let x := n * 10000000
  let cir := natAt r 4 4
  let cbs := natAt r 8 4 * 10000000
  let pir := natAt r 12 4
  let xbs := natAt r 16 4 * 10000000
  if policeMode r = 1 then
    let tc := p.tc + el * cir
    let spill := tc - cbs
    let tc := min tc cbs
    let te := min xbs (p.te + spill)
    if !yellow && decide (x ≤ tc) then ({ tc := tc - x, te := te, last := t }, 1)
    else if x ≤ te then ({ tc := tc, te := te - x, last := t }, 2)
    else ({ tc := tc, te := te, last := t }, 3)
  else if policeMode r = 2 then
    let tp := min xbs (p.te + el * pir)
    let tc := min cbs (p.tc + el * cir)
    if tp < x then ({ tc := tc, te := tp, last := t }, 3)
    else if yellow || decide (tc < x) then ({ tc := tc, te := tp - x, last := t }, 2)
    else ({ tc := tc - x, te := tp - x, last := t }, 1)
  else ({ p with last := t }, 1)

/-- Judge one frame: the policer's buckets and counters, and the frame's colour (R426). -/
def judgeFrame (s : State) (k : Pkt) : State :=
  match k.policer with
  | none => s
  | some i =>
    let r := policeRow s k.tailBeat i
    let tick := (boundOf s k.tailBeat).tick
    let n := withOverhead k.bytes.length (overhead s k.node tick)
    let dei := bit (byteAt r 0) 5 && (outerTag (vecHeaders k.vec)).isSome && bit (byteAt k.vec 14) 4
    let (p, colour) := police r (tget Policer.init s.buf.policers i) k.tailBeat n dei
    let s := { s with buf := { s.buf with policers := tput Policer.init s.buf.policers i p } }
    let s := countPolice s i (colour - 1) k.bytes.length k.tick
    if k.stage = .gone then dropPkt s k.id
    else modPkt s k.id fun x => { x with colour := colour }

/-- Frames that a pipe has still to judge with a tail before a beat, the first of them. -/
def nextJudged (s : State) (p beat : Nat) : Option Pkt :=
  argMin orderKey (s.pkts.filter fun k => awaitsJudge k && decide (k.tailBeat < beat)
    && (k.policer.map policerPipe) == some p)

/-- Judge every frame whose tail arrived before a beat. -/
def judgeAll (p beat : Nat) : Nat → State → State
  | 0, s => s
  | n + 1, s =>
    match nextJudged s p beat with
    | some k => judgeAll p beat n (judgeFrame s k)
    | none => s

/-- A write of a policer's row at its boundary: buckets full, last at the boundary beat (R427). -/
def fillPolicer (s : State) (i : Nat) (row : Bytes) : State :=
  let r := slice row 0 32
  let p : Policer := { tc := natAt r 8 4 * 10000000, te := natAt r 16 4 * 10000000, last := s.beat }
  { s with buf := { s.buf with policers := tput Policer.init s.buf.policers i p } }

/-- A row that R427 accepts. -/
def policeRowOk (v : Bytes) : Bool :=
  let r := slice v 0 32
  let m := policeMode r
  v == [] || (m != 3 && (List.range 3).all (fun c => bits (byteAt r 1) (5 - 2 * c) (4 - 2 * c) != 3)
    && (m == 0 || natAt r 4 4 != 0) && (m != 2 || natAt r 12 4 != 0))

/-! ## Egress entry (R170 to R173, R339, R377 to R380, R411, R426, R431, R449) -/

/-- The packet has come through its home pipe. -/
def viaHome (k : Pkt) : Bool := k.flow.key != []

/-- Pass 1 of the pipe holds: a flow-path vector has found the holding queue, or its home pipe's share, full, and
express packets behind it wait (R80). -/
def passHeld (s : State) (k : Pkt) : Bool :=
  match passStop (heldIn s (nodePipe k.node)) with
  | some q => decide (q.tailBeat ≤ k.inBeat)
  | none => false

/-- An earlier packet of the same flow, or an earlier express packet between the same ports, has still to enter its
queue (R40). -/
def behindOwn (s : State) (k : Pkt) : Bool :=
  s.pkts.any fun x => x.stage == .toEgress && x.id != k.id
    && (if viaHome k then
          viaHome x && x.flow.home == k.flow.home && x.flow.key == k.flow.key
            && decide (x.flow.h < k.flow.h)
        else !viaHome x && x.node == k.node && decNode x.dec == decNode k.dec
            && (decide (x.inBeat < k.inBeat) || (x.inBeat == k.inBeat && decide (x.id < k.id))))

/-- The packet waits for its policer's judgement. -/
def needsJudge (k : Pkt) : Bool :=
  k.policer.isSome && k.policy != 2 && k.policy != 3 && k.colour == 0

/-- The queue class of a decision (R411, R518). -/
def decClass (d : Decision) : Nat := if d.kind = 4 then d.ring % 8 else d.queue

/-- The subscriber node of a frame, and whether it counts as a miss (R411). -/
def subscriber (v : VerCfg) (n : Nat) (vec : Bytes) : Nat × Bool :=
  let sel := cfg v (0x7100 + n) 1
  let mode := bits sel 31 30
  let dflt := cfg v (0x7100 + n) 2
  if (mode == 1 && decide (1 ≤ vecVlans vec)) || (mode == 2 && decide (2 ≤ vecVlans vec)) then
    let vid := natAt vec (if mode = 1 then 14 else 16) 2 % 4096
    let b := bits sel 12 0 + vid % bits sel 28 16
    if 8191 < b || !subUnder v b n then (dflt, true) else (b, false)
  else (dflt, false)

/-- Header offsets after a SecTAG of n bytes is gone. -/
def shiftHeaders (vec : Bytes) (n : Nat) : Bytes :=
  (List.range 16).foldl (fun v i =>
    let o := byteAt v (161 + 2 * i)
    if byteAt v (160 + 2 * i) != 0 && decide (12 + n ≤ o) then putNat v (161 + 2 * i) 1 (o - n)
    else v) vec

/-- The rewrites of a packet: its set, or its bound templates (R171, R286). -/
def editsOf (s : State) (k : Pkt) : List Nat :=
  if k.dec.kind = 1 && k.dec.rset != 0 then
    setRewrites (cfgRow (slotVer s k.vslot) 0x4C00 1 k.dec.rset)
  else k.out.edits

/-- The frame may cut through, but for the choice of the scheduler (R377). -/
def mayCut (s : State) (k : Pkt) (q : Nat) : Bool :=
  let n := decNode k.dec
  k.dec.kind == 1 && decide (n < 130)
    && rwBool s (0x6100 + k.node) 0x13 && !macRxOn s k.node && bit (rw s (0x6100 + n) 0x14) (q % 8)
    && k.policer.isNone && decide (portRate s n ≤ portRate s k.node)
    && isUp s n && (portAt s n).link == 0 && (queueAt s q).isEmpty && !paused s n (q % 8)
    && (portAt s n).tx.isNone && (cutQueue s n).isNone && decide (txState s n ≤ 1) && !(portAt s n).lpi

/-- The frame joins its queue, to cut through where the scheduler would start it at once: then it
starts 15 beats after its egress entry at the earliest (R82). -/
def enqueue (s : State) (k : Pkt) (q : Nat) : State :=
  let n := decNode k.dec
  let put := fun cut start => modQueue (modPkt s k.id fun _ =>
    { k with stage := .queued, holds := false, due := start,
             out := { k.out with qid := q, cut := cut } }) q fun l => l ++ [k.id]
  let stored := put false (storedDue s.beat k.tailBeat k.tailDone)
  if mayCut s k q then
    let s1 := put true s.beat
    if (choosePort s1 n (openQueues s1 n)).map Kid.queue == some q then put true (s.beat + 15 + b2n k.lateStart)
    else stored
  else stored

/-- The editor, the gate check and the queue of a packet at its egress entry. -/
def enterEgress (s : State) (k : Pkt) : State :=
  let v := slotVer s k.vslot
  let n := decNode k.dec
  let action := match k.policer with
    | some i => if k.colour = 0 then 0 else policeAction (policeRow s k.tailBeat i) k.colour
    | none => 0
  let s := modPipe s (nodePipe n) fun x => { x with egEntry := some s.beat }
  if action = 2 then discardPkt s k.id
  else
    let (sub, miss) := subscriber v n k.vec
    let s := if miss then countR s (cPort n 20) 1 k.tick else s
    let q := 8 * sub + decClass k.dec
    let e := applyRewrites (k.bytes.take (k.bytes.length - 4)) k.vec (editsOf s k)
    let body := if action = 1 then markDei e.body k.vec else e.body
    let tagged := vecMacsec k.vec
    let vec := if tagged then shiftHeaders k.vec (secTagLen body) else k.vec
    let body := if tagged then stripTag body else body
    let k := { k with vec := vec, out := { k.out with sent := body ++ fcsOf body } }
    if gateOversize s v n (q % 8) (withOverhead (leaveLen s k) (overhead s n k.tick)) then
      discardPkt (countR s (cPort n 19) 1 k.tick) k.id
    else
      let s := if e.skips = 0 then s else countR s (cPort n 21) e.skips k.tick
      if e.expired then
        let s := match k.dec.entry with
          | some r => countEntry s r 0 0 1 k.tick
          | none => s
        discardPkt s k.id
      else if decide (n < 130) && decide (2 ≤ (portAt s n).link) then
        discardPkt (count s (cPort n 16) 1) k.id
      else enqueue s k q

/-- The packet may enter the egress half of its port's pipe in this beat: it is due, pass 1 does not hold it (R80), it
keeps its order (R40), and the half is free (R26). -/
def entryReady (s : State) (k : Pkt) : Bool :=
  let p := nodePipe (decNode k.dec)
  k.stage == .toEgress && due s k.due && !needsJudge k && (viaHome k || !passHeld s k)
    && !behindOwn s k && pipeLive s p && (pipeAt s p).egEntry != some s.beat
    && !isCarousel .egress s.beat

/-! ## The commands' meanings -/

/-- FRAME_INGRESS (R95): on an UP port whose MACsec receive is off. Pause and PFC frames are the
MAC's own (R369). -/
def rowFrameIngress (node : Nat) (frame : Bytes) (phase : Nat) (exactEcc : Ecc) (s : State) : State :=
  whenRun s fun s =>
    guardS (decide (node < 130) && isUp s node && (portAt s node).rx.isNone && !macRxOn s node
        && !isControl frame) s
      fun s => modPkt (arrive s
        { node := node, frame := frame, stamp := rxStamp s node phase, macsec := false, staged := false,
          exactEcc := exactEcc, cls := none, direct := none, tx := none }) s.nextPkt
        fun k => { k with lateStart := Config.startsLate phase }

/-- FRAME_TAIL (R338). -/
def rowFrameTail (node : Nat) (cells : List (Nat × Ecc)) (s : State) : State :=
  whenRun s fun s => frameTail s node cells

/-- POLICER_JUDGE (R423, R425): the first frame of its holding pipe. -/
def rowPolicerJudge (pkt : Nat) (s : State) : State :=
  whenRun s fun s =>
    match pktAt s pkt with
    | some k =>
      guardS (((k.policer.map policerPipe).bind fun p => (nextJudged s p s.beat).map Pkt.id)
        == some pkt) s fun s => judgeFrame s k
    | none => s

/-- EGRESS_ENTRY (R377). -/
def rowEgressEntry (pkt : Nat) (s : State) : State :=
  whenRun s fun s =>
    match pktAt s pkt with
    | some k => guardS (entryReady s k) s fun s => enterEgress s k
    | none => s

end Sys2Proof.Machine
end

