-- ==== Sys2Proof/Machine/Transmit.lean ====
section
/-! DEFINITION. Frames on their way out: transmission, flow control, link-loss timers and the table
writes of the egress halves (R172 to R178, R361, R363, R367 to R369, R381, R413, R415 to R421, R435,
R452 to R456, R464, R485 to R489). -/

namespace Sys2Proof.Machine

/-! ## The start of a frame (R363, R415, R416) -/

/-- The transmit stamp te of a frame that starts in this beat (R485): epoch, 1/256 ns. -/
def txStamp (s : State) (n : Nat) : Nat × Nat :=
  let p := portAt s n
  let cipher := if macTxOn s n then 12800 else 0
  let ps : Int := signed 32 (rw s (0x2100 + n) 4)
    + (((delayPs p.modeActive p.fecActive).2 + cipher : Nat) : Int)
  stampPs (tbAt s (rw s (0x2100 + n) 1)) ps

/-- Steps of a time base after a stamp's beat, in 2^-32 ns (R486). -/
def stepsSince (s : State) (t beat : Nat) : List Int :=
  ((tbAt s t).steps.filter fun e => decide (beat < e.1)).map Prod.snd

/-- The one-step update of a starting frame (R174, R175, R488). -/
def ptpUpdate (s : State) (n : Nat) (k : Pkt) (te : Nat) (body : Bytes) : State × Bytes :=
  let t := rw s (0x2100 + n) 1
  if k.dec.ptp && vecClass k.vec == 1 then
    if ptpOneStep k.vec && k.stampValid && k.stampTb == t then
      let ti := k.stampNs * 256 + k.stampFrac
      let delay := if ptpType k.vec = 0 then signed 32 (rw s (0x4E00 + k.node) 1) else 0
      (s, addCorrection body k.vec (residence te ti (stepsSince s t k.stampBeat) + delay))
    else (countR s (cPort n 22) 1 k.tick, body)
  else match k.tx with
    | some x =>
      if !x.onestep then (s, body)
      else if ptpOneStep k.vec && tbValid s t then
        (s, addCorrection body k.vec (residence te (x.tref * 256) (stepsSince s t x.fetched)))
      else (count s (cPort n 23) 1, body)
    | none => (s, body)

/-- The bytes of a frame whose transmit path withheld what follows its head, addresses and SecTAG, and some blocks
(R464). -/
def cipherCut (head : Nat) (bytes : Bytes) (blocks : Nat) : Bytes :=
  let body := bytes.take (min (bytes.length - 20) (head + 16 * blocks))
  body ++ stompFcs body

/-- The head frame of the chosen queue starts at the MAC. `blocks` is how many 16-byte blocks a
protected frame releases before a mismatch of R464. -/
def startFrame (s : State) (n : Nat) (kid : Kid) (k : Pkt) (blocks : Option Nat) : State :=
  let len := frameN s k
  let s := { s with buf := { s.buf with nodes := kid.nodes } }
  let (s, path) := chargePath s (pathOf s n kid.queue) len
  let (te, valid) := ((txStamp s n).2, tbValid s (rw s (0x2100 + n) 1))
  let (s, body) := ptpUpdate s n k te (k.out.sent.take (k.out.sent.length - 4))
  let guarded := protectAdds s n (natAt body 12 2) != 0
  let (s, body) := protect s n body
  let whole := body ++ fcsOf body
  let failed := guarded && blocks.isSome
  let sent := if failed then cipherCut (12 + txTagLen s n) whole (blocks.getD 0) else whole
  let s := modPkt s k.id fun x => { x with stage := .sending, out := { x.out with
    charged := len, path := path, startBeat := s.beat, sent := sent, stomped := failed,
    endBeat := s.beat + frameBeats s n sent.length, te := te / 256, teTb := some (rw s (0x2100 + n) 1), teValid := valid } }
  let s := modPort (leaveQueue s kid.queue k.id) n fun p => { p with tx := some k.id }
  let s := if k.out.cut then count s (cPort n 30) 1 else s
  let s := match (if k.out.cut && k.tailDone then pktAt s k.id else none) with
    | some x => creditFrame s x (withOverhead sent.length (overhead s n s.rm.tick))
    | none => s
  if failed then faultUnit (count (count s (cPort n 18) 1) (cPort n 17) 1) (unitOf n) 2 else s

/-- The reads of a starting frame's cells (R363): a double error of its first cell discards it, of a later one stomps
it. -/
def readFrame (s : State) (n : Nat) (k : Pkt) (cells : List (Nat × Ecc)) : State :=
  match readCells n cells s with
  | (s, none) => s
  | (s, some 0) =>
    let s := modPkt s k.id fun x => { x with out := { x.out with teValid := false } }
    discardPkt (modPort s n fun p => { p with tx := none }) k.id
  | (s, some _) => match pktAt s k.id with
    | some k => if k.out.stomped then s else stomp s k (stompBytes s k 1 false)
    | none => s

/-- A frame that was to cut through and may not start when it reaches the MAC, as its class is paused or its gate or a
shaper stops it, is stored instead (R377, R430; log entry 170). -/
def storeCut (s : State) (n : Nat) : State :=
  match cutQueue s n with
  | none => s
  | some q => match headOf s q with
    | none => s
    | some k =>
      if !due s k.due || (queueReady s n q && (choosePort s n [q]).isSome) then s
      else modPkt s k.id fun x => { x with
        due := storedDue (k.due - 15 - b2n k.lateStart) k.tailBeat k.tailDone,
        out := { x.out with cut := false } }

/-- FRAME_TRANSMIT_START's work: the port node chooses, and the frame starts. -/
def transmitStart (s : State) (n : Nat) (cells : List (Nat × Ecc)) (blocks : Option Nat) : State :=
  let s := storeCut s n
  match choosePort s n (readyQueues s n) with
  | none => s
  | some kid => match headOf s kid.queue with
    | none => s
    | some k => readFrame (startFrame s n kid k blocks) n k cells

/-- The last byte of a frame leaves its MAC (R361, R489, R531, R582, R593). -/
def transmitEnd (s : State) (n : Nat) (k : Pkt) : State :=
  let s := emit s (.frame n k.out.startBeat k.out.sent k.out.stomped)
  let len := k.out.sent.length
  let s := if k.out.stomped then s else
    let s := count (count s (cPort n 14) 1) (cPort n 15) len
    let s := filtered s 10 0 [(1, n)] 0 (some (k.out.qid % 8)) 1
    filtered s 11 0 [(1, n)] 0 (some (k.out.qid % 8)) len
  let s := modPort s n fun p => { p with tx := none }
  freePkt (txFinish s k (b2n k.out.stomped)) k

/-! ## Flow control (R367 to R369) -/

/-- The classes whose x the MAC announces: the port as class 0 in pause mode (R368). -/
def toldClasses (s : State) (n : Nat) : List Nat :=
  let m := fcMode s n
  if m = 1 then [0]
  else if m = 2 then (List.range 8).filter fun k => bit (rw s (0x6100 + n) 2) k
  else []

/-- Beats of half the quanta at the port's rate. -/
def halfQuanta (s : State) (n : Nat) : Nat :=
  ceilDiv (rw s (0x6100 + n) 0x0F * 320000) (portRate s n)

/-- A MAC control frame: opcode and parameters, padded, with its FCS. -/
def controlFrame (opcode : Nat) (params : Bytes) : Bytes :=
  let body := slice (bytesOf 6 0x0180C2000001 ++ bytesOf 6 Config.macBase.toNat ++ bytesOf 2 0x8808
    ++ bytesOf 2 opcode ++ params) 0 60
  body ++ fcsOf body

/-- The pause or PFC frame that announces some classes' x. -/
def flowFrame (s : State) (n : Nat) (xs : Tbl Nat) : Bytes :=
  let q := fun k => if tget 0 xs k = 0 then 0 else rw s (0x6100 + n) 0x0F
  if fcMode s n = 1 then controlFrame 0x0001 (bytesOf 2 (q 0))
  else controlFrame 0x0101 (bytesOf 2 (sumNat (xs.map fun e => 2 ^ e.1))
    ++ (List.range 8).flatMap fun k => bytesOf 2 (q k))

/-- Send the frame, protected where the port protects what it sends (R452), and remember when it repeats. -/
def tellPeer (s : State) (n : Nat) (xs : Tbl Nat) : State :=
  let f := flowFrame s n xs
  let (s, body) := protect s n (f.take (f.length - 4))
  let s := emit (count s (cPort n 24) 1) (.flowControl n (body ++ fcsOf body))
  let again := s.beat + halfQuanta s n
  modPort s n fun p => { p with
    repeatAt := xs.foldl (fun t e => if e.2 = 0 then terase t e.1 else tins t e.1 again) p.repeatAt }

/-- Classes whose x differs from that in the last frame sent or waiting. -/
def untold (s : State) (n : Nat) : List Nat :=
  (toldClasses s n).filter fun k => tget 0 (portAt s n).told k != b2n (xOf s n k)

/-- The rises and clears of a beat on a port that is UP are due in one frame (R368). -/
def queueFlow (s : State) (n : Nat) : State :=
  let ks := untold s n
  if !(decide (n < 130) && isUp s n) || ks.isEmpty then s
  else modPort s n fun p => { p with
    fcQ := p.fcQ ++ [ks.map fun k => (k, b2n (xOf s n k))],
    told := ks.foldl (fun t k => tput 0 t k (b2n (xOf s n k))) p.told }

/-- What every port has to tell after a beat's evaluation. -/
def queueFlows (s : State) : State := (tkeys s.ports).foldl queueFlow s

/-- Classes whose announcement is due again. -/
def repeats (s : State) (n : Nat) : List Nat :=
  (toldClasses s n).filter fun k => xOf s n k
    && (match tfind (portAt s n).repeatAt k with
        | some b => due s b
        | none => false)

/-- The MAC may send a pause or PFC frame: UP and not in QUIET (R111), with no frame in transmission, and with an
association that protects it where it must be protected (R452, R456). -/
def flowReady (s : State) (n : Nat) : Bool :=
  decide (n < 130) && isUp s n && !(portAt s n).lpi && (portAt s n).tx.isNone && decide (txState s n ≤ 1)

/-- A pause or PFC frame is due at a MAC: it goes before a frame of a queue (R368). -/
def flowDue (s : State) (n : Nat) : Bool := !(portAt s n).fcQ.isEmpty || !(repeats s n).isEmpty

/-- The oldest frame that waits is sent. -/
def tellNext (s : State) (n : Nat) : State :=
  match (portAt s n).fcQ with
  | [] => s
  | xs :: rest => tellPeer (modPort s n fun p => { p with fcQ := rest }) n xs

/-- The classes whose announcement is due again go out in one frame. -/
def tellAgain (s : State) (n : Nat) : State := tellPeer s n ((repeats s n).map fun k => (k, 1))

/-- A received time stops a queue class, or resumes it (R369). -/
def pauseClass (s : State) (n k quanta : Nat) : State :=
  let stop := s.beat + ceilDiv (quanta * 640000) (portRate s n)
  modPort s n fun p => { p with pauseEnd := if quanta = 0 then terase p.pauseEnd k
                                  else tins p.pauseEnd k stop }

def pauseReceive (s : State) (n : Nat) (f : Bytes) : State :=
  let s := count s (cPort n 25) 1
  if fcMode s n = 0 then s
  else if natAt f 14 2 = 1 then
    (List.range 8).foldl (fun s k => pauseClass s n k (natAt f 16 2)) s
  else (List.range 8).foldl (fun s i =>
    if bit (natAt f 16 2) i then
      let ks := (List.range 8).filter fun k => bit (rw s (0x6100 + n) 0x10 >>> (8 * i)) k
      ks.foldl (fun s k => pauseClass s n k (natAt f (18 + 2 * i) 2)) s
    else s) s

/-! ## EWRITE (R173, R413, R435) -/

def egressReady (s : State) (p : Nat) : Bool :=
  pipeLive s p && isCarousel .egress s.beat && (pipeAt s p).egLast != some s.beat

def ranEgress (s : State) (p cls : Nat) : State :=
  countCarousel (modPipe s p fun k => { k with egLast := some s.beat }) .egress p cls

/-- A moved node starts under its new parent with full buckets and a deficit of 0 (R413). -/
def freshNode (s : State) (k : Nat) : State :=
  let r := liveRow s k
  modNode s k fun _ => { Node.init with
    cir := if rowCir r = 0 then 0 else ((rowCirBurst r * levelUnit : Nat) : Int),
    pir := if rowPir r = 0 then 0 else ((rowPirBurst r * levelUnit : Nat) : Int) }

/-- The write of a row gives a node another parent: its service node, or the port node to which it is attached, if any
(log entry 169). -/
def movesNode (s : State) (v : VerCfg) (k : Key) : Bool :=
  let i := keyRow k
  let n := natOf (cfgRow v (keyIdx k) (keySub k) i)
  if keySub k = 7 then subLink s i % 1024 != n % 1024
  else if keySub k = 8 then svcNode s i != if bit n 15 then some (n % 256) else none
  else false

/-- The queues that a moved node must find empty. -/
def nodeIdle (s : State) (k : Key) : Bool :=
  let i := keyRow k
  if keySub k = 7 then !(busyQueues s).any fun q => q / 8 == i
  else if keySub k = 8 then !(busyQueues s).any fun q => subSvc s (q / 8) == i
  else true

/-- One write of a version's preparation in an egress half. -/
def egressWrite (s : State) (v : VerCfg) (k : Key) : State :=
  let i := keyRow k
  let row := cfgRow v (keyIdx k) (keySub k) i
  let fresh := fun (s' : State) node => if movesNode s v k then freshNode s' node else s'
  if keyIdx k = 0x4C00 then
    { s with mem := { s.mem with rewrite := tput [] s.mem.rewrite i row } }
  else
    let n := natOf row
    if keySub k = 7 then
      let dflt := natOf (defaultAt 0x7000 7 i)
      if subLink s i = n then s
      else fresh { s with mem := { s.mem with subParent := tput dflt s.mem.subParent i n } }
        (nodeKey 1 i)
    else
      let dflt := natOf (defaultAt 0x7000 8 i)
      if svcLink s i = n then s
      else fresh { s with mem := { s.mem with svcParent := tput dflt s.mem.svcParent i n } }
        (nodeKey 2 i)

/-- The first sealed version, oldest first, with a write that an egress half may make. -/
def nextEgress (s : State) (p : Nat) (q : Sealed) : Option (Sealed × Key) :=
  if q.slot.isNone || decide (s.rm.tick < max q.sealNext q.reserveNext) then none
  else ((tget Prep.init q.prep p).egress.find? fun k =>
      !movesNode s q.ver k || nodeIdle s k).map fun k => (q, k)

/-- One write: a queued scheduler write of this half, else one of a version's. -/
def ewriteBeat (s : State) (p : Nat) : State :=
  let sched := match s.buf.schedQ with
    | w :: rest => if schedPipe s w.node = p then
        some (applySched { s with buf := { s.buf with schedQ := rest } } w) else none
    | [] => none
  match sched with
  | some s => ranEgress s p 0
  | none => match s.ver.pending.findSome? (nextEgress s p) with
    | some (q, k) =>
      let s := modPrep (egressWrite s q.ver k) q.ver.num p fun x =>
        { x with egress := x.egress.filter (· != k) }
      ranEgress s p 0
    | none => ranEgress s p 1

/-! ## The commands' meanings -/

/-- FRAME_TRANSMIT_START (R416): a free MAC of a port that may send, and that has no pause or PFC frame to send first
(R368). -/
def rowFrameTransmitStart (node : Nat) (cells : List (Nat × Ecc)) (cipherFault : Option Nat)
    (s : State) : State :=
  whenRun s fun s =>
    guardS (decide (node < 130) && maySend s node && (portAt s node).tx.isNone
        && !flowDue s node && pipeLive s (nodePipe node)) s
      fun s => transmitStart s node cells cipherFault

/-- FRAME_TRANSMIT_END (R361): the frame's bytes have gone, and its tail has arrived. -/
def rowFrameTransmitEnd (node : Nat) (s : State) : State :=
  whenRun s fun s =>
    match (portAt s node).tx.bind (pktAt s) with
    | some k => guardS (k.tailDone && due s k.out.endBeat) s fun s => transmitEnd s node k
    | none => s

/-- FLOW_CONTROL_FRAME_SEND (R368). -/
def rowFlowControlFrameSend (node : Nat) (s : State) : State :=
  whenRun s fun s =>
    guardS (flowReady s node) s fun s => tellNext s node

/-- FLOW_CONTROL_REPEAT (R368). -/
def rowFlowControlRepeat (node : Nat) (s : State) : State :=
  whenRun s fun s =>
    guardS (flowReady s node && !(repeats s node).isEmpty) s
      fun s => tellAgain s node

/-- PAUSE_FRAME_RECEIVE (R369): on a port whose MACsec receive is off; the receive path delivers others. -/
def rowPauseFrameReceive (node : Nat) (frame : Bytes) (s : State) : State :=
  whenRun s fun s =>
    guardS (decide (node < 130) && isUp s node && isControl frame && !macRxOn s node) s
      fun s => pauseReceive s node frame

/-- PAUSE_EXPIRY (R369). -/
def rowPauseExpiry (node cls : Nat) (s : State) : State :=
  whenRun s fun s =>
    match tfind (portAt s node).pauseEnd cls with
    | some b => guardS (due s b) s fun s =>
        modPort s node fun p => { p with pauseEnd := terase p.pauseEnd cls }
    | none => s

/-- LINK_HOLD_EXPIRY (R381 step 3). -/
def rowLinkHoldExpiry (node : Nat) (s : State) : State :=
  whenRun s fun s =>
    guardS ((portAt s node).link == 1 && due s (portAt s node).holdEnd) s
      fun s => enterFlush s node

/-- LINK_FLUSHED (R381 step 4). -/
def rowLinkFlushed (node : Nat) (s : State) : State :=
  whenRun s fun s => flushEnd s node

/-- EWRITE: an egress carousel beat whose job is EWRITE; a PAD beat is wasted (R70, R435). -/
def rowEwrite (pipe : Nat) (s : State) : State :=
  whenRun s fun s => guardS (egressReady s pipe) s fun s =>
    let j := jobOf s .egress s.beat
    if j = jobEwrite then ewriteBeat s pipe else if j = jobPad then ranEgress s pipe 1 else s

end Sys2Proof.Machine
end

