-- ==== Sys2Proof/Machine/Arbiters.lean ====
section
/-! DEFINITION. The ten deadline arbiters: who has a request, rounds, grants and cuts (R497 to R508).
Arbiters 0 to 7 are the HBM background ports of the pipes, 8 is the DMA engine, 9 the lookaside
unit. -/

namespace Sys2Proof.Machine

/-! ## Requester rows (R505, R506) -/

/-- Index and subindex of an arbiter's requester rows. -/
def arbRows (a : Nat) : Nat × Nat :=
  if a < 8 then (0x6C00, 4) else if a = arbDma then (0x6C10, 3) else (0x6C20, 3)

def reqRow (s : State) (a i : Nat) : Nat :=
  let (idx, sub) := arbRows a
  let r := stored s idx sub i
  natOf (if r = [] then defaultAt idx sub i else r)

def reqPrio (s : State) (a i : Nat) : Nat := bits (reqRow s a i) 31 29
def reqLimit (s : State) (a i : Nat) : Nat := bits (reqRow s a i) 27 16
def reqSlack (s : State) (a i : Nat) : Nat := bits (reqRow s a i) 15 0

def arbStep (s : State) (a : Nat) : Nat := rw s (arbRows a).1 1

/-- The maximum grant of the DMA and lookaside arbiters. -/
def arbMax (s : State) (a : Nat) : Nat := rw s (arbRows a).1 2

/-! ## Work that waits for a grant (R497, R498) -/

/-- The oldest HBM request of a requester that has not been issued. -/
def hbmRead (s : State) (p i : Nat) : Option Read :=
  (pipeAt s p).reads.find? fun r => !r.issued && r.requester == i + 1

def hbmWants (s : State) (p : Nat) : List Nat :=
  if pipeLive s p then (List.range 3).filter fun i => (hbmRead s p i).isSome else []

/-- The receive ring of a frame that a host port node delivers (R518). -/
def rxRing (d : Decision) : Nat := if d.kind = 4 then d.ring else 1024 * (d.port - 130) + d.queue

/-- Receive rings for which a frame heads its queue. -/
def headRings (s : State) : List Nat :=
  s.buf.queues.filterMap fun q => (headOf s q.1).bind fun k =>
    if 130 ≤ decNode k.dec && decide (decNode k.dec < 134) && k.tailDone then some (rxRing k.dec)
    else none

/-- Records wait for an observation domain (R355). -/
def domainBusy (s : State) (d : Nat) : Bool :=
  let k := pipeAt s (d % 8)
  s.host.tmplDue.contains d || !(if d < 8 then k.exportQ else k.idleExportQ).isEmpty

def rxWork (s : State) (r : Nat) : Bool :=
  (headRings s).contains r || (ringAt s r).part.isSome
    || s.buf.copies.any (fun c => c.ring == r && c.waitUntil.isNone)
    || (rw s 0x5060 2 == 0 && rw s 0x5060 8 == r && (List.range 16).any (domainBusy s))

/-- The transmit descriptor of a ring that has been fetched names a job (R528). -/
def descMode (d : List Nat) : Nat := bits (d.getD 1 0) 63 62
def descClass (d : List Nat) : Nat := bits (d.getD 1 0) 58 56
def isJob (d : List Nat) : Bool := descMode d == 2

/-- A descriptor is posted that is neither fetched nor begun. -/
def unfetched (s : State) (r : Nat) : Bool :=
  (ringAt s r).desc.isNone && decide ((ringAt s r).begun.length < posted s r)

/-- The frame of a ring's descriptor is entering its host port node: its write-back, and with it the descriptor's
transaction, is still to come (R498, R531). -/
def entering (s : State) (r : Nat) : Bool :=
  (((portAt s (130 + r / 1024)).rx.bind (pktAt s)).bind Pkt.tx).map TxInfo.ring == some r

/-- A transmit ring has something for the DMA engine (R529, R534). -/
def txWork (s : State) (r : Nat) : Bool :=
  match (ringAt s (txRing r)).desc with
  | some d => !isJob d && !xOf s (130 + r / 1024) (descClass d)
  | none => entering s r
      || (ringLive s (txRing r) && (ringAt s (txRing r)).state == 1 && unfetched s (txRing r))

/-- The oldest command of a pipe that the part may fetch: it holds fewer than 4,096 (R537). -/
def toFetch (s : State) (p : Nat) : Option Cmd :=
  if ringLive s (cmdRing p) && decide (((pipeAt s p).cmds.filter fun c => c.kind == 0 && c.held).length < 4096) then
    (pipeAt s p).cmds.find? fun c => !c.held
  else none

/-- A pipe has a completion to write and a free element for it. -/
def completionDue (s : State) (p : Nat) : Bool :=
  !(pipeAt s p).cpls.isEmpty && ringLive s (cplRing p) && decide (0 < posted s (cplRing p))

/-- Requesters of the DMA engine that have work for it, whether or not their masters may ask for more. -/
def dmaWorks (s : State) : List Nat :=
  let rings := tkeys s.host.rings
  (rings.filter fun r => decide (r < 4096) && decide (0 < posted s r) && rxWork s r)
    ++ (rings.filter fun r => decide (4096 ≤ r) && decide (r < 8192) && txWork s (r - 4096))
    ++ (if s.cnt.snapshots.isEmpty then [] else [8192])
    ++ (if s.sys.evq.isEmpty then [] else [8193])
    ++ (if (List.range 8).any (fun p => completionDue s p || (toFetch s p).isSome) then [8194] else [])
    ++ (if s.host.pools.access.isEmpty then [] else [8195])
    ++ (if s.cipher.jobs.isEmpty then [] else [8196])

/-- Mabin sessions with a message whose code is outstanding, and rings whose fetched descriptor names a job (R497). -/
def laWorks (s : State) : List Nat :=
  ((s.mabin.sessions.filter fun e => e.2.codes != 0).map Prod.fst)
  ++ ((tkeys s.host.rings).filter fun r => decide (4096 ≤ r) && decide (r < 8192)
    && (match (ringAt s r).desc with
        | some d => isJob d
        | none => false)).map fun r => r - 4096 + 16

/-- A requester's master is neither frozen nor disabled (R504). -/
def masterLive (s : State) (a i : Nat) : Bool :=
  if a = arbDma then
    (if i < 8192 then ringLive s i
     else if i = 8192 then ringLive s dumpRing
     else if i = 8193 then ringLive s eventRing else true)
  else if a = arbLa then
    (if i < 16 then ((sessionAt s i).map Session.frozen) == some false else ringLive s (i - 16 + 4096))
  else true

/-- Requesters with work for a transaction. -/
def works (s : State) (a : Nat) : List Nat :=
  if a < 8 then hbmWants s a else if a = arbDma then dmaWorks s else laWorks s

/-- Requesters that may have a request pending. -/
def wants (s : State) (a : Nat) : List Nat := (works s a).filter (masterLive s a)

/-! ## Pending requests (R498, R499, R504) -/

/-- The latest-service beat of a request that becomes pending in this beat (R499). -/
def latestOf (s : State) (a i : Nat) : Int :=
  if a < 8 && decide (i < 2) then
    let adm := ((hbmRead s a i).bind fun r => posAt s a r.h).map Pos.adm
    ((adm.getD s.beat + horizon s : Nat) : Int) - 4 - rw s 0x6C00 2
  else ((s.beat + reqSlack s a i : Nat) : Int)

/-- New work becomes pending, work that has gone or whose master may not ask is withdrawn with its boost and wait (R504).
A grant runs to the end of its transaction: it is free once nothing of its work is left; an HBM grant lasts one beat
(R502). -/
def scanArb (s : State) (a : Nat) : State :=
  let ws := wants s a
  let x := arbAt s a
  let holder := if a < 8 then none else x.holder.filter fun h => (works s a).contains h.1
  let reqs := ws.foldl (fun t i =>
    if (tfind t i).isSome || holder.map Prod.fst == some i then t
    else tins t i { latest := latestOf s a i, boost := 0, wait := 0, since := s.beat })
    (x.reqs.filter fun e => ws.contains e.1)
  modArb s a fun x => { x with holder := holder, reqs := reqs }

/-- The requests of every arbiter at the start of a beat. -/
def scanArbs (s : State) : State := (List.range 10).foldl scanArb s

/-! ## Rounds (R500, R501) -/

/-- Background requests of a pipe that are out. -/
def bgOut (k : Pipe) : Nat :=
  (k.reads.filter fun r => r.issued && !r.landed && r.requester != 0
    && r.requester != writeReq).length

def arbFree (s : State) (a : Nat) : Bool :=
  if a < 8 then
    decide (bgOut (pipeAt s a) < rw s 0x6C00 3) && decide (outstanding (pipeAt s a) < 512)
  else (arbAt s a).holder.isNone

/-- Requests that take part in a round of this beat. -/
def contenders (s : State) (a : Nat) : Tbl Req :=
  (arbAt s a).reqs.filter fun e => decide (e.2.since < s.beat)

/-- The better of two contenders for an order in which the first of equals stays. -/
def bestOf {α : Type} (better : α → α → Bool) : List α → Option α
  | [] => none
  | a :: t => some (t.foldl (fun x y => if better y x then y else x) a)

/-- The winner of a round, and whether it wins by force. -/
def winner (s : State) (a : Nat) : Option (Nat × Bool) :=
  let cs := contenders s a
  let forced := cs.filter fun e =>
    decide (0 < reqLimit s a e.1) && decide (reqLimit s a e.1 ≤ e.2.wait)
  if forced.isEmpty then
    let e := fun (x : Nat × Req) => x.2.latest - ((x.2.boost * arbStep s a : Nat) : Int)
    (bestOf (fun y x => decide (e y < e x)
        || (e y == e x && decide (reqPrio s a x.1 < reqPrio s a y.1))) cs).map
      fun x => (x.1, false)
  else (bestOf (fun y x => decide (y.2.since < x.2.since)) forced).map fun x => (x.1, true)

/-- The grant: its requester holds it, and an HBM request is issued. -/
def grant (s : State) (a i : Nat) : State :=
  let latest := ((tfind (arbAt s a).reqs i).map Req.latest).getD 0
  let s := modArb s a fun x => { x with reqs := terase x.reqs i, holder := some (i, s.beat, latest) }
  match (if a < 8 then hbmRead s a i else none) with
  | some r => issueRead s a r.id
  | none => s

/-- One round: every other contender gains a boost and a lost round. -/
def arbRound (s : State) (a : Nat) : State :=
  match winner s a with
  | none => s
  | some (i, forced) =>
    let losers := (contenders s a).filter fun e => e.1 != i
    let gains := (losers.filter fun e => decide (e.2.boost < 15)).length
    let lose := fun (t : Tbl Req) (e : Nat × Req) => tins t e.1
      { e.2 with boost := min 15 (e.2.boost + 1), wait := min 4095 (e.2.wait + 1) }
    let s := modArb s a fun x =>
      { x with reqs := losers.foldl lose x.reqs, roundBeat := some s.beat }
    let s := count s (cArb a 0) gains
    grant (if forced then count s (cArb a 1) 1 else s) a i

/-- A grant that reaches its maximum is cut: the remainder is the requester's next request, with the
same latest-service beat (R502). The rows move a descriptor's data at once, so a cut falls before or after them and
meets no boundary within the data (log entry 106). -/
def cutGrant (s : State) (a : Nat) : State :=
  match (arbAt s a).holder with
  | some (i, since, latest) =>
    if due s (since + arbMax s a) then
      modArb s a fun x => { x with
        holder := none,
        reqs := tins x.reqs i { latest := latest, boost := 0, wait := 0, since := s.beat + 1 } }
    else s
  | none => s

/-! ## The commands' meanings -/

/-- ARBITER_ROUND (R500): one round in a beat in which the resource is free and a request pends. -/
def rowArbiterRound (arb : Nat) (s : State) : State :=
  whenRun s fun s =>
    guardS (decide (arb < 10) && (arbAt s arb).roundBeat != some s.beat && arbFree s arb) s
      fun s => arbRound s arb

/-- ARBITER_GRANT_CUT (R502). -/
def rowArbiterGrantCut (arb : Nat) (s : State) : State :=
  whenRun s fun s => guardS (arb == arbDma || arb == arbLa) s fun s => cutGrant s arb

end Sys2Proof.Machine
end

