-- ==== Sys2Proof/Machine/Counters.lean ====
section
/-! DEFINITION. Counter clears, filtered counters, snapshots and dump records (R64, R538, R539, R579 to
R581, R589, R594 to R598). -/

namespace Sys2Proof.Machine

def modCnt (s : State) (f : Counters → Counters) : State := { s with cnt := f s.cnt }

/-! ## Writes (R579, R592 to R595) -/

/-- Clear a counter's overflow flag. -/
def overflowClear (number : Nat) (s : State) : Option State :=
  if 9215 < number then none
  else if isLine number then
    some (modCnt s fun c => { c with line := tmod 0 c.line number (· % 2 ^ 63) })
  else some (modCnt s fun c => { c with words := tmod 0 c.words number (· % 2 ^ 63) })

/-- CNT_OVERFLOW_CLEAR (R579). -/
def rowCntOverflowClear (src : Origin) (number : Nat) (s : State) : State :=
  writeCmd s src 0x8800 2 noRow (bytesOf 4 number) (overflowClear number)

/-- A row that R593 accepts: a source that is not reserved, and for HBM reads a pipe or any. -/
def filterRowOk (v : Bytes) : Bool :=
  decide (byteAt v 0 ≤ 13) && (byteAt v 0 != 4 || decide (byteAt v 2 ≤ 1))

def chained (s : State) (i : Nat) : Bool := bitOf (rwBytes s 0x8810 2) (i / 2)

/-- A row write zeroes the counter, and its partner when they are chained (R594). -/
def filterSelect (i : Nat) (v : Bytes) (s : State) : Option State :=
  if !filterRowOk v then none
  else
    let pair := if i % 2 = 0 then i + 1 else i - 1
    let zero := fun (t : Tbl Nat) =>
      let t := terase t i
      if chained s i then terase t pair else t
    some (modCnt (setRw s 0x8810 1 i v) fun c => { c with filtered := zero c.filtered })

/-- CNT_FILTER_SELECT (R594). -/
def rowCntFilterSelect (src : Origin) (row : Nat) (value : Bytes) (s : State) : State :=
  writeCmd s src 0x8810 1 row value (filterSelect row value)

/-- Both counters of each of some pairs are zero (R595). -/
def clearPairs (s : State) (pairs : List Nat) : State :=
  modCnt s fun c =>
    { c with filtered := pairs.foldl (fun t i => terase (terase t (2 * i)) (2 * i + 1)) c.filtered }

/-- A write of the chain zeroes both counters of every pair that it changes, from the next beat
(R595). -/
def filterChain (v : Bytes) (s : State) : Option State :=
  let old := stored s 0x8810 2 noRow
  let changed := (List.range 128).filter fun i => bitOf old i != bitOf v i
  if v.length = 16 then some (soonDo (setRw s 0x8810 2 noRow v) (.clearPairs changed)) else none

/-- CNT_FILTER_CHAIN (R595). -/
def rowCntFilterChain (src : Origin) (value : Bytes) (s : State) : State :=
  writeCmd s src 0x8810 2 noRow value (filterChain value)

/-! ## Resets of blocks (R581, R589) -/

def clearWords (s : State) (lo n : Nat) : State :=
  modCnt s fun c => { c with words := tdrop c.words lo (lo + n) }

/-- The block of a port node and of its port's lanes. -/
def clearPortCounters (s : State) (n : Nat) (lanes : List Nat) : State :=
  lanes.foldl (fun s l => modCnt s fun c => { c with line := tdrop c.line (cLane l 0) (cLane l 4) })
    (clearWords s (cPort n 0) 32)

/-- The blocks of a pipe and its clusters, and the entry tables of its banks, exact table and
policers. -/
def clearPipeCounters (s : State) (p : Nat) : State :=
  let s := clearWords (clearWords s (cPipe p 0) 64) (cCluster (8 * p) 0) 128
  modCnt s fun c =>
    { c with entries := tdrop (tdrop c.entries (32768 * p) (32768 * p + 32768))
               (262144 + 32768 * p) (262144 + 32768 * p + 32768),
             police := tdrop c.police (49152 * p) (49152 * p + 49152) }

def clearFnCounters (s : State) (f : Nat) : State := clearWords s (cFn f 0) 8

/-- A SOFT reset clears every block unless `cnt.soft.keep` is 1. -/
def clearSoftCounters (s : State) : State :=
  if rwBool s 0x8800 3 then s
  else modCnt s fun c => { c with words := [], line := [], entries := [], police := [], filtered := [],
                                  sequence := 0 }

/-! ## Snapshots (R61 step 3, R64, R539, R596, R598) -/

/-- The start of the frame may still count that it passes without its PTP update (R174). -/
def ptpToCome (k : Pkt) : Bool := k.dec.ptp && vecClass k.vec == 1

/-- Every result of a tick before the snapshot's has been counted: no packet or job of one is on its
way, and no frame of one has still to end. -/
def streamsPassed (s : State) (q : Snapshot) : Bool :=
  (s.pkts.all fun k => decide (q.tick ≤ k.tick) || (k.tailDone && ((k.stage == .queued && !ptpToCome k)
      || k.stage == .sending || (k.stage == .gone && !awaitsJudge k))))
    && (List.range 8).all fun p =>
      let k := pipeAt s p
      !pipeLive s p || (decide (q.beat + horizon s ≤ k.h)
        && k.pos.all fun x => x.done || decide (q.tick ≤ x.tick))

/-- A snapshot that waits only for room is missed when the next one is due (R539). -/
def missDumps (s : State) : State :=
  let late := s.cnt.snapshots.filter (streamsPassed s)
  count (modCnt s fun c => { c with snapshots := c.snapshots.filter fun q => !streamsPassed s q })
    (cPart 5) late.length

/-- The counters as they stand at a boundary beat; later results of earlier ticks are added (R64). -/
def copyCounters (s : State) : State :=
  let q : Snapshot :=
    { tick := s.rm.tick, beat := s.rm.boundaryBeat, seq := s.cnt.sequence,
      version := (curVer s).num, keep := rwBool s 0x8800 3, words := s.cnt.words, line := s.cnt.line,
      filtered := s.cnt.filtered, entries := s.cnt.entries, police := s.cnt.police,
      withEntries := false }
  modCnt s fun c => { c with taken := some q }

/-- A row of `cnt.entry.tcam` below its bank's entry count; the others read as zero (R589). -/
def rowCounts (s : State) (row : Nat) : Bool :=
  decide (262144 ≤ row) || decide (row % 2048 * max 1 (heldWidth s (row / 2048)) < 2048)

/-- The snapshot joins those that wait for the dump ring. -/
def keepSnapshot (s : State) (q : Snapshot) : State :=
  let s := missDumps s
  let m := rw s 0x8820 2
  let q := { q with seq := s.cnt.sequence, version := (curVer s).num,
                    entries := q.entries.filter fun e => rowCounts s e.1,
                    withEntries := m != 0 && s.cnt.sequence % m == 0 }
  modCnt s fun c => { c with snapshots := c.snapshots ++ [q], taken := none, sequence := c.sequence + 1 }

/-- COUNTER_DUMP (R596): work of a boundary whose tick is a multiple of `cnt.dump.period`. -/
def counterDump (s : State) : State :=
  match s.cnt.taken with
  | some q => keepSnapshot s q
  | none => s

def rowCounterDump (s : State) : State :=
  whenRun s counterDump

/-! ## Dump records (R597, R598) -/

/-- An entry row: hits, bad, ttl and their flags (R589). -/
def cntRow (e : EntryCnt) : Bytes :=
  bytesOf 16 (e.hits * 2 ^ 80 + e.bad * 2 ^ 42 + e.ttl * 16 + e.flags)

def entrySection (q : Snapshot) : Bytes :=
  ((List.range 524288).flatMap fun i => cntRow (tget EntryCnt.init q.entries i))
    ++ (List.range 393216).flatMap fun i => bytesOf 8 (tget 0 q.police i)

def dumpLength (q : Snapshot) : Nat := if q.withEntries then 75840 + 11534336 else 75840

def dumpHeader (q : Snapshot) : List Nat :=
  [2 ^ 48 + b2n q.withEntries * 2 ^ 33 + b2n q.keep * 2 ^ 32 + dumpLength q, q.tick, q.beat, q.seq,
   9216 * 2 ^ 48 + 256 * 2 ^ 32 + (if q.withEntries then 11534336 else 0), Config.idUnique.toNat,
   q.version, 0]

def dumpRecord (q : Snapshot) : Bytes :=
  (dumpHeader q).flatMap (leBytes 8)
    ++ ((List.range 9216).flatMap fun i => leBytes 8 (counterOf q.words q.line i))
    ++ ((List.range 256).flatMap fun i => leBytes 8 (tget 0 q.filtered i))
    ++ (if q.withEntries then entrySection q else [])

def dropSnapshot (s : State) : State := modCnt s fun c => { c with snapshots := c.snapshots.drop 1 }

/-- The oldest snapshot goes to the dump ring when every home pipe's commit stream has passed its
tick and the ring has room; one longer than the ring is missed. -/
def writeDump (s : State) : State :=
  match s.cnt.snapshots with
  | [] => s
  | q :: _ =>
    if !streamsPassed s q then s
    else if 2 ^ rowSize (ringRow s dumpRing) < dumpLength q then
      endGrant (count (dropSnapshot s) (cPart 5) 1) arbDma
    else match byteRoom s dumpRing (dumpLength q) with
      | none => s
      | some (a, b) => endGrant (writeRecord (dropSnapshot s) dumpRing (dumpRecord q) a b) arbDma

/-- DUMP_RECORD_WRITE (R64). -/
def rowDumpRecordWrite (s : State) : State :=
  whenRun s fun s => guardS (ringLive s dumpRing && holds s arbDma 8192) s writeDump

end Sys2Proof.Machine
end

