-- ==== Sys2Proof/Machine/CipherRows.lean ====
section
/-! DEFINITION. The commands of the cipher units: MACsec receive and delivery, verification results,
key writes, restores, the entropy source and lookaside jobs (R441 to R451, R457 to R468). -/

namespace Sys2Proof.Machine

/-! ## MACsec receive (R446 to R451) -/

/-- A discard of the receive path, counted for the port and its reason (R447, R587). -/
def rxDiscard (s : State) (n reason : Nat) (mismatch : Bool) : State :=
  let s := countR s (cMacsec n reason) 1 s.rm.tick
  if mismatch then countR s (cMacsec n 6) 1 s.rm.tick else s

/-- Hold a decided frame in staging until its delivery, 24 beats after its last FCS byte (R449). -/
def stageFrame (s : State) (n : Nat) (cells : Nat) (frame : Bytes) (t : Stamp) (sa : Option Nat) :
    State :=
  modPort s n fun p => { p with staging := p.staging ++
    [{ frame := frame, cells := cells, due := beatAfter s 24, stampBeat := t.beat, stampNs := t.ns, stampFrac := t.frac,
       stampTb := t.tb, stampValid := t.valid, sa := sa }] }

/-- The receive path decides a frame whose last FCS byte has reached it (R447). -/
def receiveFrame (s : State) (n : Nat) (frame : Bytes) (phase : Nat) (faulty : Bool) : State :=
  let body := frame.take (frame.length - 4)
  if fcsOf body != frame.drop (frame.length - 4) then countR s (cPort n 2) 1 s.rm.tick
  else if rw s (0x3100 + n) 12 + 32 < frame.length then countR s (cPort n 4) 1 s.rm.tick
  else if !unitServes s (unitOf n) then rxDiscard s n rxFault false
  else match rxDecide s n body faulty with
    | .discard reason mismatch =>
      let s := rxDiscard s n reason mismatch
      -- a mismatch takes the unit out also where the tag has failed (R466)
      if reason = rxFault || (faulty && reason = rxTagFail) then faultUnit s (unitOf n) 1 else s
    | .deliver plain sa =>
      let s := match sa with
        | some (i, pn) =>
          let next := max (pnNext s i) (pn + 1)
          rekeyCheck (putPn s i next) (unitOf n) i next (saLimit (saRow s i))
        | none => s
      stageFrame s n (cellsOf frame.length) (plain ++ fcsOf plain) (rxStampThen s n phase frame.length)
        (sa.map Prod.fst)

/-- The port's oldest staged frame starts at the MAC, which accepts it if the port is UP (R95); a control
frame is the MAC's own (R369, R449). -/
def deliverFrame (s : State) (n : Nat) (exactEcc : Ecc) : State :=
  match (portAt s n).staging with
  | [] => s
  | f :: rest =>
    let s := modPort s n fun p => { p with staging := rest }
    if !isUp s n then s
    else if isControl f.frame then pauseReceive s n f.frame
    else arrive s
      { node := n, frame := f.frame,
        stamp := { beat := f.stampBeat, ns := f.stampNs, frac := f.stampFrac, tb := f.stampTb, valid := f.stampValid },
        macsec := f.sa.isSome, staged := true, exactEcc := exactEcc, cls := none, direct := none, tx := none }

/-- The oldest staged frame of a port is due and its MAC is free. -/
def deliverReady (s : State) (n : Nat) : Bool :=
  (portAt s n).rx.isNone
    && (match (portAt s n).staging with
        | f :: _ => due s f.due
        | [] => false)

/-- MACSEC_RX_FRAME (R447). -/
def rowMacsecRxFrame (node : Nat) (frame : Bytes) (phase : Nat) (faulty : Bool) (s : State) : State :=
  whenRun s fun s =>
    guardS (decide (node < 128) && isUp s node && macRxOn s node && pipeLive s (nodePipe node)) s
      fun s => receiveFrame s node frame phase faulty

/-- MACSEC_RX_DELIVER (R449). -/
def rowMacsecRxDeliver (node : Nat) (exactEcc : Ecc) (s : State) : State :=
  whenRun s fun s => guardS (deliverReady s node) s fun s => deliverFrame s node exactEcc

/-! ## Verification (R353, R458, R459) -/

/-- A verification lands: P3, the count of its cause, and a fault of the unit. -/
def verifyLand (s : State) (k : Pkt) (faulty : Bool) : State :=
  let home := k.flow.home
  let c := k.flow.cluster.getD 0
  let raw := (clusterImage (slotVer s k.vslot) c).getD []
  match verifyArg k raw with
  | none => s
  | some (assoc, start, len, tagOff) =>
    let r := verifyFrame s home k.tick k.bytes assoc start len tagOff faulty
    let s := modPkt s k.id fun x =>
      { x with flow := { x.flow with verify := if r = 0 then 2 else 3 } }
    let s := if r = 0 then s else countR s (cPipe home r) 1 k.tick
    let s := if faulty && unitServes s home then faultUnit s home 3 else s
    endSlip s home

/-- VERIFY_RESULT (R459). -/
def rowVerifyResult (pkt : Nat) (faulty : Bool) (s : State) : State :=
  whenRun s fun s =>
    match pktAt s pkt with
    | some k => guardS (k.flow.verify == 1 && due s k.flow.verifyDue && pipeLive s k.flow.home) s
        fun s => verifyLand s k faulty
    | none => s

/-! ## Keys and units (R441, R466 to R468) -/

/-- A value of `cipher.key.write` that R441 accepts. -/
def keyWriteOk (v : Bytes) : Bool :=
  decide (natAt v 0 2 < 8192) && [0, 16, 32].contains (byteAt v 2)

/-- A key write takes effect at the boundary that R204 counts (R445). -/
def keyWrite (v : Bytes) (s : State) : Option State :=
  if v.length = 47 && keyWriteOk v then some (deferWrite s (keyOf 0x7800 1 noRow) v) else none

/-- CIPHER_KEY_WRITE (R441). -/
def rowCipherKeyWrite (src : Origin) (value : Bytes) (s : State) : State :=
  writeCmd s src 0x7800 1 noRow value (keyWrite value)

/-- The known-answer tests of a unit start; a unit in service is left alone (R467). -/
def startTests (s : State) (u : Nat) : State :=
  if (cipherUnit s u).state = 1 then
    { s with cipher := { s.cipher with
        units := tmod CipherUnit.init s.cipher.units u fun x =>
          { x with state := 2, restoreBeat := s.beat, restoreTick := s.rm.tick, passed := false } } }
  else s

/-- CIPHER_UNIT_RESTORE (R467). -/
def rowCipherUnitRestore (src : Origin) (unit : Nat) (s : State) : State :=
  writeCmd s src 0x7800 5 noRow (bytesOf 1 unit) fun s => some (startTests s unit)

/-- The tests end: passed, the unit waits for its boundary; failed, it stays out of service. -/
def endTests (s : State) (u : Nat) (pass : Bool) : State :=
  let put := fun (f : CipherUnit → CipherUnit) =>
    { s with cipher := { s.cipher with units := tmod CipherUnit.init s.cipher.units u f } }
  if pass then put fun x => { x with passed := true }
  else raiseEv (put fun x => { x with state := 1 }) evCipherFault u
    [(cipherUnit s u).fault / 2 ^ 56]

/-- CIPHER_KAT_DONE (R467): 4,096 beats after the tests started. -/
def rowCipherKatDone (unit : Nat) (pass : Bool) (s : State) : State :=
  whenRun s fun s =>
    let x := cipherUnit s unit
    guardS (x.state == 2 && !x.passed && due s (x.restoreBeat + 4096)) s
      fun s => endTests s unit pass

/-- ENTROPY_HEALTH_FAIL (R468): every unit leaves service under R466, with path 0. -/
def rowEntropyHealthFail (s : State) : State :=
  whenRun s fun s => (List.range 9).foldl (fun s u =>
    if (cipherUnit s u).state = 1 then s else faultUnit s u 0) s

/-! ## Lookaside jobs (R457, R460 to R465, R535) -/

def jobOp (r : Bytes) : Nat := byteAt r 0 / 16
def jobKey (r : Bytes) : Nat := natAt r 2 2
def jobDataLen (r : Bytes) : Nat := if jobOp r ≤ 2 then natAt r 4 4 else 0
def jobAadLen (r : Bytes) : Nat := natAt r 8 2
def jobAadAt (r : Bytes) : Nat := natAt r 24 8
def jobDataAt (r : Bytes) : Nat := natAt r 32 8
def jobOutAt (r : Bytes) : Nat := natAt r 40 8
def jobTagAt (r : Bytes) : Nat := natAt r 48 8

def jobOk : Nat := 0
def jobTagFail : Nat := 1
def jobBad : Nat := 2
def jobKeyFail : Nat := 3
def jobFault : Nat := 4

/-- Reserved op or field (R461): a lookaside record's reserved fields are checked. -/
def jobRecordBad (r : Bytes) : Bool :=
  !(decide (1 ≤ jobOp r) && decide (jobOp r ≤ 4)) || byteAt r 0 % 16 != 0 || byteAt r 1 != 0
    || decide (4096 ≤ jobKey r) || byteAt r 4 != 0 || natAt r 10 2 != 0 || natAt r 56 8 != 0

/-- The key is valid, usable by jobs, and of the length that its row names (R444). -/
def jobKeyOk (s : State) (k : Nat) : Bool :=
  let r := iecRow s k
  bit (byteAt r 0) 7 && bit (byteAt r 0) 4
    && (keyEnt s (4096 + k)).len == (if bit (byteAt r 0) 6 then 32 else 16)

/-- The addresses that a job reaches, with their lengths (R460, R514). -/
def jobSpans (r : Bytes) : List (Nat × Nat) :=
  [(jobAadAt r, jobAadLen r)]
    ++ (if jobOp r ≤ 2 then [(jobDataAt r, jobDataLen r), (jobOutAt r, jobDataLen r)] else [])
    ++ [(jobTagAt r, 16)]

/-- A job that has run. -/
structure JobRun where
  status : Nat
  /-- Writes made while it ran, and those that zero its output. -/
  writes : List (Nat × Bytes)
  zeroing : List (Nat × Bytes)

/-- What a job computes with its key and IV (R440, R460 to R465). -/
def runJob (key iv r aad data tag : Bytes) (faulty : Bool) : JobRun :=
  let aad := slice aad 0 (jobAadLen r)
  let data := slice data 0 (jobDataLen r)
  let text := gcmCrypt key iv data
  let wipe := if data = [] then [] else [(jobOutAt r, zeros data.length)]
  let out := if data = [] then [] else [(jobOutAt r, text)]
  if jobOp r = 1 then
    if faulty then { status := jobFault, writes := out, zeroing := wipe }
    else { status := jobOk, writes := out ++ [(jobTagAt r, gcmTag key iv aad text)], zeroing := [] }
  else if jobOp r = 2 then
    if faulty then { status := jobFault, writes := out, zeroing := wipe }
    else if gcmTag key iv aad data != slice tag 0 16 then
      { status := jobTagFail, writes := out, zeroing := wipe }
    else { status := jobOk, writes := out, zeroing := [] }
  else if jobOp r = 3 then
    if faulty then { status := jobFault, writes := [], zeroing := [] }
    else { status := jobOk, writes := [(jobTagAt r, gmac key iv aad)], zeroing := [] }
  else if faulty then { status := jobFault, writes := [], zeroing := [] }
  else { status := if gmac key iv aad = slice tag 0 16 then jobOk else jobTagFail, writes := [],
         zeroing := [] }

/-- The IV of a job by its key's iv_mode (R444, R460). -/
def jobIv (s : State) (r : Bytes) : Bytes :=
  let row := iecRow s (jobKey r)
  let salt := (keyEnt s (4096 + jobKey r)).salt
  let mode := bits (byteAt row 0) 3 2
  if mode = 0 then slice r 12 12
  else if mode = 1 then slice salt 0 4 ++ slice r 16 8
  else slice salt 0 4 ++ bytesOf 8 (tget 0 s.cipher.iecCtr (jobKey r))

/-- iv_mode 2 takes the counter, and the IV that it used goes to the record, but for a GMAC verify job (R455, R460,
R462). -/
def takeCounter (s : State) (r : Bytes) (addr : Nat) : State × List (Nat × Bytes) :=
  let writes := if jobOp r = 4 then [] else [(addr + 12, jobIv s r)]
  let k := jobKey r
  if bits (byteAt (iecRow s k) 0) 3 2 != 2 then (s, [])
  else
    let next := tget 0 s.cipher.iecCtr k + 1
    let s := { s with cipher := { s.cipher with iecCtr := tput 0 s.cipher.iecCtr k next } }
    (rekeyCheck s 8 (4096 + k) next (2 ^ 64 - 1), writes)

/-- The counter of a mode-2 key has passed its limit (R457). -/
def counterSpent (s : State) (k : Nat) : Bool :=
  bits (byteAt (iecRow s k) 0) 3 2 == 2 && decide (2 ^ 64 ≤ tget 0 s.cipher.iecCtr k)

/-- The job leaves the lookaside unit with its status; its count begins (R461). -/
def finishJob (s : State) (ring : Nat) (desc : List Nat) (status : Nat)
    (writes : List (Nat × Bytes)) : State :=
  let x := ringAt s (txRing ring)
  let c := (x.cons + x.begun.length) % 2 ^ 32
  let s := modRing s (txRing ring) fun x =>
    { x with desc := none, begun := x.begun ++ [(c, none)] }
  let job : Job := { ring := ring, count := c, status := status,
                     words := [status * 2 ^ 59, 0, 0, desc.getD 3 0], writes := writes }
  endGrant { s with cipher := { s.cipher with jobs := s.cipher.jobs ++ [job] } } arbLa

/-- A granted job: the record, AAD, data and tag are what host memory holds. -/
def lookaside (s : State) (ring : Nat) (desc : List Nat) (record aad data tag : Bytes)
    (faulty : Bool) : State :=
  let r := slice record 0 64
  let addr := desc.getD 0 0
  let f := ringOwner s (txRing ring)
  let spans := if jobRecordBad r then [(addr, 64)] else (addr, 64) :: jobSpans r
  if !spans.all (fun e => inWindow s f e.1 e.2) then
    endGrant (freezeFn s f 1 (txRing ring)) arbLa
  else
    let s := spans.foldl (fun s e =>
      if e.2 = 0 then s else filtered s 6 0 [(2, f), (3, txRing ring)] e.1 none e.2) s
    if jobRecordBad r then finishJob s ring desc jobBad []
    else if !jobKeyOk s (jobKey r) then finishJob s ring desc jobKeyFail []
    else if !unitServes s 8 then finishJob s ring desc jobFault []
    else if counterSpent s (jobKey r) then endGrant (exhaust s 8 (4096 + jobKey r)) arbLa
    else
      let run := runJob (keyBytes (keyEnt s (4096 + jobKey r))) (jobIv s r) r aad data tag faulty
      let (s, iv) := takeCounter s r addr
      let s := if faulty then faultUnit s 8 4 else s
      finishJob s ring desc run.status (iv ++ run.writes ++ run.zeroing)

/-- LOOKASIDE_JOB (R460): the ring holds the lookaside unit's grant. -/
def rowLookasideJob (ring : Nat) (record aad data tag : Bytes) (faulty : Bool) (s : State) : State :=
  whenRun s fun s =>
    match (ringAt s (txRing ring)).desc with
    | some d => guardS (holds s arbLa (16 + ring) && isJob d) s
        fun s => lookaside s ring d record aad data tag faulty
    | none => s

/-- A job completes: what it wrote as it ran, its output zeroed on a failure, its status counted and written back; the
output writer makes all of these writes (R462, R497). -/
def completeJob (s : State) (j : Job) : State :=
  let s := j.writes.foldl (fun s w => dmaWrite s (txRing j.ring) w.1 w.2) s
  let s := { s with cipher := { s.cipher with
    jobs := ldel (fun x => x.ring == j.ring) s.cipher.jobs } }
  let s := completeCount (count s (cPart (13 + j.status)) 1) (txRing j.ring) j.count j.words
  endGrant s arbDma

/-- LOOKASIDE_JOB_COMPLETE (R461): the output writer holds the DMA engine's grant. -/
def rowLookasideJobComplete (ring : Nat) (s : State) : State :=
  whenRun s fun s =>
    match s.cipher.jobs.find? fun j => j.ring == ring with
    | some j => guardS (holds s arbDma 8196) s fun s => completeJob s j
    | none => s

end Sys2Proof.Machine
end

