-- ==== Sys2Proof/Machine/HostRows.lean ====
section
/-! DEFINITION. Frames, copies and completions between the part and host memory: receive rings,
transmit rings, the copy rings, the completion rings (R384, R387 to R390, R516 to R537). -/

namespace Sys2Proof.Machine

/-! ## Writing into receive descriptors (R519, R522, R525, R526) -/

/-- Words of a frame's first write-back as its ring's format has them (R526). -/
def headWords (s : State) (ring : Nat) (words : List Nat) : List Nat :=
  if (ringAt s ring).fmt = 1 then
    [words.getD 0 0, words.getD 1 0 / 2 ^ 56 * 2 ^ 56 + words.getD 1 0 % 2 ^ 40]
  else words

/-- One buffer of a frame: its data, then its write-back. -/
def writeBuf (ring : Nat) (words : List Nat) (first last : Bool) (b : Nat × Bytes) (s : State) :
    State :=
  let s := dmaWrite s ring b.1 b.2
  let mark := b2n first * 2 ^ 62 + b2n last * 2 ^ 61 + b.2.length
  let head := if first then headWords s ring words else []
  writeBack s ring ((head.getD 0 0 + mark) :: head.drop 1)

/-- How far a descriptor has brought the delivery of an item. -/
inductive RxEnd where
  | more
  | whole
  | frozen
  deriving DecidableEq, Repr

/-- The bytes of an item that a ring has still to deliver, of how many, and whether none has gone; none while the ring
delivers another item. -/
def rxLeft (s : State) (ring : Nat) (item : RxItem) (body : Bytes) : Option (Bytes × Nat × Bool) :=
  match (ringAt s ring).part with
  | none => some (body, body.length, true)
  | some x => if x.item = item then some (x.left, x.total, false) else none

/-- Deliver the next part of an item into a ring's next descriptor (address and length): none while the ring has no free
one (R519). A buffer outside the function's windows freezes the function, and nothing is written (R514, R515). -/
def rxDeliver (s : State) (ring : Nat) (item : RxItem) (words : List Nat) (body : Bytes)
    (descs : List (Nat × Nat)) : Option (State × RxEnd) :=
  match (descs.take (posted s ring)).head?, rxLeft s ring item body with
  | some (a, n), some (left, total, first) =>
    let f := ringOwner s ring
    let b := left.take n
    let rest := left.drop n
    let put := fun part s => modRing s ring fun x => { x with part := part }
    if !inWindow s f a b.length then some (freezeFn (put none s) f 1 ring, .frozen)
    else
      let s := writeBuf ring words first rest.isEmpty (a, b) s
      if rest.isEmpty then some (count (count (put none s) (cFn f 0) 1) (cFn f 1) total, .whole)
      else some (put (some { item := item, left := rest, total := total }) s, .more)
  | _, _ => none

/-- An item that a ring was delivering has ended. -/
def dropPart (s : State) (ring : Nat) (item : RxItem) : State :=
  if (ringAt s ring).part.map RxPart.item = some item then modRing s ring fun x => { x with part := none } else s

/-- Frames for a ring are discarded: it is not enabled, or it or its function is frozen (R384). -/
def rxClosed (s : State) (ring : Nat) : Bool :=
  (ringAt s ring).state != 1 || (fnAt s (ringOwner s ring)).frozen

/-- A ring takes an item: one that it has begun while it may work at all, another while it is open (R384, R543). -/
def rxTakes (s : State) (ring : Nat) (item : RxItem) : Bool :=
  if (ringAt s ring).part.map RxPart.item = some item then ringLive s ring else !rxClosed s ring

/-- A discard for a host ring, by the ingress port node, and by the function when it or the ring is
frozen (R145, R384, R582, R587). -/
def hostDiscard (s : State) (ring node : Nat) : State :=
  let f := ringOwner s ring
  let s := count s (cPort node 11) 1
  if (fnAt s f).frozen || (ringAt s ring).state = 3 then count s (cFn f 4) 1 else s

/-! ## Frames of host port nodes (R384, R415 to R420, R518, R519) -/

/-- The queues of a host port node whose head frame is for a ring. -/
def ringQueues (s : State) (ring : Nat) : List Nat :=
  (busyQueues s).filter fun q =>
    match headOf s q with
    | some k => decNode k.dec == 130 + ring / 1024 && rxRing k.dec == ring && k.tailDone
        && k.bad == 0
        && gateAllows s (decNode k.dec) (q % 8) (frameBeats s (decNode k.dec) (frameN s k))
    | none => false

/-- A frame that starts at a host port node leaves its queue, charged to its path (R419). -/
def startHost (s : State) (kid : Kid) (k : Pkt) (ring : Nat) : State :=
  let s := { s with buf := { s.buf with nodes := kid.nodes } }
  let s := (chargePath s (pathOf s (130 + ring / 1024) kid.queue) (frameN s k)).1
  modPkt (leaveQueue s kid.queue k.id) k.id fun x => { x with stage := .sending }

/-- A frame that has wholly left a host port node is counted as sent. -/
def leaveHost (s : State) (k : Pkt) (ring : Nat) : State :=
  let n := 130 + ring / 1024
  let len := k.out.sent.length
  let s := count (count s (cPort n 14) 1) (cPort n 15) len
  let s := filtered s 10 0 [(1, n)] 0 (some (k.out.qid % 8)) 1
  freePkt (filtered s 11 0 [(1, n)] 0 (some (k.out.qid % 8)) len) k

/-- The head frame of a queue is discarded when it is for a receive ring that takes none (R384). -/
def dropHead (s : State) (q : Nat) : State :=
  match headOf s q with
  | some k =>
    if decide (130 ≤ decNode k.dec) && decide (decNode k.dec < 134) && rxClosed s (rxRing k.dec) then
      discardPkt (hostDiscard s (rxRing k.dec) k.node) k.id
    else s
  | none => s

/-- Every frame of some queues that reaches their head and that its ring takes no more goes, whatever shapers and
gates say (R384). -/
def dropHeads (qs : List Nat) (s : State) : State :=
  qs.foldl (fun s q => (queueAt s q).foldl (fun s _ => dropHead s q) s) s

/-- The next descriptor's part of a frame; its grant ends with it (R498). A double error in the frame's cells discards it
(R363). -/
def rxFrame (s : State) (ring : Nat) (k : Pkt) (descs : List (Nat × Nat)) (cells : List (Nat × Ecc)) : State :=
  let words := rxWords k (if k.dec.kind = 4 then k.dec.reason else 0) k.out.sent.length
  let body := k.out.sent.take (k.out.sent.length - 4)
  match rxDeliver s ring (.frame k.id) words body descs with
  | none => s
  | some (t, e) =>
    match readCells (130 + ring / 1024) cells t with
    | (t, none) => endGrant (if e = .whole then leaveHost t k ring else t) arbDma
    | (_, some _) =>
      let s := (readCells (130 + ring / 1024) cells s).1
      endGrant (discardPkt (dropPart s ring (.frame k.id)) k.id) arbDma

/-- RX_WRITEBACK's work: the frame that the ring is delivering, or the one that the port node chooses among this
ring's. -/
def rxWriteback (s : State) (ring : Nat) (descs : List (Nat × Nat)) (cells : List (Nat × Ecc)) : State :=
  if !holds s arbDma ring then s
  else match (ringAt s ring).part with
    | some x => match x.item with
      | .frame id => match pktAt s id with
        | some k => rxFrame s ring k descs cells
        | none => endGrant (dropPart s ring x.item) arbDma
      | _ => s
    | none => match choosePort s (130 + ring / 1024) (ringQueues s ring) with
      | none => s
      | some kid => match headOf s kid.queue with
        | none => s
        | some k =>
          if (descs.take (posted s ring)).isEmpty then s
          else rxFrame (startHost s kid k ring) ring k descs cells

/-- The queues of a host port node whose head frame is for a ring, whether or not it may leave. -/
def headsFor (s : State) (ring : Nat) : List Nat :=
  (busyQueues s).filter fun q => match headOf s q with
    | some k => decNode k.dec == 130 + ring / 1024 && rxRing k.dec == ring
    | none => false

/-- RX_WRITEBACK (R522): `descs` are the addresses and lengths of the ring's next descriptors, `cells` what the reads
of the frame's cells meet. -/
def rowRxWriteback (ring : Nat) (descs : List (Nat × Nat)) (cells : List (Nat × Ecc)) (s : State) : State :=
  whenRun s fun s => guardS (decide (ring < 4096) && pipeLive s (2 + ring / 1024)) s fun s =>
    if rxClosed s ring && ((ringAt s ring).part.isNone || !ringLive s ring) then dropHeads (headsFor s ring) s
    else rxWriteback s ring descs cells

/-! ## Copies (R387 to R390) -/

/-- The bytes of a copy as it is delivered: the header, a record if a step published one, the copied
bytes. -/
def copyBytes (c : Copy) : Bytes :=
  let h := if c.record = [] then c.header
    else putNat (putNat c.header 0 1 (setBit (byteAt c.header 0) 6 true)) 22 1 c.record.length
  h ++ c.record ++ c.body

/-- A copy for a ring that takes none is discarded (R390). -/
def dropCopy (s : State) (c : Copy) : State :=
  endCopy (hostDiscard (dropPart s c.ring (.copy c.id)) c.ring (natAt c.header 2 2)) c

/-- Deliver a copy, a descriptor a grant; a double error in its cells discards it (R363, R498). -/
def deliverCopy (s : State) (c : Copy) (descs : List (Nat × Nat)) (cells : List (Nat × Ecc)) : State :=
  if !rxTakes s c.ring (.copy c.id) then dropCopy s c
  else if !holds s arbDma c.ring then s
  else match rxDeliver s c.ring (.copy c.id) c.words (copyBytes c) descs with
    | none => s
    | some (t, e) =>
      match readCells 134 cells t with
      | (t, none) =>
        endGrant (if e = .whole then endCopy (emit t (.copy c.ring (copyBytes c))) c else t) arbDma
      | (_, some _) => endGrant (endCopy (dropPart (readCells 134 cells s).1 c.ring (.copy c.id)) c) arbDma

/-- The first copy of a ring that waits for no formatting task. -/
def nextCopyOf (s : State) (ring : Nat) : Option Copy :=
  s.buf.copies.find? fun c => c.ring == ring && c.waitUntil.isNone

/-- COPY_DELIVER (R390): copies of one ring go in order. -/
def rowCopyDeliver (copy : Nat) (descs : List (Nat × Nat)) (cells : List (Nat × Ecc)) (s : State) : State :=
  whenRun s fun s =>
    match copyAt s copy with
    | some c => guardS ((nextCopyOf s c.ring).map Copy.id == some copy) s
        fun s => deliverCopy s c descs cells
    | none => s

/-- A formatting task of a copy is gone from every idle queue. -/
def dropTask (s : State) (copy : Nat) : State :=
  { s with clusters := s.clusters.map fun e =>
      (e.1, { e.2 with idleQ := e.2.idleQ.filter fun t => t.copy != some copy }) }

/-- A copy goes out unformatted. -/
def unformatted (s : State) (copy : Nat) : State :=
  let copies := lmod (fun c => c.id == copy) (fun c => { c with waitUntil := none }) s.buf.copies
  { s with buf := { s.buf with copies := copies } }

/-- SAMPLE_FORMAT_TIMEOUT (R389): one tick after the task was queued, which is discarded. -/
def rowSampleFormatTimeout (copy : Nat) (s : State) : State :=
  whenRun s fun s =>
    match (copyAt s copy).bind Copy.waitUntil with
    | some t => guardS (due s t) s fun s => unformatted (dropTask s copy) copy
    | none => s

/-- A sample's copy is made, and its formatting task queued where its cluster is in rotation (R387, R389). One tick is
a tick's length in beats at the rate in force (log entry 168). -/
def makeSample (s : State) (x : Sample) : State :=
  let id := s.buf.nextCopy
  let task := x.task.filter fun e => (clusterAt s e.1).state == 0
  let t := addCopy s { x.copy with waitUntil := task.map fun _ => s.beat + tickBeats s.rm.rate }
  match task with
  | some (i, k) =>
    if t.buf.nextCopy = id then t
    else offerTask t i { k with arg := k.arg + id % 65536 * 2 ^ 104, copy := some id }
  | none => t

/-- The samples whose beat has come: a beat's work. -/
def makeSamples (s : State) : State :=
  (s.buf.samples.filter fun x => due s x.due).foldl makeSample
    { s with buf := { s.buf with samples := s.buf.samples.filter fun x => !due s x.due } }

/-- A frame of which a ring that may do no more has some parts is discarded (R45, R384). -/
def dropDelivery (s : State) (ring : Nat) : State :=
  match (ringAt s ring).part with
  | some x => if ringLive s ring then s else match x.item with
    | .frame id =>
      let s := dropPart s ring x.item
      match pktAt s id with
      | some k => discardPkt (hostDiscard s ring k.node) id
      | none => s
    | _ => s
  | none => s

/-- Frames at the heads of their queues, frames in delivery and copies whose rings take none go: a beat's work (R384,
R390). -/
def dropClosed (s : State) : State :=
  let s := (tkeys s.host.rings).foldl dropDelivery (dropHeads (busyQueues s) s)
  s.buf.copies.foldl (fun s c => if c.waitUntil.isNone && !rxTakes s c.ring (.copy c.id) then dropCopy s c else s) s

/-! ## Transmit rings (R528 to R534) -/

def descBytes (d : List Nat) : Nat := bits (d.getD 1 0) 13 0
def descFcs (d : List Nat) : Bool := bit (d.getD 1 0) 61
def descTs (d : List Nat) : Bool := bit (d.getD 1 0) 60
def descOnestep (d : List Nat) : Bool := bit (d.getD 1 0) 59
def descPort (d : List Nat) : Nat := bits (d.getD 1 0) 55 48
def descQueue (d : List Nat) : Nat := bits (d.getD 1 0) 47 45
def descDirect (d : List Nat) : Bool := descMode d == 1

/-- A malformed descriptor (R529). -/
def descBad (s : State) (ring : Nat) (d : List Nat) : Bool :=
  let la := isLaRing s (txRing ring)
  let n := descBytes d
  descMode d == 3 || isJob d != la
    || (!isJob d && !(if descFcs d then decide (60 ≤ n) && decide (n ≤ 16379)
                      else decide (64 ≤ n) && decide (n ≤ 16383)))
    || (!isJob d && (descTs d || descOnestep d) && (!descDirect d || decide (129 < descPort d)))
    || (!isJob d && descOnestep d && (ringAt s (txRing ring)).fmt == 1)
    || (descDirect d && decide (133 < descPort d))

/-- The count of the ring's next descriptor. -/
def nextCount (s : State) (r : Nat) : Nat :=
  ((ringAt s r).cons + (ringAt s r).begun.length) % 2 ^ 32

/-- A DMA read that lies in the function's windows is a filtered event; outside, the function
freezes (R514, R515, R593). -/
def dmaRead (s : State) (r addr len : Nat) : Option State :=
  let f := ringOwner s r
  if inWindow s f addr len then some (filtered s 6 0 [(2, f), (3, r)] addr none len) else none

/-- The words of a descriptor as the ring's format has them, with the beat of the fetch as a fifth. -/
def descWords (s : State) (r : Nat) (words : List Nat) : List Nat :=
  let n := if (ringAt s r).fmt = 1 then 2 else 4
  ((List.range 4).map fun i => if i < n then words.getD i 0 % 2 ^ 64 else 0) ++ [s.beat]

def txFetch (s : State) (ring : Nat) (words : List Nat) : State :=
  let r := txRing ring
  match dmaRead s r (elemAddr s r (nextCount s r)) (elemBytes s r) with
  | none => endGrant (freezeFn s (ringOwner s r) 1 r) arbDma
  | some s =>
    let d := descWords s r words
    let s := count s (cFn (ringOwner s r) 5) 1
    if descBad s ring d then endGrant (freezeRing s r) arbDma
    else
      let s := modRing s r fun x => { x with desc := some d }
      -- a job's data go through the lookaside unit and its output writer, and its write-back with them (log entry 106)
      if isJob d then endGrant s arbDma else s

/-- TX_DESCRIPTOR_FETCH (R529): `words` are the descriptor's in host memory. -/
def rowTxDescriptorFetch (ring : Nat) (words : List Nat) (s : State) : State :=
  whenRun s fun s =>
    guardS (decide (ring < 4096) && holds s arbDma (txRing ring) && ringLive s (txRing ring)
        && (ringAt s (txRing ring)).state == 1 && unfetched s (txRing ring)) s
      fun s => txFetch s ring words

/-- The frame of a descriptor enters its host port node, or is refused there at once. The grant lasts until it has wholly
entered and is written back (R498, R531). -/
def enterFrame (s : State) (ring : Nat) (d : List Nat) (buffer : Bytes) : State :=
  let r := txRing ring
  let n := 130 + ring / 1024
  let c := nextCount s r
  let body := slice buffer 0 (descBytes d)
  let frame := if descFcs d then body ++ fcsOf body else body
  let info : TxInfo :=
    { ring := ring, count := c, ts := descTs d, onestep := descOnestep d,
      tref := bits (d.getD 2 0) 63 32, cookie := d.getD 3 0, fetched := d.getD 4 0, status := 0 }
  let s := modRing s r fun x => { x with desc := none, begun := x.begun ++ [(c, none)] }
  let f := ringOwner s r
  let s := count (count s (cFn f 2) 1) (cFn f 3) frame.length
  let id := s.nextPkt
  let s := arrive s
    { node := n, frame := frame, stamp := Stamp.none, macsec := false, staged := false, exactEcc := .ok,
      cls := some (descClass d),
      direct := if descDirect d then some (descPort d, descQueue d) else none, tx := some info }
  if (pktAt s id).isSome then s
  else endGrant (completeCount s r c (txWords (if info.ts then 2 else 0) 0 0 false info.cookie)) arbDma

def txEnter (s : State) (ring : Nat) (d : List Nat) (buffer : Bytes) : State :=
  let r := txRing ring
  match dmaRead s r (d.getD 0 0) (descBytes d) with
  | none => endGrant (freezeFn s (ringOwner s r) 1 r) arbDma
  | some s => enterFrame s ring d buffer

/-- TX_FRAME_ENTER (R532): the buffer has been read whole; the node takes one frame at a time, and
none of a class that is XOFF (R534). -/
def rowTxFrameEnter (ring : Nat) (buffer : Bytes) (s : State) : State :=
  whenRun s fun s =>
    let n := 130 + ring / 1024
    match (ringAt s (txRing ring)).desc with
    | some d => guardS (holds s arbDma (txRing ring) && !isJob d
          && !xOf s n (descClass d) && (portAt s n).rx.isNone && !(portAt s n).refusing
          && pipeLive s (nodePipe n)) s
        fun s => txEnter s ring d buffer
    | none => s

/-! ## Completion rings (R522, R536, R537) -/

/-- The oldest command that waits in a pipe, lower pipes first, is fetched with the writer's grant: a beat's work (R497,
R537). -/
def fetchCmd (s : State) : State :=
  match (if holds s arbDma 8194 then (List.range 8).find? fun p => (toFetch s p).isSome else none) with
  | none => s
  | some p => match toFetch s p with
    | none => s
    | some c => match dmaRead s (cmdRing p) (elemAddr s (cmdRing p) c.count) 256 with
      | none => endGrant (freezeFn s 0 1 (cmdRing p)) arbDma
      | some s => endGrant (modPipe s p fun k => { k with
          cmds := lmod (fun x => !x.held) (fun x => { x with held := true }) k.cmds }) arbDma

/-- A completion element: its phase and count are the word written last. -/
def writeCompletion (s : State) (p : Nat) (c : Completion) : State :=
  let r := cplRing p
  let n := (ringAt s r).cons
  let a := elemAddr s r n
  let s := dmaWrite s r a (slice c.body 0 160)
  let s := dmaWrite s r (a + 168) (zeros 88)
  let s := dmaWrite s r (a + 160) (leBytes 8 (phaseBit s r n * 2 ^ 63 + c.count))
  let s := modRing s r fun x => { x with cons := (x.cons + 1) % 2 ^ 32 }
  notSignalled (headWrite s r) r

/-- COMPLETION_WRITE (R537): the oldest waiting completion of a pipe. -/
def rowCompletionWrite (pipe : Nat) (s : State) : State :=
  whenRun s fun s =>
    match (pipeAt s pipe).cpls with
    | c :: rest => guardS (ringLive s (cplRing pipe) && decide (0 < posted s (cplRing pipe))
          && holds s arbDma 8194) s fun s =>
        endGrant (writeCompletion (modPipe s pipe fun k => { k with cpls := rest }) pipe c) arbDma
    | [] => s

end Sys2Proof.Machine
end

