-- ==== Sys2Proof/Machine/Pools.lean ====
section
/-! DEFINITION. The buffer pools and the idle steps that publish (R296, R298, R394 to R407). -/

namespace Sys2Proof.Machine

/-! ## Pools and buffers (R394 to R399) -/

def poolSizes : List Nat := [64, 128, 256, 512, 1024, 2048, 4096, 16384]
def poolSize (p : Nat) : Nat := poolSizes.getD p 0

/-- On-chip buffers of a pool in use (R395). -/
def localCount (s : State) (p : Nat) : Nat := natOf (stored s 0x6800 2 p)

/-- A registered host region (R397). -/
structure Region where
  pool : Nat
  fn : Nat
  count : Nat
  base : Nat
  first : Nat

def regionOf (r : Bytes) : Region :=
  { pool := byteAt r 0 % 8, fn := byteAt r 1, count := natAt r 4 4, base := natAt r 8 8,
    first := natAt r 16 4 }

def regionRow (s : State) (i : Nat) : Region := regionOf (rwRow s 0x6800 3 i)

/-- The regions of a pool in rising order of their first index. -/
def regionsOf (s : State) (p : Nat) : List Region :=
  let rs := ((List.range 64).map (regionRow s)).filter fun r => r.pool == p && r.count != 0
  rs.foldl (fun l r => l.takeWhile (fun x => decide (x.first < r.first)) ++ [r]
    ++ l.dropWhile (fun x => decide (x.first < r.first))) []

/-- The index ranges of a pool's buffers: first and end. -/
def poolRanges (s : State) (p : Nat) : List (Nat × Nat) :=
  (0, localCount s p) :: (regionsOf s p).map fun r => (r.first, r.first + r.count)

def poolBuffers (s : State) (p : Nat) : Nat := sumNat ((poolRanges s p).map fun r => r.2 - r.1)

def handlePool (h : Nat) : Nat := h / 2 ^ 29
def handleIndex (h : Nat) : Nat := h % 2 ^ 29
def handleOf (p i : Nat) : Nat := p * 2 ^ 29 + i
def noHandle : Nat := 0xFFFFFFFF

/-- A handle names a buffer. -/
def isBuffer (s : State) (h : Nat) : Bool :=
  decide (h < 2 ^ 32) && (poolRanges s (handlePool h)).any fun r =>
    decide (r.1 ≤ handleIndex h) && decide (handleIndex h < r.2)

def pools (s : State) : Pools := s.host.pools
def modPools (s : State) (f : Pools → Pools) : State :=
  { s with host := { s.host with pools := f s.host.pools } }

/-- Indices of a pool that are taken, rising. -/
def takenOf (s : State) (p : Nat) : List Nat :=
  (trange (pools s).alloc (handleOf p 0) (handleOf (p + 1) 0)).map fun e => handleIndex e.1

def poolHeld (s : State) (o p : Nat) : Nat :=
  ((trange (pools s).alloc (handleOf p 0) (handleOf (p + 1) 0)).filter fun e => e.2 == o).length

def poolFree (s : State) (p : Nat) : Nat := poolBuffers s p - (takenOf s p).length

def ownerEnabled (s : State) (o : Nat) : Bool := rwBool s (0x6880 + o) 1
def ownerMin (s : State) (o p : Nat) : Nat := natOf (rwRow s (0x6880 + o) 2 p)
def ownerMax (s : State) (o p : Nat) : Nat := natOf (rwRow s (0x6880 + o) 3 p)

/-- Minima that enabled owners have not used (R401). -/
def poolUnused (s : State) (p : Nat) : Nat :=
  sumNat (((List.range 128).filter (ownerEnabled s)).map fun o => ownerMin s o p - poolHeld s o p)

/-- The minima check of R399. -/
def minimaOk (s : State) : Bool :=
  (List.range 8).all fun p => decide
    (sumNat (((List.range 128).filter (ownerEnabled s)).map fun o => ownerMin s o p)
      ≤ poolBuffers s p)

/-- The lowest index from lo to hi - 1 that is not taken. -/
def firstGap (hi : Nat) : Nat → List Nat → Option Nat
  | lo, [] => if lo < hi then some lo else none
  | lo, t :: ts =>
    if t < lo then firstGap hi lo ts
    else if t = lo then firstGap hi (lo + 1) ts
    else if lo < hi then some lo else none

/-- The free buffer of a pool with the lowest index. -/
def lowestFree (s : State) (p : Nat) : Option Nat :=
  (poolRanges s p).findSome? fun r => firstGap r.2 r.1 (takenOf s p)

/-! ## Requests (R400 to R405) -/

def poolNoBuffer : Nat := 1
def poolLimit : Nat := 2
def poolBadLength : Nat := 3
def poolFrozen : Nat := 4
def poolBadHandle : Nat := 5
def poolNotAllocated : Nat := 6
def poolNotOwner : Nat := 7

/-- The smallest pool whose buffers hold a length; pool 7 for a longer one. -/
def poolFor (len : Nat) : Nat := ((List.range 8).find? fun p => decide (len ≤ poolSize p)).getD 7

/-- A function's requests and frees without a buffer's length count at pool 0; those above 16,384 bytes at pool 7
(DESIGN CHOICE: R587 does not say). Counter offset of a status in the pool block (R587). -/
def poolOffset (status : Nat) (frees : Bool) : Nat :=
  if status = 0 then (if frees then 6 else 1) else if 5 ≤ status then 7 else status + 1

def countPool (s : State) (p o status : Nat) (frees : Bool) : State :=
  let s := count s (cPool p (poolOffset status frees)) 1
  if status = 0 then s else count s (cOwner o) 1

/-- An owner is refused: frozen or not enabled. -/
def ownerRefused (s : State) (o : Nat) : Bool := (pools s).frozen.contains o || !ownerEnabled s o

/-- Decide an allocation (R400, R401): the state, the status and the handle. -/
def allocate (s : State) (o len : Nat) : State × Nat × Nat :=
  let p := poolFor len
  let s := count s (cPool p 0) 1
  let fail := fun st => (countPool s p o st false, st, noHandle)
  if ownerRefused s o then fail poolFrozen
  else if len = 0 || 16384 < len then fail poolBadLength
  else if ownerMax s o p ≤ poolHeld s o p then fail poolLimit
  else if poolHeld s o p < ownerMin s o p || poolUnused s p < poolFree s p then
    match lowestFree s p with
    | none => fail poolNoBuffer
    | some i =>
      let s := modPools s fun k => { k with alloc := tins k.alloc (handleOf p i) o }
      let s := filtered s 13 0 [(5, o)] 0 (some p) 1
      (countPool s p o 0 false, 0, handleOf p i)
  else fail poolNoBuffer

/-- Freeze an owner for a faulty free (R405). -/
def freezeOwner (s : State) (o status h : Nat) : State :=
  let s := modPools s fun k =>
    { k with frozen := insertUnique o k.frozen,
             faultLast := o * 2 ^ 40 + status * 2 ^ 32 + h % 2 ^ 32 }
  let w := frozenWord 5 0xFF o
  raiseEv { s with sys := { s.sys with frozenList := insertUnique w s.sys.frozenList } }
    evMasterFrozen o [5, status]

/-- Check and make a free (R405): the buffer is allocated until the beat ends (R402). -/
def freeBuffer (s : State) (o h : Nat) : State × Nat :=
  let p := handlePool h % 8
  let bad := fun st => (freezeOwner (countPool s p o st true) o st h, st)
  if ownerRefused s o then (countPool s p o poolFrozen true, poolFrozen)
  else if !isBuffer s h then bad poolBadHandle
  else match tfind (pools s).alloc h with
    | none => bad poolNotAllocated
    | some q =>
      if (pools s).freeing.contains h then bad poolNotAllocated
      else if q != o then bad poolNotOwner
      else (countPool (modPools s fun k => { k with freeing := k.freeing ++ [h] }) p o 0 true, 0)

/-- The owner of a PCIe function (R398). -/
def ownerOfFn (f : Nat) : Nat := 64 + f

/-- Decide a request: an op other than 1 and 2 ends with BAD_LENGTH (R401, R405). -/
def decideReq (s : State) (q : PoolReq) : State × Nat × Nat :=
  if q.op = 1 then allocate s q.owner q.len
  else if q.op = 2 then
    let (s, st) := freeBuffer s q.owner q.handle
    (s, st, noHandle)
  else
    let st := if ownerRefused s q.owner then poolFrozen else poolBadLength
    (countPool s (poolFor q.len) q.owner st false, st, noHandle)

/-- The answer to a function's request, in the beat that serves it (R403). -/
def answerReq (s : State) (q : PoolReq) (status h : Nat) : State :=
  let word := q.op * 2 ^ 62 + q.seq * 2 ^ 48 + status * 2 ^ 32 + h
  modPools s fun k => { k with resp := tput 0 k.resp (q.owner - 64) word }

/-- A request joins those that the pool manager serves at the end of the beat (R402). -/
def takeReq (q : PoolReq) (s : State) : State :=
  modPools s fun k => { k with waiting := k.waiting ++ [q] }

/-- The requests of some owners are withdrawn: their function or pipe is reset. -/
def dropWaiting (s : State) (gone : Nat → Bool) : State :=
  modPools s fun k => { k with waiting := k.waiting.filter fun q => !gone q.owner }

/-- A write of `pool.req` by its own function: the physical function's acts with the local session's
rights, a virtual function's while it is enabled (R403, R511, R512). -/
def poolReq (s : State) (fn op seq len h : Nat) : State :=
  let q : PoolReq := { owner := ownerOfFn fn, op := op, seq := seq % 2 ^ 14, len := len % 2 ^ 15,
                       handle := h % 2 ^ 32, step := none }
  let v := op % 4 * 2 ^ 62 + q.seq * 2 ^ 48 + q.len * 2 ^ 32 + q.handle
  if fn = 0 then writeBy s .bar 0x6900 1 noRow (bytesOf 8 v) fun s => some (takeReq q s)
  else if fnEnabled s fn && !(fnAt s fn).frozen then takeReq q s else s

/-- POOL_ALLOCATE (R401). -/
def rowPoolAllocate (fn seq length : Nat) (s : State) : State :=
  whenRun s fun s => poolReq s fn 1 seq length 0

/-- POOL_FREE (R405). -/
def rowPoolFree (fn seq handle : Nat) (s : State) : State :=
  whenRun s fun s => poolReq s fn 2 seq 0 handle

/-- POOL_REQ_INVALID (R405): op 0 or 3. -/
def rowPoolReqInvalid (fn op seq : Nat) (s : State) : State :=
  whenRun s fun s => guardS (op == 0 || op == 3) s fun s => poolReq s fn op seq 0 0

/-- Free every buffer of an owner at the end of the beat. -/
def freeAllOf (s : State) (o : Nat) : State :=
  modPools s fun k => { k with freeing :=
    ((k.alloc.filter fun e => e.2 == o).map Prod.fst).foldl (fun l h => insertUnique h l) k.freeing }

/-- A write of 1 to `pool.owner.reclaim` (R406); one for an owner that is not frozen is ignored. -/
def reclaim (o : Nat) (v : Bytes) (s : State) : Option State :=
  some (if v = [1] && (pools s).frozen.contains o then freeAllOf s o else s)

/-- POOL_OWNER_RECLAIM (R406). -/
def rowPoolOwnerReclaim (src : Origin) (owner : Nat) (s : State) : State :=
  writeCmd s src (0x6880 + owner) 5 noRow [1] (reclaim owner [1])

/-! ## What resets free (R407) -/

/-- Buffers gone at once, whose holders are not told. -/
def forget (s : State) (gone : Nat → Nat → Bool) : State :=
  modPools s fun k =>
    let out := (k.alloc.filter fun e => gone e.1 e.2).map Prod.fst
    { k with alloc := k.alloc.filter (fun e => !gone e.1 e.2),
             freeing := k.freeing.filter (fun h => !out.contains h) }

/-! ## Idle steps publish (R285, R296, R298, R309, R404) -/

/-- An idle step's output area once its pending results have landed. -/
def finalOut (g : Engine) : Tbl Word64 := (g.pend.foldl applyLanding { g with pend := [] }).out

def outBytes (t : Tbl Word64) : Bytes :=
  (List.range 32).flatMap fun i => bytesOf 8 (tget 0 t i).toNat

/-- The argument of an idle request with the answer to its pool operation (R404). -/
def answeredArg (arg status h : Nat) : Nat :=
  arg / 2 ^ 72 * 2 ^ 72 + status * 2 ^ 64 + h * 2 ^ 32 + arg % 2 ^ 32

/-- Where an owner's buffer lies: on chip, or in a function's host memory. -/
inductive BufferAt where
  | chip (off : Nat)
  | host (fn addr : Nat)

def bufferAt (s : State) (o h : Nat) : Option BufferAt :=
  if tfind (pools s).alloc h != some o || !isBuffer s h then none
  else
    let p := handlePool h
    let i := handleIndex h
    if i < localCount s p then
      some (.chip (sumNat ((List.range p).map fun q => localCount s q * poolSize q)
        + i * poolSize p))
    else ((regionsOf s p).find? fun r => decide (r.first ≤ i) && decide (i < r.first + r.count)).map
      fun r => .host r.fn (r.base + (i - r.first) * poolSize p)

def putBytes (t : Tbl Byte) (off : Nat) (b : Bytes) : Tbl Byte :=
  b.zipIdx.foldl (fun t e => tput 0 t (off + e.2) e.1) t

def getBytes (t : Tbl Byte) (off len : Nat) : Bytes := (List.range len).map fun i => tget 0 t (off + i)

/-- The bulk area's bytes (R213). -/
def bulkSize : Nat := 24 * 2 ^ 30

/-- Ask for the HBM access of a bulk area's published access, which lands with its task. -/
def askBulk (s : State) (p off len : Nat) (write : Option Bytes) (task : Option (Nat × Task)) :
    State :=
  let id := (pipeAt s p).nextRead
  let s := askRead s p noLimit off len 2 3
  modPipe s p fun k => { k with comp := k.comp ++
    [{ slot := off, off := 0, len := len, write := write, task := task, read := some id }] }

/-- Ask the DMA engine for an access to a buffer in host memory (R404). -/
def askHost (s : State) (a : HostAccess) : State := modPools s fun k => { k with access := k.access ++ [a] }

/-- An access to a buffer in host memory is made; outside the function's windows the function freezes, and a task gets no
data (R404, R514). -/
def hostAccess (s : State) (a : HostAccess) : State :=
  match a.read with
  | none =>
    if inWindow s a.fn a.address a.write.length then
      filtered (emit s (.dma a.fn a.address a.write)) 7 0 [(2, a.fn)] a.address none a.write.length
    else freezeFn s a.fn 1 0
  | some (t, data) =>
    if inWindow s a.fn a.address data.length then
      offerTask (filtered s 6 0 [(2, a.fn)] a.address none data.length) a.cluster { t with data := data }
    else offerTask (freezeFn s a.fn 1 0) a.cluster t

/-- The writer of idle steps' accesses makes the oldest of them with its grant: a beat's work. -/
def hostAccesses (s : State) : State :=
  match s.host.pools.access with
  | [] => s
  | a :: rest =>
    if holds s arbDma 8195 then
      endGrant (hostAccess (modPools s fun k => { k with access := rest }) a) arbDma
    else s

/-- One published write of a step of cluster c. -/
def publishWrite (s : State) (c : Nat) (a : IdleAccess) : State :=
  let p := c / 8
  if a.area = 1 then
    if a.place < 2 ^ 27 then
      modPipe s p fun k => { k with comp := k.comp ++
        [{ slot := a.place, off := a.off, len := a.data.length, write := some a.data, task := none,
           read := none }] }
    else s
  else if a.area = 2 then
    let off := a.place + a.off
    if off + a.data.length ≤ bulkSize then
      askBulk { s with mem := { s.mem with bulk := putBytes s.mem.bulk off a.data } } p off
        a.data.length (some a.data) none
    else s
  else
    let b := a.data.take (poolSize (handlePool a.place) - a.off)
    match bufferAt s c a.place with
    | some (.chip off) => { s with mem := { s.mem with util := putBytes s.mem.util (off + a.off) b } }
    | some (.host f addr) => askHost s { cluster := c, fn := f, address := addr + a.off, write := b, read := none }
    | none => s

/-- A published read and the follow-on task that takes its data (R296). -/
def publishRead (s : State) (c : Nat) (a : IdleAccess) (t : Task) (hostData : Bytes) : State :=
  let p := c / 8
  let len := min a.len 176
  if a.area = 1 && decide (a.place < 2 ^ 27) then
    modPipe s p fun k => { k with comp := k.comp ++
      [{ slot := a.place, off := a.off, len := len, write := none, task := some (c, t), read := none }] }
  else if a.area = 2 && decide (a.place + a.off + len ≤ bulkSize) then
    askBulk s p (a.place + a.off) len none
      (some (c, { t with data := getBytes s.mem.bulk (a.place + a.off) len }))
  else if a.area = 3 then
    let len := min len (poolSize (handlePool a.place) - a.off)
    match bufferAt s c a.place with
    | some (.chip off) => offerTask s c { t with data := getBytes s.mem.util (off + a.off) len }
    | some (.host f addr) =>
      askHost s { cluster := c, fn := f, address := addr + a.off, write := [], read := some (t, slice hostData 0 len) }
    | none => offerTask s c t
  else offerTask s c t

/-- The follow-on task of a step, with the read that it asks for. -/
def publishTask (s : State) (c : Nat) (t : Task) (read : Option IdleAccess) (hostData : Bytes) : State :=
  if 15 < t.kind then freeGranted (discardTask s c t) t
  else match read with
    | some a => publishRead s c a t hostData
    | none => offerTask s c t

/-- The idle request of a step: the pool operation first, at the end of the beat, then the follow-on task (R404). -/
def publishRequest (s : State) (c w : Nat) (read : Option IdleAccess) (hostData : Bytes) : State :=
  let arg := w % 2 ^ 120
  let t : Task := { kind := w / 2 ^ 120, arg := arg, data := [], copy := none, granted := none }
  if t.kind = 0 then s
  else if bits arg 119 118 = 0 then publishTask s c t read hostData
  else takeReq { owner := c, op := bits arg 119 118, seq := 0, len := bits arg 117 104 + 1,
                 handle := bits arg 103 72,
                 step := some { cluster := c, task := t, read := read, hostData := hostData } } s

/-- A sample's formatted record of up to 64 bytes (R389). -/
def publishRecord (s : State) (t : Task) (record : Bytes) : State :=
  match t.copy with
  | none => s
  | some id =>
    if record = [] then s
    else
      let copies := s.buf.copies.map fun x =>
        if x.id = id && x.waitUntil.isSome then
          { x with record := record.take 64, waitUntil := none } else x
      { s with buf := { s.buf with copies := copies } }

/-! ## The pool manager's beat (R402) -/

/-- Serve a request: the answer of a function, or the follow-on task of a step with its answer. -/
def serveReq (s : State) (q : PoolReq) : State :=
  let (s, status, h) := decideReq s q
  match q.step with
  | none => answerReq s q status h
  | some x => publishTask s x.cluster
      { x.task with arg := answeredArg x.task.arg status h,
                    granted := if q.op = 1 && status = 0 then some h else none } x.read x.hostData

/-- One owner's turn: its oldest request. -/
def serveOwner (s : State) (o : Nat) : State :=
  match (pools s).waiting.find? fun w => w.owner == o with
  | none => s
  | some q => serveReq (modPools s fun k =>
      { k with waiting := ldel (fun w => w.owner == o) k.waiting }) q

/-- The owners in the order of a beat. -/
def turns (beat : Nat) : List Nat := (List.range 128).map fun i => (beat + i) % 128

/-- The requests of a beat are served at its end, owners in their order; then its frees take effect. -/
def servePools (s : State) : State :=
  modPools ((turns s.beat).foldl serveOwner s) fun k =>
    { k with alloc := k.freeing.foldl terase k.alloc, freeing := [] }

/-- Everything that a retiring idle step publishes, together; then its engine is free. -/
def publish (s : State) (c e : Nat) (t : Task) (hostData : Bytes) : State :=
  let g := engineAt s c e
  let out := finalOut g
  let o := Config.idleOut (outBytes out)
  let abi2 := imgAbi (engineImage s c g) == 2
  let s := count (modEngine s c e fun _ => Engine.init) (cCluster c 5) 1
  let made : List ExportRec := o.exported.map fun x => { template := x.1, data := x.2 }
  let s := modPipe s (c / 8) fun k => { k with idleExportQ := k.idleExportQ ++ made }
  let s := publishRecord s t o.record
  let s := (o.accesses.filter fun a => a.data != []).foldl (fun s a => publishWrite s c a) s
  let w := (tget 0 out 28).toNat * 2 ^ 64 + (tget 0 out 29).toNat
  if abi2 then s
  else publishRequest s c w (o.accesses.find? fun a => a.data == []) hostData

/-- A retired step's follow-on task reads a buffer in host memory (R404). -/
def readsHost (s : State) (c e : Nat) : Bool :=
  match (Config.idleOut (outBytes (finalOut (engineAt s c e)))).accesses.find? fun a => a.data == [] with
  | some a => a.area == 3 && (match bufferAt s c a.place with | some (.host _ _) => true | _ => false)
  | none => false

/-- IDLE_STEP_PUBLISH (R296): the step has retired within its 32 beats (R297); `hostData` is what a host
buffer that it reads holds. -/
def rowIdleStepPublish (cluster engine : Nat) (hostData : Bytes) (s : State) : State :=
  whenRun s fun s =>
    let g := engineAt s cluster engine
    match g.load with
    | .idle t => guardS (g.retiring && decide (g.freeAt ≤ s.beat + 7) && !overdue s g 32
          && inRotation s cluster && pipeLive s (cluster / 8)) s fun s => publish s cluster engine t hostData
    | _ => s

end Sys2Proof.Machine
end

