-- ==== Sys2Proof/Machine/Exports.lean ====
section
/-! DEFINITION. IPFIX messages and template sets (R354 to R356, R370), frames that the part
originates (R362), and the export-building tasks of idle entries (R295). -/

namespace Sys2Proof.Machine

/-! ## Frames that the part originates (R362, R370) -/

/-- Port node 135 with its class 7. -/
def partNode : Nat := 135

/-- The node is XOFF: no message or beacon is built (R370). -/
def partStopped (s : State) : Bool := xOf s partNode 7

/-- A frame of the part: it takes cells of port node 135, class 7, and enters the egress half of a
port as an express frame without rewrite (R206, R362). None when the cells are not there. Such a frame has no
pass 1; it holds the current slot until its egress entry (DESIGN CHOICE, log entry 162). -/
def originate (s : State) (port queue : Nat) (body : Bytes) : Option State :=
  let frame := body ++ fcsOf body
  let cells := cellsOf frame.length
  let base := newPkt s
    { node := partNode, frame := frame, stamp := Stamp.none, macsec := false, staged := false, exactEcc := .ok,
      cls := some 7, direct := some (port, queue), tx := none } 7 cells
  let k : Pkt := { base with
    tailBeat := s.beat, tailDone := true, stage := .toEgress, due := s.beat, holds := true,
    dec := { Decision.none with kind := 1, port := port, queue := queue } }
  (takeCells { s with nextPkt := s.nextPkt + 1 } partNode 7 cells).map fun s =>
    { s with pkts := s.pkts ++ [k] }

/-! ## Messages (R355; RFC 7011) -/

/-- Export Time: whole seconds of the tick source's full time, or 0 (R355). -/
def exportTime (s : State) : Nat :=
  match tickSource s with
  | none => 0
  | some t => if tbValid s t then time64 (tbAt s t) / 1000000000 % 2 ^ 32 else 0

/-- A set: its identifier, its length, its content. -/
def ipfixSet (id : Nat) (body : Bytes) : Bytes := bytesOf 2 id ++ bytesOf 2 (body.length + 4) ++ body

/-- A data record: one of the raw-record template is a variable-length element (RFC 7011). -/
def dataRecord (r : ExportRec) : Bytes :=
  if r.template = 0 then bytesOf 1 r.data.length ++ r.data else r.data

/-- Data sets: neighbouring records of one template share a set. -/
def dataSets : List ExportRec → List (Nat × Bytes)
  | [] => []
  | r :: t =>
    match dataSets t with
    | (id, b) :: rest =>
      if id = r.template then (id, dataRecord r ++ b) :: rest
      else (r.template, dataRecord r) :: (id, b) :: rest
    | [] => [(r.template, dataRecord r)]

/-- A message of a domain with its header. -/
def ipfixMessage (s : State) (d seq : Nat) (body : Bytes) : Bytes :=
  bytesOf 2 10 ++ bytesOf 2 (body.length + 16) ++ bytesOf 4 (exportTime s) ++ bytesOf 4 seq
    ++ bytesOf 4 (rw s 0x5060 3 + d) ++ body

/-- The template record of a row. -/
def templateRecord (n : Nat) (row : Bytes) : Bytes :=
  let es := exportElems row
  bytesOf 2 (256 + n) ++ bytesOf 2 es.length
    ++ es.flatMap fun (_, _, len, element) => bytesOf 2 element ++ bytesOf 2 len

/-- The raw-record template: element 0x7F01 under the enterprise number `export.pen` (R354). -/
def rawTemplate (pen : Nat) : Bytes :=
  bytesOf 2 256 ++ bytesOf 2 1 ++ bytesOf 2 0xFF01 ++ bytesOf 2 0xFFFF ++ bytesOf 4 pen

/-- The template set of the current version; empty where it has no template. -/
def templateSet (s : State) : Bytes :=
  let pen := rw s 0x5060 7
  let rows := (List.range 255).flatMap fun i =>
    let row := cfgRow (curVer s) 0x5060 1 (i + 1)
    if row = [] then [] else templateRecord (i + 1) row
  let body := (if pen = 0 then [] else rawTemplate pen) ++ rows
  if body = [] then [] else ipfixSet 2 body

/-! ## The collector's header (R355) -/

/-- A checksum with the value 0 sent as 0xFFFF (UDP). -/
def udpSum (n : Nat) : Nat := if 65535 - n = 0 then 65535 else 65535 - n

/-- The header of an IPv4 or IPv6 collector before a payload, lengths and checksums filled. -/
def collectorFrame (hdr payload : Bytes) : Bytes :=
  let udp := payload.length + 8
  if hdr.length = 42 then
    let h := putNat (putNat hdr 16 2 (udp + 20)) 24 2 0
    let h := putNat h 24 2 (65535 - laneSum (slice h 14 20))
    let h := putNat (putNat h 38 2 udp) 40 2 0
    let sum := laneSum (slice h 26 8 ++ bytesOf 2 17 ++ bytesOf 2 udp ++ slice h 34 8 ++ payload)
    putNat h 40 2 (udpSum sum) ++ payload
  else
    let h := putNat (putNat (putNat hdr 18 2 udp) 58 2 udp) 60 2 0
    let sum := laneSum (slice h 22 32 ++ bytesOf 4 udp ++ bytesOf 4 17 ++ slice h 54 8 ++ payload)
    putNat h 60 2 (udpSum sum) ++ payload

/-! ## Delivery -/

/-- Words of a message's write-back (R526, R527 EXPORT). -/
def exportWords (s : State) (len : Nat) : List Nat :=
  [6 * 2 ^ 57 + len * 2 ^ 16, partNode * 2 ^ 56, 0xFFFFFFFF * 2 ^ 32, s.rm.tick % 2 ^ 64]

/-- The longest message of a domain: 65,535 bytes, and with its header what a frame holds. -/
def messageFits (s : State) (len : Nat) : Bool :=
  if rw s 0x5060 2 = 0 then decide (len ≤ 65535)
  else decide ((rwBytes s 0x5060 5).length + len + 4 ≤ 16383)

/-- Send a message of n records of a domain, or of its template set, to the export ring, a descriptor a grant (R498), or
to the collector; none while it has no room there. -/
def sendMessage (s : State) (d n : Nat) (msg : Bytes) (descs : List (Nat × Nat)) : Option (State × RxEnd) :=
  if rw s 0x5060 2 = 0 then
    let ring := rw s 0x5060 8
    if !rxTakes s ring (.message d n) || !holds s arbDma ring then none
    else (rxDeliver s ring (.message d n) (exportWords s msg.length) msg descs).map fun r =>
      (endGrant r.1 arbDma, r.2)
  else (originate s (rw s 0x5060 4) 0 (collectorFrame (rwBytes s 0x5060 5) msg)).map fun t => (t, .whole)

/-- The waiting records of a domain, and the count of those sent. -/
def domainQueue (s : State) (d : Nat) : List ExportRec :=
  let k := pipeAt s (d % 8)
  if d < 8 then k.exportQ else k.idleExportQ

def domainSeq (s : State) (d : Nat) : Nat :=
  let k := pipeAt s (d % 8)
  (if d < 8 then k.exportSeq else k.idleExportSeq) % 2 ^ 32

/-- n records of a domain have left. -/
def recordsSent (s : State) (d n : Nat) : State :=
  modPipe s (d % 8) fun k =>
    if d < 8 then { k with exportQ := k.exportQ.drop n, exportSeq := (k.exportSeq + n) % 2 ^ 32 }
    else { k with idleExportQ := k.idleExportQ.drop n,
                  idleExportSeq := (k.idleExportSeq + n) % 2 ^ 32 }

/-- Build a message of the oldest records of a domain. -/
def exportMessage (s : State) (d n : Nat) : Bytes :=
  ipfixMessage s d (domainSeq s d)
    ((dataSets ((domainQueue s d).take n)).flatMap fun x => ipfixSet (256 + x.1) x.2)

def sendRecords (s : State) (d n : Nat) (descs : List (Nat × Nat)) : State :=
  let msg := exportMessage s d n
  if !messageFits s msg.length then s
  else match sendMessage s d n msg descs with
    | some (t, e) => if e = .whole then recordsSent t d n else t
    | none => s

/-- EXPORT_MESSAGE_SEND (R355): a message of `count` records; where one ends is not a result. -/
def rowExportMessageSend (domain count : Nat) (descs : List (Nat × Nat)) (s : State) : State :=
  whenRun s fun s =>
    guardS (decide (domain < 16) && decide (0 < count)
        && decide (count ≤ (domainQueue s domain).length) && !partStopped s) s
      fun s => sendRecords s domain count descs

/-- A domain's template set is no longer due. -/
def templatesSent (s : State) (d : Nat) : State :=
  { s with host := { s.host with tmplDue := s.host.tmplDue.filter (· != d) } }

def sendTemplates (s : State) (d : Nat) (descs : List (Nat × Nat)) : State :=
  let body := templateSet s
  if body = [] then templatesSent s d
  else match sendMessage s d 0 (ipfixMessage s d (domainSeq s d) body) descs with
    | some (t, e) => if e = .whole then templatesSent t d else t
    | none => s

/-- TEMPLATE_SET_SEND (R355): at the multiples of `export.template.period`, for every domain. -/
def rowTemplateSetSend (domain : Nat) (descs : List (Nat × Nat)) (s : State) : State :=
  whenRun s fun s => guardS (s.host.tmplDue.contains domain && !partStopped s) s
    fun s => sendTemplates s domain descs

/-! ## Export-building tasks (R295) -/

def todoIdle : Nat := 3

/-- One export-building task for each entry that an image lists (R295). -/
def exportBuilds (img : Bytes) : List Task :=
  ((List.range 15).filter fun i => (imgIdleEntry img (i + 1)).isSome).map fun i =>
    { kind := i + 1, arg := 0, data := [], copy := none, granted := none }

/-- The export-building tasks of a cluster in the home mask (R295, R304). -/
def exportTasks (s : State) (c : Nat) : State :=
  match (if bit (maskClusters (homeMask s)) c then clusterImage (curVer s) c else none) with
  | none => s
  | some img => (exportBuilds img).foldl (fun s t => offerTask s c t) s

/-- IDLE_EXPORT_TASK's work at its boundary. -/
def idleExportTasks (s : State) : State :=
  if s.rm.todo.contains todoIdle then
    (List.range 64).foldl exportTasks
      { s with rm := { s.rm with todo := s.rm.todo.filter (· != todoIdle) } }
  else s

/-- IDLE_EXPORT_TASK (R295). -/
def rowIdleExportTask (s : State) : State :=
  whenRun s idleExportTasks

end Sys2Proof.Machine
end

