-- ==== Sys2Proof/Machine/Ports.lean ====
section
/-! DEFINITION. Ports and lanes: bring-up, faults, reference clocks, search mode and lane power (R87 to
R115, R381). Lanes 128 and 129 are M0 and M1. -/

namespace Sys2Proof.Machine

/-! ## Footprints (R87 to R90) -/

/-- Lanes that a mode takes at a port node. -/
def lanesOf (n mode : Nat) : List Nat := (List.range (modeLanes mode)).map (n + ·)

def footprint (s : State) (n : Nat) : List Nat := lanesOf n (portMode s n)

/-- The enabled port whose footprint holds a lane. -/
def portOfLane (s : State) (l : Nat) : Option Nat :=
  if 128 ≤ l then (if portEnabled s l then some l else none)
  else ((List.range 8).map (l - ·)).find? fun n => portEnabled s n && (footprint s n).contains l

/-- A mode that a port node accepts (R88, R89). -/
def modeAllowed (n m : Nat) : Bool :=
  decide (m ≤ 10) && fitsOctet n m
    && (m == 0 || m == 1 || (if n < 128 then decide (m ≤ 8) else decide (9 ≤ m)))

def modLanes (s : State) (ls : List Nat) (f : Lane → Lane) : State :=
  ls.foldl (fun s l => modLane s l f) s

/-! ## Timers and modes (R98, R102, R104) -/

def msBeats (ms : Nat) : Nat := ms * 1250000

/-- The FEC in use at a fixed rate or on a PAM4 mode, and what negotiation has resolved otherwise
(R98). -/
def fecFor (s : State) (n mode resolved : Nat) : Nat :=
  let f := rw s (0x3100 + n) 3
  if modePam4 mode then 3
  else if portAn s n = 1 then resolved
  else if f = 15 then 0 else f

/-- A FEC that negotiation may resolve (R98). -/
def fecResolves (s : State) (n mode fec : Nat) : Bool :=
  let f := rw s (0x3100 + n) 3
  if modePam4 mode then fec == 3
  else (modeFecs mode).contains fec && (f == 15 || fec == f || fec == 0)

/-- A lane of the port is in search mode, which holds it in LOCK (R108). -/
def searching (s : State) (n : Nat) : Bool :=
  (footprint s n).any fun l => rwBool s (0x3000 + l) 0x0B

/-- Coefficients are kept, and the return from DEEP has not used up its 0.6 ms (R113). -/
def keepsCoeffs (p : Port) : Bool := p.kept && p.exitBy.isSome

/-- The time of LOCK (R102 step 4): on a return from DEEP no later than its exit time, and 0.6 ms, a quarter of that,
with kept coefficients (R113, log entry 72). -/
def lockTimer (s : State) (n : Nat) : PortTimer :=
  let p := portAt s n
  let full := beatAfter s (msBeats (rw s (0x3100 + n) 9))
  if searching s n then .none
  else match p.exitBy with
    | some b => if p.kept then .kept (b - 2250000) else .lock (min b full)
    | none => .lock full

/-- The port enters LOCK: mode and FEC are in use. -/
def enterLock (s : State) (n : Nat) : State :=
  let t := lockTimer s n
  modPort s n fun p => { p with state := 4, timer := t, modeActive := p.mode, fecActive := p.fec }

/-- The end of TRAIN: the exit time on a return from DEEP. -/
def trainEnd (s : State) (n : Nat) : Nat :=
  let p := portAt s n
  p.exitBy.getD (beatAfter s (msBeats (rw s (0x3100 + n) (if modePam4 p.mode then 8 else 7))))

def trains (s : State) (n mode : Nat) : Bool := rwBool s (0x3100 + n) 6 && modeTrains mode

/-- STEP sets the lanes to the mode, those beyond it to OFF (R102 step 2, R103). -/
def enterStep (s : State) (n mode fec : Nat) : State :=
  let s := modLanes s (footprint s n) fun l => { l with power := 3 }
  let s := modLanes s (lanesOf n mode) fun l => { l with power := 0 }
  modPort s n fun p => { p with state := 2, timer := .step (beatAfter s 25000), mode := mode,
                                fec := fec, faults := 0, trained := false }

/-- STEP is over: TRAIN follows, or LOCK (R102 step 3). -/
def endStep (s : State) (n : Nat) : State :=
  let p := portAt s n
  if p.state != 2 then s
  else if trains s n p.mode && !keepsCoeffs p then
    let b := trainEnd s n
    modPort s n fun p => { p with state := 3, timer := .train b }
  else enterLock s n

/-- STEP ends after 20 µs at the latest; an event of a later state shows that it has ended (log entry 74). -/
def stepDue (s : State) (n : Nat) : State :=
  match (portAt s n).timer with
  | .step b => if due s b then endStep s n else s
  | _ => s

/-- The pipe's reference clock is good; the management lanes take CORE_REFCLK (R106). -/
def clockGood (s : State) (n : Nat) : Bool := 128 ≤ n || !(pipeAt s (nodePipe n)).refclkLost

/-- Every lane of the port is asked to be ACTIVE (R111). -/
def lanesWanted (s : State) (n : Nat) : Bool :=
  (footprint s n).all fun l => rw s (0x3000 + l) 2 == 0

/-- The lanes of an enabled port are in the power state that `lane.power` asks for (R111). -/
def askedPowers (s : State) (n : Nat) : State :=
  (footprint s n).foldl (fun s l => modLane s l fun x => { x with power := rw s (0x3000 + l) 2 }) s

/-- Bring-up from DOWN: NEGOTIATE with Clause 73, else STEP (R102, R103). -/
def startBringUp (s : State) (n : Nat) : State :=
  let s := modPort s n fun p => { p with
    state := 0, timer := .none, faults := 0, kept := false, exitBy := none }
  let s := askedPowers s n
  if !clockGood s n || !lanesWanted s n || portMode s n = 0 then s
  else if portAn s n = 1 then modPort s n fun p => { p with state := 1 }
  else
    let m := portMode s n
    enterStep s n m (fecFor s n m 0)

/-! ## Errors of the line (R99, R583) -/

/-- The lane counters that bit errors advance: codewords and symbols under an RS FEC, sync headers where the line
carries them. -/
def lineKinds (p : Port) : List Nat :=
  if p.state != 4 && p.state != 5 then []
  else if p.fecActive = 2 || p.fecActive = 3 then [0, 1, 2]
  else if p.modeActive = 2 || p.modeActive = 3 || p.modeActive = 5 then [3] else []

/-- An uncorrected codeword has come on a lane of the port in this beat. -/
def lineMarked (s : State) (n : Nat) : Bool :=
  let p := portAt s n
  (lineKinds p).contains 1 && (lanesOf n p.modeActive).any fun l => Config.lineErrors l s.beat 1 != 0

/-- A beat's line errors of a port; an uncorrected codeword marks the frame that is being received, which fails its
FCS (R99, log entry 71). -/
def lineBeat (s : State) (n : Nat) : State :=
  let p := portAt s n
  let s := match if lineMarked s n && !p.rxWhole then p.rx else none with
    | some id => modPkt s id fun k => if k.bad = 0 then { k with bad := 1 } else k
    | none => s
  (lanesOf n p.modeActive).foldl (fun s l => (lineKinds p).foldl (fun s k =>
    countLine s (cLane l k) (Config.lineErrors l s.beat k)) s) s

/-! ## Leaving and entering UP (R96, R101 to R104, R381) -/

/-- Lanes in QUIET, and lanes that a narrower mode left OFF, are ACTIVE when the port leaves UP (R102, R111). -/
def lanesBack (s : State) (n : Nat) : State :=
  let used := lanesOf n (portAt s n).mode
  let spare := (footprint s n).filter fun l => !used.contains l
  modLanes s (if (portAt s n).lpi then spare ++ used else spare) fun x => { x with power := 0 }

/-- The port leaves UP for another state: the frame being received is cut, LINK_DOWN is raised, and
link-loss handling starts. -/
def leaveUp (s : State) (n state : Nat) : State :=
  if (portAt s n).state = 5 then
    let s := linkLost (cutReceive (lanesBack s n) n) n
    let s := modPort s n fun p => { p with
      state := state, lastChange := s.beat, lpi := false, pauseEnd := [], told := [], fcQ := [],
      repeatAt := [] }
    raiseEv s evLinkDown n []
  else modPort s n fun p => { p with state := state }

/-- The port is DOWN with nothing running, its clock recoveries unlocked. -/
def portDown (s : State) (n : Nat) (t : PortTimer) : State :=
  let s := modLanes (leaveUp s n 0) (footprint s n) fun l =>
    { l with cdrLock := false, cdrPpm := 0 }
  modPort s n fun p =>
    { p with timer := t, modeActive := 0, fecActive := 0, faults := 0, trained := false, exitBy := none }

def restartTimer (s : State) (n : Nat) : PortTimer :=
  .restart (beatAfter s (msBeats (rw s (0x3100 + n) 0x0A)))

/-- A failed bring-up waits for `port.restart.delay` (R104). -/
def failBringUp (s : State) (n cause : Nat) : State :=
  let s := modPort s n fun p => { p with failCause := cause }
  portDown (raiseEv s evLinkFail n [cause]) n (restartTimer s n)

/-- Clock recoveries lock. The offset that each measures is open (R91, log entry 5). -/
def lockLanes (s : State) (ls : List Nat) : State :=
  ls.foldl (fun s l =>
    let v := freshValue s % 40001
    modLane (useFresh s) l fun x =>
      { x with cdrLock := true, cdrPpm := unsigned 32 ((v : Int) - 20000) }) s

/-- The port enters UP. -/
def enterUp (s : State) (n : Nat) : State :=
  let s := lockLanes s (lanesOf n (portAt s n).mode)
  let s := modPort s n fun p => { p with
    state := 5, timer := .none, lastChange := s.beat, modeActive := p.mode, fecActive := p.fec,
    trained := p.trained || p.kept, kept := false, exitBy := none }
  linkBack (raiseEv s evLinkUp n []) n

/-! ## Enabling and disabling (R90, R103, R371, R381) -/

/-- The checks of a write of 1 to `port.enable`. -/
def enableOk (s : State) (n : Nat) : Bool :=
  let m := portMode s n
  let an := portAn s n
  let f := rw s (0x3100 + n) 3
  let others := (nodesInUse s).filter fun x => decide (x < 130) && x != n
  !(an == 1 && !modeClause73 m && m != 0) && !(an == 2 && m != 1 && m != 9)
    && (f == 15 || (modeFecs m).contains f)
    && (n ≥ 128 || others.all fun x => x ≥ 128 || (footprint s x).all fun l => !(footprint s n).contains l)
    && (pipeAt s (if n < 128 then nodePipe n else n - 128)).power != 1

def portEnableEff (n : Nat) (s : State) : Option State :=
  let t := setRw s (0x3100 + n) 2 noRow [1]
  if portEnabled s n then (if reservesOk { t with held := [] } then some t else none)
  else if !enableOk s n || !reservesOk { t with held := [] } then none
  else some (startBringUp t n)

/-- A lane that is OFF keeps its settings alone (R111). -/
def laneOff (l : Lane) : Lane := { l with power := 3, cdrLock := false, cdrPpm := 0, coeffs := 0 }

/-- Disabled: DOWN, its lanes OFF, its queues to FLUSH at once, whatever state it was in (R381). Enabled again, the
port starts from the beginning (R105). -/
def portDisableEff (n : Nat) (s : State) : Option State :=
  let was := portEnabled s n
  let ls := footprint s n
  let t := setRw (if was then portDown s n .none else s) (0x3100 + n) 2 noRow [0]
  some (if was then
      modPort (enterFlush (modLanes t ls laneOff) n) n fun p => { p with mode := 0, kept := false }
    else enterFlush t n)

/-- PORT_ENABLE (R103). -/
def rowPortEnable (src : Origin) (node : Nat) (s : State) : State :=
  writeCmd s src (0x3100 + node) 2 noRow [1] (portEnableEff node)

/-- PORT_DISABLE (R381). -/
def rowPortDisable (src : Origin) (node : Nat) (s : State) : State :=
  writeCmd s src (0x3100 + node) 2 noRow [0] (portDisableEff node)

/-! ## Bring-up events (R102 to R104) -/

def portIn (s : State) (n state : Nat) : Bool := decide (n < 130) && (portAt s n).state == state

/-- AN_COMPLETE (R102 step 2): the mode is one that both ends advertise. -/
def rowAnComplete (node mode fec : Nat) (s : State) : State :=
  whenRun s fun s =>
    guardS (portIn s node 1 && (advertised s node).contains mode && fecResolves s node mode fec) s
      fun s => enterStep s node mode (fecFor s node mode fec)

/-- TRAINING_DONE (R102 step 3): receiver ready at both ends; the trained coefficients by lane. -/
def rowTrainingDone (node : Nat) (coeffs : List Nat) (s : State) : State :=
  whenRun s fun s => guardS (portIn (endStep s node) node 3) s fun s =>
    let s := endStep s node
    let s := (lanesOf node (portAt s node).mode).zipIdx.foldl (fun s l =>
      modLane s l.1 fun x => { x with coeffs := coeffs.getD l.2 0 % 2 ^ 32 }) s
    enterLock (modPort s node fun p => { p with trained := true }) node

/-- TRAINING_TIMEOUT (R104). -/
def rowTrainingTimeout (node : Nat) (s : State) : State :=
  whenRun s fun s =>
    match (portAt s node).timer with
    | .train b => guardS (due s b) s fun s => failBringUp s node 1
    | _ => s

/-- LINK_UP (R102 step 5): locked and deskewed, with no fault and no lane in search. A single lane is not
deskewed, and the skew of the last deskew stands (R93; DESIGN CHOICE, log entry 149). -/
def rowLinkUp (node skew : Nat) (s : State) : State :=
  whenRun s fun s =>
    let t := endStep s node
    guardS (portIn t node 4 && (portAt t node).faults == 0 && !searching t node
        && decide (skew ≤ 240) && (portAt t node).timer != .none) s
      fun _ => enterUp (modPort t node fun p =>
        { p with skew := if modeLanes p.mode ≤ 1 then p.skew else skew }) node

/-- LOCK_TIMEOUT (R93, R104): the time is over, or the lanes' skew is too large. -/
def rowLockTimeout (node skew : Nat) (s : State) : State :=
  whenRun s fun s =>
    let t := endStep s node
    let wide := portIn t node 4 && decide (240 < skew) && decide (2 ≤ modeLanes (portAt t node).mode)
    match (portAt t node).timer with
    | .lock b =>
      if wide then failBringUp (modPort t node fun p => { p with skew := skew % 65536 }) node 3
      else if due s b then failBringUp t node 2 else s
    | .kept _ =>
      if wide then failBringUp (modPort t node fun p => { p with skew := skew % 65536 }) node 3 else s
    | _ => s

/-- KEPT_COEFFICIENTS_LOCK_TIMEOUT (R113): the port trains fully, within the 2.4 ms exit time. -/
def rowKeptCoefficientsLockTimeout (node : Nat) (s : State) : State :=
  whenRun s fun s =>
    match (portAt s node).timer with
    | .kept b => guardS (due s b) s fun s =>
        if trains s node (portAt s node).mode then
          modPort s node fun p => { p with state := 3, kept := false, modeActive := 0,
                                           fecActive := 0, timer := .train (b + 2250000) }
        else failBringUp s node 2
    | _ => s

/-- RESTART_DELAY_EXPIRY (R104). -/
def rowRestartDelayExpiry (node : Nat) (s : State) : State :=
  whenRun s fun s =>
    match (portAt s node).timer with
    | .restart b => guardS (due s b && portEnabled s node) s fun s => startBringUp s node
    | _ => s

/-! ## Loss and faults (R91, R94, R104) -/

/-- LINK_DOWN (R91, R104): a clock recovery loses lock, or another fault takes the port from UP, or
from a LOCK that a fault holds. -/
def rowLinkDown (node : Nat) (s : State) : State :=
  whenRun s fun s =>
    guardS (portIn s node 5 || (portIn s node 4 && (portAt s node).timer == .none
        && !searching s node)) s
      fun s => portDown s node (restartTimer s node)

/-- High-BER and a remote fault are seen only behind lock: a port in bring-up has locked, and the fault alone
holds it (R94, log entry 148). -/
def lockedByFault (s : State) (n cause : Nat) : State :=
  if cause = 1 || searching s n || (portAt s n).timer == .none then s
  else modPort (lockLanes s (lanesOf n (portAt s n).mode)) n fun p => { p with timer := .none }

/-- LINK_HI_BER (R94): cause 0 is high-BER, 1 a local and 2 a remote fault. -/
def rowLinkHiBer (node cause : Nat) (s : State) : State :=
  whenRun s fun s =>
    let t := endStep s node
    guardS ((portIn t node 5 || portIn t node 4) && decide (cause < 3)) s fun _ =>
      let new := !bit (portAt t node).faults cause
      let s := if cause = 0 && new then raiseEv t evHiBer node [] else t
      let s := if isUp s node then leaveUp s node 4 else lockedByFault s node cause
      modPort s node fun p => { p with faults := setBit p.faults cause true }

/-- The link fault signalling that the MAC of a port in LOCK sends (R94): remote fault while a local fault or
high-BER stands, idle while a remote fault alone is received. PRESUMED of Clause 81 of IEEE 802.3 (log entry 148). -/
inductive FaultSignal where
  | none
  | remoteFault
  | idle
  deriving DecidableEq, Repr

def faultSignal (s : State) (n : Nat) : FaultSignal :=
  let p := portAt s n
  if p.state != 4 then .none
  else if p.faults / 4 % 2 == 1 && p.faults % 4 == 0 then .idle
  else .remoteFault

/-- LINK_FAULT_CLEAR (R94): a port that faults alone held in LOCK returns to UP. -/
def rowLinkFaultClear (node : Nat) (s : State) : State :=
  whenRun s fun s =>
    guardS (portIn s node 4 && (portAt s node).faults != 0) s fun s =>
      let s := modPort s node fun p => { p with faults := 0 }
      if (portAt s node).timer = .none && !searching s node then enterUp s node else s

/-! ## Reference clocks (R105, R106) -/

/-- SER_REFCLK_LOST: every port of the pipe holds in DOWN. -/
def rowSerRefclkLost (pipe : Nat) (s : State) : State :=
  whenRun s fun s =>
    guardS (decide (pipe < 8) && !(pipeAt s pipe).refclkLost) s fun s =>
      let s := modPipe s pipe fun k => { k with refclkLost := true, refclkAt := s.beat }
      let s := raiseEv s evRefclkLost pipe []
      ((List.range 16).map (16 * pipe + ·)).foldl (fun s n =>
        if portEnabled s n then
          modPort (portDown s n .none) n fun p => { p with failCause := 4 }
        else s) s

/-- SER_REFCLK_RESTORED: after 1 ms of a good clock the ports start from the beginning. -/
def rowSerRefclkRestored (pipe : Nat) (s : State) : State :=
  whenRun s fun s =>
    guardS (decide (pipe < 8) && (pipeAt s pipe).refclkLost
        && due s ((pipeAt s pipe).refclkAt + 1250000)) s fun s =>
      ((List.range 16).map (16 * pipe + ·)).foldl (fun s n =>
        if portEnabled s n then startBringUp s n else s)
        (modPipe s pipe fun k => { k with refclkLost := false })

/-! ## Search mode (R108 to R110) -/

/-- The mode in use from STEP on, and the configured one before. -/
def usedMode (s : State) (n : Nat) : Nat :=
  if 2 ≤ (portAt s n).state then (portAt s n).mode else portMode s n

/-- A write of 1 to `lane.search`: on lanes of modes 2, 3 and 5. A window that a slip has begun goes on (R109). -/
def searchEnter (l : Nat) (s : State) : Option State :=
  match portOfLane s l with
  | none => none
  | some n =>
    if !([2, 3, 5].contains (usedMode s n)) then none
    else if rwBool s (0x3000 + l) 0x0B then some s
    else
      let s := setRw s (0x3000 + l) 0x0B noRow [1]
      let s := modLane s l fun x => { x with offset := 0 }
      if isUp s n then some (modPort (leaveUp s n 4) n fun p => { p with timer := .none })
      else some (modPort s n fun p => if p.state = 4 then { p with timer := .none } else p)

/-- A write of 0: block lock restarts, and LOCK has its time again (R110). -/
def searchExit (l : Nat) (s : State) : Option State :=
  let t := setRw s (0x3000 + l) 0x0B noRow [0]
  match portOfLane s l with
  | none => some t
  | some n =>
    let timer := lockTimer t n
    some (if !rwBool s (0x3000 + l) 0x0B then t
      else modPort t n fun p =>
        if p.state = 4 && p.timer == .none then { p with timer := timer } else p)

/-- Beats of a window: 6.4 ns a block in mode 2, 2.56 ns in modes 3 and 5 (R88, R109). -/
def windowBeats (mode blocks : Nat) : Nat := if mode = 2 then 8 * blocks else ceilDiv (16 * blocks) 5

/-- A slip of some unit intervals starts a window; none while one runs. Until the window ends, the count of the
last one stands (R109; DESIGN CHOICE, log entry 149: the manual clears done alone). -/
def searchSlip (l ui : Nat) (s : State) : Option State :=
  let w := rw s (0x3000 + l) 0x0D
  let m := ((portOfLane s l).map (usedMode s)).getD 0
  if (laneAt s l).busy then none
  else some (modLane s l fun x =>
    { x with busy := true, done := false, offset := (x.offset + ui) % 66, window := w,
             windowEnd := beatAfter s (windowBeats m w) })

def rowLaneSearchEnter (src : Origin) (lane : Nat) (s : State) : State :=
  writeCmd s src (0x3000 + lane) 0x0B noRow [1] (searchEnter lane)

def rowLaneSearchSlip (src : Origin) (lane ui : Nat) (s : State) : State :=
  writeCmd s src (0x3000 + lane) 0x0C noRow (bytesOf 1 ui) (searchSlip lane ui)

/-- LANE_SEARCH_WINDOW_END (R109): the invalid sync headers of the window's blocks, once they have come. -/
def rowLaneSearchWindowEnd (lane errors : Nat) (s : State) : State :=
  whenRun s fun s =>
    let x := laneAt s lane
    guardS (x.busy && due s x.windowEnd && decide (errors ≤ x.window)) s fun s =>
      let s := if x.cdrLock then s else lockLanes s [lane]
      modLane s lane fun x => { x with busy := false, done := true, errors := errors % 2 ^ 23 }

def rowLaneSearchExit (src : Origin) (lane : Nat) (s : State) : State :=
  writeCmd s src (0x3000 + lane) 0x0B noRow [0] (searchExit lane)

/-! ## Lane power (R111 to R113) -/

/-- The lanes that a write of `lane.power` reaches. -/
def powerLanes (s : State) (l : Nat) : List Nat :=
  match portOfLane s l with
  | some n => footprint s n
  | none => [l]

def putPower (s : State) (ls : List Nat) (v : Nat) : State :=
  ls.foldl (fun s l => setRw s (0x3000 + l) 2 noRow (bytesOf 1 v)) s

/-- The lanes of a port leave ACTIVE: in DEEP each lane keeps its trained coefficients where it is told to, OFF
keeps none; the port leaves UP without a restart. It skips training later only if every lane of it has kept its
coefficients, and those of an earlier training, of which a port that goes down before it has trained again has no
more than the values, do not count as kept (DESIGN CHOICE, log entry 149). -/
def powerDown (s : State) (n v : Nat) : State :=
  let ls := footprint s n
  let keep := fun l => v == 2 && rwBool s (0x3000 + l) 4
  let p := portAt s n
  let trained := p.trained || p.kept
  let s := portDown s n .none
  let s := ls.foldl (fun s l => modLane s l fun x =>
    { x with power := v, coeffs := if keep l then x.coeffs else 0 }) s
  modPort s n fun p => { p with kept := trained && (lanesOf n p.mode).all keep,
                                mode := if v = 2 then p.mode else 0 }

/-- The lanes return to ACTIVE: from DEEP to STEP with the mode and FEC in use before, from OFF to a
full bring-up. -/
def powerUp (s : State) (n deep : Nat) : State :=
  let p := portAt s n
  if deep != 2 || p.mode = 0 || !clockGood s n then startBringUp s n
  else modPort (enterStep s n p.mode p.fec) n fun p =>
    { p with exitBy := some (beatAfter s 3000000) }

/-- A write of `lane.power` (R111 to R113): the port changes when some lane of it does. -/
def lanePower (l v : Nat) (s : State) : Option State :=
  if v = 1 || 3 < v || (v = 2 && 128 ≤ l) then none
  else
    let all := fun x => (powerLanes s l).all fun i => rw s (0x3000 + i) 2 == x
    let t := putPower s (powerLanes s l) v
    match portOfLane s l with
    | none => some t
    | some n =>
      if all v then some t
      else if v = 0 then some (powerUp t n (if all 2 then 2 else 3))
      else some (powerDown t n v)

def rowLanePowerDeep (src : Origin) (lane : Nat) (s : State) : State :=
  writeCmd s src (0x3000 + lane) 2 noRow [2] (lanePower lane 2)

def rowLanePowerOff (src : Origin) (lane : Nat) (s : State) : State :=
  writeCmd s src (0x3000 + lane) 2 noRow [3] (lanePower lane 3)

def rowLanePowerActive (src : Origin) (lane : Nat) (s : State) : State :=
  writeCmd s src (0x3000 + lane) 2 noRow [0] (lanePower lane 0)

/-- LPI_ENTER (R111): `port.eee` is 1 and the peer agrees. -/
def rowLpiEnter (node : Nat) (s : State) : State :=
  whenRun s fun s =>
    guardS (portIn s node 5 && rwBool s (0x3100 + node) 0x0B && (portAt s node).tx.isNone) s
      fun s => modPort (modLanes s (lanesOf node (portAt s node).mode) fun x => { x with power := 1 })
        node fun p => { p with lpi := true }

/-- LPI_WAKE (R111). -/
def rowLpiWake (node : Nat) (s : State) : State :=
  whenRun s fun s => guardS (portAt s node).lpi s fun s =>
    modPort (modLanes s (lanesOf node (portAt s node).mode) fun x => { x with power := 0 })
      node fun p => { p with lpi := false }

/-- A PORT reset (R105, R381, R604): objects cleared by PORT, coefficients of the lanes that no other enabled port has
in use cleared, queues to FLUSH,
and bring-up from the beginning; a frozen port stays frozen (R376). `gate.oper` is at its default, and the
version's list waits for a change time again (R429, log entry 150). -/
def portReset (s : State) (n : Nat) : State :=
  let others := (nodesInUse s).filter fun x => decide (x < 130) && x != n
  let ls := (footprint s n).filter fun l => others.all fun x => !(footprint s x).contains l
  let s := enterFlush (if portEnabled s n then portDown s n .none else s) n
  let s := modLanes s ls fun _ => Lane.init
  let s := modPort s n fun p => { p with kept := false, failCause := 0, lastChange := 0, skew := 0,
                                         mode := 0, fec := 0, excLast := 0, gate := Gate.init }
  let s := gateCommit s n
  if portEnabled s n then startBringUp s n else s

end Sys2Proof.Machine
end

