-- ==== Sys2Proof/Machine/Resets.lean ====
section
/-! DEFINITION. The six reset classes, the boot, the supply monitors and the freeze of the part
(R601 to R616). -/

namespace Sys2Proof.Machine

/-! ## CHIP and POWER (R602, R606 to R608, R611) -/

/-- Bits of `reset.last` (R622). -/
def lastWord (frozen : Bool) (cls cause : Nat) : Nat := b2n frozen * 2 ^ 16 + cls * 256 + cause
def lastClass (last : Nat) : Nat := bits last 15 8
def lastCause (last : Nat) : Nat := bits last 7 0

/-- What every CHIP and POWER reset leaves besides what it keeps: the queue of waiting commands, the
record of what has left the part and the places in the streams of free values are the model's own. -/
def cleared (s : State) (y : Sys) : State :=
  { State.reset with
    pending := s.pending, out := s.out,
    mabin := { Mabin.init with drawn := s.mabin.drawn },
    sys := { y with freeIdx := s.sys.freeIdx } }

/-- The empty log and capture of a POWER reset. -/
def powerSys (s : State) (cause : Nat) : Sys :=
  { Sys.init with run := .inReset, last := lastWord false 0 cause, fuses := s.sys.fuses,
                  evq := [], log := [], logSeq := 0 }

/-- POWER: everything but the fuses is lost (R602). -/
def powerReset (s : State) (cause : Nat) : State := cleared s (powerSys s cause)

/-- A CHIP reset keeps the fuses, the event log and the freeze capture (R602); the supply monitors
watch on, and a warning in force stays (R611). -/
def chipSys (s : State) (cause : Nat) (run : RunState) : Sys :=
  { Sys.init with
    run := run, last := lastWord (s.sys.run == .frozen) 1 cause, fuses := s.sys.fuses, evq := [],
    capture := s.sys.capture, log := s.sys.log, logSeq := s.sys.logSeq, logAck := s.sys.logAck,
    logOver := s.sys.logOver, warnSince := s.sys.warnSince.map fun _ => 0,
    warnMon := s.sys.warnMon, supplies := s.sys.supplies.map fun m => { m with dips := 0, dipBeat := none } }

def chipReset (s : State) (cause : Nat) (run : RunState) : State := cleared s (chipSys s cause run)

/-- POR_N_ASSERT (R601): `internal` when the VDD_IO detector is the trigger. -/
def rowPorNAssert (internal : Bool) (s : State) : State :=
  powerReset s (if internal then 2 else 1)

/-- RESET_N_ASSERT (R601); a reset that a supply holds stays held (R611). -/
def rowResetNAssert (s : State) : State :=
  if s.sys.run = .supplyHeld then s else chipReset s 3 .inReset

/-! ### Boot (R606 to R608) -/

def bootStop (s : State) (status : Nat) : State :=
  { s with sys := { s.sys with run := .bootStopped, bootStatus := status } }

/-- Step 4: the beat counter starts, RESET_DONE is raised with the class and the cause. -/
def bootDone (s : State) : State :=
  raiseEv { s with sys := { s.sys with run := .running, bootStatus := 0, bootImage := [] } }
    evResetDone (lastClass s.sys.last) [lastCause s.sys.last]

/-- Step 3 with verified firmware: HBM training, then the SRAM test. -/
def bootTrain (s : State) (firmware : Bytes) (hbmOk sramOk : Bool) : State :=
  let s := { s with sys := { s.sys with firmware := Config.firmwareVersion firmware } }
  if !hbmOk then bootStop s 3 else if !sramOk then bootStop s 4 else bootDone s

/-- Steps 1 and 2. -/
def bootLoad (s : State) (bootsel : Nat) (flash : Option Bytes) (flashSig hbmOk sramOk : Bool) :
    State :=
  if bootsel % 4 = 3 then bootStop s 5
  else if bootsel % 4 = 1 then bootStop s 6
  else match flash with
    | some f =>
      if flashSig then bootTrain s f hbmOk sramOk
      else bootStop s (if bootsel % 4 = 2 then 6 else 2)
    | none => bootStop s (if bootsel % 4 = 2 then 6 else 1)

/-- BOOT (R606): from reset; or onwards from the wait for firmware over PCIe, once it has come. The
operands are the board's and the tests' part: BOOTSEL, what the flash holds, whether signatures
verify, whether HBM and SRAM pass. -/
def rowBoot (bootsel : Nat) (flash : Option Bytes) (flashSig pcieSig hbmOk sramOk : Bool)
    (s : State) : State :=
  if s.sys.run = .inReset then bootLoad s bootsel flash flashSig hbmOk sramOk
    else if s.sys.run = .bootStopped && s.sys.bootStatus = 6 && s.sys.bootImage != [] then
      (if pcieSig then bootTrain s s.sys.bootImage hbmOk sramOk else bootStop s 2)
    else s

/-- RESET_BOOT_IMAGE_WRITE (R607, R608): accepted while the boot ROM waits for it. -/
def rowResetBootImageWrite (image : Bytes) (s : State) : State :=
  if s.sys.run = .bootStopped && s.sys.bootStatus = 6 then
      { s with sys := { s.sys with bootImage := image } }
    else s

/-! ## Commands of `reset.cmd` (R601, R622) -/

def resetWord (cls num : Nat) : Nat := cls * 2 ^ 24 + num

/-- The earlier of two receive beats stands. -/
def orFirst (a : Option Nat) (b : Nat) : Option Nat := some (a.getD b)

/-- What a write of `reset.cmd` asks for; none is a value that R622 rejects. -/
def resetCmd (w : Nat) (s : State) : Option State :=
  let num := bits w 7 0
  let cls := bits w 31 24
  if cls = 1 then some { s with sys := { s.sys with chipAt := orFirst s.sys.chipAt s.beat } }
  else if cls = 2 then some { s with sys := { s.sys with softAt := orFirst s.sys.softAt s.beat } }
  else if cls = 3 && decide (num < 8) then
    some { s with sys := { s.sys with
      pipeAt := tins s.sys.pipeAt num ((tfind s.sys.pipeAt num).getD s.beat) } }
  else if cls = 4 && decide (num < 130) then
    some { s with sys := { s.sys with soon := s.sys.soon ++ [.portReset num] } }
  else none

def resetWrite (src : Origin) (cls num : Nat) (s : State) : State :=
  writeCmd s src 0x9000 1 noRow (bytesOf 4 (resetWord cls num))
    (resetCmd (resetWord cls num))

/-- RESET_CMD_CHIP (R601): the reset comes 10,000 beats later, so that the answer leaves. -/
def rowResetCmdChip (src : Origin) (s : State) : State :=
  resetWrite src 1 0 s

/-- RESET_CMD_SOFT (R601). -/
def rowResetCmdSoft (src : Origin) (s : State) : State :=
  resetWrite src 2 0 s

/-- RESET_CMD_PIPE (R601). -/
def rowResetCmdPipe (src : Origin) (pipe : Nat) (s : State) : State :=
  resetWrite src 3 pipe s

/-- RESET_CMD_PORT (R601, R604): the reset comes at the next beat. -/
def rowResetCmdPort (src : Origin) (node : Nat) (s : State) : State :=
  resetWrite src 4 node s

/-- A command is due at the boundary of this beat (R601). -/
def resetDue (s : State) (recv : Nat) : Bool :=
  s.beat == s.rm.boundaryBeat && decide (recv + rw s 0x2800 4 ≤ s.beat)

/-- A PORT reset with its counters (R581, R604). -/
def portResetAll (s : State) (n : Nat) : State :=
  portReset (clearPortCounters s n (footprint s n)) n

/-! ## What a pipe loses (R215, R317, R341, R391, R427, R504) -/

/-- Free lists of a pipe: its ports of every active address, ascending (R341). -/
def natLists (s : State) (p : Nat) : Tbl (List Nat) :=
  let lo := natOf (stored s 0x5040 4 noRow)
  ((List.range 16).filter fun i => natAddr s i != 0).foldl (fun t i =>
    tput [] t i (((List.range (65536 - lo)).map fun x => lo + x).filter fun x =>
      steer s (natAddr s i) x == p)) []

/-- The directory, quarantine and record area of a shard become empty (R215). -/
def clearShard (s : State) (p : Nat) : State :=
  let lo := slotOf p 0 0
  let hi := slotOf (p + 1) 0 0
  { s with mem := { s.mem with
      dir := tdrop s.mem.dir lo hi, hbm := tdrop s.mem.hbm lo hi,
      quarantine := s.mem.quarantine.filter fun a => slotPipe a != p } }

/-- A pipe's own state after its reset: what waits for the host, its table commands and its export
records stay (log entry 60). -/
def clearPipe (s : State) (p : Nat) : State :=
  modPipe s p fun k =>
    { Pipe.init with
      power := k.power, wakeDone := k.wakeDone, resetting := k.resetting,
      resetBeat := k.resetBeat, refclkLost := k.refclkLost, refclkAt := k.refclkAt, h := k.h, slip := 0, slipLongest := k.slipLongest,
      lastBeat := k.lastBeat, ingLast := k.ingLast, egLast := k.egLast,
      nextRead := k.nextRead, legacyApplied := k.legacyApplied, legacyTick := k.legacyTick,
      exportQ := k.exportQ, exportSeq := k.exportSeq, idleExportQ := k.idleExportQ,
      idleExportSeq := k.idleExportSeq, natFree := natLists s p, mirrorSel := k.mirrorSel, cmds := k.cmds, cpls := k.cpls }

/-- Engines and resequencers of a pipe's clusters become empty; a trapped or frozen cluster stays
out of rotation (R317). -/
def emptyClusters (s : State) (p : Nat) : State :=
  (List.range 8).foldl (fun s i => modCluster s (8 * p + i) fun k =>
    { k with lastAccept := none, reseq := [], released := none, engines := [] }) s

/-- Every policer of a pipe is full from this beat on, to the sizes of its row in force (R427). -/
def fillPolicers (s : State) (p : Nat) : State :=
  let lo := keyOf 0x7400 1 0
  let rows := (trange s.digObjs (lo + 8192 * p) (lo + 8192 * p + 8192)).map fun e => e.1 - lo
  rows.foldl (fun s i => fillPolicer s i (digRow s 0x7400 1 i)) s

/-- The requests of a pipe's HBM background arbiter are withdrawn (R504). -/
def dropRequests (s : State) (a : Nat) : State :=
  { s with host := { s.host with arbs := terase s.host.arbs a } }

/-! ## PIPE (R605) -/

/-- A packet that a PIPE reset discards: in the ingress half, or admitted by the home half and not
committed. -/
def pipeLoses (p : Nat) (k : Pkt) : Bool :=
  (nodePipe k.node == p && (k.stage == .receiving || k.stage == .holding
      || (k.stage == .toEgress && k.dec.kind != 2)))
    || (k.flow.home == p && k.dec.kind == 2 && k.stage == .admitted)

/-- Discard packets; the rest of one whose tail has not come is refused, so nothing of it waits. -/
def discardAll (s : State) (l : List Pkt) : State :=
  l.foldl (fun s k =>
    let s := if k.tailDone then s
      else modPkt s k.id fun k => { k with tailDone := true, policer := none }
    discardPkt s k.id) s

/-- PIPE_RESET_START's work. -/
def pipeResetStart (s : State) (p : Nat) : State :=
  let s := { s with sys := { s.sys with pipeAt := terase s.sys.pipeAt p } }
  let s := forget s fun _ owner => owner / 8 == p && decide (owner < 64)
  let s := dropWaiting s fun owner => owner / 8 == p && decide (owner < 64)
  let s := modPools s fun k => { k with access := k.access.filter fun a => a.cluster / 8 != p }
  if (pipeAt s p).power != 0 then s
  else
    let lost := s.pkts.filter (pipeLoses p)
    let s := (List.range 16).foldl (fun s i =>
      modPort s (16 * p + i) fun x => { x with refusing := true, rx := none, staging := [] }) s
    let s := discardAll s lost
    let s := clearShard (emptyClusters (clearPipe s p) p) p
    let s := dropRequests (fillPolicers (clearPipeCounters s p) p) p
    let s := { s with objs := tput [] s.objs (keyOf 0x9000 5 p) (bytesOf 4 lost.length) }
    modPipe s p fun k => { k with resetting := true, resetBeat := s.beat }

/-- PIPE_RESET_START (R605): at the boundary of R601. -/
def rowPipeResetStart (pipe : Nat) (s : State) : State :=
  whenRun s fun s =>
    match tfind s.sys.pipeAt pipe with
    | some r => guardS (resetDue s r && !(pipeAt s pipe).resetting) s
        fun s => pipeResetStart s pipe
    | none => s

/-- PIPE_RESET (R605): the zeroing is complete. -/
def rowPipeReset (pipe : Nat) (s : State) : State :=
  whenRun s fun s => guardS (pipeAt s pipe).resetting s fun s =>
    let s := modPipe s pipe fun k => { k with resetting := false, h := s.beat }
    let s := (List.range 16).foldl (fun s i =>
      modPort s (16 * pipe + i) fun x => { x with refusing := s.sys.soft }) s
    raiseEv s evPipeReset pipe [natOf (stored s 0x9000 5 pipe)]

/-! ## SOFT (R602, R603) -/

/-- Objects that a SOFT reset clears: those of its own class and, as it clears their whole scope, of
PIPE (R15). -/
def softClears (e : Nat × Bytes) : Bool :=
  match lookupObj (keyIdx e.1) (keySub e.1) with
  | some r => r.clr == .soft || r.clr == .pipe
  | none => false

/-- The values pending the next SOFT reset become active (R77, R218, R340, R396). -/
def activate (s : State) : State :=
  let one := fun (idx a b row : Nat) (s : State) =>
    { s with objs := putCfg s.objs idx b row (stored s idx a row) }
  let s := one 0x5000 1 2 noRow (one 0x2A00 1 2 noRow s)
  let seeds := stored s 0x5000 3 noRow ++ stored s 0x5000 4 noRow ++ stored s 0x5000 5 noRow
  let s := { s with objs := putCfg s.objs 0x5000 6 noRow seeds }
  let s := (List.range 16).foldl (fun s i => one 0x5040 1 2 i s) s
  let s := one 0x5040 5 6 noRow (one 0x5040 3 4 noRow s)
  (List.range 8).foldl (fun s i => one 0x6800 1 2 i s) s

/-- Every packet in processing, every queued frame and every copy is discarded (R603 step 2). -/
def softDiscard (s : State) : State :=
  let s := s.pkts.foldl (fun s k => txFinish s k 2) s
  let s := s.buf.schedQ.foldl applySched s
  let nodes := s.buf.nodes.map fun e => (e.1, { e.2 with deficit := 0, pointers := [] })
  { s with
    pkts := [],
    ports := s.ports.map fun e =>
        (e.1, { e.2 with staging := [], rx := none, tx := none, gate := Gate.init }),
    buf := { Buf.init with nodes := nodes, nextCopy := s.buf.nextCopy } }

/-- Versions, staging area, lock and clusters are lost: version 0 is current, every cluster EMPTY
and out of any freeze (R48, R184, R188, R317, R573). -/
def softVersions (s : State) : State :=
  let s := clearStaging s
  { s with
    ver := Versions.init, digVer := VerCfg.zero, clusters := [],
    mabin := { s.mabin with holder := none, expires := 0, collect := [] },
    rm := { s.rm with bounds := (s.rm.bounds.map fun b => { b with ver := VerCfg.zero }).take 1 },
    sys := { s.sys with frozenList := s.sys.frozenList.filter fun w => bits w 31 24 != 6 } }

/-- Home halves, search memories and flow tables (R215, R341, R391, R427). -/
def softPipes (s : State) : State :=
  let s := { s with mem := { Mem.init with companion := s.mem.companion, bulk := s.mem.bulk,
                                           util := s.mem.util } }
  (List.range 8).foldl (fun s p =>
    let s := dropRequests (fillPolicers (clearPipe s p) p) p
    modPipe s p fun k =>
      let cmds := k.cmds.map fun c => { c with tick := 0 }
      { k with
        legacyApplied := 0, legacyTick := 0, slipLongest := 0, exportQ := [], exportSeq := 0,
        idleExportQ := [], idleExportSeq := 0, mirrorSel := [], cmds := cmds }) s

/-- SOFT_RESET's work (R603 steps 1 to 3). -/
def softReset (s : State) : State :=
  let s := activate { s with
    objs := s.objs.filter fun e => !softClears e,
    digObjs := s.digObjs.filter fun e => !softClears e,
    deferred := s.deferred.filter fun d => !softClears (d.key, d.value) }
  let s := softPipes (softVersions (softDiscard s))
  let s := clearSoftCounters (forget s fun _ _ => true)
  let s := (List.range 64).foldl startTests s
  let s := (List.range 134).foldl (fun s n => modPort s n fun x => { x with refusing := true }) s
  { s with
    host := { s.host with tmplDue := [], pools := { s.host.pools with faultLast := 0, access := [] },
                          rings := s.host.rings.map fun e => (e.1, { e.2 with part := none }) },
    sys := { s.sys with softAt := none, soft := true, softBeat := s.rm.boundaryBeat } }

/-- SOFT_RESET (R603): at the boundary of R601. -/
def rowSoftReset (s : State) : State :=
  whenRun s fun s =>
    match s.sys.softAt with
    | some r => guardS (resetDue s r && !s.sys.soft) s softReset
    | none => s

/-! ## FUNCTION (R504, R541) -/

/-- Rings whose row has been written: those of one subindex of 0x8100, from a ring number. -/
def rowsWritten (s : State) (sub first n : Nat) : List Nat :=
  let lo := keyOf 0x8100 sub 0
  (trange s.objs lo (lo + n)).map fun e => first + (e.1 - lo)

/-- The rings of a function that the state knows. -/
def ringsOf (s : State) (f : Nat) : List Nat :=
  let rows := rowsWritten s 1 0 4096 ++ rowsWritten s 2 4096 4096 ++ rowsWritten s 4 8192 8
    ++ rowsWritten s 5 8200 8 ++ [dumpRing, eventRing]
  (distinct (tkeys s.host.rings ++ rows)).filter fun r => ringOwner s r == f

/-- The requester rows of a packet ring return to their defaults (R509). -/
def clearRequesters (s : State) (r : Nat) : State :=
  if 8192 ≤ r then s
  else
    let objs := terase s.objs (keyOf 0x6C10 3 r)
    { s with objs := if r < 4096 then objs else terase objs (keyOf 0x6C20 3 (r - 4096 + 16)) }

/-- A ring is disabled, with its counts at 0 and its row at the default; a frozen one stays frozen
(R48, R516). -/
def clearRing (s : State) (r : Nat) : State :=
  let (sub, row) := ringPlace r
  let s := clearRequesters s r
  let rings := if (ringAt s r).state = 3 then tins s.host.rings r { Ring.init with state := 3 }
    else terase s.host.rings r
  { s with host := { s.host with rings := rings },
           objs := terase s.objs (keyOf 0x8100 sub row) }

/-- Frames at a host port node for one of some receive rings. -/
def waitsFor (rings : List Nat) (k : Pkt) : Bool :=
  (k.stage == .queued || k.stage == .sending) && 130 ≤ decNode k.dec && decide (decNode k.dec < 134)
    && rings.contains (rxRing k.dec)

/-- Requests of the DMA engine and the lookaside unit for some rings are withdrawn; a grant ends with what is left of its
transaction (R504). -/
def dropWaits (s : State) (rings : List Nat) : State :=
  let gone := fun (a i : Nat) => rings.contains (if a = arbLa then i + 4080 else i)
  [arbDma, arbLa].foldl (fun s a => modArb s a fun x =>
    { x with reqs := x.reqs.filter fun e => !gone a e.1 }) s

/-- One function: its rings, the frames that wait for them, its jobs, its pool buffers (R407, R541). -/
def resetFn (s : State) (f : Nat) : State :=
  let rings := ringsOf s f
  let waiting := (s.pkts.filter (waitsFor rings)).map Pkt.id
  let s := dropWaits s rings
  let s := { s with
    pkts := s.pkts.map fun k => match k.tx with
      | some t => if rings.contains (txRing t.ring) then { k with tx := none } else k
      | none => k,
    cipher := { s.cipher with jobs := s.cipher.jobs.filter fun j => !rings.contains (txRing j.ring) } }
  let s := rings.foldl clearRing s
  let s := waiting.foldl (fun s id => match pktAt s id with
    | some k => discardPkt (hostDiscard s (rxRing k.dec) k.node) id
    | none => s) s
  let regions := (List.range 64).filter fun i => (regionRow s i).fn == f && stored s 0x6800 3 i != []
  let lost := fun h => regions.any fun i =>
    (regionRow s i).pool == handlePool h && decide ((regionRow s i).first ≤ handleIndex h)
      && decide (handleIndex h < (regionRow s i).first + (regionRow s i).count)
  let s := dropWaiting (forget s fun h owner => owner == ownerOfFn f || lost h) fun owner => owner == ownerOfFn f
  let s := regions.foldl (fun s i => { s with objs := terase s.objs (keyOf 0x6800 3 i) }) s
  clearFnCounters (modPools s fun k => { k with resp := terase k.resp f }) f

/-- LOCK_EXPIRED of the local session: the staging area is discarded, the lock free (R570). -/
def endLocalLock (s : State) : State :=
  if s.mabin.holder = some 16 then
    let s := clearStaging s
    raiseEv { s with mabin := { s.mabin with holder := none, expires := 0 } } evLockExpired 0
      [16, s.rm.tick]
  else s

/-- A position that holds a table command of the command ring loses it: its effect stands, and it leaves no
completion (R541). -/
def loseCmd (q : Pos) : Pos :=
  match q.work with
  | .hcmd m => { q with work := .hcmd { m with held := false } }
  | _ => q

/-- The physical function resets every virtual one, loses waiting table commands, and with them the
mailbox (R541, R570, R576). -/
def resetPf (s : State) : State :=
  let s := (List.range 64).foldl resetFn s
  let s := (List.range 8).foldl (fun s p => modPipe s p fun k =>
    { k with cmds := [], cpls := [], pos := k.pos.map loseCmd }) s
  endLocalLock { s with
    host := { s.host with vfs := 0 },
    mabin := { s.mabin with mboxOut := [], localResult := 0, collect := [] } }

/-- FUNCTION_RESET (R541). -/
def rowFunctionReset (fn : Nat) (s : State) : State :=
  whenRun s fun s => guardS (decide (fn < 64)) s fun s =>
    if fn = 0 then resetPf s else resetFn s fn

/-! ## Supply monitors (R609 to R611, R620) -/

def supplyAt (s : State) (m : Nat) : Supply := s.sys.supplies.getD m Supply.init

def modSupply (s : State) (m : Nat) (f : Supply → Supply) : State :=
  { s with sys := { s.sys with supplies := s.sys.supplies.mapIdx fun i x => if i = m then f x else x } }

/-- Lowest reading, TB0 as TIME64, TB0 valid. -/
def supplyValues (s : State) (mv : Nat) : List Nat := [mv, time64 (tbAt s 0), b2n (tbValid s 0)]

/-- A rail falls below warning: a warning is in force from this beat (R610). -/
def supplyFalls (s : State) (m mv dips : Nat) : State :=
  let s := modSupply s m fun x =>
    { x with state := 1, mv := mv, dipBeat := some s.beat, dips := x.dips + dips }
  { s with sys := { s.sys with warnSince := orFirst s.sys.warnSince s.beat, dipAt := s.beat } }

/-- SUPPLY_WARN (R610): while the part runs the event is raised and logged. -/
def rowSupplyWarn (mon mv : Nat) (s : State) : State :=
  guardS (decide (mon < 3) && (supplyAt s mon).state == 0) s fun s =>
    let s := supplyFalls s mon mv 0
    let s := { s with sys := { s.sys with warnMon := mon } }
    if s.sys.run = .running then raiseEv s evSupplyWarn mon (supplyValues s mv) else s

/-- SUPPLY_DIP (R610): no second event; the 1 ms restarts. -/
def rowSupplyDip (mon mv : Nat) (s : State) : State :=
  guardS (decide (mon < 3) && (supplyAt s mon).state != 0) s fun s =>
    supplyFalls s mon mv 1

/-- The warning's end; fuse words start again (R308, R610). -/
def supplyOk (s : State) (since : Nat) : State :=
  let s := { s with sys := { s.sys with
    warnSince := none, supplies := s.sys.supplies.map fun m => { m with state := 0 } } }
  if s.sys.run = .running then
    startFuses (raiseEv s evSupplyOk s.sys.warnMon [roundDiv (s.beat - since) 1250])
  else s

/-- SUPPLY_OK (R610): at the earliest 1 ms after the last dip. -/
def rowSupplyOk (s : State) : State :=
  match s.sys.warnSince with
    | some since =>
      guardS (s.sys.run != .running || due s (s.sys.dipAt + 1250000)) s fun s => supplyOk s since
    | none => s

/-- SUPPLY_RESET (R611): logged, then CHIP reset, held; it ends a freeze too (R615). -/
def rowSupplyReset (mon mv : Nat) (s : State) : State :=
  guardS (decide (mon < 3)) s fun s =>
    let s := supplyFalls s mon mv 0
    let s := postEvent s { code := evSupplyReset, source := mon, tick := s.rm.tick, beat := s.beat,
                           values := supplyValues s mv }
    chipReset s (5 + mon) .supplyHeld

/-- SUPPLY_RESET_RELEASE (R611): the boot follows. -/
def rowSupplyResetRelease (s : State) : State :=
  if s.sys.run = .supplyHeld then { s with sys := { s.sys with run := .inReset } } else s

/-! ## Freeze of the part (R614 to R616, R628) -/

/-- FREEZE: FREEZE_N falls (trigger 1). -/
def rowFreeze (s : State) : State :=
  startFreeze s 1 0

/-- DEBUG_FREEZE: a write of 1 to `debug.freeze` (trigger 2). -/
def rowDebugFreeze (src : Origin) (s : State) : State :=
  writeCmd s src 0x9020 1 noRow [1] fun s => some (startFreeze s 2 0)

/-! ## Pins (R608, R610, R618, R627) -/

/-- PWR_WARN_N is low. -/
def pwrWarnLow (s : State) : Bool := s.sys.warnSince.isSome

/-- EVENT_N is low: an unacknowledged log entry, or the boot has stopped. -/
def eventLow (s : State) : Bool :=
  s.sys.run == .bootStopped || s.sys.log.any fun r => decide (s.sys.logAck < r.seq)

/-- IRQ_N is low: an event waits for the event ring. -/
def irqLow (s : State) : Bool := !s.sys.evq.isEmpty

end Sys2Proof.Machine
end

