-- ==== Sys2Proof/Machine/Faults.lean ====
section
/-! DEFINITION. Releases of frozen masters (R48, R621), the power of pipes (R612, R613), the event log's
acknowledgement (R618) and the I2C target (R630). -/

namespace Sys2Proof.Machine

/-! ## Releases (R621) -/

/-- Entries of `fault.frozen` of a type and number go, with one MASTER_RELEASED. -/
def releaseAll (s : State) (type cls num : Nat) : State :=
  let gone := fun (w : Nat) => bits w 31 24 == type && bits w 15 0 == num
    && (cls == 0xFF || bits w 23 16 == cls)
  raiseEv { s with sys := { s.sys with frozenList := s.sys.frozenList.filter fun w => !gone w } }
    evMasterReleased type [num, cls]

/-- A port node, or one class of it. -/
def freePort (s : State) (n cls : Nat) : State :=
  let p := portAt s n
  if cls = 0xFF then
    (if p.frozen || p.frozenCls != 0 then
      releaseAll (modPort s n fun p => { p with frozen := false, frozenCls := 0 }) 1 cls n
    else s)
  else if decide (cls < 8) && bit p.frozenCls cls then
    releaseAll (modPort s n fun p => { p with frozenCls := setBit p.frozenCls cls false }) 1 cls n
  else s

/-- A function: its rings fetch again, and `host.fn.fault` is cleared. -/
def freeFn (s : State) (f : Nat) : State :=
  if (fnAt s f).frozen then releaseAll (modFn s f fun _ => Fn.init) 2 0xFF f else s

/-- A ring that a release lets go on: one that no write has disabled since its freeze fetches again at the
consumer count, and its last accepted producer count stands; another finishes what it has begun. -/
def ringThaws (row : Bytes) (x : Ring) : Ring :=
  if x.row.isNone && rowEnable row then { x with desc := none, state := 1 }
  else if x.begun = [] then ringRests row x else { x with desc := none, state := 2 }

/-- A ring (R621). -/
def freeRing (s : State) (r : Nat) : State :=
  if (ringAt s r).state = 3 then releaseAll (modRing s r (ringThaws (storedRow s r))) 3 0xFF r else s

/-- A session: it ends, and its slot is free (R564). -/
def freeSession (s : State) (n : Nat) : State :=
  match sessionAt s n with
  | some x =>
    if x.frozen then
      releaseAll { s with mabin := { s.mabin with sessions := terase s.mabin.sessions n } } 4 0xFF n
    else s
  | none => s

/-- A pool owner: requests and frees are served again; its buffers stay held (R406). -/
def freeOwner (s : State) (o : Nat) : State :=
  if (pools s).frozen.contains o then
    releaseAll (modPools s fun k => { k with frozen := k.frozen.filter (· != o) }) 5 0xFF o
  else s

/-- A release as it takes effect; one of a master that is not frozen does nothing. -/
def release (s : State) (w : Nat) : State :=
  let type := bits w 31 24
  let cls := bits w 23 16
  let num := bits w 15 0
  if type = 1 then freePort s num cls
  else if type = 2 then freeFn s num
  else if type = 3 then freeRing s num
  else if type = 4 then freeSession s num
  else if type = 5 then freeOwner s num
  else s

/-- A write of `fault.release`: at the next beat; types 0, 6 and above are rejected. -/
def askRelease (w : Nat) (s : State) : Option State :=
  if bits w 31 24 = 0 || 5 < bits w 31 24 then none
  else some { s with sys := { s.sys with soon := s.sys.soon ++ [.release w] } }

def releaseWrite (src : Origin) (type cls num : Nat) (s : State) : State :=
  let w := frozenWord type cls num
  writeCmd s src 0x9040 1 noRow (bytesOf 4 w) (askRelease w)

/-- RELEASE_PORT (R621). -/
def rowReleasePort (src : Origin) (node cls : Nat) (s : State) : State :=
  releaseWrite src 1 cls node s

/-- RELEASE_FUNCTION (R621). -/
def rowReleaseFunction (src : Origin) (fn : Nat) (s : State) : State :=
  releaseWrite src 2 0xFF fn s

/-- RELEASE_RING (R621). -/
def rowReleaseRing (src : Origin) (ring : Nat) (s : State) : State :=
  releaseWrite src 3 0xFF ring s

/-- RELEASE_SESSION (R621). -/
def rowReleaseSession (src : Origin) (sess : Nat) (s : State) : State :=
  releaseWrite src 4 0xFF sess s

/-- RELEASE_POOL_OWNER (R621). -/
def rowReleasePoolOwner (src : Origin) (owner : Nat) (s : State) : State :=
  releaseWrite src 5 0xFF owner s

/-- What takes effect at the beat after its command (R57, R466, R477, R595, R601, R621). -/
def runSoon (s : State) : State :=
  s.sys.soon.foldl (fun s x => match x with
    | .portReset n => portResetAll s n
    | .release w => release s w
    | .tickLost => tickLost s
    | .tbDisable t => tbStops s t
    | .unitOut u => unitOut s u
    | .clearPairs l => clearPairs s l
    | .tinDrop i n => tinDrop i n s
    | .realign _ => s) { s with sys := { s.sys with soon := [] } }

/-! ## Power of pipes (R612, R613) -/

/-- The front ports and the management port of a pipe are disabled. -/
def pipePortsOff (s : State) (p : Nat) : Bool :=
  (List.range 16).all (fun i => !portEnabled s (16 * p + i))
    && (decide (2 ≤ p) || !portEnabled s (128 + p))

/-- No policer of a pipe has a mode. -/
def pipePoliceOff (s : State) (p : Nat) : Bool :=
  let lo := keyOf 0x7400 1 0
  (trange s.objs (lo + 8192 * p) (lo + 8192 * p + 8192)).all fun e => policeMode e.2 == 0

/-- No ring of the pipe's host port node is enabled. -/
def pipeRingsOff (s : State) (p : Nat) : Bool :=
  p < 2 || 5 < p || ((tkeys s.host.rings).filter fun r => decide (r < 8192)
    && r % 4096 / 1024 == p - 2).all fun r => !rowEnable (storedRow s r) && ringIdle (ringAt s r)

/-- The conditions of R612. -/
def pipeMayStop (s : State) (p : Nat) : Bool :=
  p < 6 && !bit (homeMask s) p && pipePortsOff s p && pipePoliceOff s p && pipeRingsOff s p

/-- A write of `power.pipe.off`: a bit that it sets must meet the conditions. -/
def pipeOffWrite (v : Nat) (s : State) : Option State :=
  let old := rw s 0x9010 5
  if (List.range 8).all fun p => !bit v p || bit old p || pipeMayStop s p then
    some (setRw s 0x9010 5 noRow (bytesOf 1 v))
  else none

/-- POWER_PIPE_OFF (R612): the bit of the pipe set, the others as they are. -/
def rowPowerPipeOff (src : Origin) (pipe : Nat) (s : State) : State :=
  let v := setBit (rw s 0x9010 5) pipe true
  writeCmd s src 0x9010 5 noRow (bytesOf 1 v) (pipeOffWrite (v % 256))

/-- POWER_PIPE_WAKE (R613): the bit of the pipe cleared. -/
def rowPowerPipeWake (src : Origin) (pipe : Nat) (s : State) : State :=
  let v := setBit (rw s 0x9010 5) pipe false
  writeCmd s src 0x9010 5 noRow (bytesOf 1 v) (pipeOffWrite (v % 256))

/-- A pipe's search memories are empty. -/
def clearSearch (s : State) (p : Nat) : State :=
  let lo := unitNo p 0 0
  { s with mem := { s.mem with
      tcam := tdrop s.mem.tcam lo (lo + 32768), shadow := tdrop s.mem.shadow lo (lo + 32768),
      exact := tdrop s.mem.exact (exactNo p 0) (exactNo (p + 1) 0),
      widths := tdrop s.mem.widths (16 * p) (16 * p + 16) } }

/-- At a boundary: the pipe is not powered, its memories are lost and its counters clear (R612). -/
def pipeStops (s : State) (p : Nat) : State :=
  let s := clearSearch (clearShard (clearPipe s p) p) p
  let s := (List.range 8).foldl (fun s i => modCluster s (8 * p + i) fun k =>
    { Cluster.init with state := k.state, trapInfo := k.trapInfo, trapVector := k.trapVector }) s
  modPipe (clearPipeCounters s p) p fun k => { k with power := 1, wakeDone := false }

/-- One entry of a version in a waking pipe: written, or its bit joined to what another slot wrote. -/
def wakeEntry (s : State) (sl p b e : Nat) (v : VerCfg) : State :=
  let w := bankWidth v (16 * p + b)
  let n := unitNo p b (e * w)
  let u := tcamAt s n
  if u.valid then putUnit s n { u with slots := setBit u.slots sl true }
  else (List.range w).foldl (fun s i => writeUnit s n w i (2 ^ sl) (tcamRow v p b e) true) s

def wakeExact (s : State) (sl p r : Nat) (v : VerCfg) : State :=
  let n := exactNo p r
  let e := exactAt s n
  let row := cfgRow v (0x4B00 + p) 2 r
  if !exactRowValid row then s
  else if e.valid then putExact s n { e with slots := setBit e.slots sl true }
  else putExact s n { valid := true, slots := 2 ^ sl, key := exactRowKey row,
                      action := exactRowAction row }

/-- The share of a pipe in a live or pending version (R613). -/
def wakeSlot (s : State) (p sl : Nat) : State :=
  if !isLive s sl then s
  else
    let v := slotVer s sl
    let s := (List.range 16).foldl (fun s b =>
      if bankLegacy s (16 * p + b) || bankGroup v (16 * p + b) == 15 then s
      else (((cfgRows v (0x4B00 + p) 1).map Prod.fst).filter fun r => r / 2048 == b).foldl (fun s r =>
        if rowValid (tcamRow v p b (r % 2048)) then wakeEntry s sl p b (r % 2048) v else s) s) s
    ((cfgRows v (0x4B00 + p) 2).map Prod.fst).foldl (fun s r => wakeExact s sl p r v) s

/-- A cluster's sides hold what the versions of the slots need: those of PREPARING slots come last
(R613). -/
def wakeSides (s : State) (c : Nat) : State :=
  let ks := (List.range 4).filter (isLive s)
  let late := ks.filter fun k => (slotAt s k).state == .preparing
  ((ks.filter fun k => !late.contains k) ++ late).foldl (fun s k =>
    let v := slotVer s k
    match clusterImage v c with
    | none => s
    | some raw =>
      if late.contains k && !clusterChanged (baseOf s v.num) v c then s
      else modCluster s c fun x => fillSide x (sideOf v c) v raw) s

/-- At a boundary: the pipe is powered, zeroed, and written with its share of every version (R613). -/
def pipeWakes (s : State) (p : Nat) : State :=
  let s := (List.range 4).foldl (fun s sl => wakeSlot s p sl) (clearSearch s p)
  let s := (List.range 8).foldl (fun s i => wakeSides s (8 * p + i)) s
  let s := { s with ver := { s.ver with pending := s.ver.pending.map fun q =>
    if q.slot.isSome then
      { q with prep := tput Prep.init q.prep p Prep.init }
    else q } }
  modPipe s p fun k => { k with power := 2, wakeDone := true, resetBeat := s.beat, natFree := natLists s p }

/-- Changes of pipe power at a boundary, put off while a supply warning is in force (R610, R613). -/
def powerBoundary (s : State) : State :=
  if s.sys.warnSince.isSome then s
  else (List.range 8).foldl (fun s p =>
    let want := bit (rw s 0x9010 5) p
    if (pipeAt s p).power = 0 && want && pipeMayStop s p then pipeStops s p
    else if (pipeAt s p).power = 1 && !want then pipeWakes s p
    else s) s

/-- The pipe may be ON: a boundary after that of its waking, its writes complete, no supply warning. -/
def mayPower (s : State) (p : Nat) : Bool :=
  (pipeAt s p).power == 2 && (pipeAt s p).wakeDone && s.sys.warnSince.isNone
    && s.beat == s.rm.boundaryBeat && decide ((pipeAt s p).resetBeat < s.beat)

/-- The last boundary within the 20 ms of WAKING (R613). -/
def lastPower (s : State) (p : Nat) : Bool :=
  decide ((pipeAt s p).resetBeat + 25000000 < s.beat + tickBeats s.rm.rate)

/-- PIPE_POWER (R613): a boundary at which the writes are complete; how long they take is open. -/
def rowPipePower (pipe : Nat) (s : State) : State :=
  whenRun s fun s =>
    guardS (mayPower s pipe) s fun s =>
      raiseEv (modPipe s pipe fun k => { k with power := 0, wakeDone := false, h := s.beat })
        evPipePower pipe [0]

/-! ## The event log (R618) -/

/-- EVENT_LOG_ACK (R618): entries up to a sequence number are acknowledged. -/
def logAckWrite (v : Nat) (s : State) : Option State :=
  some { s with sys := { s.sys with logAck := v } }

def rowEventLogAck (src : Origin) (seq : Nat) (s : State) : State :=
  writeCmd s src 0x9030 2 noRow (bytesOf 8 seq) (logAckWrite (seq % 2 ^ 64))

/-! ## I2C (R630) -/

/-- First register and length of the field that a register lies in. -/
def i2cField (r : Nat) : Nat × Nat :=
  if r < 2 then (0, 2) else if r = 4 || r = 5 then (4, 2)
  else if 6 ≤ r && r < 12 then (r / 2 * 2, 2) else if 12 ≤ r && r < 16 then (12, 4) else (r, 1)

def runCode : RunState → Nat
  | .inReset => 0
  | .supplyHeld => 0
  | .running => 2
  | .bootStopped => 3
  | .frozen => 4

/-- A monitor's reading: in the beat of its dip the dip's sample, otherwise what it measures. -/
def supplyMv (s : State) (m : Nat) : Nat :=
  let x := supplyAt s m
  if x.dipBeat = some s.beat then x.mv else (Config.supplyMv (3 * s.beat + m)).toNat

/-- The nominal voltages of the three rails that are watched, in mV (R609). -/
def supplyNominal (m : Nat) : Nat := [720, 800, 900].getD m 0

/-- The reading lies above the recovery level: 0.5% of nominal above the warning level (R609). -/
def aboveRecovery (s : State) (m : Nat) : Bool :=
  decide (supplyNominal m * (1005 - natOf (stored s 0x9010 1 m)) < 1000 * supplyMv s m)

/-- `power.supply.state` of a monitor: normal, below warning, or recovering (R609, R622). -/
def supplyShown (s : State) (m : Nat) : Nat :=
  if (supplyAt s m).state = 0 then 0 else if aboveRecovery s m then 2 else 1

/-- The live value of the field at a first register. -/
def i2cValue (s : State) (r : Nat) : Bytes :=
  if r = 0 then bytesOf 2 0x6412
  else if r = 2 then [0xB0]
  else if r = 3 then bytesOf 1 (runCode s.sys.run)
  else if r = 4 then bytesOf 2 (Config.temperature (s.beat / 1250000)).toNat
  else if 6 ≤ r && r < 12 then bytesOf 2 (supplyMv s ((r - 6) / 2))
  else if r = 12 then bytesOf 4 s.sys.last
  else if r = 16 then bytesOf 1 s.sys.bootStatus
  else [0]

def modSys (s : State) (f : Sys → Sys) : State := { s with sys := f s.sys }

/-- One byte read: the first byte of a field latches it; the pointer moves on. -/
def i2cByte (s : State) : State × Byte :=
  let r := s.sys.i2cPtr
  let (a, n) := i2cField r
  let s := if r = a && 1 < n then
      modSys s fun y => { y with i2cLatch := tins y.i2cLatch a (i2cValue s a) }
    else s
  let v := (tfind s.sys.i2cLatch a).getD (i2cValue s a)
  let s := if r + 1 = a + n then modSys s fun y => { y with i2cLatch := terase y.i2cLatch a } else s
  (modSys s fun y => { y with i2cPtr := (r + 1) % 256 }, v.getD (r - a) 0)

def i2cBytes : Nat → State → State × Bytes
  | 0, s => (s, [])
  | n + 1, s =>
    let (s, b) := i2cByte s
    let (s, t) := i2cBytes n s
    (s, b :: t)

/-- I2C_POINTER_WRITE (R630): in every state of the part. -/
def rowI2cPointerWrite (pointer : Nat) (s : State) : State :=
  modSys s fun y => { y with i2cPtr := pointer % 256 }

/-- I2C_READ (R630): in every state of the part. -/
def rowI2cRead (count : Nat) (s : State) : State :=
  let (s, b) := i2cBytes count s
  emit s (.i2c b)

end Sys2Proof.Machine
end

