-- ==== Sys2Proof/Machine/Views.lean ====
section
/-! DEFINITION. What a read of each read-only object returns (the object tables of the chapters), and
reads of every other object (R546, R547, R565). -/

namespace Sys2Proof.Machine

def u8 (n : Nat) : Bytes := bytesOf 1 n
def u16 (n : Nat) : Bytes := bytesOf 2 n
def u32 (n : Nat) : Bytes := bytesOf 4 n
def u64 (n : Nat) : Bytes := bytesOf 8 n

/-- Row i of a list of rows; empty where the row is not present. -/
def rowOf (l : List Bytes) (i : Nat) : Bytes := l.getD i []

def cntWord (s : State) (n : Nat) : Bytes := u64 (counterOf s.cnt.words s.cnt.line n)

/-! ## Time and ticks (R85, R495) -/

def rmModeCode : RmMode → Nat
  | .free => 0
  | .joining => 1
  | .locked => 2

def tbStateCode : TbState → Nat
  | .disabled => 0
  | .settling => 1
  | .valid => 2

/-- Fraction of a reading in 2^-32 ns. -/
def tbFrac (t : TimeBase) : Nat := t.v.toNat / 2 ^ 32 % 2 ^ 32

/-- `tb.snapshot`: the beat, then epoch, nanoseconds and fraction of each time base (R474). -/
def tbSnapshot (s : State) : Bytes :=
  u64 s.beat ++ (List.range 4).flatMap fun t =>
    u32 (tbAt s t).epoch.toNat ++ u32 (tbNs s t) ++ u32 (tbFrac (tbAt s t))

/-- The three plans in force, as `carousel.plan.in_use` digests them (R73, R85; log entry 9). -/
def plansOf (s : State) : List (List (Nat × Nat)) :=
  [Half.ingress, Half.home, Half.egress].map (planOf (curVer s))

def roTime (s : State) (idx sub row : Nat) : Bytes :=
  if idx = 0x2800 then
    (if sub = 5 then u8 (rmModeCode s.rm.mode)
     else if sub = 6 then u64 s.rm.tick
     else if sub = 7 then u64 s.rm.boundaryBeat
     else if sub = 8 then u32 s.rm.beatsLast
     else if sub = 9 then u32 (beatsMin (tickRate (curVer s)))
     else if sub = 10 then u32 (carouselMin (tickRate (curVer s)))
     else u64 s.beat)
  else if idx = 0x2900 then slice (sha384 (Config.planBytes (plansOf s))) 0 8
  else if idx = 0x2A00 then
    (if sub = 2 then u16 (horizon s)
     else if sub = 3 then u16 47
     else if sub = 4 then u16 (horizon s + 110)
     else if 8 ≤ row then []
     else if sub = 6 then cntWord s (cPipe row 33)
     else if sub = 7 then cntWord s (cPipe row 34)
     else if sub = 8 then u64 (pipeAt s row).slipLongest
     else if sub = 9 then cntWord s (cPipe row 35)
     else if sub = 10 then cntWord s (cPipe row 36)
     else u64 (if (pipeAt s row).resetting || s.sys.soft then 0 else s.beat - (pipeAt s row).h))
  else if idx < 0x2010 then
    let t := tbAt s (idx - 0x2000)
    (if sub = 2 then u8 (tbStateCode t.state)
     else if sub = 5 then u8 (b2n t.stepUsed)
     else if sub = 8 then u64 (unsigned 64 (t.slew / 2 ^ 32))
     else if sub = 9 then u32 (tbNs s (idx - 0x2000)) ++ u32 (tbFrac t)
     else if sub = 10 then u32 t.epoch.toNat
     else u64 t.validSince)
  else if idx = 0x2010 then tbSnapshot s
  else if idx < 0x2048 then u32 (toutAt s (idx - 0x2040)).next
  else
    let q := tinAt s (idx - 0x2060)
    if sub = 3 then rowOf (q.fifo.map u64) row else u32 q.overflow

/-! ## Lanes and ports (R109, R114) -/

def laneStatus (x : Lane) : Nat :=
  b2n x.busy * 2 ^ 31 + b2n x.done * 2 ^ 30 + x.offset * 2 ^ 23 + x.errors

/-- The cipher's part of a port's receive and transmit delays, in ps (R437, R449, R453). -/
def cipherPs (s : State) (n : Nat) : Nat × Nat :=
  (if macRxOn s n then 24 * 800 else 0, if macTxOn s n then 16 * 800 else 0)

def roPort (s : State) (idx sub : Nat) : Bytes :=
  if idx < 0x3100 then
    let l := idx - 0x3000
    let x := laneAt s l
    (if sub = 1 then u8 (((portOfLane s l).map fun n => (portAt s n).state).getD 0)
     else if sub = 3 then u8 x.power
     else if sub = 8 then u32 x.coeffs
     else if sub = 9 then u8 (b2n x.cdrLock)
     else if sub = 10 then u32 x.cdrPpm
     else u32 (laneStatus x))
  else
    let p := portAt s (idx - 0x3100)
    let c := if idx < 0x3180 then cipherPs s (idx - 0x3100) else (0, 0)
    let d := delayPs p.modeActive p.fecActive
    let delay := if p.state = 4 || p.state = 5 then (d.1 + c.1, d.2 + c.2) else (0, 0)
    (if sub = 13 then u8 p.state
     else if sub = 14 then u8 p.modeActive
     else if sub = 15 then u8 p.fecActive
     else if sub = 16 then u64 p.lastChange
     else if sub = 17 then u16 p.skew
     else if sub = 18 then u32 delay.1
     else if sub = 19 then u32 delay.2
     else u8 p.failCause)

/-! ## Parser, search banks, versions (R147, R179, R209, R210) -/

/-- `parse.graph.id`: the digest of the current graph, as its image carries it. -/
def graphId (s : State) : Bytes :=
  match (verImage s (curVer s)).bind fun raw => imgSection raw 5 with
  | some b => (sha384 b).take 8
  | none => u64 Config.nativeGraphId.toNat

/-- Valid entries of a bank (R149, R156). -/
def bankValid (s : State) (g : Nat) : Nat :=
  let w := max 1 (heldWidth s g)
  ((trange s.mem.tcam (g * 2048) (g * 2048 + 2048)).filter fun e =>
    e.1 % 2048 % w == 0 && e.2.valid).length

def slotRow (s : State) (k : Nat) : Bytes :=
  let x := slotAt s k
  let code := match x.state with
    | .free => 0
    | .preparing => 1
    | .current => 2
    | .draining => 3
  u64 (code * 2 ^ 48 + x.ver.num * 2 ^ 32 + min 65535 (holders s k) * 2 ^ 16)

def historyRow (h : History) : Bytes :=
  u16 h.num ++ u8 h.slot ++ u8 h.causes ++ u64 h.target ++ u64 h.commitTick ++ u64 h.digest
    ++ zeros 4

def roParse (s : State) (idx sub row : Nat) : Bytes :=
  if idx = 0x4000 then
    (if sub = 1 then graphId s
     else if sub = 2 then u16 (((verImage s (curVer s)).map imgStates).getD 96)
     else if sub = 3 then u8 (((verImage s (curVer s)).map imgHeaders).getD 16)
     else if row < 96 then [Config.nativeRow row] else [])
  else if idx < 0x4800 then u32 (portAt s (idx - 0x4100)).excLast
  else if idx < 0x4900 then u16 (bankValid s (idx - 0x4800))
  else if idx < 0x4D00 then u32 (pipeAt s (idx - 0x4B00)).scrubPos
  else
    let k := pipeAt s (idx - 0x4D00)
    if sub = 2 then u16 k.legacy.length
    else if sub = 3 then u32 k.legacyApplied else u64 k.legacyTick

def roVersion (s : State) (idx sub row : Nat) : Bytes :=
  if idx = 0x1400 then
    (if sub = 1 then u16 (curVer s).num
     else if sub = 2 then u8 s.ver.current
     else if sub = 3 then (if row < 4 then slotRow s row else [])
     else if sub = 4 then rowOf (s.ver.history.map historyRow) row
     else if sub = 5 then u8 s.ver.pending.length
     else u32 s.ver.lastReject)
  else if sub = 1 then u64 (configDigest s)
  else if sub = 3 then u8 (b2n (s.ver.compared == some false))
  else s.beacon

/-! ## Flow tables and engines (R260, R315, R318, R358) -/

def clusterCode (s : State) (c : Nat) : Nat :=
  let k := clusterAt s c
  if k.state = 0 then b2n (clusterImage (curVer s) c).isSome else k.state

/-- Physical pages that both sides of a cluster use together. -/
def clusterPages (s : State) (c : Nat) : Nat := (distinct ((clusterAt s c).pageMap.map Prod.snd)).length

def fuseStatus (s : State) : Nat :=
  b2n Config.vendorRefused * 256
    + sumNat ((List.range 4).map fun i =>
        b2n (tfind s.sys.fuses.slots (i + 1)).isSome * 2 ^ (4 + i)
          + b2n (s.sys.fuses.revoked.contains (i + 1)) * 2 ^ i)

def roFlow (s : State) (idx sub row : Nat) : Bytes :=
  if idx = 0x5014 then
    (if 8 ≤ row then [] else if sub = 3 then u32 (pipeAt s row).agePos
     else u32 (pipeAt s row).agePass)
  else if idx = 0x501C then rowOf (s.mem.quarantine.map u32) row
  else if 0x5020 ≤ idx && idx < 0x5028 then
    let p := idx - 0x5020
    let k := pipeAt s p
    (if sub = 1 then u32 (occupancy s p)
     else if sub = 2 then u16 k.stash.length
     else if sub = 3 then u16 k.stashPeak
     else if sub = 4 then
       u32 (sumNat ((k.cache.filter fun c => c.pin != .none).map Cached.size))
     else cntWord s (cPipe p 39))
  else if 0x5048 ≤ idx && idx < 0x5050 then
    let k := pipeAt s (idx - 0x5048)
    if sub = 1 then u32 (k.nat.filter fun e => natInUse e.2).length else u32 (sumNat (k.natFree.map fun e => e.2.length))
  else stored s idx sub row

/-- A BLOCK transfer of `engine.image.stage` is under way: the lock holder has sent some of its chunks (R310, R318). -/
def transferring (s : State) : Bool :=
  match s.mabin.holder.bind (fun n => (tfind s.mabin.sessions n).bind Session.block) with
  | some b => natAt b.head 2 2 == 0x5800 && byteAt b.head 4 == 1
  | none => false

def roEngine (s : State) (idx sub : Nat) : Bytes :=
  if idx = 0x5800 then
    (if sub = 3 then u32 (if transferring s then 2 ^ 24 else s.mabin.imageStatus) else u32 (fuseStatus s))
  else if idx < 0x5980 then
    let c := idx - 0x5900
    let img := clusterImage (curVer s) c
    (if sub = 1 then u64 ((img.map imgBuild).getD 0)
     else if sub = 2 then u32 ((img.map imgVersion).getD 0)
     else if sub = 3 then u16 ((img.map fun r => imgAbi r * 256 + imgMinor r).getD 0)
     else if sub = 4 then ((img.map fun r => sha384 (imgDigestInput r)).getD (zeros 48))
     else if sub = 5 then
       u8 (sumNat ((List.range 4).map fun k => sideOf (slotVer s k) c * 2 ^ k))
     else if sub = 6 then u16 (clusterPages s c)
     else if sub = 7 then u8 (clusterCode s c)
     else if sub = 10 then u64 (clusterAt s c).trapInfo
     else slice (clusterAt s c).trapVector 0 192)
  else u8 (sumNat ((List.range 8).map fun i => b2n (inRotation s (8 * (idx - 0x5980) + i)) * 2 ^ i))

/-! ## Buffer, pools, arbiters, scheduling, cipher (R392, R408, R433, R469, R508) -/

def usageRow (s : State) (n k : Nat) : Bytes :=
  let a := acctAt s n
  u64 (tget 0 a.p k * 2 ^ 44 + tget 0 a.s k * 2 ^ 24 + tget 0 a.r k * 16 + b2n (xOf s n k))

def roBuffer (s : State) (idx sub row : Nat) : Bytes :=
  if idx = 0x6000 then
    (if sub = 1 then u32 s.buf.cellsFree
     else if sub = 2 then u32 s.buf.cellsLow else u32 (sharedSize s))
  else if idx < 0x6400 then
    let n := idx - 0x6100
    (if sub = 0x0C then (if row < 8 then u32 (headroom s n row) else [])
     else if sub = 0x11 then (if row < 8 then usageRow s n row else [])
     else if sub = 0x12 then u16 (b2n (portAt s n).frozen * 256 + (portAt s n).frozenCls)
     else u8 (portAt s n).link)
  else if row < 8 then u32 (tget 0 (pipeAt s row).mirror (idx - 0x6400)) else []

def roPool (s : State) (idx sub row : Nat) : Bytes :=
  if idx = 0x6800 then
    (if sub = 2 then stored s 0x6800 2 row
     else if sub = 4 then (if row < 8 then u32 (poolBuffers s row) else [])
     else if sub = 5 then (if row < 8 then u32 (poolFree s row) else [])
     else u64 (pools s).faultLast)
  else if idx < 0x6900 then (if row < 8 then u32 (poolHeld s (idx - 0x6880) row) else [])
  else u64 (tget 0 (pools s).resp (idx - 0x6900))

/-- A status row of an arbiter (R508). -/
def arbRow (s : State) (a i : Nat) : Bytes :=
  let x := arbAt s a
  let r := (tfind x.reqs i).getD { latest := 0, boost := 0, wait := 0, since := 0 }
  let held := x.holder.map Prod.fst == some i
  u64 (b2n ((tfind x.reqs i).isSome && decide (r.since ≤ s.beat)) * 2 ^ 63 + b2n held * 2 ^ 62 + r.boost * 2 ^ 56
    + r.wait * 2 ^ 44 + unsigned 40 r.latest)

def roArb (s : State) (idx row : Nat) : Bytes :=
  if idx < 0x6C10 then (if row < 3 then arbRow s (idx - 0x6C08) row else [])
  else if idx = 0x6C10 then (if row < 8200 then arbRow s arbDma row else [])
  else if row < 4112 then arbRow s arbLa row else []

/-- `sched.inspect.level` of the selected node. -/
def inspectLevel (s : State) : Bytes :=
  let w := rw s 0x7000 9
  let k := nodeAt s (nodeKey (bits w 31 30) (bits w 16 0))
  u64 (unsigned 64 k.cir) ++ u64 (unsigned 64 k.pir)

/-- `gate.oper` (R429, R430). -/
def gateOper (s : State) (n : Nat) : Nat :=
  let g := gateAt s n
  if g.running then
    2 ^ 63 + g.version * 2 ^ 32 + g.entry * 2 ^ 16
      + (if g.lost then 255 else g.list.getD g.entry 0 / 2 ^ 32 % 256)
  else 0

def roSched (s : State) (idx sub : Nat) : Bytes :=
  if idx = 0x7000 then
    (if sub = 6 then u16 s.buf.schedQ.length else inspectLevel s)
  else u64 (gateOper s (idx - 0x7200))

def roCipher (s : State) (idx sub row : Nat) : Bytes :=
  if idx = 0x7800 then
    (if sub = 2 then (if row < 8192 then u8 (tget KeyEnt.init s.cipher.keys row).len else [])
     else if 9 ≤ row then []
     else if sub = 4 then u8 (cipherUnit s row).state else u64 (cipherUnit s row).fault)
  else if idx = 0x7810 then (if row < 4096 then u64 (pnNext s row) else [])
  else if idx = 0x7820 then (if row < 4096 then u64 (tget 0 s.cipher.iecCtr row) else [])
  else if sub = 8 then u8 (txState s (idx - 0x7900))
  else u16 (sumNat ((portAt s (idx - 0x7900)).staging.map Staged.cells))

/-! ## Host, dictionary, counters, resets (R542, R544, R576, R577, R590, R622) -/

/-- A row of `host.ring.status` (R544). -/
def ringStatus (s : State) (r : Nat) : Bytes :=
  let x := ringAt s r
  let st := if x.state != 0 && x.state != 3 && (fnAt s (ringOwner s r)).frozen then 4 else x.state
  u64 (st * 2 ^ 60 + x.fmt * 2 ^ 58) ++ u64 (x.cons * 2 ^ 32 + x.prod)

/-- Row bytes of a table in a block: its stride, or the largest row where rows vary (R180, R198). -/
def blockStride (r : ObjRow) : Nat :=
  if r.stride != 0 then r.stride else if r.base = 0x4D00 then 132 else 128

/-- Stride of a table in BAR2, in words (R513, R551). -/
def barStride (r : ObjRow) : Nat := ceilDiv (if r.kind = 8 then r.hi else blockStride r) 8

def barRows (r : ObjRow) : Nat := if r.kind = 8 then 1 else r.rows

/-- The tables in BAR2, in the order of the object tables: index, subindex, stride (R513). -/
def bar2Tables : List (Nat × Nat × Nat) :=
  objRows.flatMap fun r =>
    if r.kind = 8 || r.kind = 9 then (List.range r.insts).map fun i => (r.base + i, r.sub, barStride r)
    else []

/-- A row of `host.bar2.map` (R513). -/
def bar2Row (i : Nat) : Bytes :=
  match bar2Tables[i]? with
  | some (idx, sub, stride) =>
    u16 idx ++ u8 sub ++ u8 stride ++ u32 (Config.bar2Window (idx * 256 + sub)).toNat
  | none => []

def roHost (s : State) (idx sub row : Nat) : Bytes :=
  if idx = 0x8000 then
    (if sub = 1 then u32 0x003F1003
     else if sub = 2 then u16 s.host.link
     else if sub = 3 then u8 s.host.vfs
     else if sub = 4 then bar2Row row
     else if sub = 5 then u64 s.host.lastReject
     else u64 (sumNat ((List.range 64).map fun f => b2n (fnAt s f).frozen * 2 ^ f)))
  else if idx < 0x8100 then u64 (fnAt s (idx - 0x8010)).fault
  else if row < 8192 then ringStatus s row else []

/-- Whole seconds after which an open session would end (R564, R577). -/
def idleLeft (s : State) (x : Session) : Nat :=
  let limit := rw s 0x1200 3
  limit - min limit ((s.beat - x.lastBeat) / 1250000000)

def pathCode : MabinPath → Nat
  | .mgmtUdp => 0
  | .inbandUdp => 1
  | .mailbox => 2

def sessionRow (s : State) (n : Nat) : Bytes :=
  match sessionAt s n with
  | none => u64 0
  | some x => u64 ((if x.frozen then 2 else 1) * 2 ^ 60 + x.tier * 2 ^ 58 + x.minor * 2 ^ 56
      + pathCode x.path * 2 ^ 54 + x.cred * 2 ^ 50 + idleLeft s x)

/-- `mabin.cred.present`: the tier of a credential, 0xFF where there is none. -/
def credRow (s : State) (i : Nat) : Bytes :=
  if i = 0 then [3] else match tfind s.mabin.creds i with
    | some c => u8 c.tier
    | none => [0xFF]

/-- Items and rows staged (R571, R576). -/
def stagedItems (s : State) : Nat :=
  s.mabin.staged.length + s.mabin.emptied.length + b2n s.mabin.imageHere + b2n s.mabin.target.isSome

def mboxHead (s : State) : Bytes := s.mabin.mboxOut.headD []

def roIdent (s : State) (idx sub row : Nat) : Bytes :=
  if idx = 0x1000 then
    (if sub = 1 then ascii "Grenkai Semiconductor".toList
     else if sub = 2 then ascii "Scaver 6412".toList
     else if sub = 3 then ascii "GKS6412-B0".toList
     else if sub = 4 then [0xB0]
     else if sub = 5 then u64 Config.idUnique.toNat
     else if sub = 6 then u64 Config.macBase.toNat
     else if sub = 7 then u16 Config.macCount.toNat
     else if sub = 8 then u32 s.sys.firmware.toNat
     else if sub = 9 then u32 Config.bootRom.toNat else u32 Config.dictionaryRevision.toNat)
  else if idx = 0x1100 then
    (if sub = 1 then u16 0x0100 else if sub = 2 then u16 0x0103 else mboxHead s)
  else if idx = 0x1200 then
    (if sub = 2 then (if row < 9 then credRow s row else [])
     else if row < 16 then sessionRow s row else [])
  else if sub = 2 then u8 (s.mabin.holder.getD 0xFF)
  else if sub = 3 then u64 s.mabin.expires
  else if sub = 5 then u64 s.mabin.localResult
  else u32 (stagedItems s)

def roCounter (s : State) (idx sub row : Nat) : Bytes :=
  if idx = 0x8800 then (if row < 9216 then cntWord s row else [])
  else if idx = 0x8810 then (if row < 256 then u64 (tget 0 s.cnt.filtered row) else [])
  else if idx = 0x8820 then u64 s.cnt.sequence
  else if sub = 1 then
    (if row < 262144 then
      cntRow (if rowCounts s row then tget EntryCnt.init s.cnt.entries row else EntryCnt.init)
     else [])
  else if sub = 2 then
    (if row < 262144 then cntRow (tget EntryCnt.init s.cnt.entries (262144 + row)) else [])
  else if row < 65536 then (List.range 6).flatMap fun i => u64 (tget 0 s.cnt.police (6 * row + i))
  else []

/-- A row of `event.log`: the record of R540, then TB0 and the sequence number (R618). -/
def logRowBytes (r : LogRow) : Bytes := eventRecord r.event ++ u64 r.tb0 ++ u64 r.seq

def roSys (s : State) (idx sub row : Nat) : Bytes :=
  if idx = 0x9000 then
    (if sub = 2 then u32 s.sys.last
     else if sub = 3 then u8 s.sys.bootStatus
     else if row < 8 then u32 (natOf (stored s 0x9000 5 row)) else [])
  else if idx = 0x9010 then
    (if sub = 6 then (if row < 8 then u8 (pipeAt s row).power else [])
     else if 3 ≤ row then []
     else if sub = 2 then u8 (supplyShown s row)
     else if sub = 3 then u16 (supplyMv s row) else u32 (supplyAt s row).dips)
  else if idx = 0x9020 then s.sys.capture
  else if idx = 0x9030 then
    (if sub = 1 then rowOf (s.sys.log.map logRowBytes) row else u32 (s.sys.logOver % 2 ^ 32))
  else rowOf ((s.sys.frozenList.take 64).map u32) row

/-! ## Every object -/

/-- The value of a read-only object. -/
def roValue (s : State) (idx sub row : Nat) : Bytes :=
  if idx < 0x1400 then roIdent s idx sub row
  else if idx < 0x2000 then roVersion s idx sub row
  else if idx < 0x3000 then roTime s idx sub row
  else if idx < 0x4000 then roPort s idx sub
  else if idx < 0x5000 then roParse s idx sub row
  else if idx < 0x5800 then roFlow s idx sub row
  else if idx < 0x6000 then roEngine s idx sub
  else if idx < 0x6800 then roBuffer s idx sub row
  else if idx < 0x6C00 then roPool s idx sub row
  else if idx < 0x7000 then roArb s idx row
  else if idx < 0x7400 then roSched s idx sub
  else if idx < 0x8000 then roCipher s idx sub row
  else if idx < 0x8800 then roHost s idx sub row
  else if idx < 0x9000 then roCounter s idx sub row
  else roSys s idx sub row

/-- A row of a search table is present only while it is valid (R202). -/
def shownRow (r : ObjRow) (idx : Nat) (v : Bytes) : Bytes :=
  if r.kind = 9 && !rowRecorded idx r.sub v then [] else v

/-- What a read of an object or row returns; a table's row that is not present is empty. -/
def readValue (s : State) (r : ObjRow) (idx row : Nat) : Bytes :=
  match r.acc with
  | .ro => roValue s idx r.sub row
  | .rw => if idx = 0x9030 then u64 s.sys.logAck else rwRow s idx r.sub row
  | .st => shownRow r idx (cfgRow (curVer s) idx r.sub row)
  | .wo => []

/-- The value that the staging area would give an ST object or row (R565). -/
def stagedRead (s : State) (r : ObjRow) (idx row : Nat) : Bytes :=
  shownRow r idx
    (match tfind (withStaged (curVer s).cfg s.mabin.staged s.mabin.emptied) (keyOf idx r.sub row) with
     | some v => v
     | none => defaultAt idx r.sub row)

end Sys2Proof.Machine
end

