-- ==== Sys2Proof/Machine/Events.lean ====
section
/-! DEFINITION. Messages from the part to Mabin sessions, notifications, event records and beacons (R205
to R207, R540, R554 to R556, R575). -/

namespace Sys2Proof.Machine

/-! ## Messages toward a controller (R555, R556, R562, R564) -/

/-- The IV of a message: session, direction (0 toward the part, 1 from it), zero, counter (R562). -/
def msgIv (n dir ctr : Nat) : Bytes := bytesOf 2 n ++ bytesOf 1 dir ++ [0] ++ bytesOf 8 ctr

/-- A message of session n with its tag (R556). -/
def buildMsg (key : Bytes) (n minor type flags ctr reqid : Nat) (body : Bytes) : Bytes :=
  let m := [1] ++ u8 minor ++ u8 type ++ u8 flags ++ u16 n ++ u16 (body.length + 36) ++ u64 ctr
    ++ u32 reqid ++ body
  m ++ gmac key (msgIv n 1 ctr) m

/-- The longest message of a path (R554). -/
def msgLimit : MabinPath → Nat
  | .mailbox => 4096
  | _ => 1408

/-- Add a message to the mailbox queue and signal its vector; a full queue discards it (R555). -/
def postMbox (s : State) (msg : Bytes) : State :=
  if s.mabin.mboxOut.length < 64 then
    emit { s with mabin := { s.mabin with mboxOut := s.mabin.mboxOut ++ [msg] } }
      (.msix (bits (rw s 0x8010 2) 26 16 + rw s 0x1100 9))
  else count s (cPart 7) 1

/-- The lookaside unit has the code of one more message of a session to compute or verify (R463). -/
def askCode (s : State) (n : Nat) : State := modSession s n fun x => { x with codes := x.codes + 1 }

/-- The code of a session's message is done: its grant ends (R498; log entry 106), a beat's work. -/
def finishCode (s : State) : State :=
  match (arbAt s arbLa).holder with
  | some (n, _, _) => if n < 16 then endGrant (modSession s n fun x => { x with codes := x.codes - 1 }) arbLa else s
  | none => s

/-- A message leaves by its session's path; one longer than the path carries is discarded. -/
def deliverMsg (s : State) (n : Nat) (path : MabinPath) (msg : Bytes) : State :=
  if msgLimit path < msg.length then count s (cPart 8) 1
  else match path with
    | .mailbox => postMbox s msg
    | _ => emit s (.mabin n path msg)

/-- The counter at which a session holds its outgoing messages (R564). -/
def ctrEnd : Nat := 2 ^ 64 - 1

/-- Send a message of a session under its next counter, or hold it (R562, R564). -/
def sendMsg (s : State) (n type flags reqid : Nat) (body : Bytes) : State :=
  match sessionAt s n with
  | none => s
  | some x =>
    if x.txCtr = ctrEnd then
      modSession s n fun x => { x with held := x.held ++ [u8 type ++ u8 flags ++ u32 reqid ++ body] }
    else
      let msg := buildMsg x.key n x.minor type flags x.txCtr reqid body
      deliverMsg (askCode (modSession s n fun x => { x with txCtr := x.txCtr + 1 }) n) n x.path msg

/-- The messages that a session held go out after its rekey (R564). -/
def sendHeld (s : State) (n : Nat) : State :=
  match sessionAt s n with
  | none => s
  | some x => x.held.foldl (fun s m => sendMsg s n (byteAt m 0) (byteAt m 1) (natAt m 2 4) (m.drop 6))
      (modSession s n fun x => { x with held := [] })

/-! ## Notifications (R575) -/

/-- The head of an item (R559). -/
def itemHead (idx sub kind row len : Nat) : Bytes :=
  u16 idx ++ u8 sub ++ u8 kind ++ u32 row ++ u16 len ++ [0, 0]

def itemOf (idx sub kind row : Nat) (v : Bytes) : Bytes := itemHead idx sub kind row v.length ++ v

/-- A session's oldest notification leaves, one each beat (log entry 23). -/
def sendNotify (s : State) (n : Nat) : State :=
  match sessionAt s n with
  | none => s
  | some x =>
    match x.notifyQ with
    | [] => s
    | m :: rest =>
      if x.txCtr = ctrEnd then s
      else sendMsg (modSession s n fun x => { x with notifyQ := rest }) n 9 0 (natAt m 0 4) (m.drop 4)

def sendNotifies (s : State) : State := (tkeys s.mabin.sessions).foldl sendNotify s

/-- The number under which a subscription names an object. -/
def subName (idx sub : Nat) : Nat := idx * 256 + sub

def beaconName : Nat := subName 0x1500 0x0B

/-- A subscribed object whose period divides the tick (R575). -/
def subDue (s : State) (b : Sub) : Bool :=
  b.kind == 2 && b.a != beaconName && b.b != 0 && s.rm.tick % b.b == 0

/-- The value that a subscription watches. -/
def subValue (s : State) (b : Sub) : Option (ObjRow × Bytes) :=
  (lookupObj (b.a / 256) (b.a % 256)).map fun r => (r, readValue s r (b.a / 256) noRow)

/-- Notify one subscription of a session when its value differs from the last one notified. -/
def tellObject (s : State) (n : Nat) (b : Sub) : State :=
  match subValue s b, sessionAt s n with
  | some (r, v), some x =>
    if subDue s b && b.last != some v then
      notify s n { x with subs := x.subs.map fun c => if c = b then { c with last := some v } else c }
        (itemOf (b.a / 256) (b.a % 256) r.kind noRow v)
    else s
  | _, _ => s

/-- Work of a boundary for the object notifications of session n. -/
def todoNotify (n : Nat) : Nat := 16 + n

def objectNotifies (s : State) (n : Nat) : State :=
  match sessionAt s n with
  | none => s
  | some x => x.subs.foldl (fun s b => tellObject s n b) s

def doneTodo (s : State) (w : Nat) : State :=
  { s with rm := { s.rm with todo := s.rm.todo.filter (· != w) } }

def notifyWork (s : State) (n : Nat) : State :=
  if s.rm.todo.contains (todoNotify n) then objectNotifies (doneTodo s (todoNotify n)) n else s

/-- OBJECT_NOTIFY (R575): at a boundary with a subscribed object due. -/
def rowObjectNotify (sess : Nat) (s : State) : State :=
  whenRun s fun s => notifyWork s sess

/-! ## Event records (R540) -/

/-- Write a record to the event ring when it has room there; the grant ends with it. -/
def ringRecord (s : State) (e : Event) (f : State → State) : State :=
  match byteRoom s eventRing 64 with
  | none => s
  | some (a, b) => endGrant (writeRecord (f s) eventRing (eventRecord e) a b) arbDma

/-- The record that reports the events lost before it (R540, R619). -/
def lostEvent (s : State) : Event :=
  { code := evEventsLost, source := 0, tick := s.rm.tick, beat := s.beat, values := [s.sys.lost] }

/-- The next record: EVENTS_LOST after a loss, else the oldest queued event. -/
def writeEvent (s : State) : State :=
  if s.sys.lost != 0 then
    ringRecord s (lostEvent s) fun t =>
      tellSessions { t with sys := { t.sys with lost := 0 } } (lostEvent s)
  else match s.sys.evq with
    | [] => s
    | e :: rest => ringRecord s e fun t => { t with sys := { t.sys with evq := rest } }

/-- EVENT_RECORD_WRITE (R540): with the DMA engine's grant. -/
def rowEventRecordWrite (s : State) : State :=
  whenRun s fun s => guardS (ringLive s eventRing && holds s arbDma 8193) s writeEvent

/-! ## Beacons (R205 to R207, R362, R370) -/

def todoBeacon : Nat := 1

/-- Whether any bank is in legacy mode. -/
def legacyBanks (s : State) : Bool := (List.range 128).any fun g => bankLegacy s g

/-- First bytes of the image digest of a cluster; zeros when it holds no image. -/
def clusterMark (s : State) (c : Nat) : Bytes :=
  match clusterImage (curVer s) c with
  | some r => (sha384 (imgDigestInput r)).take 8
  | none => zeros 8

def currentTick (s : State) : Nat :=
  match s.ver.history with
  | h :: _ => if h.num = (curVer s).num then h.commitTick else 0
  | [] => 0

/-- The beacon payload (R207). -/
def beaconPayload (s : State) : Bytes :=
  let want := natOf (cfgRow (curVer s) 0x1500 2 noRow)
  u16 1 ++ u16 576 ++ u64 Config.idUnique.toNat ++ u64 s.rm.tick ++ u16 (curVer s).num
    ++ u8 (s.ver.current * 64 + rmModeCode s.rm.mode * 16)
    ++ u8 (b2n (want != 0) * 128 + b2n (s.ver.compared == some false) * 64 + b2n (legacyBanks s) * 32
        + b2n (!s.ver.pending.isEmpty) * 16)
    ++ u64 (configDigest s) ++ u64 want ++ u64 (currentTick s) ++ u16 0x0103 ++ u8 3 ++ u8 3
    ++ u32 s.sys.firmware.toNat ++ graphId s ++ (List.range 64).flatMap (clusterMark s)

/-- The frame form before its FCS (R206). -/
def beaconFrame (s : State) : Bytes :=
  let vlan := rw s 0x1500 9
  bytesOf 6 (rw s 0x1500 7) ++ bytesOf 6 Config.macBase.toNat
    ++ (if vlan = 0 then [] else u16 0x8100 ++ u16 vlan) ++ u16 (rw s 0x1500 8) ++ s.beacon

/-- The place in the list of beacons of one that waits to be built for a port. -/
def waitingBeacon (n : Nat) : Nat × Nat := (256 + n, 0)

/-- A beacon of a port that is still queued when the next is due is replaced, and counted as missed;
so is one that still waits to be built (R206, R370). -/
def replaceBeacon (s : State) (n : Nat) : State :=
  let waits := s.buf.beacons.contains (waitingBeacon n)
  let queued := s.buf.beacons.filter fun b => b.1 == n &&
    (match pktAt s b.2 with
     | some k => k.stage == .queued || k.stage == .toEgress
     | none => false)
  let s := queued.foldl (fun s b => discardPkt s b.2) s
  let s := count s (cPart 4) (b2n waits + queued.length)
  { s with buf := { s.buf with
      beacons := (s.buf.beacons.filter fun b => b.1 != n && b.1 != 256 + n) ++ [waitingBeacon n] } }

/-- Build the beacon that waits for a port, while node 135 is not stopped. -/
def buildBeacon (s : State) (b : Nat × Nat) : State :=
  if b.1 < 256 || partStopped s then s
  else
    let n := b.1 - 256
    match originate s n (rw s 0x1500 10) (beaconFrame s) with
    | none => s
    | some t => { t with buf := { t.buf with
        beacons := t.buf.beacons.map fun c => if c = b then (n, s.nextPkt) else c } }

def buildBeacons (s : State) : State := s.buf.beacons.foldl buildBeacon s

/-- Notify every session that subscribes to the beacon (R205, R575). -/
def tellBeacon (s : State) : State :=
  s.mabin.sessions.foldl (fun s x =>
    if x.2.subs.any fun b => b.kind == 2 && b.a == beaconName then
      notify s x.1 x.2 (itemOf 0x1500 0x0B 8 noRow s.beacon)
    else s) s

/-- The payload is built and sent in the forms that `etwen.mode` selects. -/
def sendBeacon (s : State) : State :=
  let s := { s with beacon := beaconPayload s }
  let s := if bit (rw s 0x1500 5) 0 then
      buildBeacons (((List.range 130).filter (bitOf (rwBytes s 0x1500 6))).foldl replaceBeacon s)
    else s
  if bit (rw s 0x1500 5) 1 then tellBeacon s else s

def beaconWork (s : State) : State :=
  if s.rm.todo.contains todoBeacon then sendBeacon (doneTodo s todoBeacon) else s

/-- ETWEN_BEACON (R205): at a boundary whose tick is a multiple of `etwen.period`. -/
def rowEtwenBeacon (s : State) : State :=
  whenRun s beaconWork

/-- BUF_CELLS_FREE_LOW_READ (R392): the read answers and resets the object; it is a read of the local session
(R512, R593). -/
def lowReset (s : State) : State := { s with buf := { s.buf with cellsLow := s.buf.cellsFree } }

def rowBufCellsFreeLowRead (s : State) : State :=
  whenRun s fun s => lowReset (emit (countAccess s .bar 1 0x6000 2) (.barRead s.buf.cellsLow))

end Sys2Proof.Machine
end

