-- ==== Sys2Proof/Machine/Dictionary.lean ====
section
/-! DEFINITION. The effect of a write on every RW and WO object of the dictionary, as its chapter states it;
the local session's lock commands; staging (R547, R552, R553, R566, R569 to R573). -/

namespace Sys2Proof.Machine

/-! ## The staging lock (R569, R570, R573) -/

/-- The lock is taken, or its lease renewed. -/
def takeLock (s : State) (who : Nat) : State :=
  { s with mabin := { s.mabin with holder := some who, expires := leaseEnd s } }

/-- Remaining lease in ms. -/
def leaseLeft (s : State) : Nat := (s.mabin.expires - s.beat) / 1250000

/-- Holder in [31:24], 0xFF when there is none. -/
def holderDetail (s : State) : Nat := s.mabin.holder.getD 0xFF * 2 ^ 24

/-- LOCK: the state, the error code and the detail of R558 (of an acceptance: the lease in ms). -/
def lockBy (s : State) (who : Nat) : State × Nat × Nat :=
  let s := lockExpiry s
  match s.mabin.holder with
  | none => (takeLock s who, 0, rw s 0x1300 1)
  | some h =>
    if h = who then (takeLock s who, 0, rw s 0x1300 1)
    else (s, errLocked, holderDetail s + min (leaseLeft s) (2 ^ 24 - 1))

def unlockBy (s : State) (who : Nat) : State × Nat × Nat :=
  let s := lockExpiry s
  if s.mabin.holder = some who then (freeLock s, 0, 0) else (s, errNotLocked, holderDetail s)

/-- COMMIT (R572): the lock, something staged, the checks of R189, then the seal. -/
def commitBy (s : State) (who target : Nat) (unlock : Bool) : State × Nat × Nat :=
  let s := lockExpiry s
  if s.mabin.holder != some who then (s, errNotLocked, holderDetail s)
  else if !anyStaged s then (s, errValue, 0)
  else match sealVersion s target with
    | (t, .ok num) => (if unlock then freeLock t else t, 0, num)
    | (t, .error r) => (t, errCommit, r)

/-! ## The local session's commands (R552, R553) -/

def localAnswer (op : Nat) (unlock : Bool) (r : State × Nat × Nat) : State :=
  { r.1 with mabin := { r.1.mabin with
      localResult := op * 2 ^ 60 + b2n unlock * 2 ^ 59 + r.2.1 * 2 ^ 48 + r.2.2 } }

/-- A write of `mabin.local.cmd`. -/
def localCmd (w : Nat) (s : State) : Option State :=
  let op := bits w 63 60
  let unlock := bit w 59
  if op = 1 then some (localAnswer 1 unlock (lockBy s 16))
  else if op = 2 then some (localAnswer 2 unlock (unlockBy s 16))
  else if op = 3 then some (localAnswer 3 unlock (commitBy s 16 (bits w 47 0) unlock))
  else none

def localWrite (w : Nat) (s : State) : State :=
  writeCmd s .bar 0x1300 4 noRow (bytesOf 8 w) (localCmd w)

/-- LOCAL_LOCK (R553). -/
def rowLocalLock (s : State) : State := localWrite (2 ^ 60) s

/-- LOCAL_UNLOCK (R553). -/
def rowLocalUnlock (s : State) : State := localWrite (2 * 2 ^ 60) s

/-- LOCAL_COMMIT (R553). -/
def rowLocalCommit (target : Nat) (unlock : Bool) (s : State) : State :=
  localWrite (3 * 2 ^ 60 + b2n unlock * 2 ^ 59 + target % 2 ^ 48) s

/-- LOCK_EXPIRED (R570). -/
def rowLockExpired (s : State) : State :=
  whenRun s lockExpiry

/-! ## Credentials (R560) -/

/-- A write of `mabin.cred.write`: slot 1 to 8, tier 0 to 2, a key or zeros. -/
def credWrite (v : Bytes) (s : State) : Option State :=
  let k := byteAt v 0
  let key := slice v 4 32
  if k = 0 || 8 < k || 2 < byteAt v 1 then none
  else some { s with mabin := { s.mabin with
    creds := if natOf key = 0 then terase s.mabin.creds k
      else tins s.mabin.creds k { tier := byteAt v 1, key := key } } }

/-- MABIN_CRED_WRITE (R560, R567). -/
def rowMabinCredWrite (src : Origin) (value : Bytes) (s : State) : State :=
  writeCmd s src 0x1200 1 noRow value (credWrite value)

/-! ## Values that a chapter checks -/

/-- A write, kept when the state that it leaves passes a check of every value in force with it. -/
def setIf (idx sub row : Nat) (v : Bytes) (ok : State → Bool) (s : State) : Option State :=
  let t := setRw s idx sub row v
  if ok { t with held := [] } then some t else none

/-- A write whose value passes a check. -/
def setWhen (c : Bool) (idx sub row : Nat) (v : Bytes) (s : State) : Option State :=
  if c then some (setRw s idx sub row v) else none

/-- A write of 1 to a BOOL of WO access acts; a write of 0 does nothing. -/
def onOne (v : Bytes) (f : State → Option State) (s : State) : Option State :=
  if natOf v = 1 then f s else some s

/-- The pipe is OFF (R612). -/
def pipeOff (s : State) (p : Nat) : Bool := (pipeAt s p).power == 1

/-- The lane signals PAM4: by the mode in use of its enabled port, and for a lane of a disabled port by the
configured mode whose footprint holds it (DESIGN CHOICE, log entry 149). -/
def lanePam4 (s : State) (l : Nat) : Bool :=
  match portOfLane s l with
  | some n => modePam4 (usedMode s n)
  | none => ((List.range 8).map (l - ·)).any fun n =>
      (footprint s n).contains l && modePam4 (portMode s n)

/-- `lane.tx.eq` (R107): the sum of the taps in use, and main not negative. -/
def eqOk (s : State) (l v : Nat) : Bool :=
  let tap := fun i => (signed 8 (v / 256 ^ i % 256)).natAbs
  decide (tap 0 + tap 1 + tap 2 + (if lanePam4 s l then tap 3 else 0) ≤ 128)
    && decide (v / 256 % 256 < 128)

/-- On-chip bytes of the eight pools with the counts last written (R396). -/
def localBytes (s : State) : Nat :=
  sumNat ((List.range 8).map fun p => natOf (stored s 0x6800 1 p) * poolSize p)

/-- The checks of a write of `pool.local.count` (R396). -/
def localCountOk (s : State) : Bool :=
  decide (localBytes s ≤ 16777216)
    && (List.range 8).all fun p => (regionsOf s p).all fun r =>
      decide (natOf (stored s 0x6800 1 p) ≤ r.first)

/-- The index ranges of two regions lie apart. -/
def regionsApart (a b : Region) : Bool :=
  a.pool != b.pool || b.count == 0 || decide (a.first + a.count ≤ b.first)
    || decide (b.first + b.count ≤ a.first)

/-- A row of `pool.host.region` has an allocated buffer. -/
def regionInUse (s : State) (r : Region) : Bool :=
  !(trange (pools s).alloc (handleOf r.pool r.first) (handleOf r.pool (r.first + r.count))).isEmpty

/-- The checks of a row of `pool.host.region` (R397). -/
def regionOk (s : State) (i : Nat) (v : Bytes) : Bool :=
  let r := regionOf v
  !regionInUse s (regionOf (stored s 0x6800 3 i))
    && (r.count == 0
      || (decide (r.count ≤ 1048576) && r.base % poolSize r.pool == 0
        && decide (localCount s r.pool ≤ r.first) && decide (r.first + r.count ≤ 0x1FFFFFFF)
        && ((List.range 64).all fun j =>
          j == i || regionsApart r (regionOf (stored s 0x6800 3 j)))
        && fnEnabled s r.fn))

/-- Minimum of an owner within its ceiling (R399, R409). -/
def boundsOk (s : State) (o p : Nat) : Bool := decide (ownerMin s o p ≤ ownerMax s o p)

/-- A collector header fits its destination (R359). -/
def collectorOk (s : State) : Bool :=
  let n := (rwBytes s 0x5060 5).length
  rw s 0x5060 2 == 0 || n == 42 || n == 62

/-- A requester row (R506, R509): not a reserved one, slack 1 or more where it is used. -/
def requesterOk (idx row : Nat) (v : Bytes) : Bool :=
  !(idx == 0x6C10 && decide (8197 ≤ row))
    && (v == [] || (idx == 0x6C00 && decide (row < 2)) || natOf v % 65536 != 0)

/-- A port node that a buffer object has an instance for (R392). -/
def bufNodeOk (n sub : Nat) : Bool :=
  if sub = 0x14 then decide (n ≤ 133) else if sub = 0x15 then decide (n ≤ 129)
  else n != 134

/-- No ring of an OFF pipe is enabled (R612). -/
def ringPipeOn (s : State) (r : Nat) (row : Bytes) : Bool :=
  !(rowEnable row && decide (r < 8192) && pipeOff s (2 + r % 4096 / 1024))

/-! ## Effects by range of the dictionary (R550) -/

/-- Identity, sessions, versions, beacon. -/
def writeIdent (idx sub row : Nat) (v : Bytes) (s : State) : Option State :=
  let n := natOf v
  if idx = 0x1200 && sub = 1 then credWrite v s
  else if idx = 0x1300 && sub = 4 then localCmd n s
  else if idx = 0x1400 then cancelVersion n s
  else if idx = 0x1500 && sub = 7 then setWhen (bit n 40 && decide (n < 2 ^ 48)) idx sub row v s
  else some (setRw s idx sub row v)

def writeTb (t sub : Nat) (v : Bytes) (s : State) : Option State :=
  let n := natOf v
  if sub = 1 then (if n = 1 then tbEnable t s else tbDisable t s)
  else if sub = 3 then tbSetRate t n s
  else if sub = 4 then tbStep t n s
  else if sub = 6 then tbSlew t n s
  else tbSetSlewPpm t v s

/-- Time bases, pins, stamps, ticks. -/
def writeTime (idx sub row : Nat) (v : Bytes) (s : State) : Option State :=
  let n := natOf v
  if idx < 0x2010 then writeTb (idx - 0x2000) sub v s
  else if idx < 0x2060 then toutWrite (idx - 0x2040) sub n s
  else if idx < 0x2100 then
    (if sub = 4 then tinAck (idx - 0x2060) n s else some (setRw s idx sub row v))
  else if idx < 0x2200 then ptpWrite (idx - 0x2100) sub v s
  else if idx = 0x2800 && sub ≤ 3 then some (soonDo (setRw s idx sub row v) .tickLost)
  else if idx = 0x2A00 && sub = 1 then setWhen (n % 32 == 0) idx sub row v s
  else some (setRw s idx sub row v)

def writeLane (l sub : Nat) (v : Bytes) (s : State) : Option State :=
  let n := natOf v
  if sub = 2 then lanePower l n s
  else if sub = 7 then setWhen (eqOk s l n) (0x3000 + l) 7 noRow v s
  else if sub = 0x0B then (if n = 1 then searchEnter l s else searchExit l s)
  else if sub = 0x0C then searchSlip l n s
  else some (setRw s (0x3000 + l) sub noRow v)

/-- `port.eee` is accepted for modes 2, 3 and 5 without an enabled gate list (R112). -/
def eeeOk (s : State) (n : Nat) : Bool :=
  [2, 3, 5].contains (portMode s n) && cfg (curVer s) (0x7200 + n) 1 == 0

def writePort (n sub : Nat) (v : Bytes) (s : State) : Option State :=
  let x := natOf v
  let off := !portEnabled s n
  if sub = 1 then (if off && modeAllowed n x then setIf (0x3100 + n) sub noRow v reservesOk s else none)
  else if sub = 2 then (if x = 1 then portEnableEff n s else portDisableEff n s)
  else if sub = 3 then setWhen (off && [0, 1, 2, 3, 15].contains x) (0x3100 + n) sub noRow v s
  else if sub = 4 then setWhen off (0x3100 + n) sub noRow v s
  else if sub = 0x0B then setWhen (x == 0 || eeeOk s n) (0x3100 + n) sub noRow v s
  else if sub = 0x0C then setIf (0x3100 + n) sub noRow v reservesOk s
  else some (setRw s (0x3100 + n) sub noRow v)

/-- Banks and legacy rows. -/
def writeSearch (idx sub row : Nat) (v : Bytes) (s : State) : Option State :=
  if idx < 0x4900 then setBankMode (idx - 0x4800) (natOf v) s
  else if 0x4D00 ≤ idx && idx < 0x4D08 then legacyPush (idx - 0x4D00) v s
  else some (setRw s idx sub row v)

/-- Flow tables and commit (R218, R251, R343, R359). -/
def writeFlow (idx sub row : Nat) (v : Bytes) (s : State) : Option State :=
  let n := natOf v
  if idx = 0x5000 && sub = 1 then
    setWhen (n != 0 && (List.range 8).all fun p => !(bit n p && pipeOff s p)) idx sub row v s
  else if idx = 0x501C && sub = 1 then
    (if slotPipe n < 8 then some (pushCmd s (slotPipe n) 1 n) else some s)
  else if idx = 0x5040 && sub = 7 then
    some (pushCmd s (steer s (natAddr s (bits n 19 16)) (bits n 15 0)) 2 (n % 2 ^ 20))
  else if idx = 0x5060 then setIf idx sub row v collectorOk s
  else some (setRw s idx sub row v)

/-- Fuses by a plain write: the read-back shows what was programmed (R308, R319). -/
def enrolWrite (v : Bytes) (s : State) : Option State :=
  let k := byteAt v 0
  if k = 0 || 4 < k || slotTaken s k then none
  else some (queueFuse s { slot := k, hash := slice v 1 48, badRead := none })

def revokeWrite (k : Nat) (s : State) : Option State :=
  if k = 0 || 4 < k || !slotTaken s k || slotRevoked s k then none
  else some (queueFuse s { slot := k, hash := [], badRead := none })

/-- Engines and images; the two staged writes need the lock before they come here. -/
def writeEngine (idx sub row : Nat) (v : Bytes) (s : State) : Option State :=
  if idx = 0x5800 then
    (if sub = 1 then stageImage s v true
     else if sub = 2 then some { s with mabin := { s.mabin with target := some (natOf v) } }
     else if sub = 5 then enrolWrite v s
     else if sub = 6 then revokeWrite (natOf v) s
     else some (setRw s idx sub row v))
  else onOne v (fun s => some (deferWrite s (keyOf idx sub noRow) v)) s

/-- Buffer objects (R371, R392, R393). -/
def writeBuffer (idx sub row : Nat) (v : Bytes) (s : State) : Option State :=
  let n := natOf v
  if idx = 0x6000 then
    (if sub = 4 then some (setRw s idx sub row v)
     else if sub = 5 then setWhen (decide (natOf (stored s 0x6000 4 noRow) < n)) idx sub row v s
     else setIf idx sub row v reservesOk s)
  else if !bufNodeOk (idx - 0x6100) sub then none
  else if sub = 0x0B then setWhen (decide (n < natOf (stored s idx 0x0A noRow))) idx sub row v s
  else if [1, 2, 7, 8, 9, 0x0D].contains sub then setIf idx sub row v reservesOk s
  else some (setRw s idx sub row v)

/-- A request of function f in the layout of `pool.req` (R403). -/
def poolWord (f w : Nat) (s : State) : Option State :=
  some (takeReq { owner := ownerOfFn f, op := bits w 63 62, seq := bits w 61 48, len := bits w 46 32,
                  handle := bits w 31 0, step := none } s)

/-- Pool objects (R396 to R409). -/
def writePool (idx sub row : Nat) (v : Bytes) (s : State) : Option State :=
  if idx = 0x6800 then
    (if sub = 1 then setIf idx sub row v localCountOk s
     else if regionOk s row v then setIf idx sub row v minimaOk s else none)
  else if idx < 0x6900 then
    let o := idx - 0x6880
    (if sub = 5 then reclaim o v s
     else if sub = 1 then setIf idx sub row v minimaOk s
     else setIf idx sub row v (fun t => minimaOk t && boundsOk t o row) s)
  else poolWord (idx - 0x6900) (natOf v) s

/-- Arbiter objects (R503, R505, R509). -/
def writeArb (idx sub row : Nat) (v : Bytes) (s : State) : Option State :=
  if row = noRow then some (setRw s idx sub row v)
  else setWhen (requesterOk idx row v) idx sub row v s

/-- Scheduling and policing (R427, R433 to R435, R612). -/
def writeSched (idx sub row : Nat) (v : Bytes) (s : State) : Option State :=
  if idx = 0x7000 then
    (if sub ≤ 4 then schedRow (sub - 1) row v s
     else if sub = 5 then schedClear (natOf v) s else some (setRw s idx sub row v))
  else if idx < 0x7200 then
    setWhen (decide (-32 ≤ signed 32 (natOf v)) && decide (signed 32 (natOf v) ≤ 63)) idx sub row v s
  else
    setWhen (policeRowOk v && (policeMode v == 0 || !pipeOff s (policerPipe row))) idx sub row v s

/-- Cipher objects (R441 to R445, R467, R470). -/
def writeCipher (idx sub row : Nat) (v : Bytes) (s : State) : Option State :=
  let n := natOf v
  if idx = 0x7800 then
    (if sub = 1 then keyWrite v s else if sub = 5 then some (startTests s n)
     else some (setRw s idx sub row v))
  else if idx = 0x7810 then setWhen (saRowOk s row v) idx sub row v s
  else if idx = 0x7820 then setWhen (iecRowOk v) idx sub row v s
  else if sub = 1 || sub = 5 then
    setWhen (!([1, 9, 10].contains (portMode s (idx - 0x7900)))) idx sub row v s
  else if sub = 4 then setWhen (n != 0x88E5) idx sub row v s
  else some (setRw s idx sub row v)

/-- Number of the ring that an object and row of 0x8100 hold. -/
def ringOf (sub row : Nat) : Nat :=
  if sub = 1 then row else if sub = 2 then txRing row else if sub = 4 then cmdRing row
  else if sub = 5 then cplRing row else if sub = 6 then dumpRing else eventRing

/-- Windows of 2^12 to 2^64 bytes, or none (R542). -/
def windowOk (v : Bytes) : Bool :=
  let n := natOf v % 128
  v == [] || n == 0 || (decide (12 ≤ n) && decide (n ≤ 64))

/-- A block of vectors within 0 to 2,047 (R523). -/
def vectorsOk (n : Nat) : Bool := decide (bits n 26 16 + bits n 11 0 ≤ 2048)

def writeHost (idx sub row : Nat) (v : Bytes) (s : State) : Option State :=
  if idx = 0x8100 then
    let r := ringOf sub row
    (if ringPipeOn s r (if v = [] then zeros 32 else v) then ringRowWrite r v s else none)
  else if sub = 1 then setWhen (windowOk v) idx sub row v s
  else setWhen (vectorsOk (natOf v)) idx sub row v s

def writeCounter (idx sub row : Nat) (v : Bytes) (s : State) : Option State :=
  if idx = 0x8800 && sub = 2 then overflowClear (natOf v) s
  else if idx = 0x8810 then (if sub = 1 then filterSelect row v s else filterChain v s)
  else some (setRw s idx sub row v)

/-- Resets, power, debug, faults (R616, R618, R621, R622). The boot image is taken only by the boot ROM
(R606), so a write while the part runs leaves nothing. -/
def writeSys (idx sub row : Nat) (v : Bytes) (s : State) : Option State :=
  let n := natOf v
  if idx = 0x9000 then (if sub = 1 then resetCmd n s else some s)
  else if idx = 0x9010 then
    (if sub = 5 then pipeOffWrite n s
     else setWhen (v == [] || (decide (40 ≤ n) && decide (n ≤ 70))) idx sub row v s)
  else if idx = 0x9020 then
    (if sub = 1 then onOne v (fun s => some (startFreeze s 2 0)) s else some (setRw s idx sub row v))
  else if idx = 0x9030 then logAckWrite n s
  else askRelease n s

/-- The effect of a write on an object: none is a value that its chapter rejects. Writes of
`mabin.mbox.in` are the mailbox's own (R555). -/
def writeValue (idx sub row : Nat) (v : Bytes) (s : State) : Option State :=
  if idx < 0x2000 then writeIdent idx sub row v s
  else if idx < 0x3000 then writeTime idx sub row v s
  else if idx < 0x3100 then writeLane (idx - 0x3000) sub v s
  else if idx < 0x4000 then writePort (idx - 0x3100) sub v s
  else if idx < 0x5000 then writeSearch idx sub row v s
  else if idx < 0x5800 then writeFlow idx sub row v s
  else if idx < 0x6000 then writeEngine idx sub row v s
  else if idx < 0x6800 then writeBuffer idx sub row v s
  else if idx < 0x6C00 then writePool idx sub row v s
  else if idx < 0x7000 then writeArb idx sub row v s
  else if idx < 0x7800 then writeSched idx sub row v s
  else if idx < 0x8000 then writeCipher idx sub row v s
  else if idx < 0x8800 then writeHost idx sub row v s
  else if idx < 0x9000 then writeCounter idx sub row v s
  else writeSys idx sub row v s

/-- Emptying an RW table removes each of its present rows (R559). -/
def emptyRows (idx sub : Nat) (r : ObjRow) (s : State) : Option State :=
  (presentRows s.objs r idx).foldl (fun (o : Option State) i => o.bind (writeValue idx sub i [])) (some s)

/-- A write or a removal on any object: `mbox` is what the mailbox does with a message. -/
def writeAny (mbox : Bytes → State → State) (idx sub row : Nat) (v : Bytes) (s : State) :
    Option State :=
  match lookupObj idx sub with
  | none => none
  | some r =>
    if idx = 0x1100 && sub = 7 then some (mbox v s)
    else if r.kind = 9 && row = noRow then emptyRows idx sub r s
    else writeValue idx sub row v s

/-! ## Staging (R547, R552, R566, R571) -/

/-- Objects whose writes join the staging area though they are not ST (R310, R568). -/
def joinsStaging (idx sub : Nat) : Bool := idx == 0x5800 && (sub == 1 || sub == 2)

/-- Stage a value, a row, a removal or the emptying of a table; none is a value that its chapter
rejects. -/
def stageValue (idx sub row : Nat) (v : Bytes) (s : State) : Option State :=
  if joinsStaging idx sub then writeEngine idx sub row v s
  else match lookupObj idx sub with
    | none => none
    | some r =>
      if r.kind = 9 && row = noRow then some (stageEmpty s idx sub)
      else if stagedValueOk idx sub row v then some (stageRow s idx sub row v) else none

/-- A staged write's error, 0 if none: the lock, then the object table's checks. -/
def stageError (s : State) (src : Origin) (idx sub row : Nat) (v : Bytes) : Nat :=
  if s.mabin.holder != some (originNum src) then errNotLocked else writeError s src idx sub row v

/-- A write of an ST object or of one that joins the staging area by the local session (R552). -/
def stageBy (s : State) (src : Origin) (idx sub row : Nat) (v : Bytes) : State :=
  if (tierOf s src).isNone then s
  else
    let s := renewLease (lockExpiry s) (originNum src)
    let e := stageError s src idx sub row v
    if e != 0 then rejectWrite s src idx sub e
    else match stageValue idx sub row v s with
      | some t =>
        filtered t 2 ((tierOf s src).getD 0) (originMasters src) (idx * 256 + sub) none 1
      | none => rejectWrite s src idx sub errValue

/-- The object is staged rather than written. -/
def isStaged (idx sub : Nat) : Bool :=
  joinsStaging idx sub || (match lookupObj idx sub with
    | some r => r.acc == .st
    | none => false)

/-- A write by any sender: staged or written as its object's access says. A session writes an ST object
only by STAGE (R558 ACCESS). -/
def anyWrite (mbox : Bytes → State → State) (s : State) (src : Origin) (idx sub row : Nat)
    (v : Bytes) : State :=
  if isStaged idx sub then
    (match src with
     | .bar => stageBy s src idx sub row v
     | .sess _ =>
       if joinsStaging idx sub then stageBy s src idx sub row v
       else rejectWrite s src idx sub errAccess)
  else writeBy s src idx sub row v (writeAny mbox idx sub row v)

end Sys2Proof.Machine
end

