-- ==== Sys2Proof/Machine/Mabin.lean ====
section
/-! DEFINITION. The Mabin protocol: authentication, sessions, requests and answers (R554 to R575). -/

namespace Sys2Proof.Machine

/-! ## The parts of a message (R556, R557) -/

def msgType (m : Bytes) : Nat := byteAt m 2
def msgFlags (m : Bytes) : Nat := byteAt m 3
def msgRekey (m : Bytes) : Bool := bit (msgFlags m) 3
def msgClose (m : Bytes) : Bool := bit (msgFlags m) 4
def msgMore (m : Bytes) : Bool := bit (msgFlags m) 5
def msgSess (m : Bytes) : Nat := natAt m 4 2
def msgCtr (m : Bytes) : Nat := natAt m 8 8
def msgReq (m : Bytes) : Nat := natAt m 16 4
def msgSigned (m : Bytes) : Bytes := m.take (m.length - 16)
def msgTag (m : Bytes) : Bytes := m.drop (m.length - 16)
def msgBody (m : Bytes) : Bytes := (msgSigned m).drop 20

/-- A HELLO that opens a session. -/
def isOpening (m : Bytes) : Bool :=
  msgType m == 1 && msgSess m == 0xFFFF && !msgRekey m && !msgClose m

/-! ## Answers (R558) -/

/-- The body that holds a code, an item number and a detail. -/
def codeBody (code item detail : Nat) : Bytes := u8 code ++ u8 item ++ [0, 0] ++ u32 detail

/-- What a request comes to: the state and an answer's body, or an error: code, item, detail. -/
inductive Reply where
  | good (s : State) (body : Bytes)
  | bad (code item detail : Nat)

/-- Detail of an error that carries the holder, the tier required or the highest version (R558). -/
def errDetail (s : State) (idx sub err : Nat) : Nat :=
  if err = errNotLocked then holderDetail s
  else if err = errTier then ((lookupObj idx sub).map ObjRow.tier).getD 0
  else 0

def versionError : Reply := .bad errVersion 0 0x0103

/-- Send the answer of a request of session n. -/
def answer (s : State) (n : Nat) (m : Bytes) : Reply → State
  | .good t body => sendMsg t n (msgType m) 0x80 (msgReq m) body
  | .bad code item detail =>
    sendMsg s n (msgType m) 0xC0 (msgReq m) (codeBody code item detail)

/-! ## Items (R559) -/

structure Item where
  idx : Nat
  sub : Nat
  kind : Nat
  row : Nat
  staged : Bool
  value : Bytes
  deriving DecidableEq, Repr

/-- The items of a body; none when the list overruns it. -/
def parseItems : Nat → Bytes → Option (List Item)
  | 0, _ => none
  | fuel + 1, b =>
    if b = [] then some []
    else
      let len := natAt b 8 2
      if b.length < 12 || b.length < 12 + len then none
      else
        let i : Item := { idx := natAt b 0 2, sub := byteAt b 2, kind := byteAt b 3, row := natAt b 4 4,
                          staged := byteAt b 11 == 1, value := slice b 12 len }
        (parseItems fuel (b.drop (12 + 4 * ceilDiv len 4))).map fun l => i :: l

def itemsOf (m : Bytes) : Option (List Item) :=
  parseItems ((msgBody m).length + 1) (msgBody m)

/-! ## READ (R548, R558, R559, R565) -/

/-- The error of a read of an object, 0 if none. -/
def readError (s : State) (n : Nat) (i : Item) : Nat :=
  match lookupObj i.idx i.sub with
  | none => errNoObject
  | some r =>
    if r.kind = 9 && !hasRow r i.idx i.row then errNoObject
    else if r.kind != 9 && i.row != noRow then errNoObject
    else if r.acc = .wo then errAccess
    else if r.acc = .ro && decide (((tierOf s (.sess n)).getD 0) < r.tier) then errTier
    else if i.kind != r.kind || i.value != [] then errFormat else 0

/-- The oldest message leaves the mailbox queue. -/
def mboxTaken (s : State) : State := { s with mabin := { s.mabin with mboxOut := s.mabin.mboxOut.drop 1 } }

/-- What a read of an object changes (R392, R555). -/
def readEffect (s : State) (idx sub : Nat) : State :=
  if idx = 0x6000 && sub = 2 then lowReset s else if idx = 0x1100 && sub = 8 then mboxTaken s else s

/-- What a read of an item returns, with what the read itself changes (R392, R555). -/
def readItem (s : State) (i : Item) : State × Bytes :=
  match lookupObj i.idx i.sub with
  | none => (s, [])
  | some r =>
    let v := if i.staged && r.acc == .st then stagedRead s r i.idx i.row
      else readValue s r i.idx i.row
    (readEffect s i.idx i.sub, v)

/-- Pad to a multiple of 4 bytes. -/
def pad4 (b : Bytes) : Bytes := b ++ zeros (4 * ceilDiv b.length 4 - b.length)

/-- One item of an answer. -/
def itemBytes (i : Item) (v : Bytes) : Bytes :=
  u16 i.idx ++ u8 i.sub ++ u8 i.kind ++ u32 i.row ++ u16 v.length ++ u16 (b2n i.staged) ++ v

/-- Count an item's access (R593): source 1 read, 2 written or staged, 3 rejected. -/
def countItem (s : State) (n source : Nat) (i : Item) : State :=
  filtered s source ((tierOf s (.sess n)).getD 0) [(4, n)] (i.idx * 256 + i.sub) none 1

def readItems (n : Nat) : List Item → Nat → State → Bytes → Reply
  | [], _, s, b => .good s b
  | i :: t, k, s, b =>
    let e := readError s n i
    if e != 0 then .bad e k (errDetail s i.idx i.sub e)
    else
      let (s, v) := readItem (countItem s n 1 i) i
      readItems n t (k + 1) s (pad4 b ++ itemBytes i v)

/-! ## WRITE and STAGE (R548, R558, R566, R567, R571) -/

/-- The error of an item of a WRITE, 0 if none. -/
def writeItemError (s : State) (n : Nat) (i : Item) : Nat :=
  match lookupObj i.idx i.sub with
  | none => errNoObject
  | some r =>
    if r.acc = .st then errAccess
    else if i.kind != r.kind then errFormat
    else if joinsStaging i.idx i.sub then stageError s (.sess n) i.idx i.sub i.row i.value
    else writeError s (.sess n) i.idx i.sub i.row i.value

def stageItemError (s : State) (n : Nat) (i : Item) : Nat :=
  match lookupObj i.idx i.sub with
  | none => errNoObject
  | some r =>
    if r.acc != .st then errAccess
    else if i.kind != r.kind then errFormat
    else stageError s (.sess n) i.idx i.sub i.row i.value

/-- The items in order, each against what the earlier ones leave; a failing one undoes all. -/
def runItems (n : Nat) (err : State → Item → Nat) (eff : Item → State → Option State) :
    List Item → Nat → State → Reply
  | [], _, s => .good s []
  | i :: t, k, s =>
    let e := err s i
    if e != 0 then .bad e k (errDetail s i.idx i.sub e)
    else match eff i s with
      | none => .bad errValue k 0
      | some s => runItems n err eff t (k + 1) (countItem s n 2 i)

/-- The rejected access of a failing item is counted. -/
def countBad (s : State) (n : Nat) (items : List Item) : Reply → State
  | .good _ _ => s
  | .bad _ k _ =>
    match items[k - 1]? with
    | some i => if k = 0 then s else countItem s n 3 i
    | none => s

def writeItems (mbox : Bytes → State → State) (s : State) (n : Nat) (items : List Item) : Reply :=
  runItems n (fun s i => writeItemError s n i)
    (fun i => if joinsStaging i.idx i.sub then stageValue i.idx i.sub i.row i.value
      else writeAny mbox i.idx i.sub i.row i.value) items 1 s

def stageItems (s : State) (n : Nat) (items : List Item) : Reply :=
  runItems n (fun s i => stageItemError s n i) (fun i => stageValue i.idx i.sub i.row i.value) items 1 s

/-! ## COMMIT, LOCK, UNLOCK (R569, R572, R573) -/

/-- The answer of a lock command: code 0 with its detail, or the error. -/
def codeReply (r : State × Nat × Nat) : Reply :=
  if r.2.1 = 0 then .good r.1 (codeBody 0 0 r.2.2) else .bad r.2.1 0 r.2.2

/-- COMMIT: a target tick and flags; the unlock flag from minor 3 on. A rejected COMMIT keeps what its
rejection raised. -/
def commitReply (s : State) (n minor : Nat) (body : Bytes) : State × Reply :=
  let unlock := bit (byteAt body 8) 0
  if body.length != 12 then (s, .bad errFormat 0 0)
  else if unlock && decide (minor < 3) then (s, versionError)
  else
    let r := commitBy s n (natAt body 0 8) unlock
    (r.1, codeReply r)

/-- UNLOCK's answer carries no body. -/
def unlockReply (s : State) (n : Nat) : Reply :=
  let r := unlockBy s n
  if r.2.1 = 0 then .good r.1 [] else .bad r.2.1 0 r.2.2

/-! ## SUBSCRIBE (R574) -/

/-- Add a subscription: a duplicate holds no second place, and 64 is the most. -/
def subscribe (s : State) (n : Nat) (b : Sub) : Reply :=
  match sessionAt s n with
  | none => .bad errFormat 0 0
  | some x =>
    if x.subs.any fun c => c.kind == b.kind && c.a == b.a && c.b == b.b then .good s []
    else if 64 ≤ x.subs.length then .bad errSubs 0 0
    else .good (modSession s n fun x => { x with subs := x.subs ++ [b] }) []

/-- Add an object: it exists, and the session may read it. -/
def subscribeObject (s : State) (n minor : Nat) (body : Bytes) : Reply :=
  let idx := natAt body 1 2
  let sub := byteAt body 3
  let period := natAt body 5 4
  if minor < 2 then versionError
  else if body.length != 9 then .bad errFormat 0 0
  else match lookupObj idx sub with
    | none => .bad errNoObject 0 0
    | some r =>
      if r.acc = .wo then .bad errAccess 0 0
      else if r.acc = .ro && decide (((tierOf s (.sess n)).getD 0) < r.tier) then .bad errTier 0 r.tier
      else if period = 0 || 65535 < period then .bad errValue 0 0
      else subscribe s n { kind := 2, a := subName idx sub, b := period, last := none }

def subscribeReply (s : State) (n minor : Nat) (body : Bytes) : Reply :=
  let op := byteAt body 0
  if op = 1 && body.length = 5 then
    subscribe s n { kind := 1, a := natAt body 1 2, b := natAt body 3 2, last := none }
  else if op = 2 then subscribeObject s n minor body
  else if op = 3 && body.length = 1 then .good (modSession s n fun x => { x with subs := [] }) []
  else .bad errFormat 0 0

/-! ## BLOCK (R568) -/

/-- A row of a table whose rows vary is as long as its bank's width makes it (R180, R198). -/
def trimRow (s : State) (idx sub row : Nat) (v : Bytes) : Bytes :=
  if 0x4B00 ≤ idx && idx < 0x4B08 && sub = 1 then
    let g := 16 * (idx - 0x4B00) + row / 2048
    v.take (32 * natOf (stagedRead s ((lookupObj (0x4800 + g) 1).getD (obj 0 0 0 0 .ro 0 .never 0 0 0 0 0))
      (0x4800 + g) noRow))
  else if 0x4D00 ≤ idx && idx < 0x4D08 then
    v.take (4 + 32 * curWidth s (16 * (idx - 0x4D00) + natAt v 0 2))
  else v

/-- The bytes that a block read names: rows from the first, each of its stride, or the value's bytes. -/
def blockData (s : State) (r : ObjRow) (idx row off len : Nat) : Bytes :=
  if r.kind = 9 then
    let st := blockStride r
    let first := off / st
    let rows := (List.range (ceilDiv (off % st + len) st)).flatMap fun i =>
      if hasRow r idx (row + first + i) then slice (readValue s r idx (row + first + i)) 0 st else []
    (rows.drop (off % st)).take len
  else ((readValue s r idx noRow).drop off).take len

/-- Bytes of data that a message of a session's path has room for beside a block's head. -/
def blockRoom (path : MabinPath) : Nat := msgLimit path - 56

def blockRead (s : State) (n : Nat) (path : MabinPath) (body : Bytes) : Reply :=
  let idx := natAt body 2 2
  let sub := byteAt body 4
  let row := natAt body 8 4
  let i : Item := { idx := idx, sub := sub, kind := 0, row := row, staged := false, value := [] }
  match lookupObj idx sub with
  | none => .bad errNoObject 0 0
  | some r =>
    let e := readError s n { i with kind := r.kind, row := if r.kind = 9 then row else noRow }
    if e != 0 then .bad e 0 (errDetail s idx sub e)
    else if blockRoom path < natAt body 16 4 then .bad errFormat 0 0
    else .good (readEffect (countItem s n 1 i) idx sub)
      (body.take 20 ++ blockData s r idx row (natAt body 12 4) (natAt body 16 4))

/-- Cut data into pieces of n bytes. -/
def pieces (n : Nat) : Nat → Bytes → List Bytes
  | 0, _ => []
  | k + 1, b => if b = [] then [] else b.take n :: pieces n k (b.drop n)

/-- The items that a whole block write amounts to. -/
def blockItems (s : State) (r : ObjRow) (idx sub row : Nat) (data : Bytes) : List Item :=
  if r.kind = 9 then
    (pieces (blockStride r) (data.length + 1) data).zipIdx.map fun p =>
      let at_ := if r.acc = .wo then 0 else row + p.2
      { idx := idx, sub := sub, kind := 9, row := at_, staged := false,
        value := trimRow s idx sub at_ p.1 }
  else [{ idx := idx, sub := sub, kind := r.kind, row := noRow, staged := false, value := data }]

/-- The whole write of a block, checked and then staged or applied (R568). -/
def blockApply (mbox : Bytes → State → State) (s : State) (n : Nat) (head data : Bytes) : Reply :=
  let idx := natAt head 2 2
  let sub := byteAt head 4
  match lookupObj idx sub with
  | none => .bad errNoObject 0 0
  | some r =>
    if data.length != natAt head 16 4 then .bad errFormat 0 0
    else
      let items := blockItems s r idx sub (natAt head 8 4) data
      let rep := if r.acc = .st then stageItems s n items else writeItems mbox s n items
      match rep with
      | .good t b => .good t b
      | .bad e _ d => .bad e 0 d

/-- The transfer of a session, if one is under way. -/
def blockOf (s : State) (n : Nat) : Option Block := (sessionAt s n).bind Session.block
def putBlock (s : State) (n : Nat) (b : Option Block) : State :=
  modSession s n fun x => { x with block := b }

/-- One chunk of a block write: the state that it leaves whatever the answer is, and the answer. -/
def blockWrite (mbox : Bytes → State → State) (s : State) (n : Nat) (more : Bool) (body : Bytes) :
    State × Reply :=
  let chunk := natAt body 6 2
  let idx := natAt body 2 2
  let sub := byteAt body 4
  let data := body.drop 20
  let old := if chunk = 0 then none else blockOf s n
  let want := (blockOf s n).elim 0 Block.chunks
  let gone := putBlock s n none
  if isStaged idx sub && s.mabin.holder != some n then
    (gone, .bad errNotLocked 0 (holderDetail s))
  else if chunk != 0 && (old.isNone || chunk != want) then (gone, .bad errBlockOrder 0 want)
  else
    let head := (old.map Block.head).getD (body.take 20)
    let b : Block := { head := head, chunks := chunk + 1, data := (old.elim [] Block.data) ++ data }
    if more then (gone, .good (putBlock s n (some b)) [])
    else (gone, blockApply mbox gone n b.head b.data)

/-! ## Sessions (R560 to R564) -/

/-- The key and tier of a credential. -/
def credOf (s : State) (slot : Nat) : Option Cred :=
  if slot = 0 then some { tier := 3, key := bytesOf 32 Config.vendorCredKey.toNat }
  else tfind s.mabin.creds slot

/-- The highest version in both ranges, from 1.0 to 1.3 (R561). -/
def chooseVersion (lo hi : Nat) : Option Nat :=
  let v := min hi 0x0103
  if max lo 0x0100 ≤ v then some v else none

/-- The session key (R561). -/
def sessionKey (k cn pn : Bytes) (n : Nat) : Bytes :=
  kdf k (ascii "MABIN-SESSION".toList) (cn ++ pn ++ bytesOf 2 n) 256

/-- The body of a HELLO's answer. -/
def helloBody (s : State) (version tier : Nat) (pn : Bytes) : Bytes :=
  u16 version ++ u8 tier ++ [0] ++ u32 (rw s 0x1300 1) ++ u32 (rw s 0x1200 3)
    ++ u64 Config.idUnique.toNat ++ pn

/-- A nonce drawn from the entropy source (R468). -/
def drawNonce (s : State) : State × Bytes :=
  ({ s with mabin := { s.mabin with drawn := s.mabin.drawn + 1 } },
    bytesOf 16 (Config.entropy s.mabin.drawn).toNat)

/-- A failed opening HELLO: counted, MABIN_AUTH_FAIL at most once per tick (R563). -/
def authFail (s : State) : State :=
  let s := count s (cPart 11) 1
  if s.mabin.authFailTick = some s.rm.tick then s
  else raiseEv { s with mabin := { s.mabin with authFailTick := some s.rm.tick } } evAuthFail 0 []

/-- An answer to an opening HELLO that opens no session: its tag has no session key, and the manual
gives it none, so its 16 bytes are a free value (log entry 5). -/
def refuseHello (s : State) (path : MabinPath) (m : Bytes) (code detail : Nat) : State :=
  let body := codeBody code 0 detail
  let head := [1] ++ u8 3 ++ u8 1 ++ u8 0xC0 ++ u16 0xFFFF ++ u16 (body.length + 36) ++ u64 0
    ++ u32 (msgReq m) ++ body
  let (s, tag) := freshBytes 2 s
  deliverMsg s 0xFFFF path (head ++ tag)

def newSession (s : State) (path : MabinPath) (tier minor cred : Nat) (key : Bytes) : Session :=
  { tier := tier, minor := minor, path := path, cred := cred, key := key, rxHigh := 0, rxSeen := [0],
    txCtr := 1, lastBeat := s.beat, frozen := false, subs := [], notifyQ := [], notifySeq := 0, codes := 0,
    block := none, held := [] }

/-- An opening HELLO (R561): the credential, the version, a free number. -/
def openSession (s : State) (path : MabinPath) (m : Bytes) : State :=
  let b := msgBody m
  let cn := slice b 8 16
  match credOf s (byteAt b 4) with
  | none => authFail s
  | some c =>
    if b.length != 24 || natAt m 6 2 != m.length
        || msgTag m != gmac c.key (slice cn 0 12) (msgSigned m) then authFail s
    else match chooseVersion (natAt b 0 2) (natAt b 2 2) with
      | none => refuseHello s path m errVersion 0x0103
      | some v =>
        match (List.range 16).find? fun n => (sessionAt s n).isNone with
        | none => refuseHello s path m errBusy 0
        | some n =>
          let (s, pn) := drawNonce s
          let key := sessionKey c.key cn pn n
          let x := newSession s path c.tier (v % 256) (byteAt b 4) key
          let s := { s with mabin := { s.mabin with sessions := tins s.mabin.sessions n x } }
          deliverMsg s n path
            (buildMsg key n (v % 256) 1 0x80 0 (msgReq m) (helloBody s v c.tier pn))

/-- A HELLO with rekey: the same number and credential, a new key, counters from the start (R564). -/
def rekeySession (s : State) (n : Nat) (x : Session) (m : Bytes) : State :=
  let b := msgBody m
  let cn := slice b 8 16
  if x.minor < 2 then answer s n m versionError
  else if b.length != 24 then answer s n m (.bad errFormat 0 0)
  else match credOf s x.cred with
    | none => answer s n m (.bad errCredential 0 x.cred)
    | some c =>
      match chooseVersion (natAt b 0 2) (natAt b 2 2) with
      | none => answer s n m versionError
      | some v =>
        let (s, pn) := drawNonce s
        let key := sessionKey c.key cn pn n
        let s := modSession s n fun x =>
          { x with key := key, minor := v % 256, rxHigh := 0, rxSeen := [0], txCtr := 1 }
        sendHeld (deliverMsg s n x.path
          (buildMsg key n (v % 256) 1 0x80 0 (msgReq m) (helloBody s v x.tier pn))) n

def endSession (s : State) (n : Nat) : State :=
  { s with mabin := { s.mabin with sessions := terase s.mabin.sessions n } }

/-- A HELLO with close: UNLOCK when the session holds the lock, then the session ends (R564). -/
def closeSession (s : State) (n : Nat) (m : Bytes) : State :=
  let s := if s.mabin.holder = some n then freeLock s else s
  endSession (sendMsg s n 1 0x80 (msgReq m) []) n

/-- An authentication or protocol fault freezes the session (R45, R563). -/
def freezeSession (s : State) (n : Nat) : State :=
  freezeMaster (modSession s n fun x => { x with frozen := true }) 4 0xFF n

/-! ## Replay (R562) -/

/-- A counter above the highest received, or at most 64 below it and not received. -/
def freshCtr (x : Session) (c : Nat) : Bool :=
  decide (x.rxHigh < c) || (decide (x.rxHigh ≤ c + 64) && !x.rxSeen.contains c)

/-- The counter is received: the window keeps those at most 64 below the highest. -/
def takeCtr (x : Session) (c : Nat) : Session :=
  let high := max x.rxHigh c
  { x with rxHigh := high, rxSeen := (c :: x.rxSeen).filter fun d => decide (high ≤ d + 64) }

/-! ## Requests -/

/-- READ, WRITE and STAGE of a parsed item list. -/
def itemRequest (mbox : Bytes → State → State) (s : State) (n type : Nat) (items : List Item) :
    State × Reply :=
  let r := if type = 2 then readItems n items 1 s []
    else if type = 3 then writeItems mbox s n items else stageItems s n items
  (countBad s n items r, r)

/-- The request of an accepted message: the state that an error answer leaves, and the reply. -/
def request (mbox : Bytes → State → State) (s : State) (n : Nat) (x : Session) (m : Bytes) :
    State × Reply :=
  let type := msgType m
  let body := msgBody m
  if type = 2 || type = 3 || type = 4 then itemRequest mbox s n type ((itemsOf m).getD [])
  else if type = 5 then commitReply s n x.minor body
  else if type = 6 then (s, codeReply (lockBy s n))
  else if type = 7 then (s, unlockReply s n)
  else if type = 8 then (s, subscribeReply s n x.minor body)
  else if type = 10 then
    if x.minor < 1 then (s, versionError)
    else if body.length < 20 then (s, .bad errFormat 0 0)
    else if byteAt body 0 = 1 then (s, blockRead s n x.path body)
    else if byteAt body 0 = 2 then blockWrite mbox s n (msgMore m) body
    else (s, .bad errFormat 0 0)
  else if type = 1 then (s, .bad errFormat 0 0)
  else (s, versionError)

/-- A protocol fault of a message with a good tag (R563): a wrong major version, a length that disagrees
with the datagram, an item list that overruns the body. -/
def protocolFault (m : Bytes) : Bool :=
  byteAt m 0 != 1 || natAt m 6 2 != m.length
    || ((msgType m == 2 || msgType m == 3 || msgType m == 4) && (itemsOf m).isNone)

/-- An accepted message of session n: it renews the lease and the idle time (R564, R570). -/
def serve (mbox : Bytes → State → State) (s : State) (n : Nat) (x : Session) (m : Bytes) : State :=
  let s := renewLease (modSession s n fun x => { x with lastBeat := s.beat }) n
  if msgType m = 1 && msgClose m then closeSession s n m
  else if msgType m = 1 && msgRekey m then rekeySession s n x m
  else
    let (t, r) := request mbox s n x m
    answer t n m r

/-- `mabin.session.idle` seconds have passed without an accepted message (R564). -/
def sessionIdle (s : State) (n : Nat) : Bool :=
  match sessionAt s n with
  | none => false
  | some x => !x.frozen && due s (x.lastBeat + rw s 0x1200 3 * 1250000000)

/-- A session that has been idle too long ends before a message reaches it. -/
def endIdle (s : State) (n : Nat) : State := if sessionIdle s n then endSession s n else s

/-- A message for session n (R562, R563). -/
def sessionMsg (mbox : Bytes → State → State) (s : State) (n : Nat) (m : Bytes) : State :=
  let s := endIdle (lockExpiry s) n
  match sessionAt s n with
  | none => count s (cPart 10) 1
  | some x =>
    if x.frozen then s
    else
    let s := askCode s n
    if msgTag m != gmac x.key (msgIv n 0 (msgCtr m)) (msgSigned m) then freezeSession s n
    else if !freshCtr x (msgCtr m) then count s (cPart 9) 1
    else
      let s := modSession s n fun x => takeCtr x (msgCtr m)
      if protocolFault m then freezeSession s n else serve mbox s n x m

/-- A message as it arrives on a path; one within a write of `mabin.mbox.in` that itself lies in a message
is a message of its own, `fuel` levels deep at most (each level is shorter by more than 40 bytes). -/
def receive : Nat → MabinPath → Bytes → State → State
  | 0, _, _, s => s
  | fuel + 1, path, m, s =>
    if msgLimit path < m.length then count s (cPart 8) 1
    else if m.length < 36 then count s (cPart 10) 1
    else if isOpening m then openSession s path m
    else sessionMsg (receive fuel .mailbox) s (msgSess m) m

/-- The most levels that a message can have within its path's limit. -/
def msgDepth : Nat := 100

def deliver (path : MabinPath) (m : Bytes) (s : State) : State := receive msgDepth path m s

/-! ## The commands' meanings -/

/-- A message of the kind that a row of the table names. -/
def mabinRow (c : Bool) (path : MabinPath) (m : Bytes) (s : State) : State :=
  whenRun s fun s => guardS c s (deliver path m)

/-- MABIN_HELLO (R561): one that neither rekeys nor closes. -/
def rowMabinHello (path : MabinPath) (msg : Bytes) (s : State) : State :=
  mabinRow (msgType msg == 1 && !msgRekey msg && !msgClose msg) path msg s

/-- MABIN_HELLO_REKEY (R564). -/
def rowMabinHelloRekey (path : MabinPath) (msg : Bytes) (s : State) : State :=
  mabinRow (msgType msg == 1 && msgRekey msg && !msgClose msg) path msg s

/-- MABIN_HELLO_CLOSE (R564). -/
def rowMabinHelloClose (path : MabinPath) (msg : Bytes) (s : State) : State :=
  mabinRow (msgType msg == 1 && msgClose msg) path msg s

/-- MABIN_READ (R565), and a message of a reserved type or of type NOTIFY (R557, R563). -/
def rowMabinRead (path : MabinPath) (msg : Bytes) (s : State) : State :=
  let t := msgType msg
  mabinRow (t == 2 || t == 0 || t == 9 || decide (11 ≤ t)) path msg s

/-- MABIN_WRITE (R566). -/
def rowMabinWrite (path : MabinPath) (msg : Bytes) (s : State) : State :=
  mabinRow (msgType msg == 3) path msg s

/-- MABIN_STAGE (R571). -/
def rowMabinStage (path : MabinPath) (msg : Bytes) (s : State) : State :=
  mabinRow (msgType msg == 4) path msg s

/-- MABIN_COMMIT (R572). -/
def rowMabinCommit (path : MabinPath) (msg : Bytes) (s : State) : State :=
  mabinRow (msgType msg == 5) path msg s

/-- MABIN_LOCK (R569). -/
def rowMabinLock (path : MabinPath) (msg : Bytes) (s : State) : State :=
  mabinRow (msgType msg == 6) path msg s

/-- MABIN_UNLOCK (R573). -/
def rowMabinUnlock (path : MabinPath) (msg : Bytes) (s : State) : State :=
  mabinRow (msgType msg == 7) path msg s

/-- SUBSCRIBE_ADD_EVENTS (R574), and a SUBSCRIBE whose operation the table does not have. -/
def rowSubscribeAddEvents (path : MabinPath) (msg : Bytes) (s : State) : State :=
  mabinRow (msgType msg == 8 && byteAt (msgBody msg) 0 != 2 && byteAt (msgBody msg) 0 != 3) path msg s

/-- SUBSCRIBE_ADD_OBJECT (R574). -/
def rowSubscribeAddObject (path : MabinPath) (msg : Bytes) (s : State) : State :=
  mabinRow (msgType msg == 8 && byteAt (msgBody msg) 0 == 2) path msg s

/-- SUBSCRIBE_REMOVE_ALL (R574). -/
def rowSubscribeRemoveAll (path : MabinPath) (msg : Bytes) (s : State) : State :=
  mabinRow (msgType msg == 8 && byteAt (msgBody msg) 0 == 3) path msg s

/-- BLOCK_READ (R568), and a BLOCK whose direction the manual does not have. -/
def rowBlockRead (path : MabinPath) (msg : Bytes) (s : State) : State :=
  mabinRow (msgType msg == 10 && byteAt (msgBody msg) 0 != 2) path msg s

/-- BLOCK_WRITE (R568). -/
def rowBlockWrite (path : MabinPath) (msg : Bytes) (s : State) : State :=
  mabinRow (msgType msg == 10 && byteAt (msgBody msg) 0 == 2) path msg s

/-- A write of `mabin.mbox.in` by the local session (R551, R555). -/
def mboxWrite (m : Bytes) (s : State) : State :=
  if 4096 < m.length then count s (cPart 8) 1
  else writeBy s .bar 0x1100 7 noRow m fun s => some (deliver .mailbox m s)

/-- MBOX_IN_WRITE (R555). -/
def rowMboxInWrite (msg : Bytes) (s : State) : State :=
  whenRun s (mboxWrite msg)

/-- MBOX_OUT_READ (R555): the oldest message, or one of length 0. -/
def rowMboxOutRead (s : State) : State :=
  whenRun s fun s =>
    emit (mboxTaken (countAccess s .bar 1 0x1100 8)) (.mbox (mboxHead s))

/-- SESSION_IDLE_EXPIRY (R564). -/
def rowSessionIdleExpiry (sess : Nat) (s : State) : State :=
  whenRun s fun s => guardS (sessionIdle s sess) s fun s => endSession s sess

/-! ## Writes of the dictionary (R512, R513, R515, R551, R552, R566) -/

/-- A write of any object by any sender: `mabin.mbox.in` is the mailbox. One by the physical function of another
function's request or answer object freezes it (R403, R515 cause 2). -/
def writeObject (s : State) (src : Origin) (idx sub row : Nat) (v : Bytes) : State :=
  if src = .bar && 0x6901 ≤ idx && idx < 0x6940 && (lookupObj idx sub).isSome then
    freezeFn s 0 2 (idx * 0x800 + sub * 8)
  else anyWrite (deliver .mailbox) s src idx sub row v

/-- OBJECT_WRITE (R566). -/
def rowObjectWrite (src : Origin) (index sub row : Nat) (value : Bytes) (s : State) : State :=
  whenRun s fun s => writeObject s src index sub row value

/-! ## BAR windows -/

/-- The table and the word that a BAR2 offset names: index, its object row, row, word in it. -/
def barPlace (off : Nat) : Option (Nat × ObjRow × Nat × Nat) :=
  let hit := bar2Tables.find? fun t => match lookupObj t.1 t.2.1 with
    | some r =>
      let base := (Config.bar2Window (subName t.1 t.2.1)).toNat * 4096
      decide (base ≤ off) && decide (off < base + barRows r * barStride r * 8)
    | none => false
  hit.bind fun t => (lookupObj t.1 t.2.1).map fun r =>
    let word := (off - (Config.bar2Window (subName t.1 t.2.1)).toNat * 4096) / 8
    (t.1, r, word / barStride r, word % barStride r)

/-- Bytes of the numbers that a row of a table is made of: 1 where it is a byte layout (R12, R542). -/
def barUnit (idx : Nat) (r : ObjRow) : Nat :=
  if idx = 0x8100 || (0x8010 ≤ idx && idx < 0x8050) then 8
  else if r.kind = 9 && r.stride ≤ 8 && r.stride != 0 then r.stride else 1

/-- Bytes in BAR order to the object's own order: the numbers of a row are little-endian there. -/
def fromBar (unit : Nat) (b : Bytes) : Bytes := (pieces unit (b.length + 1) b).flatMap List.reverse

/-- Key of a collected BAR2 word. -/
def collectKey (idx sub row word : Nat) : Nat := keyOf idx sub row * 2 ^ 24 + word

/-- The row that the collected words of a table make (R513). -/
def collected (s : State) (idx : Nat) (r : ObjRow) (row : Nat) : Bytes :=
  let b := (List.range (barStride r)).flatMap fun w =>
    leBytes 8 (tget 0 s.mabin.collect (collectKey idx r.sub row w))
  let n := if r.kind = 8 then r.hi else blockStride r
  trimRow s idx r.sub row (fromBar (barUnit idx r) (b.take n))

/-- A message in the mailbox's window is as long as its header says (R556). -/
def mboxTrim (idx sub : Nat) (v : Bytes) : Bytes :=
  if idx = 0x1100 && sub = 7 then v.take (natAt v 6 2) else v

/-- A write of a BAR2 word: collected, and at a row's highest offset the row is written (R513). -/
def barTable (s : State) (off value : Nat) : State :=
  match barPlace off with
  | none => s
  | some (idx, r, row, word) =>
    let put := { s with mabin := { s.mabin with
      collect := tput 0 s.mabin.collect (collectKey idx r.sub row word) value } }
    if word + 1 != barStride r then put
    else
      let v := collected put idx r row
      let k := collectKey idx r.sub row 0
      let s := { put with mabin := { put.mabin with
        collect := tdrop put.mabin.collect k (k + barStride r) } }
      writeObject s .bar idx r.sub (if r.kind = 9 then row else noRow) (mboxTrim idx r.sub v)

/-- A write of a BAR0 word (R551): TABLE and OCTETS words ignore it. -/
def barWord (s : State) (off value : Nat) : State :=
  let idx := off / 0x800
  let sub := off % 0x800 / 8
  match lookupObj idx sub with
  | none => s
  | some r =>
    if r.kind = 8 || r.kind = 9 then s
    else if 0x6901 ≤ idx && idx < 0x6940 then freezeFn s 0 2 off
    else writeObject s .bar idx sub noRow (bytesOf (kindSize r.kind) value)

/-- A virtual function's BAR0 holds its own `pool.req` and `pool.resp` (R511, R515). -/
def barVirtual (s : State) (fn off value : Nat) : State :=
  if !fnEnabled s fn || (fnAt s fn).frozen then s
  else if off = 0 then (poolWord fn value s).getD s
  else if off = 8 then s
  else freezeFn s fn 2 off

/-- The MSI-X word of a function's BAR4 offset: two words for each vector of the function's block (R511,
R523); none where the function has no such vector. -/
def msixWord (s : State) (fn off : Nat) : Option Nat :=
  let v := rw s (0x8010 + fn) 2
  if (off - 0x20000) / 16 < bits v 11 0 then some (2 * bits v 26 16 + (off - 0x20000) / 8) else none

/-- A write of a BAR4 word: the MSI-X table of the function's own vectors (R511, R515); the doorbells have rows of
their own (R521), and the pending bits are not written. -/
def barVector (s : State) (fn off value : Nat) : State :=
  if !fnEnabled s fn || (fnAt s fn).frozen || decide (off < 0x20000) || decide (0x30000 ≤ off) then s
  else match msixWord s fn off with
    | some w => { s with host := { s.host with msix := tput 0 s.host.msix w value } }
    | none => freezeFn s fn 2 off

/-- BAR_WRITE (R511, R512). -/
def barWriteWord (s : State) (fn bar off value : Nat) : State :=
  if fn = 0 then
    let s := renewLease s 16
    if bar = 0 then barWord s off value else if bar = 2 then barTable s off value
    else if bar = 4 then barVector s 0 off value else s
  else if bar = 0 then barVirtual s fn off value
  else if bar = 4 then barVector s fn off value else s

def rowBarWrite (fn bar offset value : Nat) (s : State) : State :=
  whenRun s fun s => barWriteWord s fn bar offset (value % 2 ^ 64)

end Sys2Proof.Machine
end

