-- ==== Sys2Proof/Machine/Owed.lean ====
section
/-! DEFINITION. What a beat owes: the events that the manual fixes to a beat. BEAT performs those that no
command of the ending beat has performed (log entry 24). -/

namespace Sys2Proof.Machine

/-- f for each key of a table, ascending, each on what the ones before it leave. -/
def forEach (keys : List Nat) (f : Nat → State → State) (s : State) : State :=
  keys.foldl (fun s k => f k s) s

/-! ## Ports, time bases and pins (R93 to R113, R369, R381, R429, R449, R476, R490) -/

/-- The timers, expiries, gate events and delivery of a port node. -/
def portOwes (n : Nat) (s : State) : State :=
  let s := whenRun s fun s => stepDue s n
  let s := rowRestartDelayExpiry n (rowTrainingTimeout n (rowKeptCoefficientsLockTimeout n
    (rowLockTimeout n 0 s)))
  let s := forEach (tkeys (portAt s n).pauseEnd) (rowPauseExpiry n) s
  let s := whenRun s fun s => ownFrameTail s n
  rowMacsecRxDeliver n .ok (rowGateInstant n (rowGateListStarted n
    (rowLinkFlushed n (rowLinkHoldExpiry n s))))

def pinsOwe (s : State) : State :=
  forEach (List.range 8) (fun k s => rowTimeOutPulse k (rowTimeOutPulseEnd k s))
    (forEach (List.range 4) rowTbValid s)

/-! ## Home halves (R65, R80) -/

/-- A home half tries one home beat in every beat. -/
def homeOwes (p : Nat) (s : State) : State :=
  if passedNow s p = 0 then rowHomeBeat p none s else s

/-! ## Engines (R76, R270, R291 to R297) -/

def engineOwes (c e : Nat) (s : State) : State :=
  let s := rowIdleOverrun c e (rowEngineBudgetTrap c e (rowMicrowordIssue c e .ok s))
  if readsHost s c e then s else rowIdleStepPublish c e [] s

/-- An idle step that starts in this beat issues its first word in it (R297). -/
def clusterOwes (c : Nat) (s : State) : State :=
  let s := rowIdleStepStart c s
  rowResequencerRelease c (forEach (tkeys (clusterAt s c).engines) (engineOwes c) s)

/-! ## Frames, carousels, transmission (R70, R361, R368, R377, R416, R423) -/

def carouselOwes (p : Nat) (s : State) : State :=
  rowEwrite p (rowTscrub p none .ok (rowTwrite p s))

/-- What a MAC sends: flow control goes before a frame (R368). -/
def macOwes (n : Nat) (s : State) : State :=
  rowFrameTransmitStart n [] none (rowFlowControlRepeat n (rowFlowControlFrameSend n
    (rowFrameTransmitEnd n s)))

/-- Every frame whose tail came before this beat is judged by the policer rows of its time (R427). -/
def judgePipes (s : State) : State :=
  (List.range 8).foldl (fun s p => judgeAll p s.beat s.pkts.length s) s

def framesOwe (s : State) : State :=
  let s := passOneBeat (forEach (s.pkts.map Pkt.id) (fun i => rowVerifyResult i false) s)
  let s := judgePipes s
  forEach (s.pkts.map Pkt.id) rowEgressEntry s

/-! ## Arbiters, rings, copies, pipes, versions -/

def ringOwes (r : Nat) (s : State) : State := rowRingStopped r (rowMsixTimerExpiry r s)

/-- A pipe's return to power at its boundary, and the end of its PIPE reset: the zeroing reset takes at most 2 ms (R605, R613). -/
def pipeOwes (p : Nat) (s : State) : State :=
  let s := if lastPower s p then rowPipePower p s else s
  if due s ((pipeAt s p).resetBeat + 2500000) then rowPipeReset p s else s

/-- DRAINING slots that no packet holds become FREE, and sealed versions take what is FREE (R187, R190). -/
def versionsOwe (s : State) : State :=
  forEach (List.range 4) (fun _ => rowSlotReserve) (forEach (List.range 4) rowSlotRetire s)

/-- Everything that the beat still owes, but for its boundary and the expiries that end it. -/
def owedWork (s : State) : State :=
  let pipes := List.range 8
  let s := pinsOwe (forEach (tkeys s.ports) portOwes s)
  let s := forEach pipes (fun p s => homeOwes p (rowHoldingQueueRelease p (pipeOwes p s))) s
  let s := forEach (tkeys s.clusters) clusterOwes s
  let s := framesOwe (forEach pipes (fun p s => enterVerifies p s.pkts.length s) s)
  let s := forEach (tkeys s.ports) macOwes (forEach pipes carouselOwes s)
  let s := dropClosed (forEach (s.buf.copies.map Copy.id) rowSampleFormatTimeout (makeSamples s))
  let s := finishCode (hostAccesses (fetchCmd s))
  let s := forEach [arbDma, arbLa] rowArbiterGrantCut s
  let s := forEach (tkeys s.host.rings) ringOwes (forEach (List.range 10) rowArbiterRound s)
  versionsOwe (rekeyAll s)

end Sys2Proof.Machine
end

