-- ==== Sys2Proof/Machine/Ticks.lean ====
section
/-! DEFINITION. Beats and tick boundaries: what happens on every beat and at every boundary, and the end of a
SOFT reset (R50, R61, R191, R204, R294, R582, R603). -/

namespace Sys2Proof.Machine

/-! ## What the boundary brings (R191, R204, R315, R316, R427, R445) -/

/-- Its target has come. -/
def targetMet (s : State) (q : Sealed) : Bool := decide (q.target ≤ s.rm.tick)

/-- The version that commits at this boundary: the oldest, when it is due and ready and no supply warning
is in force. -/
def dueVersion (s : State) : Option Sealed :=
  match s.ver.pending with
  | [] => none
  | q :: _ => if targetMet s q && q.slot.isSome && q.doneTick.isSome && s.sys.warnSince.isNone
      then some q else none

/-- The slot and version that are current from this boundary on. -/
def arriving (s : State) : Nat × VerCfg :=
  match dueVersion s with
  | some q => (q.slot.getD s.ver.current, q.ver)
  | none => (s.ver.current, curVer s)

/-- A freeze at its boundary: cause COMMAND, and the slot and side of that beat, whose version has committed
(R315, R316). -/
def freezeCluster (s : State) (c : Nat) : State :=
  let (slot, v) := arriving s
  trapCluster s c trapCommand (trapWord trapCommand slot (sideOf v c) 0 0 s.rm.tick) []

/-- A write received at `recvBeat` in `recvTick` counts from the boundary that the present beat begins,
`old` being the tick that ends: one of an earlier tick, or one that came in time before the end of that
tick. The cutoff is compared once, at the boundary that ends the tick of receipt. -/
def counted (s : State) (recvBeat recvTick old : Nat) : Bool :=
  recvTick != old || decide (recvBeat + rw s 0x2800 4 ≤ s.beat)

/-- The value that counts from this boundary on. -/
def putDig (s : State) (d : Deferred) : State :=
  { s with digObjs := putCfg s.digObjs (keyIdx d.key) (keySub d.key) (keyRow d.key) d.value }

/-- A write takes effect. -/
def applyDeferred (s : State) (d : Deferred) : State :=
  let idx := keyIdx d.key
  let sub := keySub d.key
  let row := keyRow d.key
  if idx = 0x7800 && sub = 1 then applyKey s d.value
  else if 0x5900 ≤ idx && idx < 0x5940 then
    (if sub = 8 then freezeCluster s (idx - 0x5900) else releaseCluster s (idx - 0x5900))
  else if idx = 0x7810 then applySaRow (putDig s d) row d.value
  else if idx = 0x7820 then applyIecRow (putDig s d) row d.value
  else if idx = 0x7400 then fillPolicer (putDig s d) row d.value
  else putDig s d

/-- Every write that counts from this boundary, in the order received. -/
def applyWrites (s : State) (old : Nat) : State :=
  let now := s.deferred.filter fun d => counted s d.recvBeat d.recvTick old
  let later := s.deferred.filter fun d => !counted s d.recvBeat d.recvTick old
  now.foldl applyDeferred { s with deferred := later }

/-- Received in the tick that ends, and too late for the window of the tick that begins. -/
def lateFor (s : State) (recv : Nat) : Bool :=
  decide (s.beat ≤ recv + s.rm.beatsLast) && decide (s.beat < recv + rw s 0x2800 4)

/-- A table command, release or legacy write that came after the cutoff joins the window of the tick after
this one (R63, R199). -/
def windowCmds (s : State) : State :=
  let next := fun (tick recv : Nat) =>
    if tick = s.rm.tick && lateFor s recv then s.rm.tick + 1 else tick
  let join := fun (c : Cmd) => { c with tick := next c.tick c.recv }
  (List.range 8).foldl (fun s p => modPipe s p fun k =>
    { k with cmds := k.cmds.map join,
             legacy := k.legacy.map fun l => { l with tick := next l.tick l.recv } }) s

/-- Cipher units whose tests have passed return to service (R467). -/
def returnUnits (s : State) (old : Nat) : State :=
  (List.range 9).foldl (fun s u =>
    let x := cipherUnit s u
    if x.state = 2 && x.passed && counted s x.restoreBeat x.restoreTick old then
      { s with cipher := { s.cipher with
        units := tmod CipherUnit.init s.cipher.units u fun x => { x with state := 0, passed := false } } }
    else s) s

/-! ## The boundary's own record -/

/-- Values of the objects of R261 as they count from this boundary. -/
def flowValues (s : State) : List Nat :=
  [dig s 0x5014 1, dig s 0x5014 2, dig s 0x5018 1, dig s 0x5018 2, dig s 0x501C 2]

/-- The boundary as later decisions need it: `j` is the second of the boundary value (R53, R351). -/
def newBound (s : State) (j : Nat) : Bound :=
  { beat := s.beat, tick := s.rm.tick, ver := curVer s, locked := s.rm.mode == .locked, source := rw s 0x2800 2,
    sec := (tickAnchor s + j * 1000000000) % 2 ^ 32, flow := flowValues s, objs := s.digObjs,
    keys := s.cipher.keys }

/-- The boundary joins those that the home clocks have still to pass, and the last 64 of the others (R68). -/
def pushBound (s : State) (j : Nat) : State :=
  let behind := (List.range 8).foldl (fun m p => if pipeLive s p then min m (pipeAt s p).h else m) s.beat
  let bs := newBound s j :: s.rm.bounds
  { s with rm := { s.rm with bounds := bs.take (64 + (bs.filter fun b => decide (behind < b.beat)).length) } }

/-- Time bases that settle have seen one more boundary (R476). -/
def settleTbs (s : State) : State :=
  (List.range 4).foldl (fun s t => if (tbAt s t).state = .settling then
    modTb s t fun b => { b with boundaries := b.boundaries + 1 } else s) s

/-! ## Work that the boundary starts (R64, R205, R295, R355, R575) -/

/-- A period divides the tick's number. -/
def onPeriod (s : State) (period : Nat) : Bool := period != 0 && s.rm.tick % period == 0

/-- At a boundary whose tick is on their periods: the beacon, the idle export tasks and the object
notifications are put on the list, and the counters are copied (R61 step 3). -/
def tickWork (s : State) : State :=
  let told := (s.mabin.sessions.filter fun x => x.2.subs.any (subDue s)).map fun x => todoNotify x.1
  let todo := (if onPeriod s (rw s 0x1500 4) then [todoBeacon] else [])
    ++ (if onPeriod s (rw s 0x5800 8) then [todoIdle] else []) ++ told
  let s := if onPeriod s (rw s 0x8820 1) then copyCounters s else s
  { s with
    rm := { s.rm with todo := todo },
    host := { s.host with
      tmplDue := if onPeriod s (rw s 0x5060 6) then List.range 16 else s.host.tmplDue } }

/-! ## Versions at the boundary (R62, R190, R191) -/

/-- The tick in which the last write of each pending version completed. -/
def markDone (s : State) : State :=
  { s with ver := { s.ver with pending := s.ver.pending.map fun q =>
      if q.doneTick.isNone && writesDone s q then { q with doneTick := some s.rm.tick } else q } }

/-- The causes that keep a due version from committing (R191). -/
def deferCauses (s : State) (q : Sealed) (other : Bool) : List Nat :=
  (if other then [1] else []) ++ (if q.slot.isNone then [2] else [])
    ++ (if s.sys.warnSince.isSome then [3] else [])
    ++ (if q.slot.isSome && q.doneTick.isNone then [4] else [])

/-- VERSION_DEFERRED, once for each version and cause. -/
def deferOnce (s : State) (q : Sealed) (cause : Nat) : State :=
  if bit q.causes (cause - 1) then s
  else raiseEv { s with ver := { s.ver with pending := s.ver.pending.map fun x =>
      if x.ver.num = q.ver.num then { x with causes := setBit x.causes (cause - 1) true } else x } }
    evDeferred 0 [q.ver.num, cause]

def deferVersions (s : State) (taken : Option Sealed) : State :=
  (s.ver.pending.filter fun q => targetMet s q && taken != some q).foldl (fun s q =>
    (deferCauses s q taken.isSome).foldl (fun s c => deferOnce s q c) s) s

/-- The boundary takes the version that commits, or compares the digest as it stands. -/
def takeVersion (s : State) : State :=
  match dueVersion s with
  | some q => deferVersions { s with ver := { s.ver with committedAt := some q.ver.num } } (some q)
  | none => compareDigest (deferVersions s none)

/-! ## TICK_BOUNDARY (R61) -/

/-- Step 1: the number, the beat and the length of the tick that ends. -/
def nextTick (s : State) (number : Nat) : State :=
  { s with rm := { s.rm with
      tick := number % 2 ^ 64, beatsLast := s.beat - s.rm.boundaryBeat, boundaryBeat := s.beat } }

/-- The boundary that begins tick `number`. -/
def boundaryAs (s : State) (number : Nat) : State :=
  let old := s.rm.tick
  let j := s.rm.j
  let s := passBoundary (settleTbs (nextTick (markDone (judgePipes s)) number))
  let s := countLegacy (returnUnits (applyWrites (windowCmds s) old) old)
  let s := pushBound { s with digVer := curVer s } j
  takeVersion (tickWork (startFuses (powerBoundary s)))

def tickBoundary (s : State) : State := boundaryAs s (s.rm.tick + 1)

/-! ## SOFT_RESET_DONE (R59, R603) -/

/-- The MACs accept frames again; those of a pipe under its own reset wait for that. -/
def acceptAgain (s : State) : State :=
  (List.range 134).foldl (fun s n => modPort s n fun x =>
    { x with refusing := decide (n < 128) && (pipeAt s (nodePipe n)).resetting }) s

/-- What waits for a tick by its number is numbered from tick 0 on, `first` being the number that tick 0
would have had; nothing has yet been raised in a tick of the new numbering. -/
def renumber (s : State) (first : Nat) : State :=
  let s := (List.range 8).foldl (fun s p => modPipe s p fun k =>
    { k with h := s.beat, learnTicks := [], natTicks := [],
             cmds := k.cmds.map fun c => { c with tick := c.tick - first },
             legacy := k.legacy.map fun l => { l with tick := l.tick - first } }) s
  { s with
    pinsIn := s.pinsIn.map fun e => (e.1, { e.2 with lostTick := none }),
    mabin := { s.mabin with authFailTick := none },
    ver := { s.ver with pending := s.ver.pending.map fun q =>
      { q with sealNext := q.sealNext - first, reserveNext := q.reserveNext - first } } }

/-- The boundary that begins tick 0: it is no boundary for the beacon and the dump (R645). -/
def zeroBoundary (s : State) : State :=
  let s := renumber (acceptAgain { s with sys := { s.sys with soft := false } }) (s.rm.tick + 1)
  let s := boundaryAs s 0
  raiseEv { s with
      rm := { s.rm with todo := s.rm.todo.filter (· != todoBeacon), bounds := s.rm.bounds.take 1 },
      cnt := { s.cnt with taken := none } }
    evResetDone 2 [s.sys.last % 256]

/-- A boundary after that of a SOFT reset under way, at which tick 0 may begin. -/
def mayRestart (s : State) : Bool :=
  boundaryDue s && s.sys.soft && decide (s.sys.softBeat < s.beat)

/-- SOFT_RESET_DONE (R603 step 4): steps 2 and 3 are complete, and the boundary of this beat begins
tick 0. -/
def rowSoftResetDone (s : State) : State :=
  whenRun s fun s => guardS (mayRestart s) s zeroBoundary

/-! ## The boundary that a beat owes (log entry 144) -/

/-- The last boundary within 3 ms of the SOFT reset: tick 0 begins at it at the latest (R603). -/
def lastRestart (s : State) : Bool :=
  mayRestart s && decide (s.sys.softBeat + 3750000 < s.beat + tickBeats s.rm.rate)

/-- The boundary of this beat, if none of its commands has performed it. -/
def boundaryFirst (s : State) : State :=
  if lastRestart s then zeroBoundary s else if boundaryDue s then tickBoundary s else s

/-- TICK_BOUNDARY (R61): at the beat of the schedule in force. -/
def rowTickBoundary (s : State) : State := whenRun s boundaryFirst

/-- A SOFT reset whose boundary has come. -/
def dueSoft (s : State) : State :=
  match s.sys.softAt with
  | some r => if resetDue s r && !s.sys.soft then softReset s else s
  | none => s

/-- PIPE resets whose boundary has come. -/
def duePipes (s : State) : State :=
  s.sys.pipeAt.foldl (fun s e =>
    if resetDue s e.2 && !(pipeAt s e.1).resetting then pipeResetStart s e.1 else s) s

/-- The boundary is past; its version is current; its SOFT reset has come; its PIPE resets have come. A
part that the boundary freezes goes no further (R614). -/
def pastBoundary (s : State) : State := whenRun s boundaryFirst
def pastCommit (s : State) : State := whenRun (pastBoundary s) commitDueVersion
def pastSoft (s : State) : State := whenRun (pastCommit s) dueSoft
def settled (s : State) : State := whenRun (pastSoft s) duePipes

/-! ## Counts of every beat (R294, R582, R584) -/

/-- The engine-beats of a cluster that no issued word has counted (R294). -/
def engineBeats (s : State) (c : Nat) : State :=
  if (pipeAt s (c / 8)).power != 0 then s
  else
    let k := clusterAt s c
    let busy := k.engines.filter fun e => holdsPacket e.2 s.beat
    let idle := busy.filter fun e => e.2.lastIssue != some s.beat
    let waits := idle.filter fun e => waitsEntry k e.2
    count (count (count s (cCluster c 1) (idle.length - waits.length))
      (cCluster c 2) (16 - busy.length)) (cCluster c 3) waits.length

/-- The pipe's pass 1 holds (R80). -/
def passOneHolds (s : State) (p : Nat) : Bool :=
  (passStop (heldIn s p)).isSome

/-- Lowest-numbered queue of a node that holds a head frame. -/
def firstBusy (s : State) (n : Nat) : Option Nat :=
  (busyQueues s).find? fun q => match headOf s q with
    | some k => decNode k.dec == n
    | none => false

/-- The counter of a blocked beat of a queue: pause, gate, shaper, in this order (R582). -/
def blockedBy (s : State) (n q : Nat) : Option Nat :=
  match headOf s q with
  | none => none
  | some k =>
    if paused s n (q % 8) then some 27
    else if !gateAllows s n (q % 8) (frameBeats s n (frameN s k)) then some 28
    else if (pathOf s n q).any (inDebt s s.buf.nodes) then some 29 else none

/-- A free MAC with a head frame and no ready queue counts its beat once. -/
def blockedBeat (s : State) (n : Nat) : State :=
  if (portAt s n).tx.isSome || !(readyQueues s n).isEmpty then s
  else match (firstBusy s n).bind (blockedBy s n) with
    | some o => count s (cPort n o) 1
    | none => s

/-- Nodes that some queue's head frame leaves by. -/
def busyNodes (s : State) : List Nat :=
  distinct ((busyQueues s).filterMap fun q => (headOf s q).map fun k => decNode k.dec)

def beatCounts (s : State) : State :=
  let s := (List.range 64).foldl engineBeats s
  let s := (List.range 8).foldl (fun s p => count s (cPipe p 36) (b2n (passOneHolds s p))) s
  let s := (busyNodes s).foldl blockedBeat s
  let s := (tkeys s.ports).foldl lineBeat s
  (List.range 128).foldl (fun s n => count s (cMacsec n 7) (b2n (decide (2 ≤ txState s n)))) s

/-! ## BEAT (R50) -/

/-- What belongs to the beat that ends and has not been done by its own command: its tick boundary, the
events that the manual fixes to it, the boundary's work, its expiries (log entry 24). -/
def endOfBeat (s : State) : State :=
  let s := rowIdleExportTask (rowCounterDump (rowEtwenBeacon (whenRun (settled s) fun s => servePools (owedWork s))))
  let sessions := tkeys s.mabin.sessions
  forEach sessions rowSessionIdleExpiry (rowLockExpired (forEach sessions rowObjectNotify s))

/-- Ports in FLUSH discard one frame each (R381). -/
def flushAll (s : State) : State := (tkeys s.ports).foldl flushOne s

/-- An idle step does not run while `engine.idle.enable` is 0: it is cancelled, its task queued again
(R295, log entry 146). -/
def stopIdle (s : State) (c : Nat) : State :=
  (tkeys (clusterAt s c).engines).foldl (fun s e =>
    if runsIdle (engineAt s c e) then cancelIdle s c e true else s) s

/-- Idle steps, outputs and load ports of the clusters as the beat begins. -/
def clustersBegin (s : State) : State :=
  let s := if rwBool s 0x5800 7 then s else (tkeys s.clusters).foldl stopIdle s
  (List.range 64).foldl loadBeat (reachEntries s)

/-- Reads and writes that waited for their beat are issued while requests are free (R79, R233). -/
def issueWaiting (s : State) : State := (List.range 8).foldl (fun s p => issueReads p 512 s) s

/-- The next beat begins: writes that waited for it take effect, time bases advance, buckets gain, pool
requests and arbiter requests are taken up. -/
def startOfBeat (s : State) : State :=
  let pins := (s.sys.soon.filterMap Soon.pin).eraseDups
  let s := runSoon { s with
    beat := (s.beat + 1) % 2 ^ 64, held := [],
    mem := { s.mem with oldUnits := [], oldExact := [] } }
  let s := clustersBegin (passEarly (gainAll (pins.foldl realignWritten (advanceAll (cellsSent (cellsArrive (giveReturned s)))))))
  scanArbs (sendNotifies (buildBeacons (issueWaiting s)))

/-- A CHIP reset by command comes 10,000 beats after it (R601). -/
def chipDue (s : State) : Bool :=
  match s.sys.chipAt with
  | some b => due s (b + 10000)
  | none => false

/-- The beat ends, and the next begins: flow control is evaluated after the beat's charges and releases
(R367). A part that the ending beat freezes keeps its beat (R614). -/
def passBeat (s : State) : State :=
  whenRun (endOfBeat s) fun s =>
    let s := startOfBeat (beatCounts (flushAll (queueFlows (evalAllX s))))
    if chipDue s then chipReset s 4 .inReset else s

/-- BEAT (R50). -/
def rowBeat (s : State) : State :=
  whenRun s passBeat

end Sys2Proof.Machine
end

