-- ==== Sys2Proof/Machine/ArbiterCommands.lean ====
section
/-! DEFINITION. Arbiters: the effect of each command (R497 to R509). A command acts after the
boundary that its beat owes (log entry 144). -/

namespace Sys2Proof.Machine

/-- ARBITER_ROUND (R500). -/
def execArbiterRound (arb : Nat) (s : State) : Host.Outcome State Fault Refusal :=
  .next (rowArbiterRound arb (settled s))

/-- ARBITER_GRANT_CUT (R502). -/
def execArbiterGrantCut (arb : Nat) (s : State) : Host.Outcome State Fault Refusal :=
  .next (rowArbiterGrantCut arb (settled s))

end Sys2Proof.Machine
end

