-- ==== Sys2Proof/Machine/CipherCommands.lean ====
section
/-! DEFINITION. Cipher: the effect of each command (R436 to R470). A command acts after the
boundary that its beat owes (log entry 144). -/

namespace Sys2Proof.Machine

/-- MACSEC_RX_FRAME (R447). -/
def execMacsecRxFrame (node : Nat) (frame : Bytes) (phase : Nat) (faulty : Bool) (s : State) :
    Host.Outcome State Fault Refusal :=
  .next (rowMacsecRxFrame node frame phase faulty (settled s))

/-- MACSEC_RX_DELIVER (R449). -/
def execMacsecRxDeliver (node : Nat) (exactEcc : Ecc) (s : State) :
    Host.Outcome State Fault Refusal :=
  .next (rowMacsecRxDeliver node exactEcc (settled s))

/-- ENTROPY_HEALTH_FAIL (R468). -/
def execEntropyHealthFail (s : State) : Host.Outcome State Fault Refusal :=
  .next (rowEntropyHealthFail (settled s))

/-- CIPHER_UNIT_RESTORE (R467). -/
def execCipherUnitRestore (src : Origin) (unit : Nat) (s : State) :
    Host.Outcome State Fault Refusal :=
  .next (rowCipherUnitRestore src unit (settled s))

/-- CIPHER_KAT_DONE (R467). -/
def execCipherKatDone (unit : Nat) (pass : Bool) (s : State) : Host.Outcome State Fault Refusal :=
  .next (rowCipherKatDone unit pass (settled s))

/-- LOOKASIDE_JOB (R460). -/
def execLookasideJob (ring : Nat) (record aad data tag : Bytes) (faulty : Bool) (s : State) :
    Host.Outcome State Fault Refusal :=
  .next (rowLookasideJob ring record aad data tag faulty (settled s))

/-- LOOKASIDE_JOB_COMPLETE (R461). -/
def execLookasideJobComplete (ring : Nat) (s : State) : Host.Outcome State Fault Refusal :=
  .next (rowLookasideJobComplete ring (settled s))

end Sys2Proof.Machine
end

