-- ==== Sys2Proof/Machine/ControlCommands.lean ====
section
/-! DEFINITION. Releases, power, log, I2C and the rest: the effect of each command (R612, R613, R618, R621, R630). A command acts after the
boundary that its beat owes (log entry 144). -/

namespace Sys2Proof.Machine

/-- RELEASE_PORT (R621). -/
def execReleasePort (src : Origin) (node cls : Nat) (s : State) :
    Host.Outcome State Fault Refusal :=
  .next (rowReleasePort src node cls (settled s))

/-- RELEASE_FUNCTION (R621). -/
def execReleaseFunction (src : Origin) (fn : Nat) (s : State) : Host.Outcome State Fault Refusal :=
  .next (rowReleaseFunction src fn (settled s))

/-- RELEASE_RING (R621). -/
def execReleaseRing (src : Origin) (ring : Nat) (s : State) : Host.Outcome State Fault Refusal :=
  .next (rowReleaseRing src ring (settled s))

/-- RELEASE_SESSION (R621). -/
def execReleaseSession (src : Origin) (sess : Nat) (s : State) : Host.Outcome State Fault Refusal :=
  .next (rowReleaseSession src sess (settled s))

/-- RELEASE_POOL_OWNER (R621). -/
def execReleasePoolOwner (src : Origin) (owner : Nat) (s : State) :
    Host.Outcome State Fault Refusal :=
  .next (rowReleasePoolOwner src owner (settled s))

/-- POWER_PIPE_OFF (R612). -/
def execPowerPipeOff (src : Origin) (pipe : Nat) (s : State) : Host.Outcome State Fault Refusal :=
  .next (rowPowerPipeOff src pipe (settled s))

/-- POWER_PIPE_WAKE (R613). -/
def execPowerPipeWake (src : Origin) (pipe : Nat) (s : State) : Host.Outcome State Fault Refusal :=
  .next (rowPowerPipeWake src pipe (settled s))

/-- PIPE_POWER (R613). -/
def execPipePower (pipe : Nat) (s : State) : Host.Outcome State Fault Refusal :=
  .next (rowPipePower pipe (settled s))

/-- EVENT_LOG_ACK (R618). -/
def execEventLogAck (src : Origin) (seq : Nat) (s : State) : Host.Outcome State Fault Refusal :=
  .next (rowEventLogAck src seq (settled s))

/-- I2C_POINTER_WRITE (R630). -/
def execI2cPointerWrite (pointer : Nat) (s : State) : Host.Outcome State Fault Refusal :=
  .next (rowI2cPointerWrite pointer (settled s))

/-- I2C_READ (R630). -/
def execI2cRead (count : Nat) (s : State) : Host.Outcome State Fault Refusal :=
  .next (rowI2cRead count (settled s))

/-- OBJECT_WRITE (R566). -/
def execObjectWrite (src : Origin) (index sub row : Nat) (value : Bytes) (s : State) :
    Host.Outcome State Fault Refusal :=
  .next (rowObjectWrite src index sub row value (settled s))

/-- KEPT_COEFFICIENTS_LOCK_TIMEOUT (R113). -/
def execKeptCoefficientsLockTimeout (node : Nat) (s : State) : Host.Outcome State Fault Refusal :=
  .next (rowKeptCoefficientsLockTimeout node (settled s))

/-- SRIOV_VF_ENABLE (R510, R542). -/
def execSriovVfEnable (count : Nat) (s : State) : Host.Outcome State Fault Refusal :=
  .next (rowSriovVfEnable count (settled s))

/-- PCIE_LINK_TRAINED (R510). -/
def execPcieLinkTrained (speed width : Nat) (s : State) : Host.Outcome State Fault Refusal :=
  .next (rowPcieLinkTrained speed width (settled s))

/-- BUF_CELLS_FREE_LOW_READ (R392). -/
def execBufCellsFreeLowRead (s : State) : Host.Outcome State Fault Refusal :=
  .next (rowBufCellsFreeLowRead (settled s))

end Sys2Proof.Machine
end

