-- ==== Sys2Proof/Machine/CounterCommands.lean ====
section
/-! DEFINITION. Counters: the effect of each command (R579, R594, R595). A command acts after the
boundary that its beat owes (log entry 144). -/

namespace Sys2Proof.Machine

/-- CNT_OVERFLOW_CLEAR (R579). -/
def execCntOverflowClear (src : Origin) (number : Nat) (s : State) :
    Host.Outcome State Fault Refusal :=
  .next (rowCntOverflowClear src number (settled s))

/-- CNT_FILTER_SELECT (R594). -/
def execCntFilterSelect (src : Origin) (row : Nat) (value : Bytes) (s : State) :
    Host.Outcome State Fault Refusal :=
  .next (rowCntFilterSelect src row value (settled s))

/-- CNT_FILTER_CHAIN (R595). -/
def execCntFilterChain (src : Origin) (value : Bytes) (s : State) :
    Host.Outcome State Fault Refusal :=
  .next (rowCntFilterChain src value (settled s))

end Sys2Proof.Machine
end

