-- ==== Sys2Proof/Machine/FrameCommands.lean ====
section
/-! DEFINITION. Frames: the effect of each command (R95, R338, R361 to R390). A command acts after the
boundary that its beat owes (log entry 144). -/

namespace Sys2Proof.Machine

/-- FRAME_INGRESS (R95). -/
def execFrameIngress (node : Nat) (frame : Bytes) (phase : Nat) (exactEcc : Ecc) (s : State) :
    Host.Outcome State Fault Refusal :=
  .next (rowFrameIngress node frame phase exactEcc (settled s))

/-- FRAME_TAIL (R338). -/
def execFrameTail (tail : Tail) (s : State) : Host.Outcome State Fault Refusal :=
  .next (rowFrameTail tail.node tail.cells (settled s))

/-- POLICER_JUDGE (R423, R425). -/
def execPolicerJudge (pkt : Nat) (s : State) : Host.Outcome State Fault Refusal :=
  .next (rowPolicerJudge pkt (settled s))

/-- EGRESS_ENTRY (R377). -/
def execEgressEntry (pkt : Nat) (s : State) : Host.Outcome State Fault Refusal :=
  .next (rowEgressEntry pkt (settled s))

/-- FRAME_TRANSMIT_START (R416). -/
def execFrameTransmitStart (node : Nat) (cells : List (Nat × Ecc)) (cipherFault : Option Nat) (s : State) :
    Host.Outcome State Fault Refusal :=
  .next (rowFrameTransmitStart node cells cipherFault (settled s))

/-- FRAME_TRANSMIT_END (R361). -/
def execFrameTransmitEnd (node : Nat) (s : State) : Host.Outcome State Fault Refusal :=
  .next (rowFrameTransmitEnd node (settled s))

/-- COPY_DELIVER (R390). -/
def execCopyDeliver (copy : Nat) (delivery : Delivery) (s : State) :
    Host.Outcome State Fault Refusal :=
  .next (rowCopyDeliver copy delivery.descs delivery.cells (settled s))

/-- SAMPLE_FORMAT_TIMEOUT (R389). -/
def execSampleFormatTimeout (copy : Nat) (s : State) : Host.Outcome State Fault Refusal :=
  .next (rowSampleFormatTimeout copy (settled s))

/-- EXPORT_MESSAGE_SEND (R355). -/
def execExportMessageSend (domain count : Nat) (descs : List (Nat × Nat)) (s : State) :
    Host.Outcome State Fault Refusal :=
  .next (rowExportMessageSend domain count descs (settled s))

/-- FLOW_CONTROL_FRAME_SEND (R368). -/
def execFlowControlFrameSend (node : Nat) (s : State) : Host.Outcome State Fault Refusal :=
  .next (rowFlowControlFrameSend node (settled s))

/-- FLOW_CONTROL_REPEAT (R368). -/
def execFlowControlRepeat (node : Nat) (s : State) : Host.Outcome State Fault Refusal :=
  .next (rowFlowControlRepeat node (settled s))

/-- PAUSE_FRAME_RECEIVE (R369). -/
def execPauseFrameReceive (node : Nat) (frame : Bytes) (s : State) :
    Host.Outcome State Fault Refusal :=
  .next (rowPauseFrameReceive node frame (settled s))

/-- PAUSE_EXPIRY (R369). -/
def execPauseExpiry (node cls : Nat) (s : State) : Host.Outcome State Fault Refusal :=
  .next (rowPauseExpiry node cls (settled s))

/-- LINK_HOLD_EXPIRY (R381 step 3). -/
def execLinkHoldExpiry (node : Nat) (s : State) : Host.Outcome State Fault Refusal :=
  .next (rowLinkHoldExpiry node (settled s))

/-- LINK_FLUSHED (R381 step 4). -/
def execLinkFlushed (node : Nat) (s : State) : Host.Outcome State Fault Refusal :=
  .next (rowLinkFlushed node (settled s))

/-- GATE_LIST_STARTED (R429). -/
def execGateListStarted (node : Nat) (s : State) : Host.Outcome State Fault Refusal :=
  .next (rowGateListStarted node (settled s))

/-- GATE_INSTANT (R430). -/
def execGateInstant (node : Nat) (s : State) : Host.Outcome State Fault Refusal :=
  .next (rowGateInstant node (settled s))

end Sys2Proof.Machine
end

