-- ==== Sys2Proof/Machine/HomeCommands.lean ====
section
/-! DEFINITION. Home halves, HBM, clusters: the effect of each command (R65 to R81, R212 to R317). A command acts after the
boundary that its beat owes (log entry 144). -/

namespace Sys2Proof.Machine

/-- HOME_BEAT (R65). -/
def execHomeBeat (pipe : Nat) (upset : Option (Nat × Ecc)) (s : State) :
    Host.Outcome State Fault Refusal :=
  .next (rowHomeBeat pipe upset (settled s))

/-- HBM_READ_LAND (R214, R226, R233, R78). -/
def execHbmReadLand (pipe read : Nat) (ecc : Ecc) (s : State) : Host.Outcome State Fault Refusal :=
  .next (rowHbmReadLand pipe read ecc (settled s))

/-- HBM_WRITE_LAND (R231). -/
def execHbmWriteLand (pipe slot : Nat) (s : State) : Host.Outcome State Fault Refusal :=
  .next (rowHbmWriteLand pipe slot (settled s))

/-- HOLDING_QUEUE_RELEASE (R80). -/
def execHoldingQueueRelease (pipe : Nat) (s : State) : Host.Outcome State Fault Refusal :=
  .next (rowHoldingQueueRelease pipe (settled s))

/-- MICROWORD_ISSUE (R270 to R284, R312). -/
def execMicrowordIssue (cluster engine : Nat) (ecc : Ecc) (s : State) :
    Host.Outcome State Fault Refusal :=
  .next (rowMicrowordIssue cluster engine ecc (settled s))

/-- ENGINE_BUDGET_TRAP (R76, R312). -/
def execEngineBudgetTrap (cluster engine : Nat) (s : State) : Host.Outcome State Fault Refusal :=
  .next (rowEngineBudgetTrap cluster engine (settled s))

/-- RESEQUENCER_RELEASE (R292). -/
def execResequencerRelease (cluster : Nat) (s : State) : Host.Outcome State Fault Refusal :=
  .next (rowResequencerRelease cluster (settled s))

/-- VERIFY_RESULT (R459). -/
def execVerifyResult (pkt : Nat) (faulty : Bool) (s : State) : Host.Outcome State Fault Refusal :=
  .next (rowVerifyResult pkt faulty (settled s))

/-- IDLE_STEP_START (R296). -/
def execIdleStepStart (cluster : Nat) (s : State) : Host.Outcome State Fault Refusal :=
  .next (rowIdleStepStart cluster (settled s))

/-- IDLE_STEP_PUBLISH (R296). -/
def execIdleStepPublish (cluster engine : Nat) (hostData : Bytes) (s : State) :
    Host.Outcome State Fault Refusal :=
  .next (rowIdleStepPublish cluster engine hostData (settled s))

/-- IDLE_OVERRUN (R297). -/
def execIdleOverrun (cluster engine : Nat) (s : State) : Host.Outcome State Fault Refusal :=
  .next (rowIdleOverrun cluster engine (settled s))

/-- PACKET_COMMIT (R329). -/
def execPacketCommit (pipe : Nat) (s : State) : Host.Outcome State Fault Refusal :=
  .next (rowPacketCommit pipe (settled s))

/-- AGE_COMMIT (R247, R248). -/
def execAgeCommit (pipe : Nat) (s : State) : Host.Outcome State Fault Refusal :=
  .next (rowAgeCommit pipe (settled s))

/-- RELOC_MOVE_COMMIT (R243). -/
def execRelocMoveCommit (pipe : Nat) (s : State) : Host.Outcome State Fault Refusal :=
  .next (rowRelocMoveCommit pipe (settled s))

/-- DSCRUB_COMMIT (R252, R254). -/
def execDscrubCommit (pipe : Nat) (s : State) : Host.Outcome State Fault Refusal :=
  .next (rowDscrubCommit pipe (settled s))

/-- HCMD_INSERT (R258). -/
def execHcmdInsert (pipe : Nat) (s : State) : Host.Outcome State Fault Refusal :=
  .next (rowHcmdInsert pipe (settled s))

/-- HCMD_DELETE (R258). -/
def execHcmdDelete (pipe : Nat) (s : State) : Host.Outcome State Fault Refusal :=
  .next (rowHcmdDelete pipe (settled s))

/-- HCMD_MODIFY (R258). -/
def execHcmdModify (pipe : Nat) (s : State) : Host.Outcome State Fault Refusal :=
  .next (rowHcmdModify pipe (settled s))

/-- HCMD_READ (R258). -/
def execHcmdRead (pipe : Nat) (s : State) : Host.Outcome State Fault Refusal :=
  .next (rowHcmdRead pipe (settled s))

/-- HCMD_REJECTED (R257). -/
def execHcmdRejected (pipe : Nat) (s : State) : Host.Outcome State Fault Refusal :=
  .next (rowHcmdRejected pipe (settled s))

/-- FLOW_QUARANTINE_RELEASE (R251). -/
def execFlowQuarantineRelease (src : Origin) (slot : Nat) (s : State) :
    Host.Outcome State Fault Refusal :=
  .next (rowFlowQuarantineRelease src slot (settled s))

/-- NAT_RELEASE (R343). -/
def execNatRelease (src : Origin) (entry : Nat) (s : State) : Host.Outcome State Fault Refusal :=
  .next (rowNatRelease src entry (settled s))

end Sys2Proof.Machine
end

