-- ==== Sys2Proof/Machine/HostCommands.lean ====
section
/-! DEFINITION. Host interface: the effect of each command (R510 to R544). A command acts after the
boundary that its beat owes (log entry 144). -/

namespace Sys2Proof.Machine

/-- RX_RING_DOORBELL (R521). -/
def execRxRingDoorbell (fn ring count : Nat) (s : State) : Host.Outcome State Fault Refusal :=
  .next (rowRxRingDoorbell fn ring count (settled s))

/-- TX_RING_DOORBELL (R521). -/
def execTxRingDoorbell (fn ring count : Nat) (s : State) : Host.Outcome State Fault Refusal :=
  .next (rowTxRingDoorbell fn ring count (settled s))

/-- CMD_RING_DOORBELL (R63, R536). -/
def execCmdRingDoorbell (fn pipe count : Nat) (bodies : List Bytes) (s : State) :
    Host.Outcome State Fault Refusal :=
  .next (rowCmdRingDoorbell fn pipe count bodies (settled s))

/-- COMPLETION_RING_DOORBELL (R521). -/
def execCompletionRingDoorbell (fn pipe count : Nat) (s : State) :
    Host.Outcome State Fault Refusal :=
  .next (rowCompletionRingDoorbell fn pipe count (settled s))

/-- BYTE_RING_DOORBELL (R538). -/
def execByteRingDoorbell (fn : Nat) (eventRing : Bool) (offset : Nat) (s : State) :
    Host.Outcome State Fault Refusal :=
  .next (rowByteRingDoorbell fn eventRing offset (settled s))

/-- TX_DESCRIPTOR_FETCH (R529). -/
def execTxDescriptorFetch (ring : Nat) (words : List Nat) (s : State) :
    Host.Outcome State Fault Refusal :=
  .next (rowTxDescriptorFetch ring words (settled s))

/-- TX_FRAME_ENTER (R532). -/
def execTxFrameEnter (ring : Nat) (buffer : Bytes) (s : State) : Host.Outcome State Fault Refusal :=
  .next (rowTxFrameEnter ring buffer (settled s))

/-- RX_WRITEBACK (R522). -/
def execRxWriteback (ring : Nat) (delivery : Delivery) (s : State) :
    Host.Outcome State Fault Refusal :=
  .next (rowRxWriteback ring delivery.descs delivery.cells (settled s))

/-- COMPLETION_WRITE (R537). -/
def execCompletionWrite (pipe : Nat) (s : State) : Host.Outcome State Fault Refusal :=
  .next (rowCompletionWrite pipe (settled s))

/-- EVENT_RECORD_WRITE (R540). -/
def execEventRecordWrite (s : State) : Host.Outcome State Fault Refusal :=
  .next (rowEventRecordWrite (settled s))

/-- MSIX_TIMER_EXPIRY (R523). -/
def execMsixTimerExpiry (ring : Nat) (s : State) : Host.Outcome State Fault Refusal :=
  .next (rowMsixTimerExpiry ring (settled s))

/-- RING_ENABLE (R524, R543). -/
def execRingEnable (src : Origin) (ring : Nat) (row : Bytes) (s : State) :
    Host.Outcome State Fault Refusal :=
  .next (rowRingEnable src ring row (settled s))

/-- RING_DISABLE (R543). -/
def execRingDisable (src : Origin) (ring : Nat) (s : State) : Host.Outcome State Fault Refusal :=
  .next (rowRingDisable src ring (settled s))

/-- RING_STOPPED (R543). -/
def execRingStopped (ring : Nat) (s : State) : Host.Outcome State Fault Refusal :=
  .next (rowRingStopped ring (settled s))

/-- DMA_READ_ERROR (R515). -/
def execDmaReadError (fn ring : Nat) (s : State) : Host.Outcome State Fault Refusal :=
  .next (rowDmaReadError fn ring (settled s))

/-- BAR_WRITE (R512). -/
def execBarWrite (fn bar offset value : Nat) (s : State) : Host.Outcome State Fault Refusal :=
  .next (rowBarWrite fn bar offset value (settled s))

/-- POOL_ALLOCATE (R401). -/
def execPoolAllocate (fn seq length : Nat) (s : State) : Host.Outcome State Fault Refusal :=
  .next (rowPoolAllocate fn seq length (settled s))

/-- POOL_FREE (R405). -/
def execPoolFree (fn seq handle : Nat) (s : State) : Host.Outcome State Fault Refusal :=
  .next (rowPoolFree fn seq handle (settled s))

/-- POOL_REQ_INVALID (R405). -/
def execPoolReqInvalid (fn op seq : Nat) (s : State) : Host.Outcome State Fault Refusal :=
  .next (rowPoolReqInvalid fn op seq (settled s))

/-- POOL_OWNER_RECLAIM (R406). -/
def execPoolOwnerReclaim (src : Origin) (owner : Nat) (s : State) :
    Host.Outcome State Fault Refusal :=
  .next (rowPoolOwnerReclaim src owner (settled s))

end Sys2Proof.Machine
end

