-- ==== Sys2Proof/Machine/MabinCommands.lean ====
section
/-! DEFINITION. The Mabin protocol: the effect of each command (R554 to R575). A command acts after the
boundary that its beat owes (log entry 144). -/

namespace Sys2Proof.Machine

/-- MABIN_HELLO (R561). -/
def execMabinHello (path : MabinPath) (msg : Bytes) (s : State) :
    Host.Outcome State Fault Refusal :=
  .next (rowMabinHello path msg (settled s))

/-- MABIN_HELLO_REKEY (R564). -/
def execMabinHelloRekey (path : MabinPath) (msg : Bytes) (s : State) :
    Host.Outcome State Fault Refusal :=
  .next (rowMabinHelloRekey path msg (settled s))

/-- MABIN_HELLO_CLOSE (R564). -/
def execMabinHelloClose (path : MabinPath) (msg : Bytes) (s : State) :
    Host.Outcome State Fault Refusal :=
  .next (rowMabinHelloClose path msg (settled s))

/-- MABIN_READ (R565). -/
def execMabinRead (path : MabinPath) (msg : Bytes) (s : State) : Host.Outcome State Fault Refusal :=
  .next (rowMabinRead path msg (settled s))

/-- MABIN_WRITE (R566). -/
def execMabinWrite (path : MabinPath) (msg : Bytes) (s : State) :
    Host.Outcome State Fault Refusal :=
  .next (rowMabinWrite path msg (settled s))

/-- MABIN_STAGE (R571). -/
def execMabinStage (path : MabinPath) (msg : Bytes) (s : State) :
    Host.Outcome State Fault Refusal :=
  .next (rowMabinStage path msg (settled s))

/-- MABIN_COMMIT (R572). -/
def execMabinCommit (path : MabinPath) (msg : Bytes) (s : State) :
    Host.Outcome State Fault Refusal :=
  .next (rowMabinCommit path msg (settled s))

/-- MABIN_LOCK (R569). -/
def execMabinLock (path : MabinPath) (msg : Bytes) (s : State) : Host.Outcome State Fault Refusal :=
  .next (rowMabinLock path msg (settled s))

/-- MABIN_UNLOCK (R573). -/
def execMabinUnlock (path : MabinPath) (msg : Bytes) (s : State) :
    Host.Outcome State Fault Refusal :=
  .next (rowMabinUnlock path msg (settled s))

/-- SUBSCRIBE_ADD_EVENTS (R574). -/
def execSubscribeAddEvents (path : MabinPath) (msg : Bytes) (s : State) :
    Host.Outcome State Fault Refusal :=
  .next (rowSubscribeAddEvents path msg (settled s))

/-- SUBSCRIBE_ADD_OBJECT (R574). -/
def execSubscribeAddObject (path : MabinPath) (msg : Bytes) (s : State) :
    Host.Outcome State Fault Refusal :=
  .next (rowSubscribeAddObject path msg (settled s))

/-- SUBSCRIBE_REMOVE_ALL (R574). -/
def execSubscribeRemoveAll (path : MabinPath) (msg : Bytes) (s : State) :
    Host.Outcome State Fault Refusal :=
  .next (rowSubscribeRemoveAll path msg (settled s))

/-- BLOCK_READ (R568). -/
def execBlockRead (path : MabinPath) (msg : Bytes) (s : State) : Host.Outcome State Fault Refusal :=
  .next (rowBlockRead path msg (settled s))

/-- BLOCK_WRITE (R568). -/
def execBlockWrite (path : MabinPath) (msg : Bytes) (s : State) :
    Host.Outcome State Fault Refusal :=
  .next (rowBlockWrite path msg (settled s))

/-- MBOX_IN_WRITE (R555). -/
def execMboxInWrite (msg : Bytes) (s : State) : Host.Outcome State Fault Refusal :=
  .next (rowMboxInWrite msg (settled s))

/-- MBOX_OUT_READ (R555). -/
def execMboxOutRead (s : State) : Host.Outcome State Fault Refusal :=
  .next (rowMboxOutRead (settled s))

/-- SESSION_IDLE_EXPIRY (R564). -/
def execSessionIdleExpiry (sess : Nat) (s : State) : Host.Outcome State Fault Refusal :=
  .next (rowSessionIdleExpiry sess (settled s))

/-- LOCK_EXPIRED (R570). -/
def execLockExpired (s : State) : Host.Outcome State Fault Refusal :=
  .next (rowLockExpired (settled s))

/-- LOCAL_LOCK (R553). -/
def execLocalLock (s : State) : Host.Outcome State Fault Refusal :=
  .next (rowLocalLock (settled s))

/-- LOCAL_UNLOCK (R553). -/
def execLocalUnlock (s : State) : Host.Outcome State Fault Refusal :=
  .next (rowLocalUnlock (settled s))

/-- LOCAL_COMMIT (R553). -/
def execLocalCommit (target : Nat) (unlock : Bool) (s : State) : Host.Outcome State Fault Refusal :=
  .next (rowLocalCommit target unlock (settled s))

/-- MABIN_CRED_WRITE (R560, R567). -/
def execMabinCredWrite (src : Origin) (value : Bytes) (s : State) :
    Host.Outcome State Fault Refusal :=
  .next (rowMabinCredWrite src value (settled s))

/-- CIPHER_KEY_WRITE (R441). -/
def execCipherKeyWrite (src : Origin) (value : Bytes) (s : State) :
    Host.Outcome State Fault Refusal :=
  .next (rowCipherKeyWrite src value (settled s))

end Sys2Proof.Machine
end

