-- ==== Sys2Proof/Machine/PortCommands.lean ====
section
/-! DEFINITION. Ports and lanes: the effect of each command (R87 to R115). A command acts after the
boundary that its beat owes (log entry 144). -/

namespace Sys2Proof.Machine

/-- PORT_ENABLE (R103). -/
def execPortEnable (src : Origin) (node : Nat) (s : State) : Host.Outcome State Fault Refusal :=
  .next (rowPortEnable src node (settled s))

/-- PORT_DISABLE (R381). -/
def execPortDisable (src : Origin) (node : Nat) (s : State) : Host.Outcome State Fault Refusal :=
  .next (rowPortDisable src node (settled s))

/-- AN_COMPLETE (R102 step 2). -/
def execAnComplete (node mode fec : Nat) (s : State) : Host.Outcome State Fault Refusal :=
  .next (rowAnComplete node mode fec (settled s))

/-- TRAINING_DONE (R102 step 3). -/
def execTrainingDone (node : Nat) (coeffs : List Nat) (s : State) :
    Host.Outcome State Fault Refusal :=
  .next (rowTrainingDone node coeffs (settled s))

/-- TRAINING_TIMEOUT (R104). -/
def execTrainingTimeout (node : Nat) (s : State) : Host.Outcome State Fault Refusal :=
  .next (rowTrainingTimeout node (settled s))

/-- LINK_UP (R102 step 5). -/
def execLinkUp (node skew : Nat) (s : State) : Host.Outcome State Fault Refusal :=
  .next (rowLinkUp node skew (settled s))

/-- LOCK_TIMEOUT (R93, R104). -/
def execLockTimeout (node skew : Nat) (s : State) : Host.Outcome State Fault Refusal :=
  .next (rowLockTimeout node skew (settled s))

/-- RESTART_DELAY_EXPIRY (R104). -/
def execRestartDelayExpiry (node : Nat) (s : State) : Host.Outcome State Fault Refusal :=
  .next (rowRestartDelayExpiry node (settled s))

/-- LINK_DOWN (R91, R104). -/
def execLinkDown (node : Nat) (s : State) : Host.Outcome State Fault Refusal :=
  .next (rowLinkDown node (settled s))

/-- LINK_HI_BER (R94). -/
def execLinkHiBer (node cause : Nat) (s : State) : Host.Outcome State Fault Refusal :=
  .next (rowLinkHiBer node cause (settled s))

/-- LINK_FAULT_CLEAR (R94). -/
def execLinkFaultClear (node : Nat) (s : State) : Host.Outcome State Fault Refusal :=
  .next (rowLinkFaultClear node (settled s))

/-- SER_REFCLK_LOST (R106). -/
def execSerRefclkLost (pipe : Nat) (s : State) : Host.Outcome State Fault Refusal :=
  .next (rowSerRefclkLost pipe (settled s))

/-- SER_REFCLK_RESTORED (R106). -/
def execSerRefclkRestored (pipe : Nat) (s : State) : Host.Outcome State Fault Refusal :=
  .next (rowSerRefclkRestored pipe (settled s))

/-- LANE_SEARCH_ENTER (R108). -/
def execLaneSearchEnter (src : Origin) (lane : Nat) (s : State) :
    Host.Outcome State Fault Refusal :=
  .next (rowLaneSearchEnter src lane (settled s))

/-- LANE_SEARCH_SLIP (R109). -/
def execLaneSearchSlip (src : Origin) (lane ui : Nat) (s : State) :
    Host.Outcome State Fault Refusal :=
  .next (rowLaneSearchSlip src lane ui (settled s))

/-- LANE_SEARCH_WINDOW_END (R109). -/
def execLaneSearchWindowEnd (lane errors : Nat) (s : State) : Host.Outcome State Fault Refusal :=
  .next (rowLaneSearchWindowEnd lane errors (settled s))

/-- LANE_SEARCH_EXIT (R110). -/
def execLaneSearchExit (src : Origin) (lane : Nat) (s : State) : Host.Outcome State Fault Refusal :=
  .next (rowLaneSearchExit src lane (settled s))

/-- LANE_POWER_DEEP (R113). -/
def execLanePowerDeep (src : Origin) (lane : Nat) (s : State) : Host.Outcome State Fault Refusal :=
  .next (rowLanePowerDeep src lane (settled s))

/-- LANE_POWER_OFF (R113). -/
def execLanePowerOff (src : Origin) (lane : Nat) (s : State) : Host.Outcome State Fault Refusal :=
  .next (rowLanePowerOff src lane (settled s))

/-- LANE_POWER_ACTIVE (R113). -/
def execLanePowerActive (src : Origin) (lane : Nat) (s : State) :
    Host.Outcome State Fault Refusal :=
  .next (rowLanePowerActive src lane (settled s))

/-- LPI_ENTER (R111). -/
def execLpiEnter (node : Nat) (s : State) : Host.Outcome State Fault Refusal :=
  .next (rowLpiEnter node (settled s))

/-- LPI_WAKE (R111). -/
def execLpiWake (node : Nat) (s : State) : Host.Outcome State Fault Refusal :=
  .next (rowLpiWake node (settled s))

end Sys2Proof.Machine
end

