-- ==== Sys2Proof/Machine/ResetCommands.lean ====
section
/-! DEFINITION. Resets, supply, freeze: the effect of each command (R601 to R616). A command acts after the
boundary that its beat owes (log entry 144). -/

namespace Sys2Proof.Machine

/-- POR_N_ASSERT (R601). -/
def execPorNAssert (internal : Bool) (s : State) : Host.Outcome State Fault Refusal :=
  .next (rowPorNAssert internal s)

/-- RESET_N_ASSERT (R601). -/
def execResetNAssert (s : State) : Host.Outcome State Fault Refusal :=
  .next (rowResetNAssert s)

/-- BOOT (R606). -/
def execBoot (bootsel : Nat) (flash : Option Bytes) (flashSig pcieSig : Bool) (hbmOk sramOk : Bool) (s : State) :
    Host.Outcome State Fault Refusal :=
  .next (rowBoot bootsel flash flashSig pcieSig hbmOk sramOk s)

/-- RESET_BOOT_IMAGE_WRITE (R607, R608). -/
def execResetBootImageWrite (image : Bytes) (s : State) : Host.Outcome State Fault Refusal :=
  .next (rowResetBootImageWrite image s)

/-- RESET_CMD_CHIP (R601). -/
def execResetCmdChip (src : Origin) (s : State) : Host.Outcome State Fault Refusal :=
  .next (rowResetCmdChip src (settled s))

/-- RESET_CMD_SOFT (R601). -/
def execResetCmdSoft (src : Origin) (s : State) : Host.Outcome State Fault Refusal :=
  .next (rowResetCmdSoft src (settled s))

/-- RESET_CMD_PIPE (R601). -/
def execResetCmdPipe (src : Origin) (pipe : Nat) (s : State) : Host.Outcome State Fault Refusal :=
  .next (rowResetCmdPipe src pipe (settled s))

/-- RESET_CMD_PORT (R601, R604). -/
def execResetCmdPort (src : Origin) (node : Nat) (s : State) : Host.Outcome State Fault Refusal :=
  .next (rowResetCmdPort src node (settled s))

/-- SOFT_RESET (R603). -/
def execSoftReset (s : State) : Host.Outcome State Fault Refusal :=
  .next (rowSoftReset (pastCommit s))

/-- SOFT_RESET_DONE (R603 step 4). -/
def execSoftResetDone (s : State) : Host.Outcome State Fault Refusal :=
  .next (rowSoftResetDone s)

/-- PIPE_RESET_START (R605). -/
def execPipeResetStart (pipe : Nat) (s : State) : Host.Outcome State Fault Refusal :=
  .next (rowPipeResetStart pipe (pastSoft s))

/-- PIPE_RESET (R605). -/
def execPipeReset (pipe : Nat) (s : State) : Host.Outcome State Fault Refusal :=
  .next (rowPipeReset pipe (settled s))

/-- FUNCTION_RESET (R541). -/
def execFunctionReset (fn : Nat) (s : State) : Host.Outcome State Fault Refusal :=
  .next (rowFunctionReset fn (settled s))

/-- SUPPLY_WARN (R610). -/
def execSupplyWarn (mon mv : Nat) (s : State) : Host.Outcome State Fault Refusal :=
  .next (rowSupplyWarn mon mv (settled s))

/-- SUPPLY_DIP (R610). -/
def execSupplyDip (mon mv : Nat) (s : State) : Host.Outcome State Fault Refusal :=
  .next (rowSupplyDip mon mv (settled s))

/-- SUPPLY_OK (R610). -/
def execSupplyOk (s : State) : Host.Outcome State Fault Refusal :=
  .next (rowSupplyOk (settled s))

/-- SUPPLY_RESET (R611). -/
def execSupplyReset (mon mv : Nat) (s : State) : Host.Outcome State Fault Refusal :=
  .next (rowSupplyReset mon mv s)

/-- SUPPLY_RESET_RELEASE (R611). -/
def execSupplyResetRelease (s : State) : Host.Outcome State Fault Refusal :=
  .next (rowSupplyResetRelease s)

/-- FREEZE (R614). -/
def execFreeze (s : State) : Host.Outcome State Fault Refusal :=
  .next (rowFreeze (settled s))

/-- DEBUG_FREEZE (R614). -/
def execDebugFreeze (src : Origin) (s : State) : Host.Outcome State Fault Refusal :=
  .next (rowDebugFreeze src (settled s))

end Sys2Proof.Machine
end

