-- ==== Sys2Proof/Machine/SearchCommands.lean ====
section
/-! DEFINITION. Search banks and egress tables: the effect of each command (R167 to R169, R435). A command acts after the
boundary that its beat owes (log entry 144). -/

namespace Sys2Proof.Machine

/-- TWRITE (R70, R167). -/
def execTwrite (pipe : Nat) (s : State) : Host.Outcome State Fault Refusal :=
  .next (rowTwrite pipe (settled s))

/-- TSCRUB (R70, R168). -/
def execTscrub (pipe : Nat) (found : Option TcamUnit) (shadow : Ecc) (s : State) :
    Host.Outcome State Fault Refusal :=
  .next (rowTscrub pipe found shadow (settled s))

/-- EWRITE (R70, R435). -/
def execEwrite (pipe : Nat) (s : State) : Host.Outcome State Fault Refusal :=
  .next (rowEwrite pipe (settled s))

end Sys2Proof.Machine
end

