-- ==== Sys2Proof/Machine/TableCommands.lean ====
section
/-! DEFINITION. Table writes: the effect of each command (R193, R198, R200, R308, R310, R316, R421, R435). A command acts after the
boundary that its beat owes (log entry 144). -/

namespace Sys2Proof.Machine

/-- SCHED_ROW_WRITE (R435). -/
def execSchedRowWrite (src : Origin) (level index : Nat) (row : Bytes) (s : State) :
    Host.Outcome State Fault Refusal :=
  .next (rowSchedRowWrite src level index row (settled s))

/-- SCHED_CLEAR_DEBT (R421). -/
def execSchedClearDebt (src : Origin) (value : Nat) (s : State) :
    Host.Outcome State Fault Refusal :=
  .next (rowSchedClearDebt src value (settled s))

/-- VERSION_CANCEL (R193). -/
def execVersionCancel (src : Origin) (version : Nat) (s : State) :
    Host.Outcome State Fault Refusal :=
  .next (rowVersionCancel src version (settled s))

/-- LEGACY_WRITE (R198). -/
def execLegacyWrite (src : Origin) (pipe : Nat) (row : Bytes) (s : State) :
    Host.Outcome State Fault Refusal :=
  .next (rowLegacyWrite src pipe row (settled s))

/-- BANK_MODE_WRITE (R200). -/
def execBankModeWrite (src : Origin) (bank mode : Nat) (s : State) :
    Host.Outcome State Fault Refusal :=
  .next (rowBankModeWrite src bank mode (settled s))

/-- ENGINE_IMAGE_STAGE (R310). -/
def execEngineImageStage (src : Origin) (image : Bytes) (last : Bool) (s : State) :
    Host.Outcome State Fault Refusal :=
  .next (rowEngineImageStage src image last (settled s))

/-- IMAGE_VERIFY (R311). -/
def execImageVerify (s : State) : Host.Outcome State Fault Refusal :=
  .next (rowImageVerify (settled s))

/-- ENGINE_KEY_ENROL (R308). -/
def execEngineKeyEnrol (src : Origin) (slot : Nat) (hash : Bytes) (badRead : Option Nat) (s : State) :
    Host.Outcome State Fault Refusal :=
  .next (rowEngineKeyEnrol src slot hash badRead (settled s))

/-- ENGINE_KEY_REVOKE (R308). -/
def execEngineKeyRevoke (src : Origin) (slot : Nat) (badRead : Option Nat) (s : State) :
    Host.Outcome State Fault Refusal :=
  .next (rowEngineKeyRevoke src slot badRead (settled s))

/-- ENGINE_CLUSTER_FREEZE (R316). -/
def execEngineClusterFreeze (src : Origin) (cluster : Nat) (s : State) :
    Host.Outcome State Fault Refusal :=
  .next (rowEngineClusterFreeze src cluster (settled s))

/-- ENGINE_CLUSTER_RELEASE (R316). -/
def execEngineClusterRelease (src : Origin) (cluster : Nat) (s : State) :
    Host.Outcome State Fault Refusal :=
  .next (rowEngineClusterRelease src cluster (settled s))

end Sys2Proof.Machine
end

