-- ==== Sys2Proof/Machine/TickCommands.lean ====
section
/-! DEFINITION. Beats, ticks, versions: the effect of each command (R50 to R64, R181 to R208). A command acts after the
boundary that its beat owes (log entry 144). -/

namespace Sys2Proof.Machine

/-- BEAT (R50). -/
def execBeat (s : State) : Host.Outcome State Fault Refusal :=
  .next (rowBeat (settled s))

/-- TICK_BOUNDARY (R61). -/
def execTickBoundary (s : State) : Host.Outcome State Fault Refusal :=
  .next (rowTickBoundary s)

/-- VERSION_COMMIT (R191). -/
def execVersionCommit (s : State) : Host.Outcome State Fault Refusal :=
  .next (rowVersionCommit (pastBoundary s))

/-- SLOT_RESERVE (R190). -/
def execSlotReserve (s : State) : Host.Outcome State Fault Refusal :=
  .next (rowSlotReserve (settled s))

/-- SLOT_RETIRE (R187). -/
def execSlotRetire (slot : Nat) (s : State) : Host.Outcome State Fault Refusal :=
  .next (rowSlotRetire slot (settled s))

/-- ETWEN_BEACON (R205). -/
def execEtwenBeacon (s : State) : Host.Outcome State Fault Refusal :=
  .next (rowEtwenBeacon (settled s))

/-- COUNTER_DUMP (R596). -/
def execCounterDump (s : State) : Host.Outcome State Fault Refusal :=
  .next (rowCounterDump (settled s))

/-- DUMP_RECORD_WRITE (R64). -/
def execDumpRecordWrite (s : State) : Host.Outcome State Fault Refusal :=
  .next (rowDumpRecordWrite (settled s))

/-- OBJECT_NOTIFY (R575). -/
def execObjectNotify (sess : Nat) (s : State) : Host.Outcome State Fault Refusal :=
  .next (rowObjectNotify sess (settled s))

/-- TEMPLATE_SET_SEND (R355). -/
def execTemplateSetSend (domain : Nat) (descs : List (Nat × Nat)) (s : State) :
    Host.Outcome State Fault Refusal :=
  .next (rowTemplateSetSend domain descs (settled s))

/-- IDLE_EXPORT_TASK (R295). -/
def execIdleExportTask (s : State) : Host.Outcome State Fault Refusal :=
  .next (rowIdleExportTask (settled s))

end Sys2Proof.Machine
end

