-- ==== Sys2Proof/Machine/TimeCommands.lean ====
section
/-! DEFINITION. Time bases and timed pins: the effect of each command (R471 to R496). A command acts after the
boundary that its beat owes (log entry 144). -/

namespace Sys2Proof.Machine

/-- TB_ENABLE (R476). -/
def execTbEnable (src : Origin) (tb : Nat) (s : State) : Host.Outcome State Fault Refusal :=
  .next (rowTbEnable src tb (settled s))

/-- TB_VALID (R476). -/
def execTbValid (tb : Nat) (s : State) : Host.Outcome State Fault Refusal :=
  .next (rowTbValid tb (settled s))

/-- TB_DISABLE (R477). -/
def execTbDisable (src : Origin) (tb : Nat) (s : State) : Host.Outcome State Fault Refusal :=
  .next (rowTbDisable src tb (settled s))

/-- TB_STEP (R478). -/
def execTbStep (src : Origin) (tb offset : Nat) (s : State) : Host.Outcome State Fault Refusal :=
  .next (rowTbStep src tb offset (settled s))

/-- TB_RATE_WRITE (R480). -/
def execTbRateWrite (src : Origin) (tb rate : Nat) (s : State) : Host.Outcome State Fault Refusal :=
  .next (rowTbRateWrite src tb rate (settled s))

/-- TB_SLEW (R481). -/
def execTbSlew (src : Origin) (tb offset : Nat) (s : State) : Host.Outcome State Fault Refusal :=
  .next (rowTbSlew src tb offset (settled s))

/-- TOUT_CONFIG_WRITE (R491). -/
def execToutConfigWrite (src : Origin) (pin sub value : Nat) (s : State) :
    Host.Outcome State Fault Refusal :=
  .next (rowToutConfigWrite src pin sub value (settled s))

/-- TIME_OUT_PULSE (R490). -/
def execTimeOutPulse (pin : Nat) (s : State) : Host.Outcome State Fault Refusal :=
  .next (rowTimeOutPulse pin (settled s))

/-- TIME_OUT_PULSE_END (R490). -/
def execTimeOutPulseEnd (pin : Nat) (s : State) : Host.Outcome State Fault Refusal :=
  .next (rowTimeOutPulseEnd pin (settled s))

/-- TIME_CAPTURE (R493). -/
def execTimeCapture (pin : Nat) (rise : Bool) (back : Nat) (s : State) :
    Host.Outcome State Fault Refusal :=
  .next (rowTimeCapture pin rise back (settled s))

/-- TIN_ACK (R494). -/
def execTinAck (src : Origin) (pin rows : Nat) (s : State) : Host.Outcome State Fault Refusal :=
  .next (rowTinAck src pin rows (settled s))

end Sys2Proof.Machine
end

