-- ==== Sys2Proof/Machine/Dispatch.lean ====
section
/-! DEFINITION. The dispatch: one arm for each row of the table. -/

namespace Sys2Proof.Machine

open Host

/-- The effect of a command on everything but the queue. -/
def exec (i : Instr) (s : State) : Host.Outcome State Fault Refusal :=
  match i with
  | .porNAssert internal => Sys2Proof.Machine.execPorNAssert internal s
  | .resetNAssert => Sys2Proof.Machine.execResetNAssert s
  | .boot bootsel flash flashSig pcieSig hbmOk sramOk => Sys2Proof.Machine.execBoot bootsel flash flashSig pcieSig hbmOk sramOk s
  | .resetBootImageWrite image => Sys2Proof.Machine.execResetBootImageWrite image s
  | .resetCmdChip src => Sys2Proof.Machine.execResetCmdChip src s
  | .resetCmdSoft src => Sys2Proof.Machine.execResetCmdSoft src s
  | .resetCmdPipe src pipe => Sys2Proof.Machine.execResetCmdPipe src pipe s
  | .resetCmdPort src node => Sys2Proof.Machine.execResetCmdPort src node s
  | .softReset => Sys2Proof.Machine.execSoftReset s
  | .softResetDone => Sys2Proof.Machine.execSoftResetDone s
  | .pipeResetStart pipe => Sys2Proof.Machine.execPipeResetStart pipe s
  | .pipeReset pipe => Sys2Proof.Machine.execPipeReset pipe s
  | .functionReset fn => Sys2Proof.Machine.execFunctionReset fn s
  | .supplyWarn mon mv => Sys2Proof.Machine.execSupplyWarn mon mv s
  | .supplyDip mon mv => Sys2Proof.Machine.execSupplyDip mon mv s
  | .supplyOk => Sys2Proof.Machine.execSupplyOk s
  | .supplyReset mon mv => Sys2Proof.Machine.execSupplyReset mon mv s
  | .supplyResetRelease => Sys2Proof.Machine.execSupplyResetRelease s
  | .freeze => Sys2Proof.Machine.execFreeze s
  | .debugFreeze src => Sys2Proof.Machine.execDebugFreeze src s
  | .beat => Sys2Proof.Machine.execBeat s
  | .tickBoundary => Sys2Proof.Machine.execTickBoundary s
  | .versionCommit => Sys2Proof.Machine.execVersionCommit s
  | .slotReserve => Sys2Proof.Machine.execSlotReserve s
  | .slotRetire slot => Sys2Proof.Machine.execSlotRetire slot s
  | .etwenBeacon => Sys2Proof.Machine.execEtwenBeacon s
  | .counterDump => Sys2Proof.Machine.execCounterDump s
  | .dumpRecordWrite => Sys2Proof.Machine.execDumpRecordWrite s
  | .objectNotify sess => Sys2Proof.Machine.execObjectNotify sess s
  | .templateSetSend domain descs => Sys2Proof.Machine.execTemplateSetSend domain descs s
  | .idleExportTask => Sys2Proof.Machine.execIdleExportTask s
  | .homeBeat pipe upset => Sys2Proof.Machine.execHomeBeat pipe upset s
  | .hbmReadLand pipe read ecc => Sys2Proof.Machine.execHbmReadLand pipe read ecc s
  | .hbmWriteLand pipe slot => Sys2Proof.Machine.execHbmWriteLand pipe slot s
  | .holdingQueueRelease pipe => Sys2Proof.Machine.execHoldingQueueRelease pipe s
  | .microwordIssue cluster engine ecc => Sys2Proof.Machine.execMicrowordIssue cluster engine ecc s
  | .engineBudgetTrap cluster engine => Sys2Proof.Machine.execEngineBudgetTrap cluster engine s
  | .resequencerRelease cluster => Sys2Proof.Machine.execResequencerRelease cluster s
  | .verifyResult pkt faulty => Sys2Proof.Machine.execVerifyResult pkt faulty s
  | .idleStepStart cluster => Sys2Proof.Machine.execIdleStepStart cluster s
  | .idleStepPublish cluster engine hostData => Sys2Proof.Machine.execIdleStepPublish cluster engine hostData s
  | .idleOverrun cluster engine => Sys2Proof.Machine.execIdleOverrun cluster engine s
  | .packetCommit pipe => Sys2Proof.Machine.execPacketCommit pipe s
  | .ageCommit pipe => Sys2Proof.Machine.execAgeCommit pipe s
  | .relocMoveCommit pipe => Sys2Proof.Machine.execRelocMoveCommit pipe s
  | .dscrubCommit pipe => Sys2Proof.Machine.execDscrubCommit pipe s
  | .hcmdInsert pipe => Sys2Proof.Machine.execHcmdInsert pipe s
  | .hcmdDelete pipe => Sys2Proof.Machine.execHcmdDelete pipe s
  | .hcmdModify pipe => Sys2Proof.Machine.execHcmdModify pipe s
  | .hcmdRead pipe => Sys2Proof.Machine.execHcmdRead pipe s
  | .hcmdRejected pipe => Sys2Proof.Machine.execHcmdRejected pipe s
  | .flowQuarantineRelease src slot => Sys2Proof.Machine.execFlowQuarantineRelease src slot s
  | .natRelease src entry => Sys2Proof.Machine.execNatRelease src entry s
  | .twrite pipe => Sys2Proof.Machine.execTwrite pipe s
  | .tscrub pipe found shadow => Sys2Proof.Machine.execTscrub pipe found shadow s
  | .ewrite pipe => Sys2Proof.Machine.execEwrite pipe s
  | .frameIngress node frame phase exactEcc => Sys2Proof.Machine.execFrameIngress node frame phase exactEcc s
  | .frameTail tail => Sys2Proof.Machine.execFrameTail tail s
  | .policerJudge pkt => Sys2Proof.Machine.execPolicerJudge pkt s
  | .egressEntry pkt => Sys2Proof.Machine.execEgressEntry pkt s
  | .frameTransmitStart node cells cipherFault => Sys2Proof.Machine.execFrameTransmitStart node cells cipherFault s
  | .frameTransmitEnd node => Sys2Proof.Machine.execFrameTransmitEnd node s
  | .copyDeliver copy delivery => Sys2Proof.Machine.execCopyDeliver copy delivery s
  | .sampleFormatTimeout copy => Sys2Proof.Machine.execSampleFormatTimeout copy s
  | .exportMessageSend domain count descs => Sys2Proof.Machine.execExportMessageSend domain count descs s
  | .flowControlFrameSend node => Sys2Proof.Machine.execFlowControlFrameSend node s
  | .flowControlRepeat node => Sys2Proof.Machine.execFlowControlRepeat node s
  | .pauseFrameReceive node frame => Sys2Proof.Machine.execPauseFrameReceive node frame s
  | .pauseExpiry node cls => Sys2Proof.Machine.execPauseExpiry node cls s
  | .linkHoldExpiry node => Sys2Proof.Machine.execLinkHoldExpiry node s
  | .linkFlushed node => Sys2Proof.Machine.execLinkFlushed node s
  | .gateListStarted node => Sys2Proof.Machine.execGateListStarted node s
  | .gateInstant node => Sys2Proof.Machine.execGateInstant node s
  | .portEnable src node => Sys2Proof.Machine.execPortEnable src node s
  | .portDisable src node => Sys2Proof.Machine.execPortDisable src node s
  | .anComplete node mode fec => Sys2Proof.Machine.execAnComplete node mode fec s
  | .trainingDone node coeffs => Sys2Proof.Machine.execTrainingDone node coeffs s
  | .trainingTimeout node => Sys2Proof.Machine.execTrainingTimeout node s
  | .linkUp node skew => Sys2Proof.Machine.execLinkUp node skew s
  | .lockTimeout node skew => Sys2Proof.Machine.execLockTimeout node skew s
  | .restartDelayExpiry node => Sys2Proof.Machine.execRestartDelayExpiry node s
  | .linkDown node => Sys2Proof.Machine.execLinkDown node s
  | .linkHiBer node cause => Sys2Proof.Machine.execLinkHiBer node cause s
  | .linkFaultClear node => Sys2Proof.Machine.execLinkFaultClear node s
  | .serRefclkLost pipe => Sys2Proof.Machine.execSerRefclkLost pipe s
  | .serRefclkRestored pipe => Sys2Proof.Machine.execSerRefclkRestored pipe s
  | .laneSearchEnter src lane => Sys2Proof.Machine.execLaneSearchEnter src lane s
  | .laneSearchSlip src lane ui => Sys2Proof.Machine.execLaneSearchSlip src lane ui s
  | .laneSearchWindowEnd lane errors => Sys2Proof.Machine.execLaneSearchWindowEnd lane errors s
  | .laneSearchExit src lane => Sys2Proof.Machine.execLaneSearchExit src lane s
  | .lanePowerDeep src lane => Sys2Proof.Machine.execLanePowerDeep src lane s
  | .lanePowerOff src lane => Sys2Proof.Machine.execLanePowerOff src lane s
  | .lanePowerActive src lane => Sys2Proof.Machine.execLanePowerActive src lane s
  | .lpiEnter node => Sys2Proof.Machine.execLpiEnter node s
  | .lpiWake node => Sys2Proof.Machine.execLpiWake node s
  | .macsecRxFrame node frame phase faulty => Sys2Proof.Machine.execMacsecRxFrame node frame phase faulty s
  | .macsecRxDeliver node exactEcc => Sys2Proof.Machine.execMacsecRxDeliver node exactEcc s
  | .entropyHealthFail => Sys2Proof.Machine.execEntropyHealthFail s
  | .cipherUnitRestore src unit => Sys2Proof.Machine.execCipherUnitRestore src unit s
  | .cipherKatDone unit pass => Sys2Proof.Machine.execCipherKatDone unit pass s
  | .lookasideJob ring record aad data tag faulty => Sys2Proof.Machine.execLookasideJob ring record aad data tag faulty s
  | .lookasideJobComplete ring => Sys2Proof.Machine.execLookasideJobComplete ring s
  | .tbEnable src tb => Sys2Proof.Machine.execTbEnable src tb s
  | .tbValid tb => Sys2Proof.Machine.execTbValid tb s
  | .tbDisable src tb => Sys2Proof.Machine.execTbDisable src tb s
  | .tbStep src tb offset => Sys2Proof.Machine.execTbStep src tb offset s
  | .tbRateWrite src tb rate => Sys2Proof.Machine.execTbRateWrite src tb rate s
  | .tbSlew src tb offset => Sys2Proof.Machine.execTbSlew src tb offset s
  | .toutConfigWrite src pin sub value => Sys2Proof.Machine.execToutConfigWrite src pin sub value s
  | .timeOutPulse pin => Sys2Proof.Machine.execTimeOutPulse pin s
  | .timeOutPulseEnd pin => Sys2Proof.Machine.execTimeOutPulseEnd pin s
  | .timeCapture pin rise back => Sys2Proof.Machine.execTimeCapture pin rise back s
  | .tinAck src pin rows => Sys2Proof.Machine.execTinAck src pin rows s
  | .arbiterRound arb => Sys2Proof.Machine.execArbiterRound arb s
  | .arbiterGrantCut arb => Sys2Proof.Machine.execArbiterGrantCut arb s
  | .rxRingDoorbell fn ring count => Sys2Proof.Machine.execRxRingDoorbell fn ring count s
  | .txRingDoorbell fn ring count => Sys2Proof.Machine.execTxRingDoorbell fn ring count s
  | .cmdRingDoorbell fn pipe count bodies => Sys2Proof.Machine.execCmdRingDoorbell fn pipe count bodies s
  | .completionRingDoorbell fn pipe count => Sys2Proof.Machine.execCompletionRingDoorbell fn pipe count s
  | .byteRingDoorbell fn eventRing offset => Sys2Proof.Machine.execByteRingDoorbell fn eventRing offset s
  | .txDescriptorFetch ring words => Sys2Proof.Machine.execTxDescriptorFetch ring words s
  | .txFrameEnter ring buffer => Sys2Proof.Machine.execTxFrameEnter ring buffer s
  | .rxWriteback ring delivery => Sys2Proof.Machine.execRxWriteback ring delivery s
  | .completionWrite pipe => Sys2Proof.Machine.execCompletionWrite pipe s
  | .eventRecordWrite => Sys2Proof.Machine.execEventRecordWrite s
  | .msixTimerExpiry ring => Sys2Proof.Machine.execMsixTimerExpiry ring s
  | .ringEnable src ring row => Sys2Proof.Machine.execRingEnable src ring row s
  | .ringDisable src ring => Sys2Proof.Machine.execRingDisable src ring s
  | .ringStopped ring => Sys2Proof.Machine.execRingStopped ring s
  | .dmaReadError fn ring => Sys2Proof.Machine.execDmaReadError fn ring s
  | .barWrite fn bar offset value => Sys2Proof.Machine.execBarWrite fn bar offset value s
  | .poolAllocate fn seq length => Sys2Proof.Machine.execPoolAllocate fn seq length s
  | .poolFree fn seq handle => Sys2Proof.Machine.execPoolFree fn seq handle s
  | .poolReqInvalid fn op seq => Sys2Proof.Machine.execPoolReqInvalid fn op seq s
  | .poolOwnerReclaim src owner => Sys2Proof.Machine.execPoolOwnerReclaim src owner s
  | .schedRowWrite src level index row => Sys2Proof.Machine.execSchedRowWrite src level index row s
  | .schedClearDebt src value => Sys2Proof.Machine.execSchedClearDebt src value s
  | .versionCancel src version => Sys2Proof.Machine.execVersionCancel src version s
  | .legacyWrite src pipe row => Sys2Proof.Machine.execLegacyWrite src pipe row s
  | .bankModeWrite src bank mode => Sys2Proof.Machine.execBankModeWrite src bank mode s
  | .engineImageStage src image last => Sys2Proof.Machine.execEngineImageStage src image last s
  | .imageVerify => Sys2Proof.Machine.execImageVerify s
  | .engineKeyEnrol src slot hash badRead => Sys2Proof.Machine.execEngineKeyEnrol src slot hash badRead s
  | .engineKeyRevoke src slot badRead => Sys2Proof.Machine.execEngineKeyRevoke src slot badRead s
  | .engineClusterFreeze src cluster => Sys2Proof.Machine.execEngineClusterFreeze src cluster s
  | .engineClusterRelease src cluster => Sys2Proof.Machine.execEngineClusterRelease src cluster s
  | .mabinHello path msg => Sys2Proof.Machine.execMabinHello path msg s
  | .mabinHelloRekey path msg => Sys2Proof.Machine.execMabinHelloRekey path msg s
  | .mabinHelloClose path msg => Sys2Proof.Machine.execMabinHelloClose path msg s
  | .mabinRead path msg => Sys2Proof.Machine.execMabinRead path msg s
  | .mabinWrite path msg => Sys2Proof.Machine.execMabinWrite path msg s
  | .mabinStage path msg => Sys2Proof.Machine.execMabinStage path msg s
  | .mabinCommit path msg => Sys2Proof.Machine.execMabinCommit path msg s
  | .mabinLock path msg => Sys2Proof.Machine.execMabinLock path msg s
  | .mabinUnlock path msg => Sys2Proof.Machine.execMabinUnlock path msg s
  | .subscribeAddEvents path msg => Sys2Proof.Machine.execSubscribeAddEvents path msg s
  | .subscribeAddObject path msg => Sys2Proof.Machine.execSubscribeAddObject path msg s
  | .subscribeRemoveAll path msg => Sys2Proof.Machine.execSubscribeRemoveAll path msg s
  | .blockRead path msg => Sys2Proof.Machine.execBlockRead path msg s
  | .blockWrite path msg => Sys2Proof.Machine.execBlockWrite path msg s
  | .mboxInWrite msg => Sys2Proof.Machine.execMboxInWrite msg s
  | .mboxOutRead => Sys2Proof.Machine.execMboxOutRead s
  | .sessionIdleExpiry sess => Sys2Proof.Machine.execSessionIdleExpiry sess s
  | .lockExpired => Sys2Proof.Machine.execLockExpired s
  | .localLock => Sys2Proof.Machine.execLocalLock s
  | .localUnlock => Sys2Proof.Machine.execLocalUnlock s
  | .localCommit target unlock => Sys2Proof.Machine.execLocalCommit target unlock s
  | .mabinCredWrite src value => Sys2Proof.Machine.execMabinCredWrite src value s
  | .cipherKeyWrite src value => Sys2Proof.Machine.execCipherKeyWrite src value s
  | .cntOverflowClear src number => Sys2Proof.Machine.execCntOverflowClear src number s
  | .cntFilterSelect src row value => Sys2Proof.Machine.execCntFilterSelect src row value s
  | .cntFilterChain src value => Sys2Proof.Machine.execCntFilterChain src value s
  | .releasePort src node cls => Sys2Proof.Machine.execReleasePort src node cls s
  | .releaseFunction src fn => Sys2Proof.Machine.execReleaseFunction src fn s
  | .releaseRing src ring => Sys2Proof.Machine.execReleaseRing src ring s
  | .releaseSession src sess => Sys2Proof.Machine.execReleaseSession src sess s
  | .releasePoolOwner src owner => Sys2Proof.Machine.execReleasePoolOwner src owner s
  | .powerPipeOff src pipe => Sys2Proof.Machine.execPowerPipeOff src pipe s
  | .powerPipeWake src pipe => Sys2Proof.Machine.execPowerPipeWake src pipe s
  | .pipePower pipe => Sys2Proof.Machine.execPipePower pipe s
  | .eventLogAck src seq => Sys2Proof.Machine.execEventLogAck src seq s
  | .i2cPointerWrite pointer => Sys2Proof.Machine.execI2cPointerWrite pointer s
  | .i2cRead count => Sys2Proof.Machine.execI2cRead count s
  | .objectWrite src index sub row value => Sys2Proof.Machine.execObjectWrite src index sub row value s
  | .keptCoefficientsLockTimeout node => Sys2Proof.Machine.execKeptCoefficientsLockTimeout node s
  | .sriovVfEnable count => Sys2Proof.Machine.execSriovVfEnable count s
  | .pcieLinkTrained speed width => Sys2Proof.Machine.execPcieLinkTrained speed width s
  | .bufCellsFreeLowRead => Sys2Proof.Machine.execBufCellsFreeLowRead s

end Sys2Proof.Machine
end

