-- ==== Sys2Proof/Safety.lean ====
section
/-! DEFINITION. The terms in which statements about the part are made: when it runs, when a write is
accepted, and the invariant of its memories, its logs and its clocks. -/

namespace Sys2Proof.Machine

/-- The part runs: no reset, boot or freeze of the part holds its core (R602, R606, R614), and the boundary of
the present beat, if it has one, is past (R61, log entry 144). -/
def Running (s : State) : Prop := s.sys.run = .running ∧ settled s = s

/-- The state on which a command acts: what the boundary of its beat leaves. The commands that are themselves
part of a boundary act on what the parts before them leave, and the pins, the boot and the supplies on the state
as it is (log entry 144). -/
def actsOn : Instr → State → State
  | .porNAssert .., s | .resetNAssert, s | .boot .., s | .resetBootImageWrite .., s | .supplyReset .., s |
    .supplyResetRelease, s | .softResetDone, s | .tickBoundary, s => s
  | .versionCommit, s => pastBoundary s
  | .softReset, s => pastCommit s
  | .pipeResetStart .., s => pastSoft s
  | _, s => settled s

/-- A tick boundary is due in the beat of s, and leaves u; no SOFT reset is under way or waits (R59, R61). -/
def AtBoundary (s u : State) : Prop :=
  s.sys.run = .running ∧ boundaryDue s = true ∧ s.sys.soft = false ∧ s.sys.softAt = none ∧
    u = settled s ∧ u.sys.run = .running

/-- The object table lets this sender write this value: the part runs, the sender is the local
session or an open Mabin session, and access, tier, length and range allow it (R546 to R552, R558). -/
def MayWrite (s : State) (src : Origin) (idx sub row : Nat) (v : Bytes) : Prop :=
  Running s ∧ (tierOf s src).isSome = true ∧ writeError s src idx sub row v = 0

/-- No row of `debug.freeze.on` lists the event (R614). -/
def Unarmed (s : State) (code : Nat) : Prop :=
  ∀ i, i < 8 → natOf (stored s 0x9020 2 i) ≠ code

/-- The addressed memories are in their canonical form: keys strictly rising, and nothing listed that
an unlisted key reads as (R213, R215, R219, R394). -/
def Memory.wf (m : Mem) : Bool :=
  twf (zeros 64) m.hbm && twf (zeros 128) m.companion && twf 0 m.bulk && twf 0 m.util && twf 0 m.dir

/-- The commit step of position q of pipe p runs and leaves u: q is due at the home beat that the pipe may
execute next, has not run, nothing holds that home beat, and nothing holds the step (R67, R229). -/
def CommitRuns (s : State) (p : Nat) (q : Pos) (u : State) : Prop :=
  Running s ∧ duePos s p (pipeAt s p).h = some q ∧ q.done = false ∧ passedNow s p = 0 ∧
    homeReady s p = true ∧ (∃ v, homeTry s p (pipeAt s p).h none = .ok v) ∧
    ∃ x, commitStep s p q (pipeAt s p).h none = .ok (u, x)

/-- From s to t table command m of pipe p has completed with x: x joins the store, and the ring's consumer count
passes the command (R520, R537); a command that a FUNCTION reset has lost leaves the store as it is (R541). -/
structure Completes (s t : State) (p : Nat) (m : Cmd) (x : Completion) : Prop where
  store : (pipeAt t p).cpls = (pipeAt s p).cpls ++ (if m.held then [x] else [])
  count : x.count = m.count
  ring : m.held = true → (ringAt s (cmdRing p)).cons = m.count →
    (ringAt t (cmdRing p)).cons = (m.count + 1) % 2 ^ 32

/-- Session n, open as x, takes message m as its own (R561 to R564): the lock's lease and the session's
idle time have not run out, the length fits the path, the tag is good, the counter is fresh, and the message
breaks no rule of the protocol. -/
structure Accepts (s : State) (path : MabinPath) (n : Nat) (x : Session) (m : Bytes) : Prop where
  run : Running s
  lease : s.mabin.holder = none ∨ s.beat < s.mabin.expires
  here : sessionAt s n = some x
  awake : sessionIdle s n = false
  thawed : x.frozen = false
  fits : m.length ≤ msgLimit path
  whole : 36 ≤ m.length
  other : isOpening m = false
  addressed : msgSess m = n
  genuine : msgTag m = gmac x.key (msgIv n 0 (msgCtr m)) (msgSigned m)
  fresh : freshCtr x (msgCtr m) = true
  proper : protocolFault m = false

/-- The state in which an accepted message is served: its counter is received, the session's idle time
and the lease it may hold begin again (R562, R564, R570). -/
def served (s : State) (n : Nat) (x : Session) (m : Bytes) : State :=
  renewLease (modSession (modSession s n fun _ => takeCtr x (msgCtr m)) n
    fun y => { y with lastBeat := s.beat }) n

/-- The bounds that hold in every state a run can reach: four version slots (R184), at most 64 log rows
(R618) and 1,024 queued events (R540), 64-bit beat and tick counters (R50, R59), and memories in
canonical form. -/
structure Good (s : State) : Prop where
  slots : s.ver.slots.length = 4
  log : s.sys.log.length ≤ 64
  events : s.sys.evq.length ≤ 1024
  beat : s.beat < 2 ^ 64
  tick : s.rm.tick < 2 ^ 64
  memory : Memory.wf s.mem = true

/-! ## Families of commands, and what a command may touch -/

/-- The families of the command table, in its order. -/
inductive Family where
  | resets | beats | home | search | frames | ports | cipher | timing | arbiters | host | tables | mabin | counters | releases
  deriving DecidableEq, Repr

def family : Instr → Family
  | .porNAssert .. | .resetNAssert | .boot .. | .resetBootImageWrite .. | .resetCmdChip .. |
    .resetCmdSoft .. | .resetCmdPipe .. | .resetCmdPort .. | .softReset | .softResetDone |
    .pipeResetStart .. | .pipeReset .. | .functionReset .. | .supplyWarn .. | .supplyDip .. |
    .supplyOk | .supplyReset .. | .supplyResetRelease | .freeze | .debugFreeze .. => .resets
  | .beat | .tickBoundary | .versionCommit | .slotReserve | .slotRetire .. | .etwenBeacon |
    .counterDump | .dumpRecordWrite | .objectNotify .. | .templateSetSend .. | .idleExportTask =>
    .beats
  | .homeBeat .. | .hbmReadLand .. | .hbmWriteLand .. | .holdingQueueRelease .. | .microwordIssue ..
    | .engineBudgetTrap .. | .resequencerRelease .. | .verifyResult .. | .idleStepStart .. |
    .idleStepPublish .. | .idleOverrun .. | .packetCommit .. | .ageCommit .. | .relocMoveCommit .. |
    .dscrubCommit .. | .hcmdInsert .. | .hcmdDelete .. | .hcmdModify .. | .hcmdRead .. |
    .hcmdRejected .. | .flowQuarantineRelease .. | .natRelease .. => .home
  | .twrite .. | .tscrub .. | .ewrite .. => .search
  | .frameIngress .. | .frameTail .. | .policerJudge .. | .egressEntry .. | .frameTransmitStart .. |
    .frameTransmitEnd .. | .copyDeliver .. | .sampleFormatTimeout .. | .exportMessageSend .. |
    .flowControlFrameSend .. | .flowControlRepeat .. | .pauseFrameReceive .. | .pauseExpiry .. |
    .linkHoldExpiry .. | .linkFlushed .. | .gateListStarted .. | .gateInstant .. => .frames
  | .portEnable .. | .portDisable .. | .anComplete .. | .trainingDone .. | .trainingTimeout .. |
    .linkUp .. | .lockTimeout .. | .restartDelayExpiry .. | .linkDown .. | .linkHiBer .. |
    .linkFaultClear .. | .serRefclkLost .. | .serRefclkRestored .. | .laneSearchEnter .. |
    .laneSearchSlip .. | .laneSearchWindowEnd .. | .laneSearchExit .. | .lanePowerDeep .. |
    .lanePowerOff .. | .lanePowerActive .. | .lpiEnter .. | .lpiWake .. => .ports
  | .macsecRxFrame .. | .macsecRxDeliver .. | .entropyHealthFail | .cipherUnitRestore .. |
    .cipherKatDone .. | .lookasideJob .. | .lookasideJobComplete .. => .cipher
  | .tbEnable .. | .tbValid .. | .tbDisable .. | .tbStep .. | .tbRateWrite .. | .tbSlew .. |
    .toutConfigWrite .. | .timeOutPulse .. | .timeOutPulseEnd .. | .timeCapture .. | .tinAck .. =>
    .timing
  | .arbiterRound .. | .arbiterGrantCut .. => .arbiters
  | .rxRingDoorbell .. | .txRingDoorbell .. | .cmdRingDoorbell .. | .completionRingDoorbell .. |
    .byteRingDoorbell .. | .txDescriptorFetch .. | .txFrameEnter .. | .rxWriteback .. |
    .completionWrite .. | .eventRecordWrite | .msixTimerExpiry .. | .ringEnable .. | .ringDisable ..
    | .ringStopped .. | .dmaReadError .. | .barWrite .. | .poolAllocate .. | .poolFree .. |
    .poolReqInvalid .. | .poolOwnerReclaim .. => .host
  | .schedRowWrite .. | .schedClearDebt .. | .versionCancel .. | .legacyWrite .. | .bankModeWrite ..
    | .engineImageStage .. | .imageVerify | .engineKeyEnrol .. | .engineKeyRevoke .. |
    .engineClusterFreeze .. | .engineClusterRelease .. => .tables
  | .mabinHello .. | .mabinHelloRekey .. | .mabinHelloClose .. | .mabinRead .. | .mabinWrite .. |
    .mabinStage .. | .mabinCommit .. | .mabinLock .. | .mabinUnlock .. | .subscribeAddEvents .. |
    .subscribeAddObject .. | .subscribeRemoveAll .. | .blockRead .. | .blockWrite .. | .mboxInWrite
    .. | .mboxOutRead | .sessionIdleExpiry .. | .lockExpired | .localLock | .localUnlock |
    .localCommit .. | .mabinCredWrite .. | .cipherKeyWrite .. => .mabin
  | .cntOverflowClear .. | .cntFilterSelect .. | .cntFilterChain .. => .counters
  | .releasePort .. | .releaseFunction .. | .releaseRing .. | .releaseSession .. | .releasePoolOwner
    .. | .powerPipeOff .. | .powerPipeWake .. | .pipePower .. | .eventLogAck .. | .i2cPointerWrite
    .. | .i2cRead .. | .objectWrite .. | .keptCoefficientsLockTimeout .. | .sriovVfEnable .. |
    .pcieLinkTrained .. | .bufCellsFreeLowRead => .releases

/-- The parts of the state between which the statements distinguish. -/
inductive Part where
  | clock | system | fuses | objects | digest | version | packets | ports | lanes | buffer
  | search | flow | util | rewrites | pipes | clusters | timeBases | pins | cipher | rings
  | arbiters | pools | link | templates | reject | sessions | lock | counters | beacon |
  out | vectors
  deriving DecidableEq, Repr

def Part.all : List Part :=
  [.clock, .system, .fuses, .objects, .digest, .version, .packets, .ports, .lanes, .buffer,
   .search, .flow, .util, .rewrites, .pipes, .clusters, .timeBases, .pins, .cipher, .rings,
   .arbiters, .pools, .link, .templates, .reject, .sessions, .lock, .counters, .beacon, .out,
   .vectors]

/-- A part of the state is as before. -/
def same (p : Part) (s t : State) : Prop :=
  match p with
  | .clock => t.beat = s.beat ∧ t.rm = s.rm
  | .system => t.sys = s.sys
  | .fuses => t.sys.fuses = s.sys.fuses
  | .objects => t.objs = s.objs ∧ t.held = s.held ∧ t.deferred = s.deferred
  | .digest => t.digObjs = s.digObjs ∧ t.digVer = s.digVer
  | .version => t.ver = s.ver
  | .packets => t.pkts = s.pkts ∧ t.nextPkt = s.nextPkt
  | .ports => t.ports = s.ports
  | .lanes => t.lanes = s.lanes
  | .buffer => t.buf = s.buf
  | .search => t.mem.tcam = s.mem.tcam ∧ t.mem.shadow = s.mem.shadow ∧ t.mem.exact = s.mem.exact ∧
      t.mem.oldUnits = s.mem.oldUnits ∧ t.mem.oldExact = s.mem.oldExact ∧
      t.mem.widths = s.mem.widths
  | .flow => t.mem.dir = s.mem.dir ∧ t.mem.hbm = s.mem.hbm ∧ t.mem.companion = s.mem.companion ∧
      t.mem.bulk = s.mem.bulk ∧ t.mem.quarantine = s.mem.quarantine
  | .util => t.mem.util = s.mem.util
  | .rewrites => t.mem.rewrite = s.mem.rewrite ∧ t.mem.subParent = s.mem.subParent ∧
      t.mem.svcParent = s.mem.svcParent
  | .pipes => t.pipes = s.pipes
  | .clusters => t.clusters = s.clusters
  | .timeBases => t.tbs = s.tbs
  | .pins => t.pinsOut = s.pinsOut ∧ t.pinsIn = s.pinsIn
  | .cipher => t.cipher = s.cipher
  | .rings => t.host.rings = s.host.rings ∧ t.host.fns = s.host.fns
  | .arbiters => t.host.arbs = s.host.arbs
  | .pools => t.host.pools = s.host.pools
  | .link => t.host.link = s.host.link ∧ t.host.vfs = s.host.vfs
  | .templates => t.host.tmplDue = s.host.tmplDue
  | .reject => t.host.lastReject = s.host.lastReject
  | .sessions => t.mabin.sessions = s.mabin.sessions ∧ t.mabin.creds = s.mabin.creds ∧
      t.mabin.authFailTick = s.mabin.authFailTick ∧ t.mabin.drawn = s.mabin.drawn ∧
      t.mabin.mboxOut = s.mabin.mboxOut ∧ t.mabin.collect = s.mabin.collect
  | .lock => t.mabin.holder = s.mabin.holder ∧ t.mabin.expires = s.mabin.expires ∧
      t.mabin.staged = s.mabin.staged ∧ t.mabin.emptied = s.mabin.emptied ∧ t.mabin.image =
      s.mabin.image ∧ t.mabin.imageDone = s.mabin.imageDone ∧ t.mabin.imageHere =
      s.mabin.imageHere ∧ t.mabin.target = s.mabin.target ∧ t.mabin.imageStatus =
      s.mabin.imageStatus ∧ t.mabin.localResult = s.mabin.localResult
  | .counters => t.cnt = s.cnt
  | .beacon => t.beacon = s.beacon
  | .out => t.out = s.out
  | .vectors => t.host.msix = s.host.msix

/-- The parts that a command may change: its destinations, the events and counts that it raises, and what
the acceptance of a write or of a message renews or records. -/
def mayTouch : Instr → List Part
  | .porNAssert .. | .resetNAssert | .supplyReset .. | .beat => Part.all
  | .boot .. | .supplyWarn .. | .freeze => [.system, .sessions, .counters]
  | .resetBootImageWrite .. | .supplyDip .. | .supplyResetRelease | .i2cPointerWrite .. => [.system]
  | .resetCmdChip .. | .resetCmdSoft .. | .resetCmdPipe .. | .resetCmdPort .. | .tinAck .. |
    .releasePort .. | .releaseFunction .. | .releaseRing .. | .releaseSession .. | .releasePoolOwner
    .. | .eventLogAck .. => [.system, .reject, .lock, .counters]
  | .softReset => [.clock, .system, .objects, .digest, .version, .packets, .ports, .buffer, .search,
    .flow, .util, .rewrites, .pipes, .clusters, .cipher, .rings, .arbiters, .pools, .templates,
    .sessions, .lock, .counters, .out]
  | .softResetDone | .tickBoundary => [.clock, .system, .fuses, .objects, .digest, .version,
    .packets, .ports, .buffer, .search, .flow, .pipes, .clusters, .timeBases, .pins, .cipher,
    .templates, .sessions, .counters]
  | .pipeResetStart .. => [.system, .objects, .packets, .ports, .buffer, .flow, .pipes, .clusters,
    .rings, .arbiters, .pools, .sessions, .counters, .out]
  | .pipeReset .. => [.system, .ports, .pipes, .sessions, .counters]
  | .functionReset .. => [.system, .objects, .packets, .buffer, .pipes, .cipher, .rings, .arbiters,
    .pools, .link, .sessions, .lock, .counters, .out]
  | .supplyOk => [.system, .fuses, .sessions, .counters]
  | .debugFreeze .. | .engineImageStage .. => [.system, .reject, .sessions, .lock, .counters]
  | .versionCommit => [.clock, .system, .digest, .version, .ports, .sessions, .counters]
  | .slotReserve => [.system, .version, .search, .clusters, .sessions, .counters]
  | .slotRetire .. => [.version]
  | .etwenBeacon => [.clock, .system, .packets, .buffer, .rings, .sessions, .counters, .beacon,
    .out]
  | .counterDump => [.counters]
  | .dumpRecordWrite | .eventRecordWrite => [.system, .rings, .arbiters, .sessions, .counters, .out]
  | .objectNotify .. => [.clock, .sessions, .counters]
  | .templateSetSend .. => [.system, .packets, .buffer, .rings, .arbiters, .templates, .sessions,
    .counters, .out]
  | .idleExportTask => [.clock, .buffer, .clusters, .pools, .counters]
  | .homeBeat .. | .packetCommit .. | .ageCommit .. | .relocMoveCommit .. | .dscrubCommit .. |
    .hcmdInsert .. | .hcmdDelete .. | .hcmdModify .. | .hcmdRead .. | .hcmdRejected .. => [.system,
    .packets, .buffer, .flow, .pipes, .clusters, .rings, .sessions, .counters, .out]
  | .hbmReadLand .. => [.system, .buffer, .pipes, .clusters, .pools, .sessions, .counters]
  | .hbmWriteLand .. => [.pipes, .counters]
  | .holdingQueueRelease .. => [.packets]
  | .microwordIssue .. | .engineBudgetTrap .. => [.system, .packets, .buffer, .clusters, .sessions,
    .counters]
  | .resequencerRelease .. => [.packets, .pipes, .clusters]
  | .verifyResult .. => [.system, .packets, .pipes, .cipher, .sessions, .counters]
  | .idleStepStart .. => [.buffer, .clusters, .counters]
  | .idleStepPublish .. => [.buffer, .flow, .util, .pipes, .clusters, .pools, .counters]
  | .idleOverrun .. => [.system, .buffer, .clusters, .sessions, .counters]
  | .flowQuarantineRelease .. | .natRelease .. | .legacyWrite .. => [.pipes, .reject, .lock,
    .counters]
  | .twrite .. => [.version, .search, .pipes, .counters]
  | .tscrub .. => [.system, .search, .pipes, .sessions, .counters]
  | .ewrite .. => [.version, .buffer, .rewrites, .pipes, .counters]
  | .frameIngress .. | .macsecRxDeliver .. => [.system, .packets, .ports, .buffer, .sessions,
    .counters, .out]
  | .frameTail .. => [.system, .packets, .ports, .buffer, .pipes, .rings, .arbiters, .sessions,
    .counters, .out]
  | .policerJudge .. => [.packets, .buffer, .counters]
  | .egressEntry .. => [.system, .packets, .buffer, .pipes, .rings, .sessions, .counters, .out]
  | .frameTransmitStart .. => [.system, .packets, .ports, .buffer, .cipher, .rings, .sessions,
    .counters, .out]
  | .frameTransmitEnd .. => [.system, .packets, .ports, .buffer, .rings, .sessions, .counters, .out]
  | .copyDeliver .. => [.system, .buffer, .rings, .arbiters, .sessions, .counters, .out]
  | .sampleFormatTimeout .. => [.buffer, .clusters]
  | .exportMessageSend .. => [.system, .packets, .buffer, .pipes, .rings, .arbiters, .sessions,
    .counters, .out]
  | .flowControlFrameSend .. | .flowControlRepeat .. => [.system, .ports, .cipher, .sessions,
    .counters, .out]
  | .pauseFrameReceive .. => [.ports, .counters]
  | .pauseExpiry .. | .linkHoldExpiry .. | .gateInstant .. => [.ports]
  | .linkFlushed .. | .gateListStarted .. => [.system, .ports, .sessions, .counters]
  | .portEnable .. => [.objects, .ports, .lanes, .reject, .lock, .counters]
  | .portDisable .. | .laneSearchEnter .. | .lanePowerDeep .. | .lanePowerOff .. | .lanePowerActive
    .. => [.system, .objects, .packets, .ports, .lanes, .buffer, .pipes, .rings, .arbiters, .reject,
    .sessions, .lock, .counters, .out]
  | .anComplete .. | .trainingDone .. | .restartDelayExpiry .. | .lpiEnter .. | .lpiWake .. =>
    [.ports, .lanes]
  | .trainingTimeout .. | .lockTimeout .. | .linkDown .. | .linkHiBer .. | .serRefclkLost .. |
    .keptCoefficientsLockTimeout .. => [.system, .packets, .ports, .lanes, .buffer, .pipes, .rings,
    .arbiters, .sessions, .counters, .out]
  | .linkUp .. | .linkFaultClear .. => [.system, .ports, .lanes, .sessions, .counters]
  | .serRefclkRestored .. => [.ports, .lanes, .pipes]
  | .laneSearchSlip .. => [.lanes, .reject, .lock, .counters]
  | .laneSearchWindowEnd .. => [.system, .lanes]
  | .laneSearchExit .. => [.objects, .ports, .reject, .lock, .counters]
  | .macsecRxFrame .. => [.system, .ports, .cipher, .sessions, .counters]
  | .entropyHealthFail | .cipherKatDone .. => [.system, .cipher, .sessions, .counters]
  | .cipherUnitRestore .. => [.cipher, .reject, .lock, .counters]
  | .lookasideJob .. => [.system, .cipher, .rings, .arbiters, .sessions, .counters]
  | .lookasideJobComplete .. => [.system, .cipher, .rings, .arbiters, .sessions, .counters, .out]
  | .tbEnable .. => [.objects, .timeBases, .reject, .lock, .counters]
  | .tbValid .. => [.system, .objects, .ports, .timeBases, .pins, .sessions, .counters]
  | .tbDisable .. | .toutConfigWrite .. | .cntFilterChain .. => [.system, .objects, .reject, .lock,
    .counters]
  | .tbStep .. | .tbSlew .. => [.timeBases, .reject, .lock, .counters]
  | .tbRateWrite .. | .engineClusterFreeze .. | .engineClusterRelease .. | .cipherKeyWrite .. |
    .cntFilterSelect .. | .powerPipeOff .. | .powerPipeWake .. => [.objects, .reject, .lock,
    .counters]
  | .timeOutPulse .. => [.system, .objects, .pins, .sessions, .counters, .out]
  | .timeOutPulseEnd .. => [.pins, .out]
  | .timeCapture .. => [.system, .pins, .sessions, .counters]
  | .arbiterRound .. => [.pipes, .arbiters, .counters]
  | .arbiterGrantCut .. => [.arbiters]
  | .rxRingDoorbell .. | .txRingDoorbell .. | .completionRingDoorbell .. | .byteRingDoorbell .. |
    .dmaReadError .. => [.system, .rings, .sessions, .counters]
  | .cmdRingDoorbell .. => [.system, .pipes, .rings, .sessions, .counters]
  | .txDescriptorFetch .. => [.system, .rings, .arbiters, .sessions, .counters]
  | .txFrameEnter .. => [.system, .packets, .ports, .buffer, .rings, .arbiters, .sessions,
    .counters, .out]
  | .rxWriteback .. => [.system, .packets, .buffer, .rings, .arbiters, .sessions, .counters, .out]
  | .completionWrite .. => [.system, .pipes, .rings, .arbiters, .sessions, .counters, .out]
  | .msixTimerExpiry .. => [.rings, .out]
  | .ringEnable .. => [.objects, .rings, .reject, .lock, .counters]
  | .ringDisable .. => [.objects, .pipes, .rings, .reject, .lock, .counters]
  | .ringStopped .. => [.rings]
  | .barWrite .. => [.system, .fuses, .objects, .version,
    .packets, .ports, .lanes, .buffer, .search, .pipes, .clusters, .timeBases, .cipher, .rings,
    .arbiters, .pools, .reject, .sessions, .lock, .counters, .out, .vectors]
  | .mboxInWrite .. | .objectWrite .. => [.system, .fuses, .objects, .version,
    .packets, .ports, .lanes, .buffer, .search, .pipes, .clusters, .timeBases, .cipher, .rings,
    .arbiters, .pools, .reject, .sessions, .lock, .counters, .out]
  | .poolAllocate .. | .poolFree .. | .poolReqInvalid .. | .poolOwnerReclaim .. => [.pools, .reject,
    .lock, .counters]
  | .schedRowWrite .. => [.objects, .buffer, .reject, .lock, .counters]
  | .schedClearDebt .. => [.buffer, .reject, .lock, .counters]
  | .versionCancel .. => [.system, .version, .search, .clusters, .reject, .sessions, .lock,
    .counters]
  | .bankModeWrite .. => [.objects, .version, .search, .pipes, .reject, .lock, .counters]
  | .imageVerify | .lockExpired => [.system, .sessions, .lock, .counters]
  | .engineKeyEnrol .. | .engineKeyRevoke .. => [.system, .fuses, .reject, .sessions, .lock,
    .counters]
  | .mabinHello .. | .mabinHelloRekey .. | .mabinHelloClose .. | .mabinStage .. | .mabinLock .. |
    .mabinUnlock .. | .subscribeAddEvents .. | .subscribeAddObject .. | .subscribeRemoveAll .. =>
    [.system, .sessions, .lock, .counters, .out]
  | .mabinRead .. | .blockRead .. => [.system, .buffer, .sessions, .lock, .counters, .out]
  | .mabinWrite .. | .blockWrite .. => [.system, .fuses, .objects, .version, .packets, .ports,
    .lanes, .buffer, .search, .pipes, .clusters, .timeBases, .cipher, .rings, .arbiters, .pools,
    .sessions, .lock, .counters, .out]
  | .mabinCommit .. => [.system, .version, .sessions, .lock, .counters, .out]
  | .mboxOutRead => [.sessions, .counters, .out]
  | .sessionIdleExpiry .. => [.sessions]
  | .localLock | .localUnlock | .localCommit .. => [.system, .version, .reject, .sessions, .lock,
    .counters]
  | .mabinCredWrite .. => [.reject, .sessions, .lock, .counters]
  | .cntOverflowClear .. => [.reject, .lock, .counters]
  | .pipePower .. => [.system, .pipes, .sessions, .counters]
  | .i2cRead .. => [.system, .out]
  | .sriovVfEnable .. | .pcieLinkTrained .. => [.link]
  | .bufCellsFreeLowRead => [.buffer, .counters, .out]

end Sys2Proof.Machine
end

