-- ==== Sys2Proof/Certificates/Slice0/Obligations.lean ====
section
/-! DEFINITION. The statements about the part, family by family of the command table. -/

open Host Sys2Proof Sys2Proof.Machine

/-! ## Resets, supply, freeze (R601 to R616) -/

/-- POR_N_ASSERT, RESET_N_ASSERT and SUPPLY_RESET (R601, R602, R611). -/
def Obligations.PowerAndChipResetsLoseState : Prop :=
  (∀ (s : State) (b : Bool), ∃ t, exec (.porNAssert b) s = .next t ∧ t.sys.run = .inReset ∧
    t.sys.last = (if b then 2 else 1) ∧ t.beat = 0 ∧ t.objs = [] ∧ t.ver = Versions.init ∧
    t.pkts = [] ∧ t.ports = [] ∧ t.mem = Mem.init ∧ t.pipes = [] ∧ t.cipher = Cipher.init ∧
    t.host = Hst.init ∧ t.cnt = Counters.init ∧ t.mabin.sessions = [] ∧ t.sys.log = [] ∧
    t.sys.fuses = s.sys.fuses) ∧
  (∀ s : State, s.sys.run ≠ .supplyHeld → ∃ t, exec .resetNAssert s = .next t ∧
    t.sys.run = .inReset ∧
    t.sys.last = (if s.sys.run = .frozen then 65536 else 0) + 256 + 3 ∧
    t.beat = 0 ∧ t.objs = [] ∧ t.ver = Versions.init ∧ t.pkts = [] ∧ t.ports = [] ∧
    t.mem = Mem.init ∧ t.pipes = [] ∧ t.cipher = Cipher.init ∧ t.host = Hst.init ∧
    t.cnt = Counters.init ∧ t.mabin.sessions = [] ∧ t.sys.log = s.sys.log ∧ t.sys.capture = s.sys.capture ∧ t.sys.fuses = s.sys.fuses) ∧
  (∀ (s : State) (m mv : Nat), m < 3 → ∃ t, exec (.supplyReset m mv) s = .next t ∧
    t.sys.run = .supplyHeld ∧ t.sys.last % 256 = 5 + m ∧ t.beat = 0 ∧ t.objs = [] ∧
    t.sys.fuses = s.sys.fuses ∧ t.sys.logSeq = s.sys.logSeq + 1 ∧
    ∃ r, t.sys.log = (r :: s.sys.log).take 64 ∧ r.event.code = 0x0022 ∧ r.event.source = m)

/-- BOOT, RESET_BOOT_IMAGE_WRITE and SUPPLY_RESET_RELEASE (R606 to R608, R611). -/
def Obligations.BootEndsInService : Prop :=
  (∀ (s : State) (f : Bytes) (q : Bool), s.sys.run = .inReset → Unarmed s 0x0023 →
    ∃ t, exec (.boot 0 (some f) true q true true) s = .next t ∧ t.sys.run = .running ∧
      ∃ r, t.sys.log = (r :: s.sys.log).take 64 ∧ r.event.code = 0x0023 ∧
        r.event.values = [bits s.sys.last 7 0] ∧ r.event.beat = s.beat) ∧
  (∀ (s : State) (f : Option Bytes) (a b c d : Bool), s.sys.run = .inReset →
    ∃ t, exec (.boot 1 f a b c d) s = .next t ∧ t.sys.run = .bootStopped ∧ t.sys.bootStatus = 6) ∧
  (∀ (s : State) (i : Bytes), s.sys.run = .bootStopped → s.sys.bootStatus = 6 →
    ∃ t, exec (.resetBootImageWrite i) s = .next t ∧ t.sys.bootImage = i ∧
      t.sys.run = .bootStopped) ∧
  (∀ s : State, s.sys.run = .supplyHeld →
    ∃ t, exec .supplyResetRelease s = .next t ∧ t.sys.run = .inReset)

/-- RESET_CMD_CHIP, _SOFT, _PIPE and _PORT (R601). -/
def Obligations.ResetCommandsWait : Prop :=
  (∀ (s : State) (src : Origin), MayWrite s src 0x9000 1 noRow (bytesOf 4 (resetWord 1 0)) →
    ∃ t, exec (.resetCmdChip src) s = .next t ∧ t.sys.run = .running ∧ t.beat = s.beat ∧
      t.sys.chipAt = some (s.sys.chipAt.getD s.beat) ∧
      ∀ u : State, Running u → (endOfBeat u).sys.run = .running → u.sys.chipAt = t.sys.chipAt →
        s.sys.chipAt.getD s.beat + 10000 = u.beat + 1 → u.beat + 1 < 2 ^ 64 →
        ∃ v, exec .beat u = .next v ∧ v.sys.run = .inReset ∧ v.beat = 0 ∧
          v.sys.last % 2 ^ 16 = 256 + 4) ∧
  (∀ (s : State) (src : Origin), MayWrite s src 0x9000 1 noRow (bytesOf 4 (resetWord 2 0)) →
    ∃ t, exec (.resetCmdSoft src) s = .next t ∧ t.sys.run = .running ∧
      t.sys.softAt = some (s.sys.softAt.getD s.beat) ∧
      ∀ u : State, u.sys.run = .running → pastCommit u = u → u.sys.softAt = t.sys.softAt →
        resetDue u (s.sys.softAt.getD s.beat) = true → u.sys.soft = false →
        ∃ v, exec .softReset u = .next v ∧ v.sys.soft = true ∧ v.sys.softAt = none ∧ v.pkts = []) ∧
  (∀ (s : State) (src : Origin) (p : Nat), p < 8 →
    MayWrite s src 0x9000 1 noRow (bytesOf 4 (resetWord 3 p)) →
    ∃ t, exec (.resetCmdPipe src p) s = .next t ∧ t.sys.run = .running ∧
      tfind t.sys.pipeAt p = some ((tfind s.sys.pipeAt p).getD s.beat) ∧
      ∀ u : State, u.sys.run = .running → pastSoft u = u →
        tfind u.sys.pipeAt p = tfind t.sys.pipeAt p →
        resetDue u ((tfind s.sys.pipeAt p).getD s.beat) = true → (pipeAt u p).resetting = false →
        (pipeAt u p).power = 0 →
        ∃ v, exec (.pipeResetStart p) u = .next v ∧ (pipeAt v p).resetting = true ∧
          tfind v.sys.pipeAt p = none) ∧
  (∀ (s : State) (src : Origin) (n : Nat), n < 130 →
    MayWrite s src 0x9000 1 noRow (bytesOf 4 (resetWord 4 n)) →
    ∃ t, exec (.resetCmdPort src n) s = .next t ∧ t.sys.run = .running ∧
      t.sys.soon = s.sys.soon ++ [.portReset n] ∧
      ∀ u : State, u.sys.soon = [.portReset n] →
        runSoon u = portResetAll { u with sys := { u.sys with soon := [] } } n ∧
        (portAt (runSoon u) n).link = 2 ∧ (portAt (runSoon u) n).kept = false ∧
        (portAt (runSoon u) n).failCause = 0 ∧ (portAt (runSoon u) n).skew = 0)

/-- SOFT_RESET and SOFT_RESET_DONE (R59, R602, R603). -/
def Obligations.SoftResetDiscardsAndRestarts : Prop :=
  (∀ (s : State) (r : Nat), s.sys.run = .running → pastCommit s = s → s.sys.softAt = some r →
    resetDue s r = true → s.sys.soft = false →
    ∃ t, exec .softReset s = .next t ∧ t.sys.soft = true ∧ t.sys.softAt = none ∧ t.pkts = [] ∧
      t.ver = Versions.init ∧ t.clusters = [] ∧ t.mem.dir = [] ∧ t.mem.hbm = [] ∧
      t.mem.quarantine = [] ∧ t.mem.companion = s.mem.companion ∧ t.mem.bulk = s.mem.bulk ∧
      t.mem.util = s.mem.util ∧
      t.mabin.holder = none ∧ t.beat = s.beat ∧
      t.sys.fuses = s.sys.fuses ∧ ∀ n, n < 134 → (portAt t n).refusing = true) ∧
  (∀ s : State, s.sys.run = .running → s.sys.soft = true → s.sys.softBeat < s.beat →
    boundaryDue s = true →
    ∃ t, exec .softResetDone s = .next t ∧ t.sys.soft = false ∧ t.rm.tick = 0 ∧
      ∀ p, p < 8 → (pipeAt t p).h = s.beat)

/-- PIPE_RESET_START and PIPE_RESET (R605). FUNCTION_RESET (R541, R570, R581). -/
def Obligations.PipeAndFunctionResets : Prop :=
  (∀ (s : State) (p r : Nat), s.sys.run = .running → pastSoft s = s → p < 8 →
    tfind s.sys.pipeAt p = some r →
    resetDue s r = true → (pipeAt s p).resetting = false → (pipeAt s p).power = 0 →
    ∃ t, exec (.pipeResetStart p) s = .next t ∧ (pipeAt t p).resetting = true ∧
      (pipeAt t p).pos = [] ∧ (pipeAt t p).stash = [] ∧ (pipeAt t p).h = (pipeAt s p).h ∧
      tfind t.sys.pipeAt p = none ∧
      (∀ a, slotOf p 0 0 ≤ a → a < slotOf (p + 1) 0 0 → tfind t.mem.hbm a = none) ∧
      ∀ i, i < 16 → (portAt t (16 * p + i)).refusing = true) ∧
  (∀ (s : State) (p : Nat), Running s → p < 8 → (pipeAt s p).resetting = true →
    ∃ t, exec (.pipeReset p) s = .next t ∧ (pipeAt t p).resetting = false ∧
      ∀ i, i < 16 → (portAt t (16 * p + i)).refusing = s.sys.soft) ∧
  (∀ (s : State) (f : Nat), Running s → 0 < f → f < 64 →
    ∃ t, exec (.functionReset f) s = .next t ∧
      (∀ o, o < 8 → tget 0 t.cnt.words (cFn f o) = 0) ∧
      (s.pkts = [] → ∀ r, ringOwner s r = f → ringAt t r =
        if (ringAt s r).state = 3 then { Ring.init with state := 3 } else Ring.init)) ∧
  (∀ s : State, Running s →
    ∃ t, exec (.functionReset 0) s = .next t ∧ t.host.vfs = 0 ∧ t.mabin.holder ≠ some 16 ∧
      ∀ p, p < 8 → (pipeAt t p).cmds = [] ∧ (pipeAt t p).cpls = [])

/-- SUPPLY_WARN, SUPPLY_DIP and SUPPLY_OK (R610). FREEZE and DEBUG_FREEZE (R614, R616). -/
def Obligations.SupplyWarningsAndFreezes : Prop :=
  (∀ (s : State) (m mv : Nat), settled s = s → m < 3 → m < s.sys.supplies.length →
    (supplyAt s m).state = 0 →
    ∃ t, exec (.supplyWarn m mv) s = .next t ∧ (supplyAt t m).state = 1 ∧ (supplyAt t m).mv = mv ∧
      t.sys.warnSince = some (s.sys.warnSince.getD s.beat) ∧ t.sys.dipAt = s.beat) ∧
  (∀ (s : State) (m mv : Nat), settled s = s → m < 3 → m < s.sys.supplies.length →
    (supplyAt s m).state ≠ 0 →
    ∃ t, exec (.supplyDip m mv) s = .next t ∧ (supplyAt t m).dips = (supplyAt s m).dips + 1 ∧
      t.sys.dipAt = s.beat ∧ t.sys.evq = s.sys.evq ∧ t.sys.log = s.sys.log) ∧
  (∀ (s : State) (b : Nat), Running s → s.sys.warnSince = some b → s.sys.dipAt + 1250000 ≤ s.beat →
    ∃ t, exec .supplyOk s = .next t ∧ t.sys.warnSince = none ∧
      ∀ m, m < 3 → (supplyAt t m).state = 0) ∧
  (∀ s : State, Running s →
    ∃ t, exec .freeze s = .next t ∧ t.sys.run = .frozen ∧
      (∃ r, t.sys.log = (r :: s.sys.log).take 64 ∧ r.event.code = 0x0026 ∧ r.event.source = 1 ∧
        r.event.beat = s.beat) ∧
      t.sys.capture.take 20 = [1, 0, 0, 0] ++ bytesOf 8 s.beat ++ bytesOf 8 s.rm.tick) ∧
  (∀ (s : State) (src : Origin), MayWrite s src 0x9020 1 noRow [1] →
    ∃ t, exec (.debugFreeze src) s = .next t ∧ t.sys.run = .frozen ∧
      ∃ r, t.sys.log = (r :: s.sys.log).take 64 ∧ r.event.code = 0x0026 ∧ r.event.source = 2) ∧
  (∀ s : State, s.sys.run = .frozen → exec .freeze s = .next s)

/-! ## Beats, ticks, versions, work of a boundary (R50 to R64, R181 to R211, R295, R355, R540, R575, R596) -/

/-- BEAT (R50), and the CHIP reset that a command asked for (R601). -/
def Obligations.BeatAdvances : Prop :=
  (∀ s : State, Running s → (endOfBeat s).sys.run = .running → s.sys.chipAt = none →
    ∃ t, exec .beat s = .next t ∧ t.beat = (s.beat + 1) % 2 ^ 64) ∧
  (∀ (s : State) (b : Nat), Running s → (endOfBeat s).sys.run = .running →
    s.sys.chipAt = some b → s.beat + 1 < 2 ^ 64 → b + 10000 ≤ s.beat + 1 →
    ∃ t, exec .beat s = .next t ∧ t.beat = 0 ∧ t.sys.run = .inReset ∧
      t.sys.last % 2 ^ 16 = 256 + 4) ∧
  (∀ s : State, Running s → (endOfBeat s).sys.run ≠ .running → exec .beat s = .next (endOfBeat s))

/-- TICK_BOUNDARY (R59, R61). -/
def Obligations.TickBoundaryNumbersTheTick : Prop :=
  ∀ s : State, s.sys.run = .running → boundaryDue s = true → s.sys.soft = false →
    ∃ t, exec .tickBoundary s = .next t ∧ t.rm.tick = (s.rm.tick + 1) % 2 ^ 64 ∧
      t.rm.boundaryBeat = s.beat ∧ t.rm.beatsLast = s.beat - s.rm.boundaryBeat ∧ t.beat = s.beat

/-- SLOT_RESERVE, VERSION_COMMIT, SLOT_RETIRE and VERSION_CANCEL (R185 to R193, R210). -/
def Obligations.VersionLifeCycle : Prop :=
  (∀ (s : State) (q : Sealed) (k : Nat), Running s → s.ver.slots.length = 4 →
    s.ver.pending.find? (fun q => q.slot.isNone) = some q →
    (List.range 4).find? (fun k => (slotAt s k).state == .free) = some k →
    reserveConflict s q k = false →
    ∃ t, exec .slotReserve s = .next t ∧ (slotAt t k).state = .preparing ∧
      (slotVer t k).num = q.ver.num ∧ (slotVer t k).cfg = q.ver.cfg ∧
      ∃ x, x ∈ t.ver.pending ∧ x.ver.num = q.ver.num ∧ x.slot = some k) ∧
  (∀ (s : State) (q : Sealed) (n k : Nat), s.sys.run = .running → pastBoundary s = s →
    s.ver.slots.length = 4 → k < 4 → s.ver.committedAt = some n → s.ver.pending.find? (fun q => q.ver.num == n) = some q →
    q.slot = some k →
    ∃ t, exec .versionCommit s = .next t ∧ t.ver.current = k ∧ t.ver.committedAt = none ∧
      (slotAt t k).state = .current ∧
      (k ≠ s.ver.current → s.ver.current < 4 → (slotAt t s.ver.current).state = .draining) ∧
      t.ver.pending = s.ver.pending.filter (fun x => x.ver.num != n) ∧
      ∃ h, t.ver.history.head? = some h ∧ h.num = n ∧ h.slot = k ∧ h.causes = q.causes ∧
        h.target = q.target ∧ h.commitTick = s.rm.tick) ∧
  (∀ (s : State) (k : Nat), Running s → k < 4 → (slotAt s k).state = .draining → holders s k = 0 →
    ∃ t, exec (.slotRetire k) s = .next t ∧ (slotAt t k).state = .free) ∧
  (∀ (s : State) (src : Origin) (v : Nat) (q : Sealed), v < 2 ^ 16 →
    MayWrite s src 0x1400 6 noRow (bytesOf 2 v) → s.ver.pending.getLast? = some q → q.ver.num = v →
    ∃ t, exec (.versionCancel src v) s = .next t ∧
      t.ver.pending = s.ver.pending.takeWhile (fun x => x.ver.num != v))

/-- ETWEN_BEACON, COUNTER_DUMP, IDLE_EXPORT_TASK and OBJECT_NOTIFY (R205, R295, R575, R596). -/
def Obligations.BoundaryWorkIsDoneOnce : Prop :=
  (∀ s u : State, AtBoundary s u → onPeriod u (rw u 0x1500 4) = true →
    ∃ t, exec .etwenBeacon s = .next t ∧ t.beacon = beaconPayload u ∧
      t.rm.tick = u.rm.tick ∧ t.rm.todo.contains todoBeacon = false) ∧
  (∀ s u : State, AtBoundary s u → onPeriod u (rw u 0x8820 1) = true →
    ∃ t, exec .counterDump s = .next t ∧ t.cnt.taken = none ∧
      t.cnt.sequence = s.cnt.sequence + 1 ∧
      ∃ q, t.cnt.snapshots.getLast? = some q ∧ q.tick = u.rm.tick ∧ q.beat = s.beat ∧
        q.seq = s.cnt.sequence) ∧
  (∀ s u : State, AtBoundary s u → onPeriod u (rw u 0x5800 8) = true →
    ∃ t, exec .idleExportTask s = .next t ∧ t.rm.todo.contains todoIdle = false ∧
      ∀ (c : Nat) (img : Bytes), c < 64 → bit (maskClusters (homeMask u)) c = true →
        clusterImage (curVer u) c = some img → (clusterAt u c).idleQ.length ≤ 49 →
        (clusterAt t c).idleQ = (clusterAt u c).idleQ ++ exportBuilds img) ∧
  (∀ (s u : State) (n : Nat) (x : Session) (b : Sub), AtBoundary s u → sessionAt u n = some x →
    x.subs = [b] → subDue u b = true → b.last = none →
    (lookupObj (b.a / 256) (b.a % 256)).isSome = true →
    ∃ t, exec (.objectNotify n) s = .next t ∧ t.rm.todo.contains (todoNotify n) = false ∧
      ∃ y, sessionAt t n = some y ∧ y.notifySeq = (x.notifySeq + 1) % 2 ^ 32) ∧
  (∀ s : State, Running s → s.rm.todo.contains todoBeacon = true →
    ∃ t, exec .etwenBeacon s = .next t ∧ t.rm.todo.contains todoBeacon = false ∧
      t.beacon = beaconPayload s) ∧
  (∀ (s : State) (k : Snapshot), Running s → s.cnt.taken = some k →
    ∃ t, exec .counterDump s = .next t ∧ t.cnt.taken = none ∧
      t.cnt.sequence = s.cnt.sequence + 1 ∧
      ∃ q, t.cnt.snapshots.getLast? = some q ∧ q.tick = k.tick ∧ q.beat = k.beat ∧
        q.seq = s.cnt.sequence ∧ q.words = k.words ∧ q.filtered = k.filtered) ∧
  (∀ s : State, Running s → s.rm.todo.contains todoIdle = true →
    ∃ t, exec .idleExportTask s = .next t ∧ t.rm.todo.contains todoIdle = false ∧
      ∀ (c : Nat) (img : Bytes), c < 64 → bit (maskClusters (homeMask s)) c = true →
        clusterImage (curVer s) c = some img → (clusterAt s c).idleQ.length ≤ 49 →
        (clusterAt t c).idleQ = (clusterAt s c).idleQ ++ exportBuilds img) ∧
  (∀ (s : State) (n : Nat) (x : Session) (b : Sub), Running s →
    s.rm.todo.contains (todoNotify n) = true → sessionAt s n = some x → x.subs = [b] →
    subDue s b = true → b.last = none → (lookupObj (b.a / 256) (b.a % 256)).isSome = true →
    ∃ t, exec (.objectNotify n) s = .next t ∧ t.rm.todo.contains (todoNotify n) = false ∧
      ∃ y, sessionAt t n = some y ∧ y.notifySeq = (x.notifySeq + 1) % 2 ^ 32)

/-- EVENT_RECORD_WRITE, DUMP_RECORD_WRITE, EXPORT_MESSAGE_SEND and TEMPLATE_SET_SEND (R64, R355, R540). -/
def Obligations.RecordsLeaveForTheirRings : Prop :=
  (∀ (s : State) (e : Event) (rest : List Event) (r : Nat × Nat), Running s →
    ringLive s eventRing = true → holds s arbDma 8193 = true → s.sys.lost = 0 →
    s.sys.evq = e :: rest → byteRoom s eventRing 64 = some r →
    ∃ t, exec .eventRecordWrite s = .next t ∧ ∃ x, t.sys.evq = rest ++ x) ∧
  (∀ (s : State) (q : Snapshot) (rest : List Snapshot) (r : Nat × Nat), Running s →
    ringLive s dumpRing = true → holds s arbDma 8192 = true → s.cnt.snapshots = q :: rest →
    streamsPassed s q = true → dumpLength q ≤ 2 ^ rowSize (ringRow s dumpRing) →
    byteRoom s dumpRing (dumpLength q) = some r →
    ∃ t, exec .dumpRecordWrite s = .next t ∧ t.cnt.snapshots.map Snapshot.seq = rest.map Snapshot.seq) ∧
  (∀ (s u : State) (d n : Nat) (ds : List (Nat × Nat)), Running s → d < 16 → 0 < n →
    n ≤ (domainQueue s d).length → partStopped s = false →
    messageFits s (exportMessage s d n).length = true →
    sendMessage s d n (exportMessage s d n) ds = some (u, .whole) →
    ∃ t, exec (.exportMessageSend d n ds) s = .next t ∧
      domainQueue t d = (domainQueue u d).drop n ∧ domainSeq t d = (domainSeq u d + n) % 2 ^ 32) ∧
  (∀ (s : State) (d : Nat) (ds : List (Nat × Nat)), Running s →
    s.host.tmplDue.contains d = true → partStopped s = false →
    (templateSet s = [] ∨ ∃ u, sendMessage s d 0 (ipfixMessage s d (domainSeq s d) (templateSet s)) ds
      = some (u, .whole)) →
    ∃ t, exec (.templateSetSend d ds) s = .next t ∧ t.host.tmplDue.contains d = false)

/-! ## Ports and lanes (R87 to R115) -/

/-- PORT_ENABLE and RESTART_DELAY_EXPIRY start bring-up (R102, R103): NEGOTIATE (1) with Clause 73, else
STEP (2). SER_REFCLK_RESTORED (R106). -/
def Obligations.BringUpStarts : Prop :=
  (∀ (s : State) (src : Origin) (n : Nat), n < 130 →
    MayWrite s src (0x3100 + n) 2 noRow [1] → portEnabled s n = false → enableOk s n = true →
    reservesOk { setRw s (0x3100 + n) 2 noRow [1] with held := [] } = true →
    clockGood s n = true → lanesWanted s n = true → portMode s n ≠ 0 →
    ∃ t, exec (.portEnable src n) s = .next t ∧ stored t (0x3100 + n) 2 noRow = [1] ∧
      (portAt t n).state = (if portAn s n = 1 then 1 else 2)) ∧
  (∀ (s : State) (n b : Nat), Running s → (portAt s n).timer = .restart b → b ≤ s.beat →
    portEnabled s n = true → clockGood s n = true → lanesWanted s n = true → portMode s n ≠ 0 →
    ∃ t, exec (.restartDelayExpiry n) s = .next t ∧
      (portAt t n).state = (if portAn s n = 1 then 1 else 2)) ∧
  (∀ (s : State) (p : Nat), Running s → p < 8 → (pipeAt s p).refclkLost = true →
    (pipeAt s p).refclkAt + 1250000 ≤ s.beat →
    ∃ t, exec (.serRefclkRestored p) s = .next t ∧ (pipeAt t p).refclkLost = false ∧
      ∀ i, i < 16 → portEnabled s (16 * p + i) = true → lanesWanted s (16 * p + i) = true →
        portMode s (16 * p + i) ≠ 0 →
        (portAt t (16 * p + i)).state = (if portAn s (16 * p + i) = 1 then 1 else 2))

/-- AN_COMPLETE, TRAINING_DONE, LINK_UP and LINK_FAULT_CLEAR (R94, R101, R102). -/
def Obligations.BringUpAdvances : Prop :=
  (∀ (s : State) (n m f : Nat), Running s → n < 130 → (portAt s n).state = 1 →
    (advertised s n).contains m = true → fecResolves s n m f = true →
    ∃ t, exec (.anComplete n m f) s = .next t ∧ (portAt t n).mode = m ∧ (portAt t n).state = 2 ∧
      ∀ l, l ∈ footprint s n →
        (laneAt t l).power = if (lanesOf n m).contains l then 0 else 3) ∧
  (∀ (s : State) (n : Nat) (cs : List Nat), Running s → n < 130 →
    ((portAt s n).state = 3 ∨ ((portAt s n).state = 2 ∧ trains s n (portAt s n).mode = true ∧
      keepsCoeffs (portAt s n) = false)) →
    ∃ t, exec (.trainingDone n cs) s = .next t ∧ (portAt t n).state = 4 ∧
      (portAt t n).modeActive = (portAt s n).mode ∧ (portAt t n).fecActive = (portAt s n).fec) ∧
  (∀ (s : State) (n k : Nat), Running s → n < 130 → (portAt s n).state = 4 →
    (portAt s n).faults = 0 → searching s n = false → k ≤ 240 → (portAt s n).timer ≠ .none →
    ∃ t, exec (.linkUp n k) s = .next t ∧ (portAt t n).state = 5 ∧ (portAt t n).timer = .none ∧
      (portAt t n).lastChange = s.beat ∧ (portAt t n).modeActive = (portAt s n).mode) ∧
  (∀ (s : State) (n : Nat), Running s → n < 130 → (portAt s n).state = 4 →
    (portAt s n).faults ≠ 0 → searching s n = false → (portAt s n).timer = .none →
    ∃ t, exec (.linkFaultClear n) s = .next t ∧ (portAt t n).state = 5 ∧ (portAt t n).faults = 0)

/-- TRAINING_TIMEOUT, LOCK_TIMEOUT and KEPT_COEFFICIENTS_LOCK_TIMEOUT (R104, R113). -/
def Obligations.FailedBringUpWaits : Prop :=
  (∀ (s : State) (n b : Nat), Running s → (portAt s n).state = 3 → (portAt s n).timer = .train b →
    b ≤ s.beat →
    ∃ t, exec (.trainingTimeout n) s = .next t ∧ (portAt t n).state = 0 ∧
      (portAt t n).failCause = 1 ∧
      (portAt t n).timer = .restart (beatAfter s (msBeats (rw s (0x3100 + n) 0x0A)))) ∧
  (∀ (s : State) (n b k : Nat), Running s → n < 130 → (portAt s n).state = 4 →
    (portAt s n).timer = .lock b →
    (b ≤ s.beat ∨ (240 < k ∧ 2 ≤ modeLanes (portAt s n).mode)) →
    ∃ t, exec (.lockTimeout n k) s = .next t ∧ (portAt t n).state = 0 ∧
      (portAt t n).failCause = (if 240 < k ∧ 2 ≤ modeLanes (portAt s n).mode then 3 else 2) ∧
      (portAt t n).timer = .restart (beatAfter s (msBeats (rw s (0x3100 + n) 0x0A)))) ∧
  (∀ (s : State) (n b : Nat), Running s → (portAt s n).state = 4 → (portAt s n).timer = .kept b →
    b ≤ s.beat →
    ∃ t, exec (.keptCoefficientsLockTimeout n) s = .next t ∧
      (if trains s n (portAt s n).mode then
        (portAt t n).state = 3 ∧ (portAt t n).kept = false
       else (portAt t n).state = 0 ∧ (portAt t n).failCause = 2))

/-- LINK_DOWN, LINK_HI_BER, SER_REFCLK_LOST and PORT_DISABLE (R94, R104, R106, R381). -/
def Obligations.PortLeavesUp : Prop :=
  (∀ (s : State) (n : Nat), Running s → n < 130 → (portAt s n).state = 5 →
    ∃ t, exec (.linkDown n) s = .next t ∧ (portAt t n).state = 0 ∧ (portAt t n).modeActive = 0 ∧
      (portAt t n).timer = .restart (beatAfter s (msBeats (rw s (0x3100 + n) 0x0A))) ∧
      ((portAt s n).rx = none → (portAt s n).tx = none → (portAt s n).link = 0 →
        (portAt t n).link = (if rw s (0x6100 + n) 0x15 = 0 then 2 else 1) ∧
        (rw s (0x6100 + n) 0x15 ≠ 0 →
          (portAt t n).holdEnd = beatAfter s (rw s (0x6100 + n) 0x15 * 1250)))) ∧
  (∀ (s : State) (n c : Nat), Running s → n < 130 → (portAt s n).state = 5 → c < 3 →
    ∃ t, exec (.linkHiBer n c) s = .next t ∧ (portAt t n).state = 4 ∧
      bit (portAt t n).faults c = true) ∧
  (∀ (s : State) (p : Nat), Running s → p < 8 → (pipeAt s p).refclkLost = false →
    (∀ i, i < 16 → (portAt s (16 * p + i)).rx = none ∧ (portAt s (16 * p + i)).tx = none) →
    ∃ t, exec (.serRefclkLost p) s = .next t ∧ (pipeAt t p).refclkLost = true ∧
      ∀ i, i < 16 → portEnabled s (16 * p + i) = true →
        (portAt t (16 * p + i)).state = 0 ∧ (portAt t (16 * p + i)).failCause = 4) ∧
  (∀ (s : State) (src : Origin) (n : Nat), n < 130 → MayWrite s src (0x3100 + n) 2 noRow [0] →
    portEnabled s n = true →
    ∃ t, exec (.portDisable src n) s = .next t ∧ stored t (0x3100 + n) 2 noRow = [0] ∧
      (portAt t n).state = 0 ∧ (portAt t n).link = 2)

/-- LANE_SEARCH_ENTER, _SLIP, _WINDOW_END and _EXIT (R108 to R110). LANE_POWER_DEEP, _OFF and _ACTIVE, LPI_ENTER and LPI_WAKE (R111, R112). -/
def Obligations.LanesSearchAndSleep : Prop :=
  (∀ (s : State) (src : Origin) (l n : Nat), l < 130 →
    MayWrite s src (0x3000 + l) 0x0B noRow [1] → portOfLane s l = some n → n < 130 →
    (portAt s n).state = 5 → (portAt s n).mode ∈ [2, 3, 5] →
    rwBool s (0x3000 + l) 0x0B = false →
    ∃ t, exec (.laneSearchEnter src l) s = .next t ∧ stored t (0x3000 + l) 0x0B noRow = [1] ∧
      (portAt t n).state = 4 ∧ (portAt t n).timer = .none) ∧
  (∀ (s : State) (src : Origin) (l u : Nat), l < 130 → u < 256 →
    MayWrite s src (0x3000 + l) 0x0C noRow (bytesOf 1 u) → (laneAt s l).busy = false →
    ∃ t, exec (.laneSearchSlip src l u) s = .next t ∧ (laneAt t l).busy = true ∧
      (laneAt t l).offset = ((laneAt s l).offset + u) % 66) ∧
  (∀ (s : State) (l e : Nat), Running s → (laneAt s l).busy = true →
    (laneAt s l).windowEnd ≤ s.beat → e ≤ (laneAt s l).window →
    ∃ t, exec (.laneSearchWindowEnd l e) s = .next t ∧ (laneAt t l).busy = false ∧
      (laneAt t l).done = true ∧ (laneAt t l).errors = e % 2 ^ 23) ∧
  (∀ (s : State) (src : Origin) (l : Nat), l < 130 →
    MayWrite s src (0x3000 + l) 0x0B noRow [0] →
    ∃ t, exec (.laneSearchExit src l) s = .next t ∧ stored t (0x3000 + l) 0x0B noRow = [0]) ∧
  (∀ (s : State) (src : Origin) (l : Nat), l < 128 → MayWrite s src (0x3000 + l) 2 noRow [2] →
    ∃ t, exec (.lanePowerDeep src l) s = .next t ∧
      (portOfLane s l = none → stored t (0x3000 + l) 2 noRow = [2]) ∧
      (∀ n, portOfLane s l = some n → l ∈ footprint s n → rw s (0x3000 + l) 2 = 0 →
        (portAt t n).state = 0 ∧ ∀ x, x ∈ footprint s n → (laneAt t x).power = 2 ∧
          (laneAt t x).coeffs = if rwBool s (0x3000 + x) 4 then (laneAt s x).coeffs else 0)) ∧
  (∀ (s : State) (src : Origin) (l : Nat), l < 130 → MayWrite s src (0x3000 + l) 2 noRow [3] →
    ∃ t, exec (.lanePowerOff src l) s = .next t ∧
      (portOfLane s l = none → stored t (0x3000 + l) 2 noRow = [3]) ∧
      (∀ n, portOfLane s l = some n → l ∈ footprint s n → rw s (0x3000 + l) 2 = 0 →
        (portAt t n).state = 0 ∧
        ∀ x, x ∈ footprint s n → (laneAt t x).power = 3 ∧ (laneAt t x).coeffs = 0)) ∧
  (∀ (s : State) (src : Origin) (l n : Nat), l < 130 → MayWrite s src (0x3000 + l) 2 noRow [0] →
    portOfLane s l = some n → l ∈ footprint s n → rw s (0x3000 + l) 2 = 3 → clockGood s n = true →
    portMode s n ≠ 0 → (∀ x, x ∈ footprint s n → tfind s.held (keyOf (0x3000 + x) 2 noRow) = none) →
    ∃ t, exec (.lanePowerActive src l) s = .next t ∧
      (portAt t n).state = (if portAn s n = 1 then 1 else 2)) ∧
  (∀ (s : State) (n : Nat), Running s → n < 130 → (portAt s n).state = 5 →
    rwBool s (0x3100 + n) 0x0B = true → (portAt s n).tx = none →
    ∃ t, exec (.lpiEnter n) s = .next t ∧ (portAt t n).lpi = true ∧ (portAt t n).state = 5) ∧
  (∀ (s : State) (n : Nat), Running s → (portAt s n).lpi = true →
    ∃ t, exec (.lpiWake n) s = .next t ∧ (portAt t n).lpi = false)

/-! ## Home halves, clusters and engines (R65 to R81, R212 to R317) -/

/-- HOME_BEAT (R65, R67, R68): the home clock. -/
def Obligations.EmptyHomeBeatAdvancesTheClock : Prop :=
  (∀ (s : State) (p : Nat) (u : Option (Nat × Ecc)), Running s → homeReady s p = true →
    slipping s p (pipeAt s p).h = false → mergeHeld s p (pipeAt s p).h = false →
    emptyBeat s p (pipeAt s p).h = true →
    ∃ t, exec (.homeBeat p u) s = .next t ∧ (pipeAt t p).h = (pipeAt s p).h + 1 ∧
      (pipeAt t p).lastBeat = s.beat) ∧
  (∀ (s : State) (p : Nat) (u : Option (Nat × Ecc)), Running s → homeReady s p = true →
    slipping s p (pipeAt s p).h = true →
    ∃ t, exec (.homeBeat p u) s = .next t ∧ (pipeAt t p).h = (pipeAt s p).h ∧
      (pipeAt t p).slip = (pipeAt s p).slip + 1)

/-- PACKET_COMMIT, AGE_COMMIT, RELOC_MOVE_COMMIT and DSCRUB_COMMIT (R229, R243, R248, R252, R313, R329). -/
def Obligations.CommitStepsRunOnce : Prop :=
  (∀ (s u : State) (p id : Nat) (q : Pos), CommitRuns s p q u → q.work = .packet id →
    ∃ t, exec (.packetCommit p) s = .next t ∧ (∃ y, posAt t p q.h = some y ∧ y.done = true) ∧
      ∀ k, pktAt s id = some k → k.flow.trapped = true →
        (trapDecision (slotVer s k.vslot) k.flow.profile).kind ≠ 3 →
        ∃ x, pktAt t id = some x ∧ x.stage = .toEgress ∧
          x.dec.kind = (trapDecision (slotVer s k.vslot) k.flow.profile).kind) ∧
  (∀ (s u : State) (p i : Nat) (l : List Nat) (q : Pos), CommitRuns s p q u → q.work = .age i l →
    ∃ t, exec (.ageCommit p) s = .next t ∧ ∃ y, posAt t p q.h = some y ∧ y.done = true) ∧
  (∀ (s u : State) (p d f e : Nat) (b : Bool) (src : Place) (q : Pos), CommitRuns s p q u →
    q.work = .move src d f b e →
    ∃ t, exec (.relocMoveCommit p) s = .next t ∧ ∃ y, posAt t p q.h = some y ∧ y.done = true) ∧
  (∀ (s u : State) (p b : Nat) (x : Option (Nat × Bytes)) (q : Pos), CommitRuns s p q u →
    q.work = .dscrub b x →
    ∃ t, exec (.dscrubCommit p) s = .next t ∧ (∃ y, posAt t p q.h = some y ∧ y.done = true) ∧
      ∀ a w, x = some (a, w) → dirAt s a = 255 → q.rebuild = [] →
        (q.badSlots.any fun e => e.1 == a) = false → a ∉ t.mem.quarantine)

/-- HCMD_INSERT, _DELETE, _MODIFY, _READ and _REJECTED (R255 to R258, R520); what a FUNCTION reset loses is the
model's reading (log entry 174). -/
def Obligations.TableCommandsComplete : Prop :=
  (∀ (s u : State) (p : Nat) (q : Pos) (m : Cmd), CommitRuns s p q u → q.work = .hcmd m →
    m.kind = 0 → q.status ≠ 7 → cmdOp m.body = 1 →
    ∃ t, exec (.hcmdInsert p) s = .next t ∧
      ∃ x, Completes s t p m x) ∧
  (∀ (s u : State) (p : Nat) (q : Pos) (m : Cmd), CommitRuns s p q u → q.work = .hcmd m →
    m.kind = 0 → q.status ≠ 7 → cmdOp m.body = 2 →
    ∃ t, exec (.hcmdDelete p) s = .next t ∧
      ∃ x, Completes s t p m x) ∧
  (∀ (s u : State) (p : Nat) (q : Pos) (m : Cmd), CommitRuns s p q u → q.work = .hcmd m →
    m.kind = 0 → q.status ≠ 7 → cmdOp m.body = 3 →
    ∃ t, exec (.hcmdModify p) s = .next t ∧
      ∃ x, Completes s t p m x) ∧
  (∀ (s u : State) (p : Nat) (q : Pos) (m : Cmd), CommitRuns s p q u → q.work = .hcmd m →
    m.kind = 0 → q.status ≠ 7 → cmdOp m.body = 4 →
    ∃ t, exec (.hcmdRead p) s = .next t ∧
      ∃ x, Completes s t p m x) ∧
  (∀ (s u : State) (p : Nat) (q : Pos) (m : Cmd), CommitRuns s p q u → q.work = .hcmd m →
    m.kind = 0 → q.status = 7 →
    ∃ t, exec (.hcmdRejected p) s = .next t ∧
      ∃ x, Completes s t p m x ∧ byteAt x.body 0 = 7)

/-- HBM_READ_LAND, HBM_WRITE_LAND, HOLDING_QUEUE_RELEASE and RESEQUENCER_RELEASE (R79, R80, R231, R292). -/
def Obligations.LandingsAndReleases : Prop :=
  (∀ (s : State) (p : Nat) (e : Ecc) (r : Read), Running s → pipeLive s p = true →
    (pipeAt s p).reads.find? (fun x => x.id == r.id) = some r → r.issued = true →
    r.landed = false → r.requester ≠ 3 → r.requester ≠ writeReq → r.id < (pipeAt s p).nextRead →
    ∃ t, exec (.hbmReadLand p r.id e) s = .next t ∧
      ∀ x, x ∈ (pipeAt t p).reads → x.id = r.id → x.landed = true) ∧
  (∀ (s : State) (p a : Nat), Running s → pipeLive s p = true →
    (pipeAt s p).reads.any (writeOut a) = true →
    ∃ t, exec (.hbmWriteLand p a) s = .next t ∧
      (pipeAt t p).reads.length + 1 = (pipeAt s p).reads.length ∧
      if (ldel (writeOut a) (pipeAt s p).reads).any fun x =>
          x.requester == writeReq && x.slot == a && x.area == 0 then
        (pipeAt t p).cache = (pipeAt s p).cache
      else ∀ c, c ∈ (pipeAt t p).cache → c.slot = a → c.pin ≠ .write) ∧
  (∀ (s : State) (p : Nat) (k : Pkt), Running s → pipeLive s p = true →
    argMin orderKey (mayCross s p) = some k →
    ∃ t, exec (.holdingQueueRelease p) s = .next t ∧
      ∃ x, x ∈ t.pkts ∧ x.id = k.id ∧ x.stage = .crossing) ∧
  (∀ (s : State) (c id : Nat) (rest : List Nat) (k : Pkt), Running s → inRotation s c = true →
    pipeLive s (c / 8) = true → (clusterAt s c).reseq = id :: rest → pktAt s id = some k →
    k.flow.complete = true → k.flow.doneAt ≤ s.beat → (clusterAt s c).released ≠ some s.beat →
    ∃ t, exec (.resequencerRelease c) s = .next t ∧ (clusterAt t c).reseq = rest ∧
      (clusterAt t c).released = some s.beat ∧
      ∃ y, pktAt t id = some y ∧ y.flow.joined = true)

/-- MICROWORD_ISSUE, ENGINE_BUDGET_TRAP and IDLE_OVERRUN (R76, R270, R284, R297, R312). IDLE_STEP_START, IDLE_STEP_PUBLISH and VERIFY_RESULT (R295, R296, R353, R459). -/
def Obligations.EnginesRunTrapAndPublish : Prop :=
  (∀ (s : State) (c e : Nat) (x : Ecc) (g : Engine) (img : Bytes) (w : Nat), Running s →
    mayIssue s c e = true → x ≠ .double → g = landUpTo (engineAt s c e) s.beat →
    img = engineImage s c g → w = fetchWord s c g → wordTrap g w g.pc img = none →
    ∃ t, exec (.microwordIssue c e x) s = .next t ∧ (engineAt t c e).lastIssue = some s.beat ∧
      (engineAt t c e).next = s.beat + fld w 255 254 + 1 ∧ (engineAt t c e).lastPc = g.pc) ∧
  (∀ (s : State) (c e : Nat), Running s → mayIssue s c e = true →
    ((clusterAt s c).state = 0 ∨ (clusterAt s c).state = 2) →
    ∃ t, exec (.microwordIssue c e .double) s = .next t ∧ (clusterAt t c).state = 2 ∧
      ((clusterAt s c).state = 0 → frozenWord 6 0xFF c ∈ t.sys.frozenList)) ∧
  (∀ (s : State) (c e : Nat), Running s → holdsPacket (engineAt s c e) s.beat = true →
    overdue s (engineAt s c e) 120 = true → inRotation s c = true → pipeLive s (c / 8) = true →
    ((clusterAt s c).state = 0 ∨ (clusterAt s c).state = 2) →
    ∃ t, exec (.engineBudgetTrap c e) s = .next t ∧ (clusterAt t c).state = 2 ∧
      ((clusterAt s c).state = 0 → frozenWord 6 0xFF c ∈ t.sys.frozenList)) ∧
  (∀ (s : State) (c e : Nat), Running s → runsIdle (engineAt s c e) = true →
    overdue s (engineAt s c e) 32 = true → inRotation s c = true → pipeLive s (c / 8) = true →
    ∃ t, exec (.idleOverrun c e) s = .next t ∧ (engineAt t c e).load = .none) ∧
  (∀ (s : State) (c e a : Nat) (k : Task) (rest : List Task) (img : Bytes), Running s →
    rwBool s 0x5800 7 = true → inRotation s c = true → pipeLive s (c / 8) = true →
    (clusterAt s c).idleQ = k :: rest → idleEngine s c = some e →
    clusterImage (curVer s) c = some img → imgIdleEntry img k.kind = some a →
    ∃ t, exec (.idleStepStart c) s = .next t ∧ (engineAt t c e).load = .idle k ∧
      (engineAt t c e).pc = a ∧ (clusterAt t c).idleQ = rest) ∧
  (∀ (s : State) (c e : Nat) (k : Task) (h : Bytes), Running s → (engineAt s c e).load = .idle k →
    (engineAt s c e).retiring = true → (engineAt s c e).freeAt ≤ s.beat + 7 →
    overdue s (engineAt s c e) 32 = false →
    inRotation s c = true → pipeLive s (c / 8) = true →
    ∃ t, exec (.idleStepPublish c e h) s = .next t ∧ (engineAt t c e).load = .none) ∧
  (∀ (s : State) (id : Nat) (k : Pkt) (f : Bool), Running s → pktAt s id = some k →
    k.flow.verify = 1 → k.flow.verifyDue ≤ s.beat → pipeLive s k.flow.home = true →
    ∃ t, exec (.verifyResult id f) s = .next t ∧
      ((verifyArg k ((clusterImage (slotVer s k.vslot) (k.flow.cluster.getD 0)).getD [])).isSome = true →
        ∃ y, pktAt t id = some y ∧ (y.flow.verify = 2 ∨ y.flow.verify = 3)))

/-! ## Frames (R29 to R31, R95, R141, R338 to R390, R415 to R432) -/

/-- FRAME_INGRESS (R29, R36, R95, R361). -/
def Obligations.FrameIngressAccepts : Prop :=
  ∀ (s : State) (n : Nat) (f : Bytes) (ph : Nat) (e : Ecc), Running s → n < 130 →
    (portAt s n).state = 5 → (portAt s n).rx = none → macRxOn s n = false → isControl f = false →
    (portAt s n).refusing = false → (portAt s n).frozen = false →
    (portAt s n).frozenCls = 0 → isDiverted s n f = false →
    (∀ a : Arrival, a = {
          node := n, frame := f, stamp := rxStamp s n ph, macsec := false, staged := false,
          exactEcc := e, cls := none, direct := none, tx := none } →
      (takeCells s n (ingressClass s a (parseFrame (parseCtx s (curVer s) f))) 1).isSome = true) →
    ∃ t, exec (.frameIngress n f ph e) s = .next t ∧ (portAt t n).rx = some s.nextPkt ∧
      t.nextPkt = s.nextPkt + 1 ∧
      ∃ k, k ∈ t.pkts ∧ k.id = s.nextPkt ∧ k.node = n ∧ k.bytes = f ∧ k.inBeat = s.beat ∧
        k.tick = s.rm.tick ∧ k.vslot = s.ver.current

/-- FRAME_TAIL, POLICER_JUDGE and EGRESS_ENTRY (R31, R83, R338, R377, R425). -/
def Obligations.TailsJudgementsAndEgress : Prop :=
  (∀ (s : State) (n : Nat) (k : Pkt), Running s → (portAt s n).rx = some k.id →
    pktAt s k.id = some k → k.node = n → tailReady s k = true →
    ∃ t, exec (.frameTail ⟨n, []⟩) s = .next t ∧ (portAt t n).rx = none ∧
      (judgeTail s k false = 0 → k.policy = 0 → k.dec.kind = 2 → k.stage = .receiving →
        k.mirror = none → k.search = none → k.exc = [] → k.tx = none →
        (takeUpTo s k k.bytes.length).isSome = true →
        ∃ x, pktAt t k.id = some x ∧ (x.stage = .crossing ∨ x.stage = .holding) ∧
          x.due = s.beat + 40 ∧ x.flow.profile = k.dec.profile)) ∧
  (∀ (s : State) (k : Pkt) (i : Nat), Running s → pktAt s k.id = some k → k.policer = some i →
    (nextJudged s (policerPipe i) s.beat).map Pkt.id = some k.id → k.stage ≠ .gone →
    ∃ t, exec (.policerJudge k.id) s = .next t ∧
      ∃ x, pktAt t k.id = some x ∧ (x.colour = 1 ∨ x.colour = 2 ∨ x.colour = 3)) ∧
  (∀ (s : State) (k : Pkt), Running s → pktAt s k.id = some k → entryReady s k = true →
    k.policer = none → editsOf s k = [] → vecMacsec k.vec = false →
    (∀ q b, gateOversize s (slotVer s k.vslot) (decNode k.dec) q b = false) →
    (portAt s (decNode k.dec)).link < 2 →
    ∃ t, exec (.egressEntry k.id) s = .next t ∧
      ∃ x, pktAt t k.id = some x ∧ x.stage = .queued ∧ k.id ∈ queueAt t x.out.qid)

/-- FRAME_TRANSMIT_START and FRAME_TRANSMIT_END (R361, R416). -/
def Obligations.TransmissionStartsAndEnds : Prop :=
  (∀ (s u : State) (n : Nat) (kid : Kid) (k : Pkt), Running s → n < 130 → maySend s n = true →
    (portAt s n).tx = none → flowDue s n = false → pipeLive s (nodePipe n) = true →
    u = storeCut s n → choosePort u n (readyQueues u n) = some kid → headOf u kid.queue = some k →
    pktAt u k.id = some k →
    ∃ t, exec (.frameTransmitStart n [] none) s = .next t ∧ (portAt t n).tx = some k.id ∧
      ∃ x, pktAt t k.id = some x ∧ x.stage = .sending ∧ x.out.startBeat = s.beat) ∧
  (∀ (s : State) (n id : Nat) (k : Pkt), Running s → (portAt s n).tx = some id →
    pktAt s id = some k → k.tailDone = true → k.out.endBeat ≤ s.beat →
    ∃ t, exec (.frameTransmitEnd n) s = .next t ∧ (portAt t n).tx = none ∧
      Output.frame n k.out.startBeat k.out.sent k.out.stomped ∈ t.out)

/-- FLOW_CONTROL_FRAME_SEND, FLOW_CONTROL_REPEAT, PAUSE_FRAME_RECEIVE and PAUSE_EXPIRY (R368, R369). -/
def Obligations.FlowControlTellsAndObeys : Prop :=
  (∀ (s : State) (n : Nat), n < 130 → isUp s n = true → untold s n ≠ [] →
    (portAt (queueFlow s n) n).fcQ
      = (portAt s n).fcQ ++ [(untold s n).map fun k => (k, b2n (xOf s n k))] ∧
    untold (queueFlow s n) n = []) ∧
  (∀ (s : State) (n : Nat) (xs : Tbl Nat) (rest : List (Tbl Nat)), Running s → flowReady s n = true →
    (portAt s n).fcQ = xs :: rest → (tkeys xs).Nodup →
    ∃ t, exec (.flowControlFrameSend n) s = .next t ∧ (portAt t n).fcQ = rest ∧
      (∃ o f, t.out = s.out ++ o ++ [.flowControl n f] ∧
        (macTxOn s n = false → o = [] ∧ f = flowFrame s n xs)) ∧
      tget 0 t.cnt.words (cPort n 24) = wordAdd (tget 0 s.cnt.words (cPort n 24)) 1 ∧
      ∀ e, e ∈ xs → tfind (portAt t n).repeatAt e.1
        = if e.2 = 0 then none else some (s.beat + halfQuanta s n)) ∧
  (∀ (s : State) (n : Nat), Running s → flowReady s n = true → repeats s n ≠ [] →
    ∃ t, exec (.flowControlRepeat n) s = .next t ∧
      (∃ o f, t.out = s.out ++ o ++ [.flowControl n f] ∧
        (macTxOn s n = false → o = [] ∧ f = flowFrame s n ((repeats s n).map fun k => (k, 1)))) ∧
      ∀ k, k ∈ repeats s n → tfind (portAt t n).repeatAt k = some (s.beat + halfQuanta s n)) ∧
  (∀ (s : State) (n : Nat) (f : Bytes), Running s → n < 130 → (portAt s n).state = 5 →
    isControl f = true → macRxOn s n = false →
    ∃ t, exec (.pauseFrameReceive n f) s = .next t ∧
      tget 0 t.cnt.words (cPort n 25) = wordAdd (tget 0 s.cnt.words (cPort n 25)) 1 ∧
      (fcMode s n ≠ 0 → natAt f 14 2 = 1 → natAt f 16 2 = 0 →
        ∀ k, k < 8 → tfind (portAt t n).pauseEnd k = none)) ∧
  (∀ (s : State) (n c b : Nat), Running s → tfind (portAt s n).pauseEnd c = some b → b ≤ s.beat →
    ∃ t, exec (.pauseExpiry n c) s = .next t ∧ tfind (portAt t n).pauseEnd c = none)

/-- LINK_HOLD_EXPIRY, LINK_FLUSHED, GATE_LIST_STARTED and GATE_INSTANT (R381, R429, R430). -/
def Obligations.LinkLossAndGatesRun : Prop :=
  (∀ (s : State) (n : Nat), Running s → (portAt s n).link = 1 → (portAt s n).holdEnd ≤ s.beat →
    ∃ t, exec (.linkHoldExpiry n) s = .next t ∧ (portAt t n).link = 2 ∧ (portAt t n).flushed = 0) ∧
  (∀ (s : State) (n : Nat), Running s → (portAt s n).link = 2 → queuedFor s n = [] →
    ∃ t, exec (.linkFlushed n) s = .next t ∧ (portAt t n).flushHold = [] ∧
      (portAt t n).link = (if (portAt s n).state = 5 then 0 else 3)) ∧
  (∀ (s : State) (n c tb y v : Nat) (l : List Nat), Running s →
    (gateAt s n).change = some (c, tb, y, v, l) → tbValid s tb = true → tbReached s tb c = true →
    ∃ t, exec (.gateListStarted n) s = .next t ∧ (gateAt t n).running = true ∧
      (gateAt t n).entry = 0 ∧ (gateAt t n).list = l ∧ (gateAt t n).cycleStart = c ∧
      (gateAt t n).version = v ∧ (gateAt t n).change = none) ∧
  (∀ (s : State) (n : Nat), Running s → (gateAt s n).running = true →
    tbReached s (gateAt s n).tb (gateAt s n).next = true →
    ∃ t, exec (.gateInstant n) s = .next t ∧
      (gateAt t n).entry = (if (cycleSegs (gateAt s n).list (gateAt s n).cycle).length
        ≤ (gateAt s n).entry + 1 then 0 else (gateAt s n).entry + 1))

/-- COPY_DELIVER and SAMPLE_FORMAT_TIMEOUT (R389, R390). -/
def Obligations.CopiesAreDelivered : Prop :=
  (∀ (s u : State) (c : Copy) (ds : List (Nat × Nat)), Running s → copyAt s c.id = some c →
    (nextCopyOf s c.ring).map Copy.id = some c.id → rxTakes s c.ring (.copy c.id) = true →
    holds s arbDma c.ring = true → rxDeliver s c.ring (.copy c.id) c.words (copyBytes c) ds = some (u, .whole) →
    ∃ t, exec (.copyDeliver c.id ⟨ds, []⟩) s = .next t ∧ Output.copy c.ring (copyBytes c) ∈ t.out) ∧
  (∀ (s : State) (c : Copy) (w : Nat), Running s → copyAt s c.id = some c → c.waitUntil = some w →
    w ≤ s.beat →
    ∃ t, exec (.sampleFormatTimeout c.id) s = .next t ∧
      (∃ x, copyAt t c.id = some x ∧ x.waitUntil = none) ∧
      ∀ e, e ∈ t.clusters → ∀ y, y ∈ e.2.idleQ → y.copy ≠ some c.id)

/-! ## Search banks and egress tables (R70, R149 to R169, R197 to R200, R435) -/

/-- TWRITE, TSCRUB and EWRITE (R70, R167 to R169, R435). LEGACY_WRITE, SCHED_ROW_WRITE, SCHED_CLEAR_DEBT and BANK_MODE_WRITE (R199, R200, R421, R435). -/
def Obligations.SearchAndSchedulerTables : Prop :=
  (∀ (s : State) (p : Nat), Running s → ingressReady s p = true →
    jobOf s .ingress s.beat = jobTwrite →
    ∃ t, exec (.twrite p) s = .next t ∧ (pipeAt t p).ingLast = some s.beat) ∧
  (∀ (s : State) (p : Nat) (f : Option TcamUnit) (e : Ecc), Running s → ingressReady s p = true →
    jobOf s .ingress s.beat = jobTscrub →
    ∃ t, exec (.tscrub p f e) s = .next t ∧ (pipeAt t p).ingLast = some s.beat ∧
      (pipeAt t p).scrubPos = ((pipeAt s p).scrubPos % 32768 + 1) % 32768 ∧
      (e ≠ .double → tcamAt t (unitNo p ((pipeAt s p).scrubPos % 32768 / 2048)
          ((pipeAt s p).scrubPos % 32768 % 2048))
        = shadowAt s (unitNo p ((pipeAt s p).scrubPos % 32768 / 2048)
          ((pipeAt s p).scrubPos % 32768 % 2048)))) ∧
  (∀ (s : State) (p : Nat), Running s → egressReady s p = true →
    jobOf s .egress s.beat = jobEwrite →
    ∃ t, exec (.ewrite p) s = .next t ∧ (pipeAt t p).egLast = some s.beat ∧
      ∀ w rest, s.buf.schedQ = w :: rest → schedPipe s w.node = p → t.buf.schedQ = rest) ∧
  (∀ (s : State) (src : Origin) (p : Nat) (r : Bytes), p < 8 →
    MayWrite s src (0x4D00 + p) 1 0 r → natAt r 0 2 < 16 →
    bankLegacy s (16 * p + natAt r 0 2) = true →
    rowSizeOk (r.drop 4) (curWidth s (16 * p + natAt r 0 2)) = true →
    natAt r 2 2 < 2048 / curWidth s (16 * p + natAt r 0 2) → (pipeAt s p).legacy.length < 256 →
    ∃ t, exec (.legacyWrite src p r) s = .next t ∧
      ∃ l, (pipeAt t p).legacy = (pipeAt s p).legacy ++ [l] ∧ l.bank = natAt r 0 2 ∧
        l.entry = natAt r 2 2 ∧ l.recv = s.beat ∧ l.tick = s.rm.tick + 1) ∧
  (∀ (s : State) (src : Origin) (l i : Nat) (r : Bytes), MayWrite s src 0x7000 (l + 1) i r →
    nodeRowOk r = true → s.buf.schedQ.length < 1024 →
    ∃ t, exec (.schedRowWrite src l i r) s = .next t ∧
      ∃ w, t.buf.schedQ = s.buf.schedQ ++ [w] ∧ w.node = nodeKey l i ∧ w.row = some r) ∧
  (∀ (s : State) (src : Origin) (v : Nat), MayWrite s src 0x7000 5 noRow (bytesOf 4 v) →
    bits v 16 0 < levelSize (bits v 31 30) → s.buf.schedQ.length < 1024 →
    ∃ t, exec (.schedClearDebt src v) s = .next t ∧
      ∃ w, t.buf.schedQ = s.buf.schedQ ++ [w] ∧ w.node = nodeKey (bits v 31 30) (bits v 16 0) ∧
        w.row = none) ∧
  (∀ (s : State) (src : Origin) (g m : Nat), g < 128 → m < 256 →
    MayWrite s src (0x4800 + g) 3 noRow [BitVec.ofNat 8 m] →
    (∀ k, k < 4 → isLive s k = true → bankGroup (slotVer s k) g = 15) →
    (∀ q, q ∈ s.ver.pending → bankGroup q.ver g = 15) →
    ∃ t, exec (.bankModeWrite src g m) s = .next t ∧
      stored t (0x4800 + g) 3 noRow = [BitVec.ofNat 8 m] ∧
      ∀ n, g * 2048 ≤ n → n < g * 2048 + 2048 → tcamAt t n = TcamUnit.zero)

/-! ## Cipher units (R441 to R468) -/

/-- MACSEC_RX_FRAME and MACSEC_RX_DELIVER (R447, R449). -/
def Obligations.MacsecReceiveAndDelivery : Prop :=
  (∀ (s : State) (n ph : Nat) (b f : Bytes) (bad : Bool) (sa : Option (Nat × Nat)), Running s →
    n < 128 → (portAt s n).state = 5 → macRxOn s n = true → pipeLive s (nodePipe n) = true →
    (b ++ fcsOf b).length ≤ rw s (0x3100 + n) 12 + 32 → unitServes s (unitOf n) = true →
    rxDecide s n b bad = .deliver f sa →
    ∃ t, exec (.macsecRxFrame n (b ++ fcsOf b) ph bad) s = .next t ∧
      ∃ x, (portAt t n).staging = (portAt s n).staging ++ [x] ∧ x.frame = f ++ fcsOf f ∧
        x.due = beatAfter s 24 ∧ x.sa = sa.map Prod.fst) ∧
  (∀ (s : State) (n : Nat) (e : Ecc), Running s → deliverReady s n = true →
    ∃ t, exec (.macsecRxDeliver n e) s = .next t ∧
      (portAt t n).staging = (portAt s n).staging.drop 1)

/-- CIPHER_KEY_WRITE, ENTROPY_HEALTH_FAIL, CIPHER_UNIT_RESTORE and CIPHER_KAT_DONE (R441, R445, R466 to
R468). -/
def Obligations.CipherUnitsLeaveAndReturn : Prop :=
  (∀ (s : State) (src : Origin) (v : Bytes), MayWrite s src 0x7800 1 noRow v → v.length = 47 →
    keyWriteOk v = true →
    ∃ t, exec (.cipherKeyWrite src v) s = .next t ∧
      ∃ d, t.deferred = s.deferred ++ [d] ∧ d.key = keyOf 0x7800 1 noRow ∧ d.value = v ∧
        d.recvBeat = s.beat ∧ d.recvTick = s.rm.tick) ∧
  (∀ s : State, Running s →
    ∃ t, exec .entropyHealthFail s = .next t ∧
      (∀ u, u < 9 → (cipherUnit s u).state ≠ 1 → .unitOut u ∈ t.sys.soon) ∧
      (s.sys.soon = [] → ∀ u, u < 9 → (cipherUnit (runSoon t) u).state = 1)) ∧
  (∀ (s : State) (src : Origin) (u : Nat), MayWrite s src 0x7800 5 noRow (bytesOf 1 u) →
    (cipherUnit s u).state = 1 →
    ∃ t, exec (.cipherUnitRestore src u) s = .next t ∧ (cipherUnit t u).state = 2 ∧
      (cipherUnit t u).restoreBeat = s.beat ∧ (cipherUnit t u).passed = false) ∧
  (∀ (s : State) (u : Nat) (ok : Bool), Running s → (cipherUnit s u).state = 2 →
    (cipherUnit s u).passed = false → (cipherUnit s u).restoreBeat + 4096 ≤ s.beat →
    ∃ t, exec (.cipherKatDone u ok) s = .next t ∧
      (if ok then (cipherUnit t u).passed = true ∧ (cipherUnit t u).state = 2
       else (cipherUnit t u).state = 1))

/-- LOOKASIDE_JOB and LOOKASIDE_JOB_COMPLETE (R460, R461). -/
def Obligations.LookasideJobsRunAndComplete : Prop :=
  (∀ (s : State) (r : Nat) (d : List Nat) (rec aad data tag : Bytes) (bad : Bool), Running s →
    (ringAt s (txRing r)).desc = some d → holds s arbLa (16 + r) = true → isJob d = true →
    rec.length = 64 →
    inWindow s (ringOwner s (txRing r)) (d.getD 0 0) 64 = true →
    (jobRecordBad rec = false → ∀ e, e ∈ jobSpans rec →
      inWindow s (ringOwner s (txRing r)) e.1 e.2 = true) →
    counterSpent s (jobKey rec) = false →
    ∃ t, exec (.lookasideJob r rec aad data tag bad) s = .next t ∧
      ∃ j, t.cipher.jobs = s.cipher.jobs ++ [j] ∧ j.ring = r ∧
        j.status = (if jobRecordBad rec then 2 else if !jobKeyOk s (jobKey rec) then 3
          else if !unitServes s 8 then 4
          else (runJob (keyBytes (keyEnt s (4096 + jobKey rec))) (jobIv s rec) rec aad data tag
            bad).status)) ∧
  (∀ (s : State) (r : Nat) (j : Job), Running s →
    s.cipher.jobs.find? (fun j => j.ring == r) = some j → holds s arbDma 8196 = true →
    j.status < 5 →
    ∃ t, exec (.lookasideJobComplete r) s = .next t ∧
      t.cipher.jobs = ldel (fun x => x.ring == r) s.cipher.jobs ∧
      tget 0 t.cnt.words (cPart (13 + j.status))
        = wordAdd (tget 0 s.cnt.words (cPart (13 + j.status))) 1)

/-! ## Time bases and timed pins (R471 to R496) -/

/-- TB_ENABLE, TB_VALID, TB_DISABLE, TB_STEP, TB_RATE_WRITE and TB_SLEW (R476 to R481). -/
def Obligations.TimeBasesFollowWrites : Prop :=
  (∀ (s : State) (src : Origin) (b : Nat), MayWrite s src (0x2000 + b) 1 noRow [1] →
    (tbAt s b).state = .disabled →
    ∃ t, exec (.tbEnable src b) s = .next t ∧ (tbAt t b).state = .settling ∧
      (tbAt t b).stepUsed = false ∧ (tbAt t b).slew = 0 ∧ (tbAt t b).v = (tbAt s b).v ∧
      (tbAt t b).epoch = (tbAt s b).epoch) ∧
  (∀ (s : State) (b : Nat), Running s → (tbAt s b).state = .settling → 2 ≤ (tbAt s b).boundaries →
    ∃ t, exec (.tbValid b) s = .next t ∧ (tbAt t b).state = .valid ∧
      (tbAt t b).validSince = s.rm.tick) ∧
  (∀ (s : State) (src : Origin) (b o : Nat),
    MayWrite s src (0x2000 + b) 4 noRow (bytesOf 8 o) → (tbAt s b).state ≠ .disabled →
    (tbAt s b).stepUsed = false → (tbAt s b).stepPending = none → (tbAt s b).slew = 0 →
    ∃ t, exec (.tbStep src b o) s = .next t ∧ (tbAt t b).stepPending = some (signed 64 o) ∧
      (tbAt t b).stepUsed = false ∧ (tbAt t b).v = (tbAt s b).v) ∧
  (∀ (s : State) (b : Nat) (o : Int), (tbAt s b).stepPending = some o →
    (tbAt (applyStep s b) b).stepUsed = true ∧ (tbAt (applyStep s b) b).stepPending = none ∧
    (tbAt (applyStep s b) b).v = BitVec.ofInt 96 ((tbAt s b).v.toNat + o * 2 ^ 32) ∧
    (tbAt (applyStep s b) b).steps.head? = some (s.beat, o)) ∧
  (∀ (s : State) (src : Origin) (b r : Nat),
    MayWrite s src (0x2000 + b) 3 noRow (bytesOf 4 r) → (signed 32 r).natAbs ≤ 65536000 →
    (tbAt s b).slew = 0 →
    ∃ t, exec (.tbRateWrite src b r) s = .next t ∧
      stored t (0x2000 + b) 3 noRow = keptValue (0x2000 + b) 3 (bytesOf 4 r)) ∧
  (∀ (s : State) (src : Origin) (b o : Nat),
    MayWrite s src (0x2000 + b) 6 noRow (bytesOf 8 o) → rateFits (tbRate s b) (tbSppm s b) = true →
    ∃ t, exec (.tbSlew src b o) s = .next t ∧ (tbAt t b).slew = (tbAt s b).slew ∧
      (tbAt t b).slewNext = some (signed 64 o * 2 ^ 32) ∧
      (tbAt (startSlew t b) b).slew = signed 64 o * 2 ^ 32) ∧
  (∀ (s : State) (src : Origin) (b : Nat), MayWrite s src (0x2000 + b) 1 noRow [0] →
    (tbAt s b).state ≠ .disabled →
    ∃ t, exec (.tbDisable src b) s = .next t ∧ t.sys.soon = s.sys.soon ++ [.tbDisable b] ∧
      tbAt t b = tbAt s b) ∧
  (∀ (s : State) (b : Nat), b < 4 → (tbAt s b).state ≠ .disabled → s.sys.soon = [.tbDisable b] →
    (tbAt (runSoon s) b).state = .disabled ∧ (tbAt (runSoon s) b).slew = 0 ∧
      (tbAt (runSoon s) b).v = (tbAt s b).v)

/-- TOUT_CONFIG_WRITE, TIME_OUT_PULSE, TIME_OUT_PULSE_END, TIME_CAPTURE and TIN_ACK (R490 to R494). -/
def Obligations.TimedPinsActAtTheirReading : Prop :=
  (∀ (s : State) (src : Origin) (k v : Nat),
    MayWrite s src (0x2040 + k) 5 noRow (bytesOf 4 v) →
    widthOk (natOf (stored s (0x2040 + k) 1 noRow)) (natOf (stored s (0x2040 + k) 4 noRow)) v = true →
    ∃ t, exec (.toutConfigWrite src k 5 v) s = .next t ∧
      stored t (0x2040 + k) 5 noRow = keptValue (0x2040 + k) 5 (bytesOf 4 v)) ∧
  (∀ (s : State) (src : Origin) (k v : Nat),
    MayWrite s src (0x2040 + k) 3 noRow (bytesOf 4 v) → natOf (stored s (0x2040 + k) 1 noRow) = 2 →
    widthOk 2 (natOf (stored s (0x2040 + k) 4 noRow)) (natOf (stored s (0x2040 + k) 5 noRow)) = true →
    ∃ t, exec (.toutConfigWrite src k 3 v) s = .next t ∧
      stored t (0x2040 + k) 3 noRow = keptValue (0x2040 + k) 3 (bytesOf 4 v) ∧
      t.sys.soon = s.sys.soon ++ [.realign k]) ∧
  (∀ (s : State) (k : Nat), toutMode s k = 2 →
    (toutAt (realignWritten s k) k).next
      = realign (rw s (0x2040 + k) 3) (tbNs s (toutTb s k)) (rw s (0x2040 + k) 4)) ∧
  (∀ (s : State) (k : Nat), Running s → toutMode s k ∈ [1, 2] → (toutAt s k).active = false →
    (toutMode s k = 1 → (toutAt s k).fired = false) →
    reached32 (tbNs s (toutTb s k)) (toutAt s k).next = true → tbValid s (toutTb s k) = true →
    ∃ t, exec (.timeOutPulse k) s = .next t ∧ (toutAt t k).active = true ∧
      (toutAt t k).endBeat = beatAfter s (roundDiv (rw s (0x2040 + k) 5 * 125) 100) ∧
      t.out = s.out ++ [.pulse k (pinLevel s k true)]) ∧
  (∀ (s : State) (k : Nat), Running s → (toutAt s k).active = true → (toutAt s k).endBeat ≤ s.beat →
    ∃ t, exec (.timeOutPulseEnd k) s = .next t ∧ (toutAt t k).active = false ∧
      t.out = s.out ++ [.pulse k (pinLevel s k false)]) ∧
  (∀ (s : State) (i b : Nat) (up : Bool), Running s →
    bit (rw s (0x2060 + i) 1) (if up then 0 else 1) = true → (tinAt s i).fifo.length < 16 →
    ∃ t, exec (.timeCapture i up b) s = .next t ∧
      (tinAt t i).fifo = (tinAt s i).fifo ++ [captureRow s (rw s (0x2060 + i) 2) up b]) ∧
  (∀ (s : State) (src : Origin) (i n : Nat), n < 256 →
    MayWrite s src (0x2060 + i) 4 noRow (bytesOf 1 n) →
    ∃ t, exec (.tinAck src i n) s = .next t ∧ t.sys.soon = s.sys.soon ++ [.tinDrop i n] ∧
      (tinAt t i).fifo = (tinAt s i).fifo) ∧
  (∀ (s : State) (i n : Nat), s.sys.soon = [.tinDrop i n] →
    (tinAt (runSoon s) i).fifo = (tinAt s i).fifo.drop n)

/-! ## Deadline arbiters (R497 to R508) -/

/-- ARBITER_ROUND and ARBITER_GRANT_CUT (R500 to R502). -/
def Obligations.ArbitersGrantTheWinner : Prop :=
  (∀ (s : State) (a i : Nat) (w : Bool), Running s → a < 10 → (arbAt s a).roundBeat ≠ some s.beat →
    arbFree s a = true → winner s a = some (i, w) → ((arbAt s a).reqs.map Prod.fst).Nodup →
    ∃ t, exec (.arbiterRound a) s = .next t ∧ (arbAt t a).roundBeat = some s.beat ∧
      tfind (arbAt t a).reqs i = none ∧
      (∀ e, e ∈ contenders s a → e.1 ≠ i → ∃ q, tfind (arbAt t a).reqs e.1 = some q ∧
        q.boost = min 15 (e.2.boost + 1) ∧ q.wait = min 4095 (e.2.wait + 1) ∧
        q.latest = e.2.latest ∧ q.since = e.2.since) ∧
      (∃ l, (arbAt t a).holder = some (i, s.beat, l)) ∧
      (a < 8 → ∀ r, hbmRead s a i = some r →
        ∃ x, x ∈ (pipeAt t a).reads ∧ x.id = r.id ∧ x.issued = true ∧ x.issueBeat = s.beat)) ∧
  (∀ (s : State) (a i b : Nat) (l : Int), Running s → a = arbDma ∨ a = arbLa →
    (arbAt s a).holder = some (i, b, l) → b + arbMax s a ≤ s.beat →
    ∃ t, exec (.arbiterGrantCut a) s = .next t ∧ (arbAt t a).holder = none ∧
      ∃ q, tfind (arbAt t a).reqs i = some q ∧ q.latest = l ∧ q.boost = 0 ∧ q.wait = 0 ∧
        q.since = s.beat + 1)

/-! ## Host interface (R510 to R544) -/

/-- RX, TX, CMD and COMPLETION_RING_DOORBELL and BYTE_RING_DOORBELL (R521, R536, R538). -/
def Obligations.DoorbellsPostTheirCounts : Prop :=
  (∀ (s : State) (f r c : Nat), Running s → (fnAt s f).frozen = false → f = ringOwner s r →
    (ringAt s r).state = 1 → countOk s r c = true →
    ∃ t, exec (.rxRingDoorbell f r c) s = .next t ∧ (ringAt t r).prod = c % 2 ^ 32 ∧
      (ringAt t r).cons = (ringAt s r).cons) ∧
  (∀ (s : State) (f r c : Nat), Running s → (fnAt s f).frozen = false → f = ringOwner s (txRing r) →
    (ringAt s (txRing r)).state = 1 → countOk s (txRing r) c = true →
    ∃ t, exec (.txRingDoorbell f r c) s = .next t ∧ (ringAt t (txRing r)).prod = c % 2 ^ 32 ∧
      (ringAt t (txRing r)).cons = (ringAt s (txRing r)).cons) ∧
  (∀ (s : State) (f p c : Nat), Running s → (fnAt s f).frozen = false → f = ringOwner s (cplRing p) →
    (ringAt s (cplRing p)).state = 1 → countOk s (cplRing p) c = true →
    ∃ t, exec (.completionRingDoorbell f p c) s = .next t ∧
      (ringAt t (cplRing p)).prod = c % 2 ^ 32) ∧
  (∀ (s : State) (f p c : Nat) (bs : List Bytes), Running s → (fnAt s f).frozen = false →
    f = ringOwner s (cmdRing p) → (ringAt s (cmdRing p)).state = 1 → countOk s (cmdRing p) c = true →
    ∃ t, exec (.cmdRingDoorbell f p c bs) s = .next t ∧ (ringAt t (cmdRing p)).prod = c % 2 ^ 32 ∧
      ∃ l, (pipeAt t p).cmds = (pipeAt s p).cmds ++ l ∧
        l.length = (c % 2 ^ 32 + 2 ^ 32 - (ringAt s (cmdRing p)).prod) % 2 ^ 32 ∧
        ∀ m, m ∈ l → m.recv = s.beat ∧ m.tick = s.rm.tick + 1 ∧ m.kind = 0 ∧ m.held = false) ∧
  (∀ (s : State) (e : Bool) (o : Nat), Running s → (fnAt s 0).frozen = false →
    (ringAt s (if e then eventRing else dumpRing)).state = 1 →
    ∃ t, exec (.byteRingDoorbell 0 e o) s = .next t ∧
      (ringAt t (if e then eventRing else dumpRing)).cons = o) ∧
  (∀ (s : State) (f r c : Nat), Running s → (fnAt s f).frozen = false → f = ringOwner s r →
    (ringAt s r).state = 1 → countOk s r c = false →
    ∃ t, exec (.rxRingDoorbell f r c) s = .next t ∧ (ringAt t r).state = 3)

/-- TX_DESCRIPTOR_FETCH, TX_FRAME_ENTER, RX_WRITEBACK, COMPLETION_WRITE and MSIX_TIMER_EXPIRY (R522, R523,
R529, R532, R537). -/
def Obligations.DescriptorsAndCompletionsMove : Prop :=
  (∀ (s : State) (r : Nat) (ws : List Nat), Running s → r < 4096 → holds s arbDma (txRing r) = true →
    ringLive s (txRing r) = true → (ringAt s (txRing r)).state = 1 → unfetched s (txRing r) = true →
    inWindow s (ringOwner s (txRing r)) (elemAddr s (txRing r) (nextCount s (txRing r)))
      (elemBytes s (txRing r)) = true →
    descBad s r (descWords s (txRing r) ws) = false →
    ∃ t, exec (.txDescriptorFetch r ws) s = .next t ∧
      (ringAt t (txRing r)).desc = some (descWords s (txRing r) ws)) ∧
  (∀ (s : State) (r : Nat) (d : List Nat) (b : Bytes), Running s → r < 4096 →
    (ringAt s (txRing r)).desc = some d → holds s arbDma (txRing r) = true →
    isJob d = false → xOf s (130 + r / 1024) (descClass d) = false →
    (portAt s (130 + r / 1024)).rx = none → (portAt s (130 + r / 1024)).refusing = false →
    pipeLive s (nodePipe (130 + r / 1024)) = true →
    inWindow s (ringOwner s (txRing r)) (d.getD 0 0) (descBytes d) = true →
    ∃ t, exec (.txFrameEnter r b) s = .next t ∧ (ringAt t (txRing r)).desc = none ∧
      tget 0 t.cnt.words (cFn (ringOwner s (txRing r)) 2)
        = wordAdd (tget 0 s.cnt.words (cFn (ringOwner s (txRing r)) 2)) 1) ∧
  (∀ (s u : State) (r : Nat) (ds : List (Nat × Nat)) (kid : Kid) (k : Pkt), Running s → r < 4096 →
    pipeLive s (2 + r / 1024) = true → choosePort s (130 + r / 1024) (ringQueues s r) = some kid →
    headOf s kid.queue = some k → rxClosed s r = false → holds s arbDma r = true →
    (ringAt s r).part = none →
    rxDeliver (startHost s kid k r) r (.frame k.id)
      (rxWords k (if k.dec.kind = 4 then k.dec.reason else 0) k.out.sent.length)
      (k.out.sent.take (k.out.sent.length - 4)) ds = some (u, .whole) →
    ∃ t, exec (.rxWriteback r ⟨ds, []⟩) s = .next t ∧ (arbAt t arbDma).holder = none ∧
      tget 0 t.cnt.words (cPort (130 + r / 1024) 14)
        = wordAdd (tget 0 s.cnt.words (cPort (130 + r / 1024) 14)) 1) ∧
  (∀ (s : State) (p : Nat) (c : Completion) (rest : List Completion), Running s →
    (pipeAt s p).cpls = c :: rest → ringLive s (cplRing p) = true → 0 < posted s (cplRing p) →
    holds s arbDma 8194 = true →
    ∃ t, exec (.completionWrite p) s = .next t ∧ (pipeAt t p).cpls = rest) ∧
  (∀ (s : State) (r b : Nat), Running s → (ringAt s r).firstUnsig = some b →
    rowIrqUsec (ringRow s r) ≠ 0 → b + rowIrqUsec (ringRow s r) * 1250 ≤ s.beat →
    ∃ t, exec (.msixTimerExpiry r) s = .next t ∧ (ringAt t r).firstUnsig = none ∧
      (ringAt t r).unsignalled = 0 ∧ t.out = s.out ++ [.msix (ringVector s r)])

/-- RING_ENABLE, RING_DISABLE, RING_STOPPED, DMA_READ_ERROR, PCIE_LINK_TRAINED and SRIOV_VF_ENABLE (R510,
R515, R524, R542, R543). -/
def Obligations.RingsFunctionsAndLink : Prop :=
  (∀ (s : State) (src : Origin) (r : Nat) (w : Bytes), w.length = 32 →
    MayWrite s src 0x8100 (ringPlace r).1 (ringPlace r).2
      (putNat w 8 8 (setBit (rowWord w 1) 63 true)) →
    rowEnable (storedRow s r) = false →
    (∀ x, x = keptValue 0x8100 (ringPlace r).1 (putNat w 8 8 (setBit (rowWord w 1) 63 true)) →
      rowEnable x = true ∧ ringRowOk s r x = true) →
    ∃ t, exec (.ringEnable src r w) s = .next t ∧
      storedRow t r
        = keptValue 0x8100 (ringPlace r).1 (putNat w 8 8 (setBit (rowWord w 1) 63 true)) ∧
      (ringAt t r).state = (if (ringAt s r).state = 3 then 3
        else if ringIdle (ringAt s r) then 1 else (ringAt s r).state) ∧
      ((ringAt s r).state ≠ 3 → ringIdle (ringAt s r) = true → (ringAt t r).prod = 0 ∧
        (ringAt t r).cons = 0 ∧ ringRow t r = storedRow t r)) ∧
  (∀ (s : State) (src : Origin) (r : Nat) (w : Bytes),
    w = putNat (slice (storedRow s r) 0 32) 8 8
      (setBit (rowWord (slice (storedRow s r) 0 32) 1) 63 false) →
    MayWrite s src 0x8100 (ringPlace r).1 (ringPlace r).2 w → rowEnable (storedRow s r) = true →
    (∀ x, x = keptValue 0x8100 (ringPlace r).1 w → rowEnable x = false ∧ ringRowOk s r x = true) →
    ∃ t, exec (.ringDisable src r) s = .next t ∧
      (ringAt t r).desc = (if inGrant s r then (ringAt s r).desc else none) ∧
      (ringAt t r).state = (if (ringAt s r).state = 3 then 3
        else if (ringAt s r).begun = [] ∧ inGrant s r = false ∧ (ringAt s r).part = none then 0 else 2)) ∧
  (∀ (s : State) (r : Nat), Running s → (ringAt s r).state = 2 → ringIdle (ringAt s r) = true →
    ∃ t, exec (.ringStopped r) s = .next t ∧
      (ringAt t r).state = (if rowEnable (storedRow s r) then 1 else 0) ∧ ringRow t r = storedRow t r) ∧
  (∀ (s : State) (f r : Nat), Running s → f < 64 → (fnAt s f).frozen = false →
    ∃ t, exec (.dmaReadError f r) s = .next t ∧ (fnAt t f).frozen = true ∧
      (fnAt t f).fault / 2 ^ 56 = 3 ∧
      tget 0 t.cnt.words (cFn f 6) = wordAdd (tget 0 s.cnt.words (cFn f 6)) 1) ∧
  (∀ (s : State) (v w : Nat), Running s → v < 256 → w < 256 →
    ∃ t, exec (.pcieLinkTrained v w) s = .next t ∧ t.host.link = v * 256 + w) ∧
  (∀ (s : State) (n : Nat), Running s → n ≤ 63 →
    ∃ t, exec (.sriovVfEnable n) s = .next t ∧ t.host.vfs = n)

/-- POOL_ALLOCATE, POOL_FREE, POOL_REQ_INVALID and POOL_OWNER_RECLAIM (R400 to R406). -/
def Obligations.PoolRequestsAreServed : Prop :=
  (∀ (s : State) (f q n i : Nat), Running s → 0 < f → f < 64 → fnEnabled s f = true →
    (fnAt s f).frozen = false → (pools s).waiting = [] → (pools s).freeing = [] →
    ownerRefused s (64 + f) = false →
    0 < n → n ≤ 16384 → poolHeld s (64 + f) (poolFor n) < ownerMax s (64 + f) (poolFor n) →
    (poolHeld s (64 + f) (poolFor n) < ownerMin s (64 + f) (poolFor n) ∨
      poolUnused s (poolFor n) < poolFree s (poolFor n)) →
    lowestFree s (poolFor n) = some i →
    ∃ t, exec (.poolAllocate f q n) s = .next t ∧ (pools t).waiting.length = 1 ∧
      tfind (pools (servePools t)).alloc (handleOf (poolFor n) i) = some (64 + f) ∧
      tget 0 (pools (servePools t)).resp f = 2 ^ 62 + q % 2 ^ 14 * 2 ^ 48 + handleOf (poolFor n) i) ∧
  (∀ (s : State) (f q h : Nat), Running s → 0 < f → f < 64 → fnEnabled s f = true →
    (fnAt s f).frozen = false → (pools s).waiting = [] → (pools s).freeing = [] →
    ownerRefused s (64 + f) = false →
    h < 2 ^ 32 → isBuffer s h = true → tfind (pools s).alloc h = some (64 + f) →
    ∃ t, exec (.poolFree f q h) s = .next t ∧ (pools t).waiting.length = 1 ∧
      tfind (pools (servePools t)).alloc h = none ∧ (pools (servePools t)).waiting = [] ∧
      tget 0 (pools (servePools t)).resp f = 2 * 2 ^ 62 + q % 2 ^ 14 * 2 ^ 48 + noHandle) ∧
  (∀ (s : State) (f o q : Nat), Running s → 0 < f → f < 64 → fnEnabled s f = true →
    (fnAt s f).frozen = false → (pools s).waiting = [] → ownerRefused s (64 + f) = false →
    o = 0 ∨ o = 3 →
    ∃ t, exec (.poolReqInvalid f o q) s = .next t ∧ (pools t).waiting.length = 1 ∧
      tget 0 (pools (servePools t)).resp f = o * 2 ^ 62 + q % 2 ^ 14 * 2 ^ 48 + 3 * 2 ^ 32 + noHandle) ∧
  (∀ (s : State) (src : Origin) (o : Nat), MayWrite s src (0x6880 + o) 5 noRow [1] →
    (pools s).frozen.contains o = true →
    ∃ t, exec (.poolOwnerReclaim src o) s = .next t ∧
      ∀ e, e ∈ (pools s).alloc → e.2 = o → e.1 ∈ (pools t).freeing)

/-! ## Mabin sessions and messages (R545 to R575) -/

/-- MABIN_HELLO, _REKEY, _CLOSE and SESSION_IDLE_EXPIRY (R561, R564). -/
def Obligations.SessionsOpenRekeyAndClose : Prop :=
  (∀ (s : State) (p : MabinPath) (m : Bytes) (c : Cred) (v n : Nat), Running s →
    isOpening m = true → m.length = 60 → natAt m 6 2 = 60 →
    credOf s (byteAt (msgBody m) 4) = some c →
    msgTag m = gmac c.key (slice (slice (msgBody m) 8 16) 0 12) (msgSigned m) →
    chooseVersion (natAt (msgBody m) 0 2) (natAt (msgBody m) 2 2) = some v →
    (List.range 16).find? (fun n => (sessionAt s n).isNone) = some n →
    ∃ t, exec (.mabinHello p m) s = .next t ∧ ∃ y, sessionAt t n = some y ∧ y.tier = c.tier ∧
      y.minor = v % 256 ∧ y.path = p ∧ y.rxHigh = 0 ∧ y.txCtr = 1 ∧ y.lastBeat = s.beat ∧
      y.key = sessionKey c.key (slice (msgBody m) 8 16) (drawNonce s).2 n) ∧
  (∀ (s : State) (p : MabinPath) (m : Bytes) (n v : Nat) (x : Session) (c : Cred),
    Accepts s p n x m → msgType m = 1 → msgRekey m = true → msgClose m = false → 2 ≤ x.minor →
    (msgBody m).length = 24 → credOf s x.cred = some c → x.held = [] →
    chooseVersion (natAt (msgBody m) 0 2) (natAt (msgBody m) 2 2) = some v →
    ∃ t, exec (.mabinHelloRekey p m) s = .next t ∧ ∃ y, sessionAt t n = some y ∧
      y.key = sessionKey c.key (slice (msgBody m) 8 16) (drawNonce s).2 n ∧ y.minor = v % 256 ∧
      y.rxHigh = 0 ∧ y.txCtr = 1 ∧ y.tier = x.tier ∧ y.subs = x.subs) ∧
  (∀ (s : State) (p : MabinPath) (m : Bytes) (n : Nat) (x : Session), Accepts s p n x m →
    msgType m = 1 → msgClose m = true →
    ∃ t, exec (.mabinHelloClose p m) s = .next t ∧ sessionAt t n = none ∧
      (s.mabin.holder = some n → t.mabin.holder = none)) ∧
  (∀ (s : State) (n : Nat), Running s → sessionIdle s n = true →
    ∃ t, exec (.sessionIdleExpiry n) s = .next t ∧ sessionAt t n = none)

/-- MABIN_READ, MABIN_WRITE and MABIN_STAGE (R565, R566, R571). -/
def Obligations.ItemsAreReadWrittenAndStaged : Prop :=
  (∀ (s : State) (p : MabinPath) (m : Bytes) (n : Nat) (x : Session) (i : Item), Accepts s p n x m →
    msgType m = 2 → itemsOf m = some [i] → readError (served s n x m) n i = 0 →
    x.path = .mgmtUdp ∨ x.path = .inbandUdp → x.txCtr ≠ ctrEnd →
    (readItem (countItem (served s n x m) n 1 i) i).2.length ≤ 1300 →
    ∃ t, exec (.mabinRead p m) s = .next t ∧
      t.out = s.out ++ [.mabin n x.path (buildMsg x.key n x.minor 2 0x80 x.txCtr (msgReq m)
        (itemBytes i (readItem (countItem (served s n x m) n 1 i) i).2))]) ∧
  (∀ (s u : State) (p : MabinPath) (m : Bytes) (n : Nat) (x : Session) (i : Item), Accepts s p n x m →
    msgType m = 3 → itemsOf m = some [i] → joinsStaging i.idx i.sub = false →
    writeItemError (served s n x m) n i = 0 →
    writeAny (receive 99 .mailbox) i.idx i.sub i.row i.value (served s n x m) = some u →
    ∃ t, exec (.mabinWrite p m) s = .next t ∧ t.objs = u.objs ∧ t.ports = u.ports ∧ t.tbs = u.tbs) ∧
  (∀ (s : State) (p : MabinPath) (m : Bytes) (n : Nat) (x : Session) (i : Item), Accepts s p n x m →
    msgType m = 4 → itemsOf m = some [i] → stageItemError (served s n x m) n i = 0 →
    joinsStaging i.idx i.sub = false → i.row ≠ noRow ∨ i.kind ≠ 9 →
    stagedValueOk i.idx i.sub i.row i.value = true →
    ∃ t, exec (.mabinStage p m) s = .next t ∧
      tfind t.mabin.staged (keyOf i.idx i.sub i.row) = some (keptRow i.idx i.sub i.row i.value) ∧
      t.objs = s.objs)

/-- MABIN_LOCK, _COMMIT, _UNLOCK, LOCAL_LOCK, _COMMIT, _UNLOCK and LOCK_EXPIRED (R553, R569 to R573). -/
def Obligations.TheStagingLockIsTakenCommittedAndFreed : Prop :=
  (∀ (s : State) (p : MabinPath) (m : Bytes) (n : Nat) (x : Session), Accepts s p n x m →
    msgType m = 6 → s.mabin.holder = none ∨ s.mabin.holder = some n → leaseEnd s > s.beat →
    ∃ t, exec (.mabinLock p m) s = .next t ∧ t.mabin.holder = some n ∧
      t.mabin.expires = leaseEnd s) ∧
  (∀ (s : State) (p : MabinPath) (m : Bytes) (n : Nat) (x : Session), Accepts s p n x m →
    msgType m = 5 → (msgBody m).length = 12 → byteAt (msgBody m) 8 = 0 → s.mabin.holder = some n →
    leaseEnd s > s.beat → anyStaged s = true →
    sealReason (served s n x m) (natAt (msgBody m) 0 8) = 0 →
    ∃ t, exec (.mabinCommit p m) s = .next t ∧ t.mabin.holder = some n ∧ t.mabin.staged = [] ∧
      ∃ q, t.ver.pending = s.ver.pending ++ [q] ∧ q.target = natAt (msgBody m) 0 8 ∧
        q.sealNext = s.rm.tick + 1) ∧
  (∀ (s : State) (p : MabinPath) (m : Bytes) (n : Nat) (x : Session), Accepts s p n x m →
    msgType m = 7 → s.mabin.holder = some n → leaseEnd s > s.beat →
    ∃ t, exec (.mabinUnlock p m) s = .next t ∧ t.mabin.holder = none ∧ t.mabin.staged = []) ∧
  (∀ s : State, MayWrite s .bar 0x1300 4 noRow (bytesOf 8 (2 ^ 60)) → s.mabin.holder = none →
    ∃ t, exec .localLock s = .next t ∧ t.mabin.holder = some 16 ∧ t.mabin.expires = leaseEnd s ∧
      t.mabin.localResult = 2 ^ 60 + rw s 0x1300 1) ∧
  (∀ s : State, MayWrite s .bar 0x1300 4 noRow (bytesOf 8 (2 * 2 ^ 60)) →
    s.mabin.holder = some 16 → s.beat < s.mabin.expires → leaseEnd s > s.beat →
    ∃ t, exec .localUnlock s = .next t ∧ t.mabin.holder = none ∧ t.mabin.staged = []) ∧
  (∀ (s : State) (k : Nat), k < 2 ^ 48 →
    MayWrite s .bar 0x1300 4 noRow (bytesOf 8 (3 * 2 ^ 60 + k)) → s.mabin.holder = some 16 →
    s.beat < s.mabin.expires → leaseEnd s > s.beat → anyStaged s = true → sealReason s k = 0 →
    ∃ t, exec (.localCommit k false) s = .next t ∧ t.mabin.holder = some 16 ∧ t.mabin.staged = [] ∧
      ∃ q, t.ver.pending = s.ver.pending ++ [q] ∧ q.target = k) ∧
  (∀ (s : State) (h : Nat), Running s → s.mabin.holder = some h → s.mabin.expires ≤ s.beat →
    ∃ t, exec .lockExpired s = .next t ∧ t.mabin.holder = none ∧ t.mabin.staged = [])

/-- SUBSCRIBE_ADD_EVENTS, _ADD_OBJECT, _REMOVE_ALL, BLOCK_READ and BLOCK_WRITE (R568, R574). -/
def Obligations.SubscriptionsAndBlocks : Prop :=
  (∀ (s : State) (p : MabinPath) (m : Bytes) (n : Nat) (x : Session), Accepts s p n x m →
    msgType m = 8 → byteAt (msgBody m) 0 = 1 → (msgBody m).length = 5 → x.subs.length < 64 →
    (∀ b, b ∈ x.subs → b.kind ≠ 1) →
    ∃ t, exec (.subscribeAddEvents p m) s = .next t ∧ ∃ y, sessionAt t n = some y ∧
      y.subs = x.subs ++ [{ kind := 1, a := natAt (msgBody m) 1 2, b := natAt (msgBody m) 3 2,
                            last := none }]) ∧
  (∀ (s : State) (p : MabinPath) (m : Bytes) (n : Nat) (x : Session) (r : ObjRow), Accepts s p n x m →
    msgType m = 8 → byteAt (msgBody m) 0 = 2 → (msgBody m).length = 9 → 2 ≤ x.minor →
    x.subs.length < 64 → (∀ b, b ∈ x.subs → b.kind ≠ 2) →
    lookupObj (natAt (msgBody m) 1 2) (byteAt (msgBody m) 3) = some r → r.acc = .rw →
    0 < natAt (msgBody m) 5 4 → natAt (msgBody m) 5 4 ≤ 65535 →
    ∃ t, exec (.subscribeAddObject p m) s = .next t ∧ ∃ y, sessionAt t n = some y ∧
      y.subs = x.subs ++ [{
        kind := 2, a := subName (natAt (msgBody m) 1 2) (byteAt (msgBody m) 3),
        b := natAt (msgBody m) 5 4, last := none }]) ∧
  (∀ (s : State) (p : MabinPath) (m : Bytes) (n : Nat) (x : Session), Accepts s p n x m →
    msgType m = 8 → byteAt (msgBody m) 0 = 3 → (msgBody m).length = 1 →
    ∃ t, exec (.subscribeRemoveAll p m) s = .next t ∧ ∃ y, sessionAt t n = some y ∧ y.subs = []) ∧
  (∀ (s : State) (p : MabinPath) (m b : Bytes) (n : Nat) (x : Session) (u : State),
    Accepts s p n x m → msgType m = 10 → 1 ≤ x.minor → 20 ≤ (msgBody m).length →
    byteAt (msgBody m) 0 = 1 → x.path = .mgmtUdp ∨ x.path = .inbandUdp → x.txCtr ≠ ctrEnd →
    blockRead (served s n x m) n x.path (msgBody m) = .good u b → b.length ≤ 1372 →
    ∃ t, exec (.blockRead p m) s = .next t ∧
      t.out = s.out ++ [.mabin n x.path (buildMsg x.key n x.minor 10 0x80 x.txCtr (msgReq m) b)]) ∧
  (∀ (s : State) (p : MabinPath) (m : Bytes) (n : Nat) (x : Session), Accepts s p n x m →
    msgType m = 10 → 1 ≤ x.minor → 20 ≤ (msgBody m).length → byteAt (msgBody m) 0 = 2 →
    natAt (msgBody m) 6 2 = 0 → isStaged (natAt (msgBody m) 2 2) (byteAt (msgBody m) 4) = false →
    msgMore m = true →
    ∃ t, exec (.blockWrite p m) s = .next t ∧ ∃ y k, sessionAt t n = some y ∧ y.block = some k ∧
      k.chunks = 1 ∧ k.data = (msgBody m).drop 20 ∧ k.head = (msgBody m).take 20) ∧
  (∀ (s u : State) (p : MabinPath) (m b : Bytes) (n : Nat) (x : Session), Accepts s p n x m →
    msgType m = 10 → 1 ≤ x.minor → 20 ≤ (msgBody m).length → byteAt (msgBody m) 0 = 2 →
    natAt (msgBody m) 6 2 = 0 → isStaged (natAt (msgBody m) 2 2) (byteAt (msgBody m) 4) = false →
    msgMore m = false →
    blockApply (receive 99 .mailbox) (putBlock (served s n x m) n none) n ((msgBody m).take 20)
      ((msgBody m).drop 20) = .good u b →
    ∃ t, exec (.blockWrite p m) s = .next t ∧ t.objs = u.objs ∧ t.ports = u.ports)

/-- MBOX_IN_WRITE, MBOX_OUT_READ, MABIN_CRED_WRITE, OBJECT_WRITE and BAR_WRITE (R511, R512, R515, R555, R560, R566). -/
def Obligations.MailboxAndObjectWrites : Prop :=
  (∀ (s : State) (m : Bytes) (n : Nat) (x : Session), Accepts s .mailbox n x m → msgType m = 6 →
    s.mabin.holder = none → MayWrite s .bar 0x1100 7 noRow m →
    ∃ t, exec (.mboxInWrite m) s = .next t ∧ t.mabin.holder = some n) ∧
  (∀ s : State, Running s →
    ∃ t, exec .mboxOutRead s = .next t ∧ t.out = s.out ++ [.mbox (s.mabin.mboxOut.headD [])] ∧
      t.mabin.mboxOut = s.mabin.mboxOut.drop 1) ∧
  (∀ (s : State) (src : Origin) (v : Bytes), MayWrite s src 0x1200 1 noRow v →
    1 ≤ byteAt v 0 → byteAt v 0 ≤ 8 → byteAt v 1 ≤ 2 →
    ∃ t, exec (.mabinCredWrite src v) s = .next t ∧
      tfind t.mabin.creds (byteAt v 0) = (if natOf (slice v 4 32) = 0 then none
        else some { tier := byteAt v 1, key := slice v 4 32 })) ∧
  (∀ (s : State) (src : Origin) (v : Bytes), MayWrite s src 0x8820 1 noRow v →
    ∃ t, exec (.objectWrite src 0x8820 1 noRow v) s = .next t ∧ stored t 0x8820 1 noRow = v) ∧
  (∀ (s : State) (v : Nat), v < 2 ^ 16 → MayWrite s .bar 0x8820 1 noRow (bytesOf 2 v) →
    ∃ t, exec (.barWrite 0 0 (0x8820 * 0x800 + 8) v) s = .next t ∧
      stored t 0x8820 1 noRow = bytesOf 2 v) ∧
  (∀ (s : State) (f off v w : Nat), Running s → fnEnabled s f = true → (fnAt s f).frozen = false →
    0x20000 ≤ off → off < 0x30000 → v < 2 ^ 64 → msixWord s f off = some w →
    ∃ t, exec (.barWrite f 4 off v) s = .next t ∧ tget 0 t.host.msix w = v ∧
      ∀ x, x ≠ w → tget 0 t.host.msix x = tget 0 s.host.msix x) ∧
  (∀ (s : State) (f off v : Nat), Running s → fnEnabled s f = true → (fnAt s f).frozen = false →
    0x20000 ≤ off → off < 0x30000 → msixWord s f off = none →
    ∃ t, exec (.barWrite f 4 off v) s = .next t ∧ (fnAt t f).frozen = true ∧
      t.host.msix = s.host.msix)

/-! ## Images, keys, clusters, counters, releases, power, log (R279 to R319, R579 to R630) -/

/-- ENGINE_IMAGE_STAGE, IMAGE_VERIFY, ENGINE_KEY_ENROL and ENGINE_KEY_REVOKE (R308, R310, R311). -/
def Obligations.ImagesAndKeys : Prop :=
  (∀ (s : State) (src : Origin) (b : Bytes) (last : Bool) (k : Nat), Running s →
    tierOf s src = some k → 2 ≤ k → s.mabin.holder = some (originNum src) →
    s.beat < s.mabin.expires →
    ((if s.mabin.imageHere && !s.mabin.imageDone then s.mabin.image else []) ++ b).length
      ≤ 16777216 →
    ∃ t, exec (.engineImageStage src b last) s = .next t ∧
      t.mabin.image = (if s.mabin.imageHere && !s.mabin.imageDone then s.mabin.image else []) ++ b ∧
      t.mabin.imageHere = true ∧ t.mabin.imageDone = last ∧ t.mabin.imageStatus = 2 ^ 24) ∧
  (∀ s : State, Running s → s.mabin.imageHere = true → s.mabin.imageDone = true →
    s.mabin.imageStatus = 2 ^ 24 →
    ∃ t, exec .imageVerify s = .next t ∧ t.mabin.image = s.mabin.image ∧
      t.mabin.imageStatus = (if imageReason s s.mabin.image = 0 then 2 * 2 ^ 24
        else 3 * 2 ^ 24 + imageReason s s.mabin.image)) ∧
  (∀ (s : State) (src : Origin) (k : Nat) (h : Bytes), h.length = 48 →
    MayWrite s src 0x5800 5 noRow (bytesOf 1 k ++ h) → 1 ≤ k → k ≤ 4 → slotTaken s k = false →
    s.sys.warnSince = none → s.sys.fuseQ = [] →
    ∃ t, exec (.engineKeyEnrol src k h none) s = .next t ∧
      tfind t.sys.fuses.slots k = some h ∧ t.sys.fuseQ = []) ∧
  (∀ (s : State) (src : Origin) (k : Nat), MayWrite s src 0x5800 6 noRow (bytesOf 1 k) → 1 ≤ k →
    k ≤ 4 → slotTaken s k = true → slotRevoked s k = false → s.sys.warnSince = none →
    s.sys.fuseQ = [] →
    ∃ t, exec (.engineKeyRevoke src k none) s = .next t ∧ k ∈ t.sys.fuses.revoked ∧
      t.sys.fuses.slots = s.sys.fuses.slots)

/-- ENGINE_CLUSTER_FREEZE and _RELEASE, RELEASE_PORT, _FUNCTION, _RING, _SESSION and _POOL_OWNER (R316,
R621). FLOW_QUARANTINE_RELEASE and NAT_RELEASE (R63, R251, R343). -/
def Obligations.AcceptedReleasesWait : Prop :=
  (∀ (s : State) (src : Origin) (c : Nat), MayWrite s src (0x5900 + c) 8 noRow [1] →
    ∃ t, exec (.engineClusterFreeze src c) s = .next t ∧ ∃ d, t.deferred = s.deferred ++ [d] ∧
      d.key = keyOf (0x5900 + c) 8 noRow ∧ d.recvBeat = s.beat) ∧
  (∀ (s : State) (src : Origin) (c : Nat), MayWrite s src (0x5900 + c) 9 noRow [1] →
    ∃ t, exec (.engineClusterRelease src c) s = .next t ∧ ∃ d, t.deferred = s.deferred ++ [d] ∧
      d.key = keyOf (0x5900 + c) 9 noRow ∧ d.recvBeat = s.beat) ∧
  (∀ (s : State) (src : Origin) (n k : Nat), n < 2 ^ 16 → k < 2 ^ 8 →
    MayWrite s src 0x9040 1 noRow (bytesOf 4 (frozenWord 1 k n)) →
    ∃ t, exec (.releasePort src n k) s = .next t ∧
      t.sys.soon = s.sys.soon ++ [.release (frozenWord 1 k n)]) ∧
  (∀ (s : State) (src : Origin) (n : Nat), n < 2 ^ 16 →
    MayWrite s src 0x9040 1 noRow (bytesOf 4 (frozenWord 2 0xFF n)) →
    ∃ t, exec (.releaseFunction src n) s = .next t ∧
      t.sys.soon = s.sys.soon ++ [.release (frozenWord 2 0xFF n)]) ∧
  (∀ (s : State) (src : Origin) (n : Nat), n < 2 ^ 16 →
    MayWrite s src 0x9040 1 noRow (bytesOf 4 (frozenWord 3 0xFF n)) →
    ∃ t, exec (.releaseRing src n) s = .next t ∧
      t.sys.soon = s.sys.soon ++ [.release (frozenWord 3 0xFF n)]) ∧
  (∀ (s : State) (src : Origin) (n : Nat), n < 2 ^ 16 →
    MayWrite s src 0x9040 1 noRow (bytesOf 4 (frozenWord 4 0xFF n)) →
    ∃ t, exec (.releaseSession src n) s = .next t ∧
      t.sys.soon = s.sys.soon ++ [.release (frozenWord 4 0xFF n)]) ∧
  (∀ (s : State) (src : Origin) (n : Nat), n < 2 ^ 16 →
    MayWrite s src 0x9040 1 noRow (bytesOf 4 (frozenWord 5 0xFF n)) →
    ∃ t, exec (.releasePoolOwner src n) s = .next t ∧
      t.sys.soon = s.sys.soon ++ [.release (frozenWord 5 0xFF n)]) ∧
  (∀ (s : State) (src : Origin) (a : Nat), MayWrite s src 0x501C 1 noRow (bytesOf 4 a) →
    slotPipe a < 8 →
    ∃ t, exec (.flowQuarantineRelease src a) s = .next t ∧
      ∃ m, (pipeAt t (slotPipe a)).cmds = (pipeAt s (slotPipe a)).cmds ++ [m] ∧ m.kind = 1 ∧
        m.arg = a ∧ m.recv = s.beat ∧ m.tick = s.rm.tick + 1) ∧
  (∀ (s : State) (src : Origin) (e p : Nat), MayWrite s src 0x5040 7 noRow (bytesOf 4 e) →
    steer s (natAddr s (bits e 19 16)) (bits e 15 0) = p →
    ∃ t, exec (.natRelease src e) s = .next t ∧
      ∃ m, (pipeAt t p).cmds = (pipeAt s p).cmds ++ [m] ∧ m.kind = 2 ∧ m.arg = e % 2 ^ 20)

/-- CNT_OVERFLOW_CLEAR, CNT_FILTER_SELECT, CNT_FILTER_CHAIN and BUF_CELLS_FREE_LOW_READ (R392, R579, R594,
R595). -/
def Obligations.CountersFollowTheirWrites : Prop :=
  (∀ (s : State) (src : Origin) (n : Nat), n ≤ 9215 →
    MayWrite s src 0x8800 2 noRow (bytesOf 4 n) →
    ∃ t, exec (.cntOverflowClear src n) s = .next t ∧
      counterOf t.cnt.words t.cnt.line n = counterOf s.cnt.words s.cnt.line n % 2 ^ 63 ∧
      ∀ k, k ≠ n → counterOf t.cnt.words t.cnt.line k = counterOf s.cnt.words s.cnt.line k) ∧
  (∀ (s : State) (src : Origin) (i : Nat) (v : Bytes), MayWrite s src 0x8810 1 i v →
    filterRowOk v = true →
    ∃ t, exec (.cntFilterSelect src i v) s = .next t ∧
      stored t 0x8810 1 i = keptValue 0x8810 1 v) ∧
  (∀ (s : State) (src : Origin) (v : Bytes), MayWrite s src 0x8810 2 noRow v → v.length = 16 →
    ∃ t, exec (.cntFilterChain src v) s = .next t ∧
      stored t 0x8810 2 noRow = keptValue 0x8810 2 v ∧
      ∃ l, t.sys.soon = s.sys.soon ++ [.clearPairs l] ∧
        ∀ i, i < 128 → (i ∈ l ↔ bitOf (stored s 0x8810 2 noRow) i ≠ bitOf v i)) ∧
  (∀ s : State, Running s →
    ∃ t, exec .bufCellsFreeLowRead s = .next t ∧ t.buf.cellsLow = s.buf.cellsFree ∧
      t.out = s.out ++ [.barRead s.buf.cellsLow])

/-- POWER_PIPE_OFF, POWER_PIPE_WAKE and PIPE_POWER (R612, R613). EVENT_LOG_ACK, I2C_POINTER_WRITE and I2C_READ (R618, R630). -/
def Obligations.PipePowerLogAndI2c : Prop :=
  (∀ (s : State) (src : Origin) (p : Nat), p < 8 → rw s 0x9010 5 < 256 →
    MayWrite s src 0x9010 5 noRow (bytesOf 1 (setBit (rw s 0x9010 5) p true)) →
    pipeMayStop s p = true →
    ∃ t, exec (.powerPipeOff src p) s = .next t ∧
      stored t 0x9010 5 noRow = keptValue 0x9010 5 (bytesOf 1 (setBit (rw s 0x9010 5) p true))) ∧
  (∀ (s : State) (src : Origin) (p : Nat), p < 8 → rw s 0x9010 5 < 256 →
    MayWrite s src 0x9010 5 noRow (bytesOf 1 (setBit (rw s 0x9010 5) p false)) →
    ∃ t, exec (.powerPipeWake src p) s = .next t ∧
      stored t 0x9010 5 noRow = keptValue 0x9010 5 (bytesOf 1 (setBit (rw s 0x9010 5) p false))) ∧
  (∀ (s : State) (p : Nat), Running s → (pipeAt s p).power = 2 → (pipeAt s p).wakeDone = true →
    s.sys.warnSince = none → s.beat = s.rm.boundaryBeat → (pipeAt s p).resetBeat < s.beat →
    ∃ t, exec (.pipePower p) s = .next t ∧ (pipeAt t p).power = 0 ∧ (pipeAt t p).h = s.beat ∧
      (pipeAt t p).wakeDone = false) ∧
  (∀ (s : State) (src : Origin) (n : Nat), n < 2 ^ 64 →
    MayWrite s src 0x9030 2 noRow (bytesOf 8 n) →
    ∃ t, exec (.eventLogAck src n) s = .next t ∧ t.sys.logAck = n) ∧
  (∀ (s : State) (r : Nat), settled s = s → ∃ t, exec (.i2cPointerWrite r) s = .next t ∧ t.sys.i2cPtr = r % 256 ∧
    t.sys.run = s.sys.run) ∧
  (∀ s : State, settled s = s → s.sys.i2cPtr = 2 → tfind s.sys.i2cLatch 2 = none →
    ∃ t, exec (.i2cRead 1) s = .next t ∧ t.out = s.out ++ [.i2c [0xB0]] ∧ t.sys.i2cPtr = 3) ∧
  (∀ (s : State) (n : Nat), settled s = s → ∃ t b, exec (.i2cRead n) s = .next t ∧ t.out = s.out ++ [.i2c b] ∧
    b.length = n ∧ t.sys.i2cPtr % 256 = (s.sys.i2cPtr + n) % 256)

/-! ## Rules of the chapters that hold of every state -/

/-- R615: while frozen the monitors run on, and only a CHIP or POWER reset ends the freeze. -/
def Obligations.FrozenPartWaitsForAReset : Prop :=
  (∀ (s : State) (m mv : Nat), s.sys.run = .frozen → m < 3 → m < s.sys.supplies.length →
    (supplyAt s m).state = 0 →
    ∃ t, exec (.supplyWarn m mv) s = .next t ∧ t.sys.run = .frozen ∧ (supplyAt t m).state = 1 ∧
      (supplyAt t m).mv = mv) ∧
  (∀ (s : State) (m mv : Nat), s.sys.run = .frozen → m < 3 → m < s.sys.supplies.length →
    (supplyAt s m).state ≠ 0 →
    ∃ t, exec (.supplyDip m mv) s = .next t ∧ t.sys.run = .frozen ∧
      (supplyAt t m).dips = (supplyAt s m).dips + 1) ∧
  (∀ (s : State) (m mv : Nat), s.sys.run = .frozen → m < 3 →
    ∃ t, exec (.supplyReset m mv) s = .next t ∧ t.sys.run = .supplyHeld ∧
      t.sys.last = 65536 + 256 + (5 + m) ∧ t.sys.capture = s.sys.capture ∧
      ∃ r, t.sys.log = (r :: s.sys.log).take 64) ∧
  (∀ (s : State) (c : Instr), s.sys.run = .frozen → (∀ b, c ≠ .porNAssert b) → c ≠ .resetNAssert →
    (∀ m mv, c ≠ .supplyReset m mv) →
    ∃ t, exec c s = .next t ∧ t.sys.run = .frozen ∧ t.sys.log = s.sys.log ∧
      t.sys.capture = s.sys.capture) ∧
  (∀ s : State, s.sys.run = .frozen →
    ∃ t, exec .resetNAssert s = .next t ∧ t.sys.run = .inReset ∧ t.sys.log = s.sys.log ∧
      t.sys.capture = s.sys.capture) ∧
  (∀ (s : State) (b : Bool), s.sys.run = .frozen →
    ∃ t, exec (.porNAssert b) s = .next t ∧ t.sys.run = .inReset)

/-- R567: secret objects are written only by the local session and by mailbox sessions. -/
def Obligations.SecretsNeedASafePath : Prop :=
  (∀ idx sub, isSecret idx sub = true ↔ (idx = 0x7800 ∧ sub = 1) ∨ (idx = 0x1200 ∧ sub = 1)) ∧
  (∀ (s : State) (src : Origin) (idx sub k : Nat) (v : Bytes) (r : ObjRow),
    isSecret idx sub = true → lookupObj idx sub = some r → tierOf s src = some k → r.tier ≤ k →
    writeError s src idx sub noRow v = (if overUdp s src then 11
      else if !lengthOk r noRow v then 5 else if !rangeOk r v then 4 else 0)) ∧
  (∀ (s : State) (n k : Nat) (x : Session) (i : Item) (r : ObjRow),
    isSecret i.idx i.sub = true → lookupObj i.idx i.sub = some r → i.kind = r.kind → i.row = noRow →
    sessionAt s n = some x → x.path ≠ .mailbox → tierOf s (.sess n) = some k → r.tier ≤ k →
    writeItemError s n i = 11) ∧
  (∀ s : State, overUdp s .bar = false) ∧
  (∀ (s : State) (n : Nat) (x : Session), sessionAt s n = some x →
    (overUdp s (.sess n) = true ↔ x.path ≠ .mailbox)) ∧
  (∀ (s t : State) (n : Nat) (x : Session) (v : Bytes), settled s = s → sessionAt s n = some x →
    x.path ≠ .mailbox →
    exec (.mabinCredWrite (.sess n) v) s = .next t ∨ exec (.cipherKeyWrite (.sess n) v) s = .next t →
    t.mabin.creds = s.mabin.creds ∧ t.deferred = s.deferred)

/-- R157: an entry matches when it is valid and equals the key under its mask. -/
def Obligations.EntriesMatchUnderTheirMask : Prop :=
  ∀ (t : Tbl TcamUnit) (n w slot key : Nat), entryMatches t n w slot key = true ↔
    (tget TcamUnit.zero t n).valid = true ∧ bit (tget TcamUnit.zero t n).slots slot = true ∧
      ∀ i, i < w → ∀ b, (tget TcamUnit.zero t (n + i)).mask.testBit b = true →
        (keyUnit key w i).testBit b = (tget TcamUnit.zero t (n + i)).value.testBit b

/-- R333: a shift count of 47 or more. -/
def Obligations.WideShiftsEmptyTheWindow : Prop :=
  ∀ (f x m w d : Nat) (re : Bool), bit f 47 = true → 0 < m → m ≤ 65536 →
    d = (x % m + m - bits f 63 48 % m) % m → 47 ≤ d → d < (m + 1) / 2 →
    (seqwin f x m w re).2 = (2, d - 1) ∧
      (seqwin f x m w re).1 = x % m * 2 ^ 48 + 2 ^ 47 + (if d = 47 then 2 ^ 46 else 0)

/-! ## The block as a whole -/

/-- One step is exec of the front command; an empty queue idles (the model's choice, log entry 3). -/
def Obligations.StepRunsTheFrontCommand : Prop :=
  (∀ (s : State) (c : Instr) (rest : List Instr), s.pending = c :: rest →
    step s = exec c { s with pending := rest }) ∧
  (∀ s : State, s.pending = [] → step s = .next s)

/-- The commands of a beat act on what its boundary leaves (the model's choice, log entry 144). -/
def Obligations.CommandsFollowTheirBoundary : Prop :=
  (∀ (c : Instr) (s : State), actsOn c (actsOn c s) = actsOn c s → exec c s = exec c (actsOn c s)) ∧
  (∀ s : State, s.sys.run ≠ .running → settled s = s) ∧
  (∀ s : State, s.sys.run = .running → s.sys.soft = false → boundaryDue s = true →
    pastBoundary s = tickBoundary s)

/-- Every command answers a next state, keeps the queue, and only adds to what has left the part. -/
def Obligations.EveryCommandAnswers : Prop :=
  ∀ (c : Instr) (s : State), ∃ t, exec c s = .next t ∧ t.pending = s.pending ∧ s.out <+: t.out

/-- The bounds of Good hold after every step from every state in which they hold. -/
def Obligations.EveryStepKeepsTheBounds : Prop :=
  ∀ s t : State, Good s → step s = .next t → Good t

/-- The bounds and the reset values at State.reset. -/
def Obligations.ResetMeetsTheBounds : Prop :=
  Good State.reset ∧ Running State.reset ∧ State.reset.beat = 0 ∧ State.reset.rm.tick = 0 ∧
    State.reset.rm.rate = 4000 ∧ State.reset.ver.current = 0 ∧ (curVer State.reset).num = 0 ∧
    (∀ k, 0 < k → k < 4 → (slotAt State.reset k).state = .free) ∧
    State.reset.sys.log.map (fun r => r.event.code) = [0x0023] ∧
    State.reset.sys.evq.map Event.code = [0x0023] ∧ State.reset.pkts = [] ∧
    State.reset.mabin.sessions = [] ∧ (∀ r, ringAt State.reset r = Ring.init) ∧
    State.reset.buf.cellsFree = 262144 ∧
    ∀ idx sub row, stored State.reset idx sub row = defaultAt idx sub row

/-- What commands on one of several equal units leave unchanged. -/
def Obligations.CommandsLeaveTheRestOfTheirGroup : Prop :=
  (∀ (s t : State) (c : Instr) (src : Origin) (b k o : Nat), k ≠ b →
    c ∈ [Instr.tbEnable src b, .tbValid b, .tbDisable src b, .tbStep src b o, .tbRateWrite src b o,
      .tbSlew src b o] →
    settled s = s → exec c s = .next t → tbAt t k = tbAt s k) ∧
  (∀ (s t : State) (c : Instr) (src : Origin) (p k x v : Nat), k ≠ p →
    c ∈ [Instr.toutConfigWrite src p x v, .timeOutPulse p, .timeOutPulseEnd p] →
    settled s = s → exec c s = .next t → toutAt t k = toutAt s k) ∧
  (∀ (s t : State) (c : Instr) (src : Origin) (p k n : Nat) (up : Bool), k ≠ p →
    c ∈ [Instr.timeCapture p up n, .tinAck src p n] → settled s = s → exec c s = .next t → tinAt t k = tinAt s k) ∧
  (∀ (s t : State) (c : Instr) (src : Origin) (f r k n : Nat) (w : Bytes), k ≠ r →
    c ∈ [Instr.rxRingDoorbell f r n, .msixTimerExpiry r, .ringEnable src r w, .ringDisable src r,
      .ringStopped r, .dmaReadError f r] →
    settled s = s → exec c s = .next t → ringAt t k = ringAt s k) ∧
  (∀ (s t : State) (f r k n : Nat), k ≠ txRing r → settled s = s → exec (.txRingDoorbell f r n) s = .next t →
    ringAt t k = ringAt s k) ∧
  (∀ (s t : State) (l k e : Nat), k ≠ l → settled s = s → exec (.laneSearchWindowEnd l e) s = .next t →
    laneAt t k = laneAt s k) ∧
  (∀ (s t : State) (c : Instr) (src : Origin) (n k m f : Nat) (cs : List Nat), k ≠ n →
    c ∈ [Instr.portEnable src n, .anComplete n m f, .trainingDone n cs, .linkUp n m] →
    settled s = s → exec c s = .next t → (portAt t k).state = (portAt s k).state)

/-- Frames of the commands of resets, beats, home halves and search. -/
def Obligations.FramesOfResetsBeatsAndHome : Prop :=
  ∀ (c : Instr) (s t : State) (p : Part), family c ∈ [.resets, .beats, .home, .search] →
    exec c s = .next t → p ∉ mayTouch c → same p (actsOn c s) t

/-- Frames of the commands of frames, ports, cipher units, time and arbiters. -/
def Obligations.FramesOfTrafficPortsAndTime : Prop :=
  (∀ (c : Instr) (s t : State) (p : Part),
    family c ∈ [.frames, .ports, .cipher, .timing, .arbiters] →
    exec c s = .next t → p ∉ mayTouch c → same p (actsOn c s) t) ∧
  (∀ (c : Instr) (s t : State), family c ∈ [.frames, .ports, .cipher, .timing, .arbiters] →
    exec c s = .next t → t.mem = (actsOn c s).mem ∧
      t.mabin.staged = (actsOn c s).mabin.staged)

/-- Frames of the commands of the host interface, table writes, Mabin, counters and releases. -/
def Obligations.FramesOfHostTablesAndMabin : Prop :=
  ∀ (c : Instr) (s t : State) (p : Part),
    family c ∈ [.host, .tables, .mabin, .counters, .releases] →
    exec c s = .next t → p ∉ mayTouch c → same p (actsOn c s) t
end

