-- ==== Sys2Proof/Laws/Tables.lean ====
section
/-! SUPPORT. Sparse tables: what a read gives after a write, and that every write keeps the canonical
form. -/

namespace Sys2Proof.Machine

variable {α : Type}

@[simp] theorem tfind_tins_self (t : Tbl α) (i : Nat) (x : α) : tfind (tins t i x) i = some x := by
  induction t with
  | nil => simp [tins, tfind]
  | cons e t ih =>
    obtain ⟨k, v⟩ := e
    simp only [tins]
    split
    · simp [tfind]
    · split
      · simp [tfind]
      · next h => simp [tfind, ih, show k ≠ i from fun e => h e.symm]

theorem tfind_tins_ne (t : Tbl α) {i j : Nat} (x : α) (h : j ≠ i) :
    tfind (tins t i x) j = tfind t j := by
  induction t with
  | nil => simp [tins, tfind, h.symm]
  | cons e t ih =>
    obtain ⟨k, v⟩ := e
    simp only [tins]
    split
    · simp [tfind, h.symm]
    · split
      · next e => subst e; simp [tfind, h.symm]
      · simp [tfind, ih]

@[simp] theorem tfind_terase_self (t : Tbl α) (i : Nat) : tfind (terase t i) i = none := by
  induction t with
  | nil => rfl
  | cons e t ih =>
    obtain ⟨k, v⟩ := e
    simp only [terase]
    split
    · exact ih
    · next h => simp [tfind, h, ih]

theorem tfind_terase_ne (t : Tbl α) {i j : Nat} (h : j ≠ i) :
    tfind (terase t i) j = tfind t j := by
  induction t with
  | nil => rfl
  | cons e t ih =>
    obtain ⟨k, v⟩ := e
    simp only [terase]
    split
    · next e => subst e; simp [tfind, ih, h.symm]
    · simp [tfind, ih]

@[simp] theorem tget_tins_self (d : α) (t : Tbl α) (i : Nat) (x : α) : tget d (tins t i x) i = x := by
  simp [tget]

theorem tget_tins_ne (d : α) (t : Tbl α) {i j : Nat} (x : α) (h : j ≠ i) :
    tget d (tins t i x) j = tget d t j := by
  simp [tget, tfind_tins_ne t x h]

@[simp] theorem tget_terase_self (d : α) (t : Tbl α) (i : Nat) : tget d (terase t i) i = d := by
  simp [tget]

theorem tget_terase_ne (d : α) (t : Tbl α) {i j : Nat} (h : j ≠ i) :
    tget d (terase t i) j = tget d t j := by
  simp [tget, tfind_terase_ne t h]

@[simp] theorem tget_nil (d : α) (i : Nat) : tget d ([] : Tbl α) i = d := rfl

section
variable [DecidableEq α]

/-- A read after a write gives the value written. -/
@[simp] theorem tget_tput_self (d : α) (t : Tbl α) (i : Nat) (x : α) :
    tget d (tput d t i x) i = x := by
  unfold tput
  split
  · next h => simp [h]
  · simp

/-- A write leaves every other key alone. -/
theorem tget_tput_ne (d e : α) (t : Tbl α) {i j : Nat} (x : α) (h : j ≠ i) :
    tget d (tput e t i x) j = tget d t j := by
  unfold tput
  split
  · exact tget_terase_ne d t h
  · exact tget_tins_ne d t x h

@[simp] theorem tget_tmod_self (d : α) (t : Tbl α) (i : Nat) (f : α → α) :
    tget d (tmod d t i f) i = f (tget d t i) := by
  simp [tmod]

theorem tget_tmod_ne (d : α) (t : Tbl α) {i j : Nat} (f : α → α) (h : j ≠ i) :
    tget d (tmod d t i f) j = tget d t j :=
  tget_tput_ne d d t _ h

/-! ## The canonical form -/

/-- The canonical form as two facts: keys strictly rise, and no entry is the default. -/
theorem twf_iff (d : α) (t : Tbl α) :
    twf d t = true ↔ (t.map Prod.fst).Pairwise (· < ·) ∧ ∀ e ∈ t, e.2 ≠ d := by
  induction t with
  | nil => simp [twf]
  | cons e t ih =>
    obtain ⟨k, v⟩ := e
    cases t with
    | nil => simp [twf]
    | cons e' t =>
      obtain ⟨k', v'⟩ := e'
      simp only [twf, Bool.and_eq_true, Bool.not_eq_true', decide_eq_false_iff_not, decide_eq_true_eq, ih]
      simp only [List.map_cons, List.pairwise_cons, List.mem_cons, forall_eq_or_imp]
      constructor
      · rintro ⟨⟨hv, hk⟩, ⟨hp, hq⟩, hn⟩
        refine ⟨⟨⟨hk, fun a ha => lt_trans hk (hp a ha)⟩, hp, hq⟩, hv, hn⟩
      · rintro ⟨⟨⟨hk, -⟩, hp, hq⟩, hv, hn⟩
        exact ⟨⟨hv, hk⟩, ⟨hp, hq⟩, hn⟩

omit [DecidableEq α] in
theorem terase_sublist (t : Tbl α) (i : Nat) : (terase t i).Sublist t := by
  induction t with
  | nil => exact List.Sublist.refl _
  | cons e t ih =>
    obtain ⟨k, v⟩ := e
    simp only [terase]
    split
    · exact ih.cons _
    · exact ih.cons_cons _

/-- Any part of a canonical table is canonical. -/
theorem twf_sublist {d : α} {t u : Tbl α} (h : u.Sublist t) (ht : twf d t = true) :
    twf d u = true := by
  rw [twf_iff] at ht ⊢
  exact ⟨ht.1.sublist (h.map _), fun e he => ht.2 e (h.subset he)⟩

theorem twf_terase {d : α} {t : Tbl α} (h : twf d t = true) (i : Nat) :
    twf d (terase t i) = true := twf_sublist (terase_sublist t i) h

omit [DecidableEq α] in
theorem mem_tins {t : Tbl α} {i : Nat} {x : α} {e : Nat × α} (h : e ∈ tins t i x) :
    e = (i, x) ∨ e ∈ t := by
  induction t with
  | nil => simpa [tins] using h
  | cons a t ih =>
    obtain ⟨k, v⟩ := a
    simp only [tins] at h
    split at h
    · simpa using h
    · split at h
      · rcases List.mem_cons.1 h with h | h
        · exact .inl h
        · exact .inr (List.mem_cons_of_mem _ h)
      · rcases List.mem_cons.1 h with h | h
        · exact .inr (h ▸ List.mem_cons_self)
        · exact (ih h).imp_right (List.mem_cons_of_mem _)

omit [DecidableEq α] in
theorem tins_sorted {t : Tbl α} (i : Nat) (x : α) (h : (t.map Prod.fst).Pairwise (· < ·)) :
    ((tins t i x).map Prod.fst).Pairwise (· < ·) := by
  induction t with
  | nil => simp [tins]
  | cons a t ih =>
    obtain ⟨k, v⟩ := a
    simp only [List.map_cons, List.pairwise_cons] at h
    simp only [tins]
    split
    · next hi =>
      simp only [List.map_cons, List.pairwise_cons, List.mem_cons, forall_eq_or_imp]
      exact ⟨⟨hi, fun b hb => lt_trans hi (h.1 b hb)⟩, h⟩
    · split
      · next hk => subst hk; simpa using h
      · next hi hk =>
        simp only [List.map_cons, List.pairwise_cons]
        refine ⟨fun b hb => ?_, ih h.2⟩
        obtain ⟨e, he, rfl⟩ := List.mem_map.1 hb
        rcases mem_tins he with rfl | he
        · exact lt_of_le_of_ne (Nat.le_of_not_lt hi) (fun e => hk e.symm)
        · exact h.1 _ (List.mem_map.2 ⟨e, he, rfl⟩)

theorem twf_tins {d : α} {t : Tbl α} (h : twf d t = true) (i : Nat) {x : α} (hx : x ≠ d) :
    twf d (tins t i x) = true := by
  rw [twf_iff] at h ⊢
  refine ⟨tins_sorted i x h.1, fun e he => ?_⟩
  rcases mem_tins he with rfl | he
  · exact hx
  · exact h.2 e he

/-- A write keeps the canonical form. -/
theorem twf_tput {d : α} {t : Tbl α} (h : twf d t = true) (i : Nat) (x : α) :
    twf d (tput d t i x) = true := by
  unfold tput
  split
  · exact twf_terase h i
  · next hx => exact twf_tins h i hx

theorem twf_tmod {d : α} {t : Tbl α} (h : twf d t = true) (i : Nat) (f : α → α) :
    twf d (tmod d t i f) = true := twf_tput h i _

theorem twf_tdrop {d : α} {t : Tbl α} (h : twf d t = true) (lo hi : Nat) :
    twf d (tdrop t lo hi) = true := twf_sublist List.filter_sublist h

theorem twf_foldl {d : α} {β : Type} (f : Tbl α → β → Tbl α) (l : List β)
    (hf : ∀ t b, twf d t = true → twf d (f t b) = true) :
    ∀ {t : Tbl α}, twf d t = true → twf d (l.foldl f t) = true := by
  induction l with
  | nil => exact fun h => h
  | cons b l ih => exact fun h => ih (hf _ b h)

end

end Sys2Proof.Machine
end

