-- ==== Sys2Proof/Laws/State.lean ====
section
/-! SUPPORT. What each update of the state leaves as it was, field by field, and what it makes of its own
field. -/

namespace Sys2Proof.Machine


/-! ## modPort -/

section
variable (s : State) (n : Nat) (f : Port → Port)

@[simp] theorem modPort_pending : (modPort s n f).pending = s.pending := rfl
@[simp] theorem modPort_beat : (modPort s n f).beat = s.beat := rfl
@[simp] theorem modPort_rm : (modPort s n f).rm = s.rm := rfl
@[simp] theorem modPort_sys : (modPort s n f).sys = s.sys := rfl
@[simp] theorem modPort_objs : (modPort s n f).objs = s.objs := rfl
@[simp] theorem modPort_held : (modPort s n f).held = s.held := rfl
@[simp] theorem modPort_deferred : (modPort s n f).deferred = s.deferred := rfl
@[simp] theorem modPort_digObjs : (modPort s n f).digObjs = s.digObjs := rfl
@[simp] theorem modPort_digVer : (modPort s n f).digVer = s.digVer := rfl
@[simp] theorem modPort_ver : (modPort s n f).ver = s.ver := rfl
@[simp] theorem modPort_pkts : (modPort s n f).pkts = s.pkts := rfl
@[simp] theorem modPort_nextPkt : (modPort s n f).nextPkt = s.nextPkt := rfl
@[simp] theorem modPort_lanes : (modPort s n f).lanes = s.lanes := rfl
@[simp] theorem modPort_buf : (modPort s n f).buf = s.buf := rfl
@[simp] theorem modPort_mem : (modPort s n f).mem = s.mem := rfl
@[simp] theorem modPort_pipes : (modPort s n f).pipes = s.pipes := rfl
@[simp] theorem modPort_clusters : (modPort s n f).clusters = s.clusters := rfl
@[simp] theorem modPort_tbs : (modPort s n f).tbs = s.tbs := rfl
@[simp] theorem modPort_pinsOut : (modPort s n f).pinsOut = s.pinsOut := rfl
@[simp] theorem modPort_pinsIn : (modPort s n f).pinsIn = s.pinsIn := rfl
@[simp] theorem modPort_cipher : (modPort s n f).cipher = s.cipher := rfl
@[simp] theorem modPort_host : (modPort s n f).host = s.host := rfl
@[simp] theorem modPort_mabin : (modPort s n f).mabin = s.mabin := rfl
@[simp] theorem modPort_cnt : (modPort s n f).cnt = s.cnt := rfl
@[simp] theorem modPort_beacon : (modPort s n f).beacon = s.beacon := rfl
@[simp] theorem modPort_out : (modPort s n f).out = s.out := rfl

end

/-! ## modGate -/

section
variable (s : State) (n : Nat) (f : Gate → Gate)

@[simp] theorem modGate_pending : (modGate s n f).pending = s.pending := rfl
@[simp] theorem modGate_beat : (modGate s n f).beat = s.beat := rfl
@[simp] theorem modGate_rm : (modGate s n f).rm = s.rm := rfl
@[simp] theorem modGate_sys : (modGate s n f).sys = s.sys := rfl
@[simp] theorem modGate_objs : (modGate s n f).objs = s.objs := rfl
@[simp] theorem modGate_held : (modGate s n f).held = s.held := rfl
@[simp] theorem modGate_deferred : (modGate s n f).deferred = s.deferred := rfl
@[simp] theorem modGate_digObjs : (modGate s n f).digObjs = s.digObjs := rfl
@[simp] theorem modGate_digVer : (modGate s n f).digVer = s.digVer := rfl
@[simp] theorem modGate_ver : (modGate s n f).ver = s.ver := rfl
@[simp] theorem modGate_pkts : (modGate s n f).pkts = s.pkts := rfl
@[simp] theorem modGate_nextPkt : (modGate s n f).nextPkt = s.nextPkt := rfl
@[simp] theorem modGate_lanes : (modGate s n f).lanes = s.lanes := rfl
@[simp] theorem modGate_buf : (modGate s n f).buf = s.buf := rfl
@[simp] theorem modGate_mem : (modGate s n f).mem = s.mem := rfl
@[simp] theorem modGate_pipes : (modGate s n f).pipes = s.pipes := rfl
@[simp] theorem modGate_clusters : (modGate s n f).clusters = s.clusters := rfl
@[simp] theorem modGate_tbs : (modGate s n f).tbs = s.tbs := rfl
@[simp] theorem modGate_pinsOut : (modGate s n f).pinsOut = s.pinsOut := rfl
@[simp] theorem modGate_pinsIn : (modGate s n f).pinsIn = s.pinsIn := rfl
@[simp] theorem modGate_cipher : (modGate s n f).cipher = s.cipher := rfl
@[simp] theorem modGate_host : (modGate s n f).host = s.host := rfl
@[simp] theorem modGate_mabin : (modGate s n f).mabin = s.mabin := rfl
@[simp] theorem modGate_cnt : (modGate s n f).cnt = s.cnt := rfl
@[simp] theorem modGate_beacon : (modGate s n f).beacon = s.beacon := rfl
@[simp] theorem modGate_out : (modGate s n f).out = s.out := rfl

end

/-! ## modLane -/

section
variable (s : State) (l : Nat) (f : Lane → Lane)

@[simp] theorem modLane_pending : (modLane s l f).pending = s.pending := rfl
@[simp] theorem modLane_beat : (modLane s l f).beat = s.beat := rfl
@[simp] theorem modLane_rm : (modLane s l f).rm = s.rm := rfl
@[simp] theorem modLane_sys : (modLane s l f).sys = s.sys := rfl
@[simp] theorem modLane_objs : (modLane s l f).objs = s.objs := rfl
@[simp] theorem modLane_held : (modLane s l f).held = s.held := rfl
@[simp] theorem modLane_deferred : (modLane s l f).deferred = s.deferred := rfl
@[simp] theorem modLane_digObjs : (modLane s l f).digObjs = s.digObjs := rfl
@[simp] theorem modLane_digVer : (modLane s l f).digVer = s.digVer := rfl
@[simp] theorem modLane_ver : (modLane s l f).ver = s.ver := rfl
@[simp] theorem modLane_pkts : (modLane s l f).pkts = s.pkts := rfl
@[simp] theorem modLane_nextPkt : (modLane s l f).nextPkt = s.nextPkt := rfl
@[simp] theorem modLane_ports : (modLane s l f).ports = s.ports := rfl
@[simp] theorem modLane_buf : (modLane s l f).buf = s.buf := rfl
@[simp] theorem modLane_mem : (modLane s l f).mem = s.mem := rfl
@[simp] theorem modLane_pipes : (modLane s l f).pipes = s.pipes := rfl
@[simp] theorem modLane_clusters : (modLane s l f).clusters = s.clusters := rfl
@[simp] theorem modLane_tbs : (modLane s l f).tbs = s.tbs := rfl
@[simp] theorem modLane_pinsOut : (modLane s l f).pinsOut = s.pinsOut := rfl
@[simp] theorem modLane_pinsIn : (modLane s l f).pinsIn = s.pinsIn := rfl
@[simp] theorem modLane_cipher : (modLane s l f).cipher = s.cipher := rfl
@[simp] theorem modLane_host : (modLane s l f).host = s.host := rfl
@[simp] theorem modLane_mabin : (modLane s l f).mabin = s.mabin := rfl
@[simp] theorem modLane_cnt : (modLane s l f).cnt = s.cnt := rfl
@[simp] theorem modLane_beacon : (modLane s l f).beacon = s.beacon := rfl
@[simp] theorem modLane_out : (modLane s l f).out = s.out := rfl

end

/-! ## modPipe -/

section
variable (s : State) (p : Nat) (f : Pipe → Pipe)

@[simp] theorem modPipe_pending : (modPipe s p f).pending = s.pending := rfl
@[simp] theorem modPipe_beat : (modPipe s p f).beat = s.beat := rfl
@[simp] theorem modPipe_rm : (modPipe s p f).rm = s.rm := rfl
@[simp] theorem modPipe_sys : (modPipe s p f).sys = s.sys := rfl
@[simp] theorem modPipe_objs : (modPipe s p f).objs = s.objs := rfl
@[simp] theorem modPipe_held : (modPipe s p f).held = s.held := rfl
@[simp] theorem modPipe_deferred : (modPipe s p f).deferred = s.deferred := rfl
@[simp] theorem modPipe_digObjs : (modPipe s p f).digObjs = s.digObjs := rfl
@[simp] theorem modPipe_digVer : (modPipe s p f).digVer = s.digVer := rfl
@[simp] theorem modPipe_ver : (modPipe s p f).ver = s.ver := rfl
@[simp] theorem modPipe_pkts : (modPipe s p f).pkts = s.pkts := rfl
@[simp] theorem modPipe_nextPkt : (modPipe s p f).nextPkt = s.nextPkt := rfl
@[simp] theorem modPipe_ports : (modPipe s p f).ports = s.ports := rfl
@[simp] theorem modPipe_lanes : (modPipe s p f).lanes = s.lanes := rfl
@[simp] theorem modPipe_buf : (modPipe s p f).buf = s.buf := rfl
@[simp] theorem modPipe_mem : (modPipe s p f).mem = s.mem := rfl
@[simp] theorem modPipe_clusters : (modPipe s p f).clusters = s.clusters := rfl
@[simp] theorem modPipe_tbs : (modPipe s p f).tbs = s.tbs := rfl
@[simp] theorem modPipe_pinsOut : (modPipe s p f).pinsOut = s.pinsOut := rfl
@[simp] theorem modPipe_pinsIn : (modPipe s p f).pinsIn = s.pinsIn := rfl
@[simp] theorem modPipe_cipher : (modPipe s p f).cipher = s.cipher := rfl
@[simp] theorem modPipe_host : (modPipe s p f).host = s.host := rfl
@[simp] theorem modPipe_mabin : (modPipe s p f).mabin = s.mabin := rfl
@[simp] theorem modPipe_cnt : (modPipe s p f).cnt = s.cnt := rfl
@[simp] theorem modPipe_beacon : (modPipe s p f).beacon = s.beacon := rfl
@[simp] theorem modPipe_out : (modPipe s p f).out = s.out := rfl

end

/-! ## modPos -/

section
variable (s : State) (p h : Nat) (f : Pos → Pos)

@[simp] theorem modPos_pending : (modPos s p h f).pending = s.pending := rfl
@[simp] theorem modPos_beat : (modPos s p h f).beat = s.beat := rfl
@[simp] theorem modPos_rm : (modPos s p h f).rm = s.rm := rfl
@[simp] theorem modPos_sys : (modPos s p h f).sys = s.sys := rfl
@[simp] theorem modPos_objs : (modPos s p h f).objs = s.objs := rfl
@[simp] theorem modPos_held : (modPos s p h f).held = s.held := rfl
@[simp] theorem modPos_deferred : (modPos s p h f).deferred = s.deferred := rfl
@[simp] theorem modPos_digObjs : (modPos s p h f).digObjs = s.digObjs := rfl
@[simp] theorem modPos_digVer : (modPos s p h f).digVer = s.digVer := rfl
@[simp] theorem modPos_ver : (modPos s p h f).ver = s.ver := rfl
@[simp] theorem modPos_pkts : (modPos s p h f).pkts = s.pkts := rfl
@[simp] theorem modPos_nextPkt : (modPos s p h f).nextPkt = s.nextPkt := rfl
@[simp] theorem modPos_ports : (modPos s p h f).ports = s.ports := rfl
@[simp] theorem modPos_lanes : (modPos s p h f).lanes = s.lanes := rfl
@[simp] theorem modPos_buf : (modPos s p h f).buf = s.buf := rfl
@[simp] theorem modPos_mem : (modPos s p h f).mem = s.mem := rfl
@[simp] theorem modPos_clusters : (modPos s p h f).clusters = s.clusters := rfl
@[simp] theorem modPos_tbs : (modPos s p h f).tbs = s.tbs := rfl
@[simp] theorem modPos_pinsOut : (modPos s p h f).pinsOut = s.pinsOut := rfl
@[simp] theorem modPos_pinsIn : (modPos s p h f).pinsIn = s.pinsIn := rfl
@[simp] theorem modPos_cipher : (modPos s p h f).cipher = s.cipher := rfl
@[simp] theorem modPos_host : (modPos s p h f).host = s.host := rfl
@[simp] theorem modPos_mabin : (modPos s p h f).mabin = s.mabin := rfl
@[simp] theorem modPos_cnt : (modPos s p h f).cnt = s.cnt := rfl
@[simp] theorem modPos_beacon : (modPos s p h f).beacon = s.beacon := rfl
@[simp] theorem modPos_out : (modPos s p h f).out = s.out := rfl

end

/-! ## modCluster -/

section
variable (s : State) (c : Nat) (f : Cluster → Cluster)

@[simp] theorem modCluster_pending : (modCluster s c f).pending = s.pending := rfl
@[simp] theorem modCluster_beat : (modCluster s c f).beat = s.beat := rfl
@[simp] theorem modCluster_rm : (modCluster s c f).rm = s.rm := rfl
@[simp] theorem modCluster_sys : (modCluster s c f).sys = s.sys := rfl
@[simp] theorem modCluster_objs : (modCluster s c f).objs = s.objs := rfl
@[simp] theorem modCluster_held : (modCluster s c f).held = s.held := rfl
@[simp] theorem modCluster_deferred : (modCluster s c f).deferred = s.deferred := rfl
@[simp] theorem modCluster_digObjs : (modCluster s c f).digObjs = s.digObjs := rfl
@[simp] theorem modCluster_digVer : (modCluster s c f).digVer = s.digVer := rfl
@[simp] theorem modCluster_ver : (modCluster s c f).ver = s.ver := rfl
@[simp] theorem modCluster_pkts : (modCluster s c f).pkts = s.pkts := rfl
@[simp] theorem modCluster_nextPkt : (modCluster s c f).nextPkt = s.nextPkt := rfl
@[simp] theorem modCluster_ports : (modCluster s c f).ports = s.ports := rfl
@[simp] theorem modCluster_lanes : (modCluster s c f).lanes = s.lanes := rfl
@[simp] theorem modCluster_buf : (modCluster s c f).buf = s.buf := rfl
@[simp] theorem modCluster_mem : (modCluster s c f).mem = s.mem := rfl
@[simp] theorem modCluster_pipes : (modCluster s c f).pipes = s.pipes := rfl
@[simp] theorem modCluster_tbs : (modCluster s c f).tbs = s.tbs := rfl
@[simp] theorem modCluster_pinsOut : (modCluster s c f).pinsOut = s.pinsOut := rfl
@[simp] theorem modCluster_pinsIn : (modCluster s c f).pinsIn = s.pinsIn := rfl
@[simp] theorem modCluster_cipher : (modCluster s c f).cipher = s.cipher := rfl
@[simp] theorem modCluster_host : (modCluster s c f).host = s.host := rfl
@[simp] theorem modCluster_mabin : (modCluster s c f).mabin = s.mabin := rfl
@[simp] theorem modCluster_cnt : (modCluster s c f).cnt = s.cnt := rfl
@[simp] theorem modCluster_beacon : (modCluster s c f).beacon = s.beacon := rfl
@[simp] theorem modCluster_out : (modCluster s c f).out = s.out := rfl

end

/-! ## modEngine -/

section
variable (s : State) (c e : Nat) (f : Engine → Engine)

@[simp] theorem modEngine_pending : (modEngine s c e f).pending = s.pending := rfl
@[simp] theorem modEngine_beat : (modEngine s c e f).beat = s.beat := rfl
@[simp] theorem modEngine_rm : (modEngine s c e f).rm = s.rm := rfl
@[simp] theorem modEngine_sys : (modEngine s c e f).sys = s.sys := rfl
@[simp] theorem modEngine_objs : (modEngine s c e f).objs = s.objs := rfl
@[simp] theorem modEngine_held : (modEngine s c e f).held = s.held := rfl
@[simp] theorem modEngine_deferred : (modEngine s c e f).deferred = s.deferred := rfl
@[simp] theorem modEngine_digObjs : (modEngine s c e f).digObjs = s.digObjs := rfl
@[simp] theorem modEngine_digVer : (modEngine s c e f).digVer = s.digVer := rfl
@[simp] theorem modEngine_ver : (modEngine s c e f).ver = s.ver := rfl
@[simp] theorem modEngine_pkts : (modEngine s c e f).pkts = s.pkts := rfl
@[simp] theorem modEngine_nextPkt : (modEngine s c e f).nextPkt = s.nextPkt := rfl
@[simp] theorem modEngine_ports : (modEngine s c e f).ports = s.ports := rfl
@[simp] theorem modEngine_lanes : (modEngine s c e f).lanes = s.lanes := rfl
@[simp] theorem modEngine_buf : (modEngine s c e f).buf = s.buf := rfl
@[simp] theorem modEngine_mem : (modEngine s c e f).mem = s.mem := rfl
@[simp] theorem modEngine_pipes : (modEngine s c e f).pipes = s.pipes := rfl
@[simp] theorem modEngine_tbs : (modEngine s c e f).tbs = s.tbs := rfl
@[simp] theorem modEngine_pinsOut : (modEngine s c e f).pinsOut = s.pinsOut := rfl
@[simp] theorem modEngine_pinsIn : (modEngine s c e f).pinsIn = s.pinsIn := rfl
@[simp] theorem modEngine_cipher : (modEngine s c e f).cipher = s.cipher := rfl
@[simp] theorem modEngine_host : (modEngine s c e f).host = s.host := rfl
@[simp] theorem modEngine_mabin : (modEngine s c e f).mabin = s.mabin := rfl
@[simp] theorem modEngine_cnt : (modEngine s c e f).cnt = s.cnt := rfl
@[simp] theorem modEngine_beacon : (modEngine s c e f).beacon = s.beacon := rfl
@[simp] theorem modEngine_out : (modEngine s c e f).out = s.out := rfl

end

/-! ## modTb -/

section
variable (s : State) (t : Nat) (f : TimeBase → TimeBase)

@[simp] theorem modTb_pending : (modTb s t f).pending = s.pending := rfl
@[simp] theorem modTb_beat : (modTb s t f).beat = s.beat := rfl
@[simp] theorem modTb_rm : (modTb s t f).rm = s.rm := rfl
@[simp] theorem modTb_sys : (modTb s t f).sys = s.sys := rfl
@[simp] theorem modTb_objs : (modTb s t f).objs = s.objs := rfl
@[simp] theorem modTb_held : (modTb s t f).held = s.held := rfl
@[simp] theorem modTb_deferred : (modTb s t f).deferred = s.deferred := rfl
@[simp] theorem modTb_digObjs : (modTb s t f).digObjs = s.digObjs := rfl
@[simp] theorem modTb_digVer : (modTb s t f).digVer = s.digVer := rfl
@[simp] theorem modTb_ver : (modTb s t f).ver = s.ver := rfl
@[simp] theorem modTb_pkts : (modTb s t f).pkts = s.pkts := rfl
@[simp] theorem modTb_nextPkt : (modTb s t f).nextPkt = s.nextPkt := rfl
@[simp] theorem modTb_ports : (modTb s t f).ports = s.ports := rfl
@[simp] theorem modTb_lanes : (modTb s t f).lanes = s.lanes := rfl
@[simp] theorem modTb_buf : (modTb s t f).buf = s.buf := rfl
@[simp] theorem modTb_mem : (modTb s t f).mem = s.mem := rfl
@[simp] theorem modTb_pipes : (modTb s t f).pipes = s.pipes := rfl
@[simp] theorem modTb_clusters : (modTb s t f).clusters = s.clusters := rfl
@[simp] theorem modTb_pinsOut : (modTb s t f).pinsOut = s.pinsOut := rfl
@[simp] theorem modTb_pinsIn : (modTb s t f).pinsIn = s.pinsIn := rfl
@[simp] theorem modTb_cipher : (modTb s t f).cipher = s.cipher := rfl
@[simp] theorem modTb_host : (modTb s t f).host = s.host := rfl
@[simp] theorem modTb_mabin : (modTb s t f).mabin = s.mabin := rfl
@[simp] theorem modTb_cnt : (modTb s t f).cnt = s.cnt := rfl
@[simp] theorem modTb_beacon : (modTb s t f).beacon = s.beacon := rfl
@[simp] theorem modTb_out : (modTb s t f).out = s.out := rfl

end

/-! ## modTout -/

section
variable (s : State) (k : Nat) (f : PinOut → PinOut)

@[simp] theorem modTout_pending : (modTout s k f).pending = s.pending := rfl
@[simp] theorem modTout_beat : (modTout s k f).beat = s.beat := rfl
@[simp] theorem modTout_rm : (modTout s k f).rm = s.rm := rfl
@[simp] theorem modTout_sys : (modTout s k f).sys = s.sys := rfl
@[simp] theorem modTout_objs : (modTout s k f).objs = s.objs := rfl
@[simp] theorem modTout_held : (modTout s k f).held = s.held := rfl
@[simp] theorem modTout_deferred : (modTout s k f).deferred = s.deferred := rfl
@[simp] theorem modTout_digObjs : (modTout s k f).digObjs = s.digObjs := rfl
@[simp] theorem modTout_digVer : (modTout s k f).digVer = s.digVer := rfl
@[simp] theorem modTout_ver : (modTout s k f).ver = s.ver := rfl
@[simp] theorem modTout_pkts : (modTout s k f).pkts = s.pkts := rfl
@[simp] theorem modTout_nextPkt : (modTout s k f).nextPkt = s.nextPkt := rfl
@[simp] theorem modTout_ports : (modTout s k f).ports = s.ports := rfl
@[simp] theorem modTout_lanes : (modTout s k f).lanes = s.lanes := rfl
@[simp] theorem modTout_buf : (modTout s k f).buf = s.buf := rfl
@[simp] theorem modTout_mem : (modTout s k f).mem = s.mem := rfl
@[simp] theorem modTout_pipes : (modTout s k f).pipes = s.pipes := rfl
@[simp] theorem modTout_clusters : (modTout s k f).clusters = s.clusters := rfl
@[simp] theorem modTout_tbs : (modTout s k f).tbs = s.tbs := rfl
@[simp] theorem modTout_pinsIn : (modTout s k f).pinsIn = s.pinsIn := rfl
@[simp] theorem modTout_cipher : (modTout s k f).cipher = s.cipher := rfl
@[simp] theorem modTout_host : (modTout s k f).host = s.host := rfl
@[simp] theorem modTout_mabin : (modTout s k f).mabin = s.mabin := rfl
@[simp] theorem modTout_cnt : (modTout s k f).cnt = s.cnt := rfl
@[simp] theorem modTout_beacon : (modTout s k f).beacon = s.beacon := rfl
@[simp] theorem modTout_out : (modTout s k f).out = s.out := rfl

end

/-! ## modTin -/

section
variable (s : State) (i : Nat) (f : PinIn → PinIn)

@[simp] theorem modTin_pending : (modTin s i f).pending = s.pending := rfl
@[simp] theorem modTin_beat : (modTin s i f).beat = s.beat := rfl
@[simp] theorem modTin_rm : (modTin s i f).rm = s.rm := rfl
@[simp] theorem modTin_sys : (modTin s i f).sys = s.sys := rfl
@[simp] theorem modTin_objs : (modTin s i f).objs = s.objs := rfl
@[simp] theorem modTin_held : (modTin s i f).held = s.held := rfl
@[simp] theorem modTin_deferred : (modTin s i f).deferred = s.deferred := rfl
@[simp] theorem modTin_digObjs : (modTin s i f).digObjs = s.digObjs := rfl
@[simp] theorem modTin_digVer : (modTin s i f).digVer = s.digVer := rfl
@[simp] theorem modTin_ver : (modTin s i f).ver = s.ver := rfl
@[simp] theorem modTin_pkts : (modTin s i f).pkts = s.pkts := rfl
@[simp] theorem modTin_nextPkt : (modTin s i f).nextPkt = s.nextPkt := rfl
@[simp] theorem modTin_ports : (modTin s i f).ports = s.ports := rfl
@[simp] theorem modTin_lanes : (modTin s i f).lanes = s.lanes := rfl
@[simp] theorem modTin_buf : (modTin s i f).buf = s.buf := rfl
@[simp] theorem modTin_mem : (modTin s i f).mem = s.mem := rfl
@[simp] theorem modTin_pipes : (modTin s i f).pipes = s.pipes := rfl
@[simp] theorem modTin_clusters : (modTin s i f).clusters = s.clusters := rfl
@[simp] theorem modTin_tbs : (modTin s i f).tbs = s.tbs := rfl
@[simp] theorem modTin_pinsOut : (modTin s i f).pinsOut = s.pinsOut := rfl
@[simp] theorem modTin_cipher : (modTin s i f).cipher = s.cipher := rfl
@[simp] theorem modTin_host : (modTin s i f).host = s.host := rfl
@[simp] theorem modTin_mabin : (modTin s i f).mabin = s.mabin := rfl
@[simp] theorem modTin_cnt : (modTin s i f).cnt = s.cnt := rfl
@[simp] theorem modTin_beacon : (modTin s i f).beacon = s.beacon := rfl
@[simp] theorem modTin_out : (modTin s i f).out = s.out := rfl

end

/-! ## modRing -/

section
variable (s : State) (r : Nat) (f : Ring → Ring)

@[simp] theorem modRing_pending : (modRing s r f).pending = s.pending := rfl
@[simp] theorem modRing_beat : (modRing s r f).beat = s.beat := rfl
@[simp] theorem modRing_rm : (modRing s r f).rm = s.rm := rfl
@[simp] theorem modRing_sys : (modRing s r f).sys = s.sys := rfl
@[simp] theorem modRing_objs : (modRing s r f).objs = s.objs := rfl
@[simp] theorem modRing_held : (modRing s r f).held = s.held := rfl
@[simp] theorem modRing_deferred : (modRing s r f).deferred = s.deferred := rfl
@[simp] theorem modRing_digObjs : (modRing s r f).digObjs = s.digObjs := rfl
@[simp] theorem modRing_digVer : (modRing s r f).digVer = s.digVer := rfl
@[simp] theorem modRing_ver : (modRing s r f).ver = s.ver := rfl
@[simp] theorem modRing_pkts : (modRing s r f).pkts = s.pkts := rfl
@[simp] theorem modRing_nextPkt : (modRing s r f).nextPkt = s.nextPkt := rfl
@[simp] theorem modRing_ports : (modRing s r f).ports = s.ports := rfl
@[simp] theorem modRing_lanes : (modRing s r f).lanes = s.lanes := rfl
@[simp] theorem modRing_buf : (modRing s r f).buf = s.buf := rfl
@[simp] theorem modRing_mem : (modRing s r f).mem = s.mem := rfl
@[simp] theorem modRing_pipes : (modRing s r f).pipes = s.pipes := rfl
@[simp] theorem modRing_clusters : (modRing s r f).clusters = s.clusters := rfl
@[simp] theorem modRing_tbs : (modRing s r f).tbs = s.tbs := rfl
@[simp] theorem modRing_pinsOut : (modRing s r f).pinsOut = s.pinsOut := rfl
@[simp] theorem modRing_pinsIn : (modRing s r f).pinsIn = s.pinsIn := rfl
@[simp] theorem modRing_cipher : (modRing s r f).cipher = s.cipher := rfl
@[simp] theorem modRing_mabin : (modRing s r f).mabin = s.mabin := rfl
@[simp] theorem modRing_cnt : (modRing s r f).cnt = s.cnt := rfl
@[simp] theorem modRing_beacon : (modRing s r f).beacon = s.beacon := rfl
@[simp] theorem modRing_out : (modRing s r f).out = s.out := rfl

end

/-! ## modFn -/

section
variable (s : State) (n : Nat) (f : Fn → Fn)

@[simp] theorem modFn_pending : (modFn s n f).pending = s.pending := rfl
@[simp] theorem modFn_beat : (modFn s n f).beat = s.beat := rfl
@[simp] theorem modFn_rm : (modFn s n f).rm = s.rm := rfl
@[simp] theorem modFn_sys : (modFn s n f).sys = s.sys := rfl
@[simp] theorem modFn_objs : (modFn s n f).objs = s.objs := rfl
@[simp] theorem modFn_held : (modFn s n f).held = s.held := rfl
@[simp] theorem modFn_deferred : (modFn s n f).deferred = s.deferred := rfl
@[simp] theorem modFn_digObjs : (modFn s n f).digObjs = s.digObjs := rfl
@[simp] theorem modFn_digVer : (modFn s n f).digVer = s.digVer := rfl
@[simp] theorem modFn_ver : (modFn s n f).ver = s.ver := rfl
@[simp] theorem modFn_pkts : (modFn s n f).pkts = s.pkts := rfl
@[simp] theorem modFn_nextPkt : (modFn s n f).nextPkt = s.nextPkt := rfl
@[simp] theorem modFn_ports : (modFn s n f).ports = s.ports := rfl
@[simp] theorem modFn_lanes : (modFn s n f).lanes = s.lanes := rfl
@[simp] theorem modFn_buf : (modFn s n f).buf = s.buf := rfl
@[simp] theorem modFn_mem : (modFn s n f).mem = s.mem := rfl
@[simp] theorem modFn_pipes : (modFn s n f).pipes = s.pipes := rfl
@[simp] theorem modFn_clusters : (modFn s n f).clusters = s.clusters := rfl
@[simp] theorem modFn_tbs : (modFn s n f).tbs = s.tbs := rfl
@[simp] theorem modFn_pinsOut : (modFn s n f).pinsOut = s.pinsOut := rfl
@[simp] theorem modFn_pinsIn : (modFn s n f).pinsIn = s.pinsIn := rfl
@[simp] theorem modFn_cipher : (modFn s n f).cipher = s.cipher := rfl
@[simp] theorem modFn_mabin : (modFn s n f).mabin = s.mabin := rfl
@[simp] theorem modFn_cnt : (modFn s n f).cnt = s.cnt := rfl
@[simp] theorem modFn_beacon : (modFn s n f).beacon = s.beacon := rfl
@[simp] theorem modFn_out : (modFn s n f).out = s.out := rfl

end

/-! ## modArb -/

section
variable (s : State) (a : Nat) (f : Arb → Arb)

@[simp] theorem modArb_pending : (modArb s a f).pending = s.pending := rfl
@[simp] theorem modArb_beat : (modArb s a f).beat = s.beat := rfl
@[simp] theorem modArb_rm : (modArb s a f).rm = s.rm := rfl
@[simp] theorem modArb_sys : (modArb s a f).sys = s.sys := rfl
@[simp] theorem modArb_objs : (modArb s a f).objs = s.objs := rfl
@[simp] theorem modArb_held : (modArb s a f).held = s.held := rfl
@[simp] theorem modArb_deferred : (modArb s a f).deferred = s.deferred := rfl
@[simp] theorem modArb_digObjs : (modArb s a f).digObjs = s.digObjs := rfl
@[simp] theorem modArb_digVer : (modArb s a f).digVer = s.digVer := rfl
@[simp] theorem modArb_ver : (modArb s a f).ver = s.ver := rfl
@[simp] theorem modArb_pkts : (modArb s a f).pkts = s.pkts := rfl
@[simp] theorem modArb_nextPkt : (modArb s a f).nextPkt = s.nextPkt := rfl
@[simp] theorem modArb_ports : (modArb s a f).ports = s.ports := rfl
@[simp] theorem modArb_lanes : (modArb s a f).lanes = s.lanes := rfl
@[simp] theorem modArb_buf : (modArb s a f).buf = s.buf := rfl
@[simp] theorem modArb_mem : (modArb s a f).mem = s.mem := rfl
@[simp] theorem modArb_pipes : (modArb s a f).pipes = s.pipes := rfl
@[simp] theorem modArb_clusters : (modArb s a f).clusters = s.clusters := rfl
@[simp] theorem modArb_tbs : (modArb s a f).tbs = s.tbs := rfl
@[simp] theorem modArb_pinsOut : (modArb s a f).pinsOut = s.pinsOut := rfl
@[simp] theorem modArb_pinsIn : (modArb s a f).pinsIn = s.pinsIn := rfl
@[simp] theorem modArb_cipher : (modArb s a f).cipher = s.cipher := rfl
@[simp] theorem modArb_mabin : (modArb s a f).mabin = s.mabin := rfl
@[simp] theorem modArb_cnt : (modArb s a f).cnt = s.cnt := rfl
@[simp] theorem modArb_beacon : (modArb s a f).beacon = s.beacon := rfl
@[simp] theorem modArb_out : (modArb s a f).out = s.out := rfl

end

/-! ## modPools -/

section
variable (s : State) (f : Pools → Pools)

@[simp] theorem modPools_pending : (modPools s f).pending = s.pending := rfl
@[simp] theorem modPools_beat : (modPools s f).beat = s.beat := rfl
@[simp] theorem modPools_rm : (modPools s f).rm = s.rm := rfl
@[simp] theorem modPools_sys : (modPools s f).sys = s.sys := rfl
@[simp] theorem modPools_objs : (modPools s f).objs = s.objs := rfl
@[simp] theorem modPools_held : (modPools s f).held = s.held := rfl
@[simp] theorem modPools_deferred : (modPools s f).deferred = s.deferred := rfl
@[simp] theorem modPools_digObjs : (modPools s f).digObjs = s.digObjs := rfl
@[simp] theorem modPools_digVer : (modPools s f).digVer = s.digVer := rfl
@[simp] theorem modPools_ver : (modPools s f).ver = s.ver := rfl
@[simp] theorem modPools_pkts : (modPools s f).pkts = s.pkts := rfl
@[simp] theorem modPools_nextPkt : (modPools s f).nextPkt = s.nextPkt := rfl
@[simp] theorem modPools_ports : (modPools s f).ports = s.ports := rfl
@[simp] theorem modPools_lanes : (modPools s f).lanes = s.lanes := rfl
@[simp] theorem modPools_buf : (modPools s f).buf = s.buf := rfl
@[simp] theorem modPools_mem : (modPools s f).mem = s.mem := rfl
@[simp] theorem modPools_pipes : (modPools s f).pipes = s.pipes := rfl
@[simp] theorem modPools_clusters : (modPools s f).clusters = s.clusters := rfl
@[simp] theorem modPools_tbs : (modPools s f).tbs = s.tbs := rfl
@[simp] theorem modPools_pinsOut : (modPools s f).pinsOut = s.pinsOut := rfl
@[simp] theorem modPools_pinsIn : (modPools s f).pinsIn = s.pinsIn := rfl
@[simp] theorem modPools_cipher : (modPools s f).cipher = s.cipher := rfl
@[simp] theorem modPools_mabin : (modPools s f).mabin = s.mabin := rfl
@[simp] theorem modPools_cnt : (modPools s f).cnt = s.cnt := rfl
@[simp] theorem modPools_beacon : (modPools s f).beacon = s.beacon := rfl
@[simp] theorem modPools_out : (modPools s f).out = s.out := rfl

end

/-! ## modPkt -/

section
variable (s : State) (id : Nat) (f : Pkt → Pkt)

@[simp] theorem modPkt_pending : (modPkt s id f).pending = s.pending := rfl
@[simp] theorem modPkt_beat : (modPkt s id f).beat = s.beat := rfl
@[simp] theorem modPkt_rm : (modPkt s id f).rm = s.rm := rfl
@[simp] theorem modPkt_sys : (modPkt s id f).sys = s.sys := rfl
@[simp] theorem modPkt_objs : (modPkt s id f).objs = s.objs := rfl
@[simp] theorem modPkt_held : (modPkt s id f).held = s.held := rfl
@[simp] theorem modPkt_deferred : (modPkt s id f).deferred = s.deferred := rfl
@[simp] theorem modPkt_digObjs : (modPkt s id f).digObjs = s.digObjs := rfl
@[simp] theorem modPkt_digVer : (modPkt s id f).digVer = s.digVer := rfl
@[simp] theorem modPkt_ver : (modPkt s id f).ver = s.ver := rfl
@[simp] theorem modPkt_nextPkt : (modPkt s id f).nextPkt = s.nextPkt := rfl
@[simp] theorem modPkt_ports : (modPkt s id f).ports = s.ports := rfl
@[simp] theorem modPkt_lanes : (modPkt s id f).lanes = s.lanes := rfl
@[simp] theorem modPkt_buf : (modPkt s id f).buf = s.buf := rfl
@[simp] theorem modPkt_mem : (modPkt s id f).mem = s.mem := rfl
@[simp] theorem modPkt_pipes : (modPkt s id f).pipes = s.pipes := rfl
@[simp] theorem modPkt_clusters : (modPkt s id f).clusters = s.clusters := rfl
@[simp] theorem modPkt_tbs : (modPkt s id f).tbs = s.tbs := rfl
@[simp] theorem modPkt_pinsOut : (modPkt s id f).pinsOut = s.pinsOut := rfl
@[simp] theorem modPkt_pinsIn : (modPkt s id f).pinsIn = s.pinsIn := rfl
@[simp] theorem modPkt_cipher : (modPkt s id f).cipher = s.cipher := rfl
@[simp] theorem modPkt_host : (modPkt s id f).host = s.host := rfl
@[simp] theorem modPkt_mabin : (modPkt s id f).mabin = s.mabin := rfl
@[simp] theorem modPkt_cnt : (modPkt s id f).cnt = s.cnt := rfl
@[simp] theorem modPkt_beacon : (modPkt s id f).beacon = s.beacon := rfl
@[simp] theorem modPkt_out : (modPkt s id f).out = s.out := rfl

end

/-! ## dropPkt -/

section
variable (s : State) (id : Nat)

@[simp] theorem dropPkt_pending : (dropPkt s id).pending = s.pending := rfl
@[simp] theorem dropPkt_beat : (dropPkt s id).beat = s.beat := rfl
@[simp] theorem dropPkt_rm : (dropPkt s id).rm = s.rm := rfl
@[simp] theorem dropPkt_sys : (dropPkt s id).sys = s.sys := rfl
@[simp] theorem dropPkt_objs : (dropPkt s id).objs = s.objs := rfl
@[simp] theorem dropPkt_held : (dropPkt s id).held = s.held := rfl
@[simp] theorem dropPkt_deferred : (dropPkt s id).deferred = s.deferred := rfl
@[simp] theorem dropPkt_digObjs : (dropPkt s id).digObjs = s.digObjs := rfl
@[simp] theorem dropPkt_digVer : (dropPkt s id).digVer = s.digVer := rfl
@[simp] theorem dropPkt_ver : (dropPkt s id).ver = s.ver := rfl
@[simp] theorem dropPkt_nextPkt : (dropPkt s id).nextPkt = s.nextPkt := rfl
@[simp] theorem dropPkt_ports : (dropPkt s id).ports = s.ports := rfl
@[simp] theorem dropPkt_lanes : (dropPkt s id).lanes = s.lanes := rfl
@[simp] theorem dropPkt_buf : (dropPkt s id).buf = s.buf := rfl
@[simp] theorem dropPkt_mem : (dropPkt s id).mem = s.mem := rfl
@[simp] theorem dropPkt_pipes : (dropPkt s id).pipes = s.pipes := rfl
@[simp] theorem dropPkt_clusters : (dropPkt s id).clusters = s.clusters := rfl
@[simp] theorem dropPkt_tbs : (dropPkt s id).tbs = s.tbs := rfl
@[simp] theorem dropPkt_pinsOut : (dropPkt s id).pinsOut = s.pinsOut := rfl
@[simp] theorem dropPkt_pinsIn : (dropPkt s id).pinsIn = s.pinsIn := rfl
@[simp] theorem dropPkt_cipher : (dropPkt s id).cipher = s.cipher := rfl
@[simp] theorem dropPkt_host : (dropPkt s id).host = s.host := rfl
@[simp] theorem dropPkt_mabin : (dropPkt s id).mabin = s.mabin := rfl
@[simp] theorem dropPkt_cnt : (dropPkt s id).cnt = s.cnt := rfl
@[simp] theorem dropPkt_beacon : (dropPkt s id).beacon = s.beacon := rfl
@[simp] theorem dropPkt_out : (dropPkt s id).out = s.out := rfl

end

/-! ## modQueue -/

section
variable (s : State) (q : Nat) (f : List Nat → List Nat)

@[simp] theorem modQueue_pending : (modQueue s q f).pending = s.pending := rfl
@[simp] theorem modQueue_beat : (modQueue s q f).beat = s.beat := rfl
@[simp] theorem modQueue_rm : (modQueue s q f).rm = s.rm := rfl
@[simp] theorem modQueue_sys : (modQueue s q f).sys = s.sys := rfl
@[simp] theorem modQueue_objs : (modQueue s q f).objs = s.objs := rfl
@[simp] theorem modQueue_held : (modQueue s q f).held = s.held := rfl
@[simp] theorem modQueue_deferred : (modQueue s q f).deferred = s.deferred := rfl
@[simp] theorem modQueue_digObjs : (modQueue s q f).digObjs = s.digObjs := rfl
@[simp] theorem modQueue_digVer : (modQueue s q f).digVer = s.digVer := rfl
@[simp] theorem modQueue_ver : (modQueue s q f).ver = s.ver := rfl
@[simp] theorem modQueue_pkts : (modQueue s q f).pkts = s.pkts := rfl
@[simp] theorem modQueue_nextPkt : (modQueue s q f).nextPkt = s.nextPkt := rfl
@[simp] theorem modQueue_ports : (modQueue s q f).ports = s.ports := rfl
@[simp] theorem modQueue_lanes : (modQueue s q f).lanes = s.lanes := rfl
@[simp] theorem modQueue_mem : (modQueue s q f).mem = s.mem := rfl
@[simp] theorem modQueue_pipes : (modQueue s q f).pipes = s.pipes := rfl
@[simp] theorem modQueue_clusters : (modQueue s q f).clusters = s.clusters := rfl
@[simp] theorem modQueue_tbs : (modQueue s q f).tbs = s.tbs := rfl
@[simp] theorem modQueue_pinsOut : (modQueue s q f).pinsOut = s.pinsOut := rfl
@[simp] theorem modQueue_pinsIn : (modQueue s q f).pinsIn = s.pinsIn := rfl
@[simp] theorem modQueue_cipher : (modQueue s q f).cipher = s.cipher := rfl
@[simp] theorem modQueue_host : (modQueue s q f).host = s.host := rfl
@[simp] theorem modQueue_mabin : (modQueue s q f).mabin = s.mabin := rfl
@[simp] theorem modQueue_cnt : (modQueue s q f).cnt = s.cnt := rfl
@[simp] theorem modQueue_beacon : (modQueue s q f).beacon = s.beacon := rfl
@[simp] theorem modQueue_out : (modQueue s q f).out = s.out := rfl

end

/-! ## modNode -/

section
variable (s : State) (k : Nat) (f : Node → Node)

@[simp] theorem modNode_pending : (modNode s k f).pending = s.pending := rfl
@[simp] theorem modNode_beat : (modNode s k f).beat = s.beat := rfl
@[simp] theorem modNode_rm : (modNode s k f).rm = s.rm := rfl
@[simp] theorem modNode_sys : (modNode s k f).sys = s.sys := rfl
@[simp] theorem modNode_objs : (modNode s k f).objs = s.objs := rfl
@[simp] theorem modNode_held : (modNode s k f).held = s.held := rfl
@[simp] theorem modNode_deferred : (modNode s k f).deferred = s.deferred := rfl
@[simp] theorem modNode_digObjs : (modNode s k f).digObjs = s.digObjs := rfl
@[simp] theorem modNode_digVer : (modNode s k f).digVer = s.digVer := rfl
@[simp] theorem modNode_ver : (modNode s k f).ver = s.ver := rfl
@[simp] theorem modNode_pkts : (modNode s k f).pkts = s.pkts := rfl
@[simp] theorem modNode_nextPkt : (modNode s k f).nextPkt = s.nextPkt := rfl
@[simp] theorem modNode_ports : (modNode s k f).ports = s.ports := rfl
@[simp] theorem modNode_lanes : (modNode s k f).lanes = s.lanes := rfl
@[simp] theorem modNode_mem : (modNode s k f).mem = s.mem := rfl
@[simp] theorem modNode_pipes : (modNode s k f).pipes = s.pipes := rfl
@[simp] theorem modNode_clusters : (modNode s k f).clusters = s.clusters := rfl
@[simp] theorem modNode_tbs : (modNode s k f).tbs = s.tbs := rfl
@[simp] theorem modNode_pinsOut : (modNode s k f).pinsOut = s.pinsOut := rfl
@[simp] theorem modNode_pinsIn : (modNode s k f).pinsIn = s.pinsIn := rfl
@[simp] theorem modNode_cipher : (modNode s k f).cipher = s.cipher := rfl
@[simp] theorem modNode_host : (modNode s k f).host = s.host := rfl
@[simp] theorem modNode_mabin : (modNode s k f).mabin = s.mabin := rfl
@[simp] theorem modNode_cnt : (modNode s k f).cnt = s.cnt := rfl
@[simp] theorem modNode_beacon : (modNode s k f).beacon = s.beacon := rfl
@[simp] theorem modNode_out : (modNode s k f).out = s.out := rfl

end

/-! ## modAcct -/

section
variable (s : State) (n : Nat) (f : Acct → Acct)

@[simp] theorem modAcct_pending : (modAcct s n f).pending = s.pending := rfl
@[simp] theorem modAcct_beat : (modAcct s n f).beat = s.beat := rfl
@[simp] theorem modAcct_rm : (modAcct s n f).rm = s.rm := rfl
@[simp] theorem modAcct_sys : (modAcct s n f).sys = s.sys := rfl
@[simp] theorem modAcct_objs : (modAcct s n f).objs = s.objs := rfl
@[simp] theorem modAcct_held : (modAcct s n f).held = s.held := rfl
@[simp] theorem modAcct_deferred : (modAcct s n f).deferred = s.deferred := rfl
@[simp] theorem modAcct_digObjs : (modAcct s n f).digObjs = s.digObjs := rfl
@[simp] theorem modAcct_digVer : (modAcct s n f).digVer = s.digVer := rfl
@[simp] theorem modAcct_ver : (modAcct s n f).ver = s.ver := rfl
@[simp] theorem modAcct_pkts : (modAcct s n f).pkts = s.pkts := rfl
@[simp] theorem modAcct_nextPkt : (modAcct s n f).nextPkt = s.nextPkt := rfl
@[simp] theorem modAcct_ports : (modAcct s n f).ports = s.ports := rfl
@[simp] theorem modAcct_lanes : (modAcct s n f).lanes = s.lanes := rfl
@[simp] theorem modAcct_mem : (modAcct s n f).mem = s.mem := rfl
@[simp] theorem modAcct_pipes : (modAcct s n f).pipes = s.pipes := rfl
@[simp] theorem modAcct_clusters : (modAcct s n f).clusters = s.clusters := rfl
@[simp] theorem modAcct_tbs : (modAcct s n f).tbs = s.tbs := rfl
@[simp] theorem modAcct_pinsOut : (modAcct s n f).pinsOut = s.pinsOut := rfl
@[simp] theorem modAcct_pinsIn : (modAcct s n f).pinsIn = s.pinsIn := rfl
@[simp] theorem modAcct_cipher : (modAcct s n f).cipher = s.cipher := rfl
@[simp] theorem modAcct_host : (modAcct s n f).host = s.host := rfl
@[simp] theorem modAcct_mabin : (modAcct s n f).mabin = s.mabin := rfl
@[simp] theorem modAcct_cnt : (modAcct s n f).cnt = s.cnt := rfl
@[simp] theorem modAcct_beacon : (modAcct s n f).beacon = s.beacon := rfl
@[simp] theorem modAcct_out : (modAcct s n f).out = s.out := rfl

end

/-! ## modSlot -/

section
variable (s : State) (k : Nat) (f : Slot → Slot)

@[simp] theorem modSlot_pending : (modSlot s k f).pending = s.pending := rfl
@[simp] theorem modSlot_beat : (modSlot s k f).beat = s.beat := rfl
@[simp] theorem modSlot_rm : (modSlot s k f).rm = s.rm := rfl
@[simp] theorem modSlot_sys : (modSlot s k f).sys = s.sys := rfl
@[simp] theorem modSlot_objs : (modSlot s k f).objs = s.objs := rfl
@[simp] theorem modSlot_held : (modSlot s k f).held = s.held := rfl
@[simp] theorem modSlot_deferred : (modSlot s k f).deferred = s.deferred := rfl
@[simp] theorem modSlot_digObjs : (modSlot s k f).digObjs = s.digObjs := rfl
@[simp] theorem modSlot_digVer : (modSlot s k f).digVer = s.digVer := rfl
@[simp] theorem modSlot_pkts : (modSlot s k f).pkts = s.pkts := rfl
@[simp] theorem modSlot_nextPkt : (modSlot s k f).nextPkt = s.nextPkt := rfl
@[simp] theorem modSlot_ports : (modSlot s k f).ports = s.ports := rfl
@[simp] theorem modSlot_lanes : (modSlot s k f).lanes = s.lanes := rfl
@[simp] theorem modSlot_buf : (modSlot s k f).buf = s.buf := rfl
@[simp] theorem modSlot_mem : (modSlot s k f).mem = s.mem := rfl
@[simp] theorem modSlot_pipes : (modSlot s k f).pipes = s.pipes := rfl
@[simp] theorem modSlot_clusters : (modSlot s k f).clusters = s.clusters := rfl
@[simp] theorem modSlot_tbs : (modSlot s k f).tbs = s.tbs := rfl
@[simp] theorem modSlot_pinsOut : (modSlot s k f).pinsOut = s.pinsOut := rfl
@[simp] theorem modSlot_pinsIn : (modSlot s k f).pinsIn = s.pinsIn := rfl
@[simp] theorem modSlot_cipher : (modSlot s k f).cipher = s.cipher := rfl
@[simp] theorem modSlot_host : (modSlot s k f).host = s.host := rfl
@[simp] theorem modSlot_mabin : (modSlot s k f).mabin = s.mabin := rfl
@[simp] theorem modSlot_cnt : (modSlot s k f).cnt = s.cnt := rfl
@[simp] theorem modSlot_beacon : (modSlot s k f).beacon = s.beacon := rfl
@[simp] theorem modSlot_out : (modSlot s k f).out = s.out := rfl

end

/-! ## modSealed -/

section
variable (s : State) (num : Nat) (f : Sealed → Sealed)

@[simp] theorem modSealed_pending : (modSealed s num f).pending = s.pending := rfl
@[simp] theorem modSealed_beat : (modSealed s num f).beat = s.beat := rfl
@[simp] theorem modSealed_rm : (modSealed s num f).rm = s.rm := rfl
@[simp] theorem modSealed_sys : (modSealed s num f).sys = s.sys := rfl
@[simp] theorem modSealed_objs : (modSealed s num f).objs = s.objs := rfl
@[simp] theorem modSealed_held : (modSealed s num f).held = s.held := rfl
@[simp] theorem modSealed_deferred : (modSealed s num f).deferred = s.deferred := rfl
@[simp] theorem modSealed_digObjs : (modSealed s num f).digObjs = s.digObjs := rfl
@[simp] theorem modSealed_digVer : (modSealed s num f).digVer = s.digVer := rfl
@[simp] theorem modSealed_pkts : (modSealed s num f).pkts = s.pkts := rfl
@[simp] theorem modSealed_nextPkt : (modSealed s num f).nextPkt = s.nextPkt := rfl
@[simp] theorem modSealed_ports : (modSealed s num f).ports = s.ports := rfl
@[simp] theorem modSealed_lanes : (modSealed s num f).lanes = s.lanes := rfl
@[simp] theorem modSealed_buf : (modSealed s num f).buf = s.buf := rfl
@[simp] theorem modSealed_mem : (modSealed s num f).mem = s.mem := rfl
@[simp] theorem modSealed_pipes : (modSealed s num f).pipes = s.pipes := rfl
@[simp] theorem modSealed_clusters : (modSealed s num f).clusters = s.clusters := rfl
@[simp] theorem modSealed_tbs : (modSealed s num f).tbs = s.tbs := rfl
@[simp] theorem modSealed_pinsOut : (modSealed s num f).pinsOut = s.pinsOut := rfl
@[simp] theorem modSealed_pinsIn : (modSealed s num f).pinsIn = s.pinsIn := rfl
@[simp] theorem modSealed_cipher : (modSealed s num f).cipher = s.cipher := rfl
@[simp] theorem modSealed_host : (modSealed s num f).host = s.host := rfl
@[simp] theorem modSealed_mabin : (modSealed s num f).mabin = s.mabin := rfl
@[simp] theorem modSealed_cnt : (modSealed s num f).cnt = s.cnt := rfl
@[simp] theorem modSealed_beacon : (modSealed s num f).beacon = s.beacon := rfl
@[simp] theorem modSealed_out : (modSealed s num f).out = s.out := rfl

end

/-! ## modSupply -/

section
variable (s : State) (m : Nat) (f : Supply → Supply)

@[simp] theorem modSupply_pending : (modSupply s m f).pending = s.pending := rfl
@[simp] theorem modSupply_beat : (modSupply s m f).beat = s.beat := rfl
@[simp] theorem modSupply_rm : (modSupply s m f).rm = s.rm := rfl
@[simp] theorem modSupply_objs : (modSupply s m f).objs = s.objs := rfl
@[simp] theorem modSupply_held : (modSupply s m f).held = s.held := rfl
@[simp] theorem modSupply_deferred : (modSupply s m f).deferred = s.deferred := rfl
@[simp] theorem modSupply_digObjs : (modSupply s m f).digObjs = s.digObjs := rfl
@[simp] theorem modSupply_digVer : (modSupply s m f).digVer = s.digVer := rfl
@[simp] theorem modSupply_ver : (modSupply s m f).ver = s.ver := rfl
@[simp] theorem modSupply_pkts : (modSupply s m f).pkts = s.pkts := rfl
@[simp] theorem modSupply_nextPkt : (modSupply s m f).nextPkt = s.nextPkt := rfl
@[simp] theorem modSupply_ports : (modSupply s m f).ports = s.ports := rfl
@[simp] theorem modSupply_lanes : (modSupply s m f).lanes = s.lanes := rfl
@[simp] theorem modSupply_buf : (modSupply s m f).buf = s.buf := rfl
@[simp] theorem modSupply_mem : (modSupply s m f).mem = s.mem := rfl
@[simp] theorem modSupply_pipes : (modSupply s m f).pipes = s.pipes := rfl
@[simp] theorem modSupply_clusters : (modSupply s m f).clusters = s.clusters := rfl
@[simp] theorem modSupply_tbs : (modSupply s m f).tbs = s.tbs := rfl
@[simp] theorem modSupply_pinsOut : (modSupply s m f).pinsOut = s.pinsOut := rfl
@[simp] theorem modSupply_pinsIn : (modSupply s m f).pinsIn = s.pinsIn := rfl
@[simp] theorem modSupply_cipher : (modSupply s m f).cipher = s.cipher := rfl
@[simp] theorem modSupply_host : (modSupply s m f).host = s.host := rfl
@[simp] theorem modSupply_mabin : (modSupply s m f).mabin = s.mabin := rfl
@[simp] theorem modSupply_cnt : (modSupply s m f).cnt = s.cnt := rfl
@[simp] theorem modSupply_beacon : (modSupply s m f).beacon = s.beacon := rfl
@[simp] theorem modSupply_out : (modSupply s m f).out = s.out := rfl

end

/-! ## modCnt -/

section
variable (s : State) (f : Counters → Counters)

@[simp] theorem modCnt_pending : (modCnt s f).pending = s.pending := rfl
@[simp] theorem modCnt_beat : (modCnt s f).beat = s.beat := rfl
@[simp] theorem modCnt_rm : (modCnt s f).rm = s.rm := rfl
@[simp] theorem modCnt_sys : (modCnt s f).sys = s.sys := rfl
@[simp] theorem modCnt_objs : (modCnt s f).objs = s.objs := rfl
@[simp] theorem modCnt_held : (modCnt s f).held = s.held := rfl
@[simp] theorem modCnt_deferred : (modCnt s f).deferred = s.deferred := rfl
@[simp] theorem modCnt_digObjs : (modCnt s f).digObjs = s.digObjs := rfl
@[simp] theorem modCnt_digVer : (modCnt s f).digVer = s.digVer := rfl
@[simp] theorem modCnt_ver : (modCnt s f).ver = s.ver := rfl
@[simp] theorem modCnt_pkts : (modCnt s f).pkts = s.pkts := rfl
@[simp] theorem modCnt_nextPkt : (modCnt s f).nextPkt = s.nextPkt := rfl
@[simp] theorem modCnt_ports : (modCnt s f).ports = s.ports := rfl
@[simp] theorem modCnt_lanes : (modCnt s f).lanes = s.lanes := rfl
@[simp] theorem modCnt_buf : (modCnt s f).buf = s.buf := rfl
@[simp] theorem modCnt_mem : (modCnt s f).mem = s.mem := rfl
@[simp] theorem modCnt_pipes : (modCnt s f).pipes = s.pipes := rfl
@[simp] theorem modCnt_clusters : (modCnt s f).clusters = s.clusters := rfl
@[simp] theorem modCnt_tbs : (modCnt s f).tbs = s.tbs := rfl
@[simp] theorem modCnt_pinsOut : (modCnt s f).pinsOut = s.pinsOut := rfl
@[simp] theorem modCnt_pinsIn : (modCnt s f).pinsIn = s.pinsIn := rfl
@[simp] theorem modCnt_cipher : (modCnt s f).cipher = s.cipher := rfl
@[simp] theorem modCnt_host : (modCnt s f).host = s.host := rfl
@[simp] theorem modCnt_mabin : (modCnt s f).mabin = s.mabin := rfl
@[simp] theorem modCnt_beacon : (modCnt s f).beacon = s.beacon := rfl
@[simp] theorem modCnt_out : (modCnt s f).out = s.out := rfl

end

/-! ## putDir -/

section
variable (s : State) (a v : Nat)

@[simp] theorem putDir_pending : (putDir s a v).pending = s.pending := rfl
@[simp] theorem putDir_beat : (putDir s a v).beat = s.beat := rfl
@[simp] theorem putDir_rm : (putDir s a v).rm = s.rm := rfl
@[simp] theorem putDir_sys : (putDir s a v).sys = s.sys := rfl
@[simp] theorem putDir_objs : (putDir s a v).objs = s.objs := rfl
@[simp] theorem putDir_held : (putDir s a v).held = s.held := rfl
@[simp] theorem putDir_deferred : (putDir s a v).deferred = s.deferred := rfl
@[simp] theorem putDir_digObjs : (putDir s a v).digObjs = s.digObjs := rfl
@[simp] theorem putDir_digVer : (putDir s a v).digVer = s.digVer := rfl
@[simp] theorem putDir_ver : (putDir s a v).ver = s.ver := rfl
@[simp] theorem putDir_pkts : (putDir s a v).pkts = s.pkts := rfl
@[simp] theorem putDir_nextPkt : (putDir s a v).nextPkt = s.nextPkt := rfl
@[simp] theorem putDir_ports : (putDir s a v).ports = s.ports := rfl
@[simp] theorem putDir_lanes : (putDir s a v).lanes = s.lanes := rfl
@[simp] theorem putDir_buf : (putDir s a v).buf = s.buf := rfl
@[simp] theorem putDir_pipes : (putDir s a v).pipes = s.pipes := rfl
@[simp] theorem putDir_clusters : (putDir s a v).clusters = s.clusters := rfl
@[simp] theorem putDir_tbs : (putDir s a v).tbs = s.tbs := rfl
@[simp] theorem putDir_pinsOut : (putDir s a v).pinsOut = s.pinsOut := rfl
@[simp] theorem putDir_pinsIn : (putDir s a v).pinsIn = s.pinsIn := rfl
@[simp] theorem putDir_cipher : (putDir s a v).cipher = s.cipher := rfl
@[simp] theorem putDir_host : (putDir s a v).host = s.host := rfl
@[simp] theorem putDir_mabin : (putDir s a v).mabin = s.mabin := rfl
@[simp] theorem putDir_cnt : (putDir s a v).cnt = s.cnt := rfl
@[simp] theorem putDir_beacon : (putDir s a v).beacon = s.beacon := rfl
@[simp] theorem putDir_out : (putDir s a v).out = s.out := rfl

end

/-! ## putSlot -/

section
variable (s : State) (a : Nat) (b : Bytes)

@[simp] theorem putSlot_pending : (putSlot s a b).pending = s.pending := rfl
@[simp] theorem putSlot_beat : (putSlot s a b).beat = s.beat := rfl
@[simp] theorem putSlot_rm : (putSlot s a b).rm = s.rm := rfl
@[simp] theorem putSlot_sys : (putSlot s a b).sys = s.sys := rfl
@[simp] theorem putSlot_objs : (putSlot s a b).objs = s.objs := rfl
@[simp] theorem putSlot_held : (putSlot s a b).held = s.held := rfl
@[simp] theorem putSlot_deferred : (putSlot s a b).deferred = s.deferred := rfl
@[simp] theorem putSlot_digObjs : (putSlot s a b).digObjs = s.digObjs := rfl
@[simp] theorem putSlot_digVer : (putSlot s a b).digVer = s.digVer := rfl
@[simp] theorem putSlot_ver : (putSlot s a b).ver = s.ver := rfl
@[simp] theorem putSlot_pkts : (putSlot s a b).pkts = s.pkts := rfl
@[simp] theorem putSlot_nextPkt : (putSlot s a b).nextPkt = s.nextPkt := rfl
@[simp] theorem putSlot_ports : (putSlot s a b).ports = s.ports := rfl
@[simp] theorem putSlot_lanes : (putSlot s a b).lanes = s.lanes := rfl
@[simp] theorem putSlot_buf : (putSlot s a b).buf = s.buf := rfl
@[simp] theorem putSlot_pipes : (putSlot s a b).pipes = s.pipes := rfl
@[simp] theorem putSlot_clusters : (putSlot s a b).clusters = s.clusters := rfl
@[simp] theorem putSlot_tbs : (putSlot s a b).tbs = s.tbs := rfl
@[simp] theorem putSlot_pinsOut : (putSlot s a b).pinsOut = s.pinsOut := rfl
@[simp] theorem putSlot_pinsIn : (putSlot s a b).pinsIn = s.pinsIn := rfl
@[simp] theorem putSlot_cipher : (putSlot s a b).cipher = s.cipher := rfl
@[simp] theorem putSlot_host : (putSlot s a b).host = s.host := rfl
@[simp] theorem putSlot_mabin : (putSlot s a b).mabin = s.mabin := rfl
@[simp] theorem putSlot_cnt : (putSlot s a b).cnt = s.cnt := rfl
@[simp] theorem putSlot_beacon : (putSlot s a b).beacon = s.beacon := rfl
@[simp] theorem putSlot_out : (putSlot s a b).out = s.out := rfl

end

/-! ## putCompanion -/

section
variable (s : State) (a : Nat) (b : Bytes)

@[simp] theorem putCompanion_pending : (putCompanion s a b).pending = s.pending := rfl
@[simp] theorem putCompanion_beat : (putCompanion s a b).beat = s.beat := rfl
@[simp] theorem putCompanion_rm : (putCompanion s a b).rm = s.rm := rfl
@[simp] theorem putCompanion_sys : (putCompanion s a b).sys = s.sys := rfl
@[simp] theorem putCompanion_objs : (putCompanion s a b).objs = s.objs := rfl
@[simp] theorem putCompanion_held : (putCompanion s a b).held = s.held := rfl
@[simp] theorem putCompanion_deferred : (putCompanion s a b).deferred = s.deferred := rfl
@[simp] theorem putCompanion_digObjs : (putCompanion s a b).digObjs = s.digObjs := rfl
@[simp] theorem putCompanion_digVer : (putCompanion s a b).digVer = s.digVer := rfl
@[simp] theorem putCompanion_ver : (putCompanion s a b).ver = s.ver := rfl
@[simp] theorem putCompanion_pkts : (putCompanion s a b).pkts = s.pkts := rfl
@[simp] theorem putCompanion_nextPkt : (putCompanion s a b).nextPkt = s.nextPkt := rfl
@[simp] theorem putCompanion_ports : (putCompanion s a b).ports = s.ports := rfl
@[simp] theorem putCompanion_lanes : (putCompanion s a b).lanes = s.lanes := rfl
@[simp] theorem putCompanion_buf : (putCompanion s a b).buf = s.buf := rfl
@[simp] theorem putCompanion_pipes : (putCompanion s a b).pipes = s.pipes := rfl
@[simp] theorem putCompanion_clusters : (putCompanion s a b).clusters = s.clusters := rfl
@[simp] theorem putCompanion_tbs : (putCompanion s a b).tbs = s.tbs := rfl
@[simp] theorem putCompanion_pinsOut : (putCompanion s a b).pinsOut = s.pinsOut := rfl
@[simp] theorem putCompanion_pinsIn : (putCompanion s a b).pinsIn = s.pinsIn := rfl
@[simp] theorem putCompanion_cipher : (putCompanion s a b).cipher = s.cipher := rfl
@[simp] theorem putCompanion_host : (putCompanion s a b).host = s.host := rfl
@[simp] theorem putCompanion_mabin : (putCompanion s a b).mabin = s.mabin := rfl
@[simp] theorem putCompanion_cnt : (putCompanion s a b).cnt = s.cnt := rfl
@[simp] theorem putCompanion_beacon : (putCompanion s a b).beacon = s.beacon := rfl
@[simp] theorem putCompanion_out : (putCompanion s a b).out = s.out := rfl

end

/-! ## filtered -/

section
variable (s : State) (src tier : Nat) (ms : List (Nat × Nat)) (a : Nat) (cls : Option Nat) (k : Nat)

@[simp] theorem filtered_pending : (filtered s src tier ms a cls k).pending = s.pending := rfl
@[simp] theorem filtered_beat : (filtered s src tier ms a cls k).beat = s.beat := rfl
@[simp] theorem filtered_rm : (filtered s src tier ms a cls k).rm = s.rm := rfl
@[simp] theorem filtered_sys : (filtered s src tier ms a cls k).sys = s.sys := rfl
@[simp] theorem filtered_objs : (filtered s src tier ms a cls k).objs = s.objs := rfl
@[simp] theorem filtered_held : (filtered s src tier ms a cls k).held = s.held := rfl
@[simp] theorem filtered_deferred : (filtered s src tier ms a cls k).deferred = s.deferred := rfl
@[simp] theorem filtered_digObjs : (filtered s src tier ms a cls k).digObjs = s.digObjs := rfl
@[simp] theorem filtered_digVer : (filtered s src tier ms a cls k).digVer = s.digVer := rfl
@[simp] theorem filtered_ver : (filtered s src tier ms a cls k).ver = s.ver := rfl
@[simp] theorem filtered_pkts : (filtered s src tier ms a cls k).pkts = s.pkts := rfl
@[simp] theorem filtered_nextPkt : (filtered s src tier ms a cls k).nextPkt = s.nextPkt := rfl
@[simp] theorem filtered_ports : (filtered s src tier ms a cls k).ports = s.ports := rfl
@[simp] theorem filtered_lanes : (filtered s src tier ms a cls k).lanes = s.lanes := rfl
@[simp] theorem filtered_buf : (filtered s src tier ms a cls k).buf = s.buf := rfl
@[simp] theorem filtered_mem : (filtered s src tier ms a cls k).mem = s.mem := rfl
@[simp] theorem filtered_pipes : (filtered s src tier ms a cls k).pipes = s.pipes := rfl
@[simp] theorem filtered_clusters : (filtered s src tier ms a cls k).clusters = s.clusters := rfl
@[simp] theorem filtered_tbs : (filtered s src tier ms a cls k).tbs = s.tbs := rfl
@[simp] theorem filtered_pinsOut : (filtered s src tier ms a cls k).pinsOut = s.pinsOut := rfl
@[simp] theorem filtered_pinsIn : (filtered s src tier ms a cls k).pinsIn = s.pinsIn := rfl
@[simp] theorem filtered_cipher : (filtered s src tier ms a cls k).cipher = s.cipher := rfl
@[simp] theorem filtered_host : (filtered s src tier ms a cls k).host = s.host := rfl
@[simp] theorem filtered_mabin : (filtered s src tier ms a cls k).mabin = s.mabin := rfl
@[simp] theorem filtered_beacon : (filtered s src tier ms a cls k).beacon = s.beacon := rfl
@[simp] theorem filtered_out : (filtered s src tier ms a cls k).out = s.out := rfl

end

/-! ## emit -/

section
variable (s : State) (o : Output)

@[simp] theorem emit_pending : (emit s o).pending = s.pending := rfl
@[simp] theorem emit_beat : (emit s o).beat = s.beat := rfl
@[simp] theorem emit_rm : (emit s o).rm = s.rm := rfl
@[simp] theorem emit_sys : (emit s o).sys = s.sys := rfl
@[simp] theorem emit_objs : (emit s o).objs = s.objs := rfl
@[simp] theorem emit_held : (emit s o).held = s.held := rfl
@[simp] theorem emit_deferred : (emit s o).deferred = s.deferred := rfl
@[simp] theorem emit_digObjs : (emit s o).digObjs = s.digObjs := rfl
@[simp] theorem emit_digVer : (emit s o).digVer = s.digVer := rfl
@[simp] theorem emit_ver : (emit s o).ver = s.ver := rfl
@[simp] theorem emit_pkts : (emit s o).pkts = s.pkts := rfl
@[simp] theorem emit_nextPkt : (emit s o).nextPkt = s.nextPkt := rfl
@[simp] theorem emit_ports : (emit s o).ports = s.ports := rfl
@[simp] theorem emit_lanes : (emit s o).lanes = s.lanes := rfl
@[simp] theorem emit_buf : (emit s o).buf = s.buf := rfl
@[simp] theorem emit_mem : (emit s o).mem = s.mem := rfl
@[simp] theorem emit_pipes : (emit s o).pipes = s.pipes := rfl
@[simp] theorem emit_clusters : (emit s o).clusters = s.clusters := rfl
@[simp] theorem emit_tbs : (emit s o).tbs = s.tbs := rfl
@[simp] theorem emit_pinsOut : (emit s o).pinsOut = s.pinsOut := rfl
@[simp] theorem emit_pinsIn : (emit s o).pinsIn = s.pinsIn := rfl
@[simp] theorem emit_cipher : (emit s o).cipher = s.cipher := rfl
@[simp] theorem emit_host : (emit s o).host = s.host := rfl
@[simp] theorem emit_mabin : (emit s o).mabin = s.mabin := rfl
@[simp] theorem emit_cnt : (emit s o).cnt = s.cnt := rfl
@[simp] theorem emit_beacon : (emit s o).beacon = s.beacon := rfl

end

/-! ## useFresh -/

section
variable (s : State)

@[simp] theorem useFresh_pending : (useFresh s).pending = s.pending := rfl
@[simp] theorem useFresh_beat : (useFresh s).beat = s.beat := rfl
@[simp] theorem useFresh_rm : (useFresh s).rm = s.rm := rfl
@[simp] theorem useFresh_objs : (useFresh s).objs = s.objs := rfl
@[simp] theorem useFresh_held : (useFresh s).held = s.held := rfl
@[simp] theorem useFresh_deferred : (useFresh s).deferred = s.deferred := rfl
@[simp] theorem useFresh_digObjs : (useFresh s).digObjs = s.digObjs := rfl
@[simp] theorem useFresh_digVer : (useFresh s).digVer = s.digVer := rfl
@[simp] theorem useFresh_ver : (useFresh s).ver = s.ver := rfl
@[simp] theorem useFresh_pkts : (useFresh s).pkts = s.pkts := rfl
@[simp] theorem useFresh_nextPkt : (useFresh s).nextPkt = s.nextPkt := rfl
@[simp] theorem useFresh_ports : (useFresh s).ports = s.ports := rfl
@[simp] theorem useFresh_lanes : (useFresh s).lanes = s.lanes := rfl
@[simp] theorem useFresh_buf : (useFresh s).buf = s.buf := rfl
@[simp] theorem useFresh_mem : (useFresh s).mem = s.mem := rfl
@[simp] theorem useFresh_pipes : (useFresh s).pipes = s.pipes := rfl
@[simp] theorem useFresh_clusters : (useFresh s).clusters = s.clusters := rfl
@[simp] theorem useFresh_tbs : (useFresh s).tbs = s.tbs := rfl
@[simp] theorem useFresh_pinsOut : (useFresh s).pinsOut = s.pinsOut := rfl
@[simp] theorem useFresh_pinsIn : (useFresh s).pinsIn = s.pinsIn := rfl
@[simp] theorem useFresh_cipher : (useFresh s).cipher = s.cipher := rfl
@[simp] theorem useFresh_host : (useFresh s).host = s.host := rfl
@[simp] theorem useFresh_mabin : (useFresh s).mabin = s.mabin := rfl
@[simp] theorem useFresh_cnt : (useFresh s).cnt = s.cnt := rfl
@[simp] theorem useFresh_beacon : (useFresh s).beacon = s.beacon := rfl
@[simp] theorem useFresh_out : (useFresh s).out = s.out := rfl

end

/-! ## Reading what was written -/

@[simp] theorem portAt_modPort (s : State) (n : Nat) (f : Port → Port) :
    portAt (modPort s n f) n = f (portAt s n) := by
  simp [portAt, modPort]

theorem portAt_modPort_ne (s : State) {n j : Nat} (f : Port → Port) (h : j ≠ n) :
    portAt (modPort s n f) j = portAt s j := by
  simp [portAt, modPort, tget_tmod_ne _ _ _ h]

@[simp] theorem laneAt_modLane (s : State) (l : Nat) (f : Lane → Lane) :
    laneAt (modLane s l f) l = f (laneAt s l) := by
  simp [laneAt, modLane]

theorem laneAt_modLane_ne (s : State) {l j : Nat} (f : Lane → Lane) (h : j ≠ l) :
    laneAt (modLane s l f) j = laneAt s j := by
  simp [laneAt, modLane, tget_tmod_ne _ _ _ h]

@[simp] theorem pipeAt_modPipe (s : State) (p : Nat) (f : Pipe → Pipe) :
    pipeAt (modPipe s p f) p = f (pipeAt s p) := by
  simp [pipeAt, modPipe]

theorem pipeAt_modPipe_ne (s : State) {p j : Nat} (f : Pipe → Pipe) (h : j ≠ p) :
    pipeAt (modPipe s p f) j = pipeAt s j := by
  simp [pipeAt, modPipe, tget_tmod_ne _ _ _ h]

@[simp] theorem clusterAt_modCluster (s : State) (c : Nat) (f : Cluster → Cluster) :
    clusterAt (modCluster s c f) c = f (clusterAt s c) := by
  simp [clusterAt, modCluster]

theorem clusterAt_modCluster_ne (s : State) {c j : Nat} (f : Cluster → Cluster) (h : j ≠ c) :
    clusterAt (modCluster s c f) j = clusterAt s j := by
  simp [clusterAt, modCluster, tget_tmod_ne _ _ _ h]

@[simp] theorem tbAt_modTb (s : State) (t : Nat) (f : TimeBase → TimeBase) :
    tbAt (modTb s t f) t = f (tbAt s t) := by
  simp [tbAt, modTb]

theorem tbAt_modTb_ne (s : State) {t j : Nat} (f : TimeBase → TimeBase) (h : j ≠ t) :
    tbAt (modTb s t f) j = tbAt s j := by
  simp [tbAt, modTb, tget_tmod_ne _ _ _ h]

@[simp] theorem ringAt_modRing (s : State) (r : Nat) (f : Ring → Ring) :
    ringAt (modRing s r f) r = f (ringAt s r) := by
  simp [ringAt, modRing]

theorem ringAt_modRing_ne (s : State) {r j : Nat} (f : Ring → Ring) (h : j ≠ r) :
    ringAt (modRing s r f) j = ringAt s j := by
  simp [ringAt, modRing, tget_tmod_ne _ _ _ h]

@[simp] theorem fnAt_modFn (s : State) (n : Nat) (f : Fn → Fn) :
    fnAt (modFn s n f) n = f (fnAt s n) := by
  simp [fnAt, modFn]

theorem fnAt_modFn_ne (s : State) {n j : Nat} (f : Fn → Fn) (h : j ≠ n) :
    fnAt (modFn s n f) j = fnAt s j := by
  simp [fnAt, modFn, tget_tmod_ne _ _ _ h]

@[simp] theorem arbAt_modArb (s : State) (a : Nat) (f : Arb → Arb) :
    arbAt (modArb s a f) a = f (arbAt s a) := by
  simp [arbAt, modArb]

theorem arbAt_modArb_ne (s : State) {a j : Nat} (f : Arb → Arb) (h : j ≠ a) :
    arbAt (modArb s a f) j = arbAt s j := by
  simp [arbAt, modArb, tget_tmod_ne _ _ _ h]

@[simp] theorem nodeAt_modNode (s : State) (k : Nat) (f : Node → Node) :
    nodeAt (modNode s k f) k = f (nodeAt s k) := by
  simp [nodeAt, modNode]

theorem nodeAt_modNode_ne (s : State) {k j : Nat} (f : Node → Node) (h : j ≠ k) :
    nodeAt (modNode s k f) j = nodeAt s j := by
  simp [nodeAt, modNode, tget_tmod_ne _ _ _ h]

@[simp] theorem acctAt_modAcct (s : State) (n : Nat) (f : Acct → Acct) :
    acctAt (modAcct s n f) n = f (acctAt s n) := by
  simp [acctAt, modAcct]

theorem acctAt_modAcct_ne (s : State) {n j : Nat} (f : Acct → Acct) (h : j ≠ n) :
    acctAt (modAcct s n f) j = acctAt s j := by
  simp [acctAt, modAcct, tget_tmod_ne _ _ _ h]

@[simp] theorem queueAt_modQueue (s : State) (q : Nat) (f : List Nat → List Nat) :
    queueAt (modQueue s q f) q = f (queueAt s q) := by
  simp [queueAt, modQueue]

theorem queueAt_modQueue_ne (s : State) {q j : Nat} (f : List Nat → List Nat) (h : j ≠ q) :
    queueAt (modQueue s q f) j = queueAt s j := by
  simp [queueAt, modQueue, tget_tmod_ne _ _ _ h]

@[simp] theorem dirAt_putDir (s : State) (a v : Nat) : dirAt (putDir s a v) a = v := by
  simp [dirAt, putDir]

theorem dirAt_putDir_ne (s : State) {a b : Nat} (v : Nat) (h : b ≠ a) :
    dirAt (putDir s a v) b = dirAt s b := by
  simp [dirAt, putDir, tget_tput_ne _ _ _ _ h]

@[simp] theorem slotBytes_putSlot (s : State) (a : Nat) (b : Bytes) :
    slotBytes (putSlot s a b) a = slice b 0 64 := by
  simp [slotBytes, putSlot]

theorem slotBytes_putSlot_ne (s : State) {a c : Nat} (b : Bytes) (h : c ≠ a) :
    slotBytes (putSlot s a b) c = slotBytes s c := by
  simp [slotBytes, putSlot, tget_tput_ne _ _ _ _ h]

@[simp] theorem companionAt_putCompanion (s : State) (a : Nat) (b : Bytes) :
    companionAt (putCompanion s a b) a = slice b 0 128 := by
  simp [companionAt, putCompanion]

theorem companionAt_putCompanion_ne (s : State) {a c : Nat} (b : Bytes) (h : c ≠ a) :
    companionAt (putCompanion s a b) c = companionAt s c := by
  simp [companionAt, putCompanion, tget_tput_ne _ _ _ _ h]

end Sys2Proof.Machine
end

