-- ==== Sys2Proof/Laws/Memory.lean ====
section
/-! SUPPORT. Every operation on the addressed memories keeps their canonical form. -/

namespace Sys2Proof.Machine

/-- The canonical form of the memories, one table at a time. -/
theorem memory_wf_iff (m : Mem) : Memory.wf m = true ↔
    twf (zeros 64) m.hbm = true ∧ twf (zeros 128) m.companion = true ∧ twf 0 m.bulk = true ∧
      twf 0 m.util = true ∧ twf 0 m.dir = true := by
  simp [Memory.wf, and_assoc]

theorem reset_memory_wf : Memory.wf State.reset.mem = true := rfl

theorem init_memory_wf : Memory.wf Mem.init = true := rfl

theorem putDir_wf {s : State} (h : Memory.wf s.mem = true) (a v : Nat) :
    Memory.wf (putDir s a v).mem = true := by
  rw [memory_wf_iff] at h ⊢
  exact ⟨h.1, h.2.1, h.2.2.1, h.2.2.2.1, twf_tput h.2.2.2.2 a v⟩

theorem putSlot_wf {s : State} (h : Memory.wf s.mem = true) (a : Nat) (b : Bytes) :
    Memory.wf (putSlot s a b).mem = true := by
  rw [memory_wf_iff] at h ⊢
  exact ⟨twf_tput h.1 a _, h.2⟩

theorem writeRaw_wf {s : State} (h : Memory.wf s.mem = true) (a : Nat) (dbl : Bool) (r : Bytes) :
    Memory.wf (writeRaw s a dbl r).mem = true := by
  unfold writeRaw
  split
  · exact putSlot_wf (putSlot_wf h a _) _ _
  · exact putSlot_wf h a r

theorem writeRecordAt_wf {s : State} (h : Memory.wf s.mem = true) (a : Nat) (dbl : Bool)
    (r : Bytes) : Memory.wf (writeRecordAt s a dbl r).mem = true := writeRaw_wf h a dbl _

theorem putCompanion_wf {s : State} (h : Memory.wf s.mem = true) (a : Nat) (b : Bytes) :
    Memory.wf (putCompanion s a b).mem = true := by
  rw [memory_wf_iff] at h ⊢
  exact ⟨h.1, twf_tput h.2.1 a _, h.2.2⟩

theorem putBytes_twf {t : Tbl Byte} (h : twf 0 t = true) (off : Nat) (b : Bytes) :
    twf 0 (putBytes t off b) = true :=
  twf_foldl _ _ (fun _ _ ht => twf_tput ht _ _) h

theorem bulkWrite_wf {m : Mem} (h : Memory.wf m = true) (off : Nat) (b : Bytes) :
    Memory.wf { m with bulk := putBytes m.bulk off b } = true := by
  rw [memory_wf_iff] at h ⊢
  exact ⟨h.1, h.2.1, putBytes_twf h.2.2.1 off b, h.2.2.2⟩

theorem utilWrite_wf {m : Mem} (h : Memory.wf m = true) (off : Nat) (b : Bytes) :
    Memory.wf { m with util := putBytes m.util off b } = true := by
  rw [memory_wf_iff] at h ⊢
  exact ⟨h.1, h.2.1, h.2.2.1, putBytes_twf h.2.2.2.1 off b, h.2.2.2.2⟩

/-- A PIPE reset or a power-down of a pipe. -/
theorem clearShard_wf {s : State} (h : Memory.wf s.mem = true) (p : Nat) :
    Memory.wf (clearShard s p).mem = true := by
  rw [memory_wf_iff] at h ⊢
  exact ⟨twf_tdrop h.1 _ _, h.2.1, h.2.2.1, h.2.2.2.1, twf_tdrop h.2.2.2.2 _ _⟩

theorem clearSearch_wf {s : State} (h : Memory.wf s.mem = true) (p : Nat) :
    Memory.wf (clearSearch s p).mem = true := h

/-- What a SOFT reset keeps of the memories. -/
theorem softMemory_wf {m : Mem} (h : Memory.wf m = true) :
    Memory.wf { Mem.init with companion := m.companion, bulk := m.bulk, util := m.util } = true := by
  rw [memory_wf_iff] at h ⊢
  exact ⟨rfl, h.2.1, h.2.2.1, h.2.2.2.1, rfl⟩

theorem putUnit_wf {s : State} (h : Memory.wf s.mem = true) (n : Nat) (u : TcamUnit) :
    Memory.wf (putUnit s n u).mem = true := h

theorem quarantineList_wf {m : Mem} (h : Memory.wf m = true) (l : List Nat) :
    Memory.wf { m with quarantine := l } = true := h

end Sys2Proof.Machine
end

