-- ==== Sys2Proof/Laws/Messages.lean ====
section
/-! SUPPORT. The length of a tag, and the parts of a message that ends with one (R556, R557). -/

namespace Sys2Proof.Machine

@[simp] theorem bytesOf_length (n v : Nat) : (bytesOf n v).length = n := by
  induction n with
  | zero => rfl
  | succ n ih => simp [bytesOf, ih]

theorem subShift_length (s : List Nat) : (subShift s).length = 16 := by simp [subShift]

theorem aesRounds_length {ks : List (List Nat)} (s : List Nat) (h : ks ≠ [])
    (hk : ∀ k ∈ ks, k.length = 16) : (aesRounds ks s).length = 16 := by
  induction ks generalizing s with
  | nil => exact absurd rfl h
  | cons k ks ih =>
    cases ks with
    | nil => simp [aesRounds, addKey, subShift_length, hk k]
    | cons k' ks =>
      exact ih _ (by simp) fun x hx => hk x (List.mem_cons_of_mem _ hx)

theorem aesKeys_length (key : Bytes) : (aesKeys key).length = key.length / 4 + 7 := by
  simp [aesKeys]

theorem aesKeys_mem {key : Bytes} {k : List Nat} (h : k ∈ aesKeys key) : k.length = 16 := by
  simp only [aesKeys, List.mem_map] at h
  obtain ⟨r, -, rfl⟩ := h
  simp [List.length_flatMap]

theorem aesEncrypt_length (key block : Bytes) : (aesEncrypt key block).length = 16 := by
  have h : (aesKeys key).drop 1 ≠ [] := by
    intro e
    have := congrArg List.length e
    simp [aesKeys_length] at this
  simp only [aesEncrypt, List.length_map]
  exact aesRounds_length _ h fun k hk => aesKeys_mem (List.mem_of_mem_drop hk)

/-- A tag is 16 bytes. -/
theorem gmac_length (key iv aad : Bytes) : (gmac key iv aad).length = 16 := by
  simp [gmac, gcmTag, xorBytes, aesEncrypt_length]

theorem msgSigned_append (m t : Bytes) (h : t.length = 16) : msgSigned (m ++ t) = m := by
  simp [msgSigned, h]

theorem msgTag_append (m t : Bytes) (h : t.length = 16) : msgTag (m ++ t) = t := by
  simp [msgTag, h]

theorem msgBody_append (m t : Bytes) (h : t.length = 16) : msgBody (m ++ t) = m.drop 20 := by
  simp [msgBody, msgSigned_append m t h]

end Sys2Proof.Machine
end

