-- ==== Sys2Proof/Laws/Ops.lean ====
section
/-! SUPPORT. What each shared operation can do, said once: counts, filters, events, leases, rejected
and accepted writes, and the guards of a command. -/

namespace Sys2Proof.Machine

/-! ## Parts that stay -/

theorem same_refl (p : Part) (s : State) : same p s s := by
  cases p <;> simp [same]

theorem same_trans {p : Part} {s t u : State} (h : same p s t) (k : same p t u) : same p s u := by
  cases p <;> simp_all [same]

theorem mem_all (p : Part) : p ∈ Part.all := by
  cases p <;> simp [Part.all]

/-! ## The guards of a command -/

theorem whenRun_running {s : State} (h : s.sys.run = .running) (f : State → State) : whenRun s f = f s := by
  simp [whenRun, show s.sys.run = .running from h]

theorem whenRun_stopped {s : State} (h : s.sys.run ≠ .running) (f : State → State) :
    whenRun s f = s := by
  simp [whenRun, h]

@[simp] theorem guardS_true (s : State) (f : State → State) : guardS true s f = f s := rfl
@[simp] theorem guardS_false (s : State) (f : State → State) : guardS false s f = s := rfl

/-- A guarded command changes nothing or is its effect. -/
theorem guardS_cases (c : Bool) (s : State) (f : State → State) :
    (c = false ∧ guardS c s f = s) ∨ (c = true ∧ guardS c s f = f s) := by
  cases c
  · exact .inl ⟨rfl, rfl⟩
  · exact .inr ⟨rfl, rfl⟩

/-! ## Counts and filters (R578 to R594) -/

theorem same_count {p : Part} (h : p ≠ .counters) (s : State) (n k : Nat) :
    same p s (count s n k) := by
  unfold count
  split
  · exact same_refl p s
  · cases p <;> simp_all [same]

theorem same_countR {p : Part} (h : p ≠ .counters) (s : State) (n k tick : Nat) :
    same p s (countR s n k tick) := by
  unfold countR
  split
  · exact same_refl p s
  · cases p <;> simp_all [same]

theorem same_filtered {p : Part} (h : p ≠ .counters) (s : State) (src tier : Nat)
    (ms : List (Nat × Nat)) (a : Nat) (cls : Option Nat) (k : Nat) :
    same p s (filtered s src tier ms a cls k) := by
  cases p <;> simp_all [same]

/-- A count of k adds k to its counter, modulo the counter's width, and to no other. -/
theorem count_words (s : State) {n k : Nat} (h : k ≠ 0) :
    tget 0 (count s n k).cnt.words n = wordAdd (tget 0 s.cnt.words n) k := by
  simp [count, h, addWord]

theorem count_words_ne (s : State) {n m : Nat} (k : Nat) (h : m ≠ n) :
    tget 0 (count s n k).cnt.words m = tget 0 s.cnt.words m := by
  unfold count
  split
  · rfl
  · simp [addWord, tget_tmod_ne _ _ _ h]

@[simp] theorem count_pending (s : State) (n k : Nat) : (count s n k).pending = s.pending := by
  unfold count; split <;> rfl

@[simp] theorem count_out (s : State) (n k : Nat) : (count s n k).out = s.out := by
  unfold count; split <;> rfl

/-! ## Events and frozen masters (R45, R540, R614, R618) -/

theorem same_logEvent {p : Part} (h : p ≠ .system) (s : State) (e : Event) :
    same p s (logEvent s e) := by
  cases p <;> first | exact absurd rfl h | simp [same, logEvent]

theorem same_queueEvent {p : Part} (h : p ≠ .system) (k : p ≠ .counters) (s : State) (e : Event) :
    same p s (queueEvent s e) := by
  unfold queueEvent
  split
  · cases p <;> first | exact absurd rfl h | simp [same]
  · refine same_trans ?_ (same_count k ..)
    cases p <;> first | exact absurd rfl h | simp [same]

theorem same_notify {p : Part} (h : p ≠ .sessions) (k : p ≠ .counters) (s : State) (n : Nat)
    (x : Session) (b : Bytes) : same p s (notify s n x b) := by
  unfold notify
  dsimp only
  split
  · cases p <;> first | exact absurd rfl h | simp [same]
  · refine same_trans ?_ (same_count k ..)
    cases p <;> first | exact absurd rfl h | simp [same]

/-- A fold of steps that each keep a part keeps it. -/
theorem same_foldl {p : Part} {α : Type} (f : State → α → State) (h : ∀ s a, same p s (f s a))
    (l : List α) (s : State) : same p s (l.foldl f s) := by
  induction l generalizing s with
  | nil => exact same_refl p s
  | cons a l ih => exact same_trans (h s a) (ih (f s a))

theorem same_tellSessions {p : Part} (h : p ≠ .sessions) (k : p ≠ .counters) (s : State) (e : Event) :
    same p s (tellSessions s e) := by
  refine same_foldl _ (fun s x => ?_) _ s
  split
  · exact same_notify h k ..
  · exact same_refl p s

/-- An event touches only the log and the queue, the sessions that it tells, and counts. -/
theorem same_postEvent {p : Part} (hs : p ≠ .system) (hn : p ≠ .sessions) (hc : p ≠ .counters)
    (s : State) (e : Event) : same p s (postEvent s e) := by
  refine same_trans (same_trans ?_ (same_queueEvent hs hc ..)) (same_tellSessions hn hc ..)
  split
  · exact same_logEvent hs ..
  · exact same_refl p s

theorem same_startFreeze {p : Part} (hs : p ≠ .system) (hn : p ≠ .sessions) (hc : p ≠ .counters)
    (s : State) (trigger code : Nat) : same p s (startFreeze s trigger code) := by
  unfold startFreeze
  split
  · refine same_trans (same_postEvent hs hn hc s
      (Event.mk evFreeze trigger s.rm.tick s.beat [code])) ?_
    cases p <;> first | exact absurd rfl hs | simp [same]
  · exact same_refl p s

/-- Raising an event, and the freeze that it may trigger (R614), touch those parts alone. -/
theorem same_raiseAt {p : Part} (hs : p ≠ .system) (hn : p ≠ .sessions) (hc : p ≠ .counters)
    (s : State) (code source tick : Nat) (vs : List Nat) : same p s (raiseAt s code source tick vs) := by
  unfold raiseAt
  dsimp only
  split
  · exact same_trans (same_postEvent hs hn hc s _) (same_startFreeze hs hn hc ..)
  · exact same_postEvent hs hn hc s _

theorem same_raiseEv {p : Part} (hs : p ≠ .system) (hn : p ≠ .sessions) (hc : p ≠ .counters)
    (s : State) (code source : Nat) (vs : List Nat) : same p s (raiseEv s code source vs) :=
  same_raiseAt hs hn hc ..

theorem same_freezeMaster {p : Part} (hs : p ≠ .system) (hn : p ≠ .sessions) (hc : p ≠ .counters)
    (s : State) (type cls num : Nat) : same p s (freezeMaster s type cls num) := by
  unfold freezeMaster
  dsimp only
  split
  · exact same_refl p s
  · refine same_trans ?_ (same_raiseEv hs hn hc ..)
    cases p <;> first | exact absurd rfl hs | simp [same]

theorem same_releaseMaster {p : Part} (hs : p ≠ .system) (hn : p ≠ .sessions) (hc : p ≠ .counters)
    (s : State) (type cls num : Nat) : same p s (releaseMaster s type cls num) := by
  refine same_trans ?_ (same_raiseEv hs hn hc ..)
  cases p <;> first | exact absurd rfl hs | simp [same]

/-! ## Leases and rejected writes (R546, R558, R570) -/

/-- A renewal moves nothing but the expiry of the lock. -/
theorem renewLease_cases (s : State) (who : Nat) :
    renewLease s who = s ∨ (s.mabin.holder = some who ∧ s.beat < s.mabin.expires ∧
      renewLease s who = { s with mabin := { s.mabin with expires := leaseEnd s } }) := by
  by_cases h : (decide (s.mabin.holder = some who) && !due s s.mabin.expires) = true
  · refine .inr ⟨?_, ?_, if_pos h⟩
    · simp only [Bool.and_eq_true, decide_eq_true_eq] at h
      exact h.1
    · simp only [due, Bool.and_eq_true, Bool.not_eq_true', decide_eq_false_iff_not] at h
      omega
  · exact .inl (if_neg h)

theorem same_expires {p : Part} (h : p ≠ .lock) (s : State) (n : Nat) :
    same p s { s with mabin := { s.mabin with expires := n } } := by
  cases p <;> first | exact absurd rfl h | simp [same]

theorem same_renewLease {p : Part} (h : p ≠ .lock) (s : State) (who : Nat) :
    same p s (renewLease s who) := by
  rcases renewLease_cases s who with e | ⟨-, -, e⟩
  · exact e.symm ▸ same_refl p s
  · exact e.symm ▸ same_expires h s (leaseEnd s)

theorem same_rejectWrite {p : Part} (h : p ≠ .reject) (h' : p ≠ .counters) (s : State) (src : Origin)
    (idx sub err : Nat) : same p s (rejectWrite s src idx sub err) := by
  unfold rejectWrite
  cases src with
  | sess n => exact same_filtered h' ..
  | bar =>
    dsimp only
    split
    · exact same_refl p s
    · cases p <;> simp_all [same]

/-! ## Writes of objects (R546 to R552) -/

/-- A write that the object table refuses has no effect beyond the lease, the reject record and the
filters. -/
theorem writeBy_rejected {p : Part} (hl : p ≠ .lock) (hr : p ≠ .reject) (hc : p ≠ .counters)
    {s : State} {src : Origin} {idx sub row : Nat} {v : Bytes} (eff : State → Option State)
    (h : writeError (renewLease s (originNum src)) src idx sub row v ≠ 0) :
    same p s (writeBy s src idx sub row v eff) := by
  unfold writeBy
  split
  · exact same_refl p s
  · simp only [h, if_false]
    exact same_trans (same_renewLease hl s _) (same_rejectWrite hr hc ..)

/-- An accepted write is its effect on the state with the lease renewed, and a count of the filters. -/
theorem writeCmd_accepted {s t : State} {src : Origin} {idx sub row : Nat} {v : Bytes}
    {eff : State → Option State} (run : s.sys.run = .running) (here : (tierOf s src).isSome = true)
    (fine : writeError (renewLease s (originNum src)) src idx sub row v = 0)
    (h : eff (renewLease s (originNum src)) = some t) :
    ∃ tier, writeCmd s src idx sub row v eff =
      filtered t 2 tier (originMasters src) (idx * 256 + sub) none 1 := by
  refine ⟨(tierOf (renewLease s (originNum src)) src).getD 0, ?_⟩
  rw [writeCmd, whenRun_running run, writeBy]
  have : (tierOf s src).isNone = false := by
    cases hx : tierOf s src <;> simp_all
  simp only [this, fine, h, if_true, Bool.false_eq_true, if_false]

/-! ## The queue -/

/-- Nothing waits: the block idles (log entry 3). -/
theorem step_empty {s : State} (h : s.pending = []) : step s = .next s := by
  simp [step, h]

end Sys2Proof.Machine
end

