-- ==== Sys2Proof/Laws/Ticks.lean ====
section
/-! SUPPORT. A beat at which no boundary, commit or reset is due: the commands act on the state as it is. -/

namespace Sys2Proof.Machine

/-- The part runs, and nothing is due before the commands of this beat. -/
def calm (s : State) : Bool :=
  s.sys.run == .running && !boundaryDue s && s.ver.committedAt.isNone && s.sys.softAt.isNone
    && s.sys.pipeAt.isEmpty

theorem pastBoundary_self {s : State} (h : boundaryDue s = false) : pastBoundary s = s := by
  simp [pastBoundary, whenRun, boundaryFirst, lastRestart, mayRestart, h]

theorem pastCommit_self {s : State} (h : boundaryDue s = false) (hv : s.ver.committedAt = none) :
    pastCommit s = s := by
  simp [pastCommit, pastBoundary_self h, whenRun, commitDueVersion, hv]

theorem pastSoft_self {s : State} (h : boundaryDue s = false) (hv : s.ver.committedAt = none)
    (hs : s.sys.softAt = none) : pastSoft s = s := by
  simp [pastSoft, pastCommit_self h hv, whenRun, dueSoft, hs]

theorem settled_self {s : State} (h : boundaryDue s = false) (hv : s.ver.committedAt = none)
    (hs : s.sys.softAt = none) (hp : s.sys.pipeAt = []) : settled s = s := by
  simp [settled, pastSoft_self h hv hs, whenRun, duePipes, hp]

theorem running_of_calm {s : State} (h : calm s = true) : Running s := by
  simp only [calm, Bool.and_eq_true, beq_iff_eq, Bool.not_eq_true', Option.isNone_iff_eq_none,
    List.isEmpty_iff] at h
  obtain ⟨⟨⟨⟨a, b⟩, c⟩, d⟩, e⟩ := h
  exact ⟨a, settled_self b c d e⟩

end Sys2Proof.Machine
end

