-- ==== Sys2Proof/Machine/Readout.lean ====
section
/-! DEFINITION. What leaves the part on a read that changes nothing: BAR reads of the host (R12, R511 to R513,
R521, R551) and the readout of a frozen part by JTAG and the debug access port (R617). The table has no
rows for these reads. -/

namespace Sys2Proof.Machine

/-! ## BAR reads (R12, R512, R513, R521, R551) -/

/-- The word that eight bytes make, the first of them its low byte. -/
def leWord (b : Bytes) : Nat := natOf b.reverse

/-- The local session may read the object (R512, R552). -/
def barMayRead (s : State) (r : ObjRow) : Bool :=
  match r.acc with
  | .wo => false
  | .ro => decide (r.tier ≤ (tierOf s .bar).getD 0)
  | _ => true

/-- Present rows of a table (R513). -/
def rowCount (s : State) (r : ObjRow) (idx : Nat) : Nat :=
  ((List.range r.rows).filter fun i => hasRow r idx i && readValue s r idx i != []).length

/-- BAR0 of the physical function: the word of an object; zero where there is none (R512, R551). -/
def barWordAt (s : State) (off : Nat) : Nat :=
  let idx := off / 0x800
  let sub := off % 0x800 / 8
  match lookupObj idx sub with
  | none => 0
  | some r =>
    if !barMayRead s r then 0
    else if r.kind = 9 then rowCount s r idx
    else
      let v := readValue s r idx noRow
      if r.kind = 8 then v.length
      else if r.kind = 6 && bit (natOf v) 31 then 2 ^ 64 - 2 ^ 32 + natOf v
      else natOf v

/-- BAR2 of the physical function: a word of a row; zeros where the row is not present (R12, R513). -/
def barTableAt (s : State) (off : Nat) : Nat :=
  match barPlace off with
  | none => 0
  | some (idx, r, row, word) =>
    if !barMayRead s r then 0
    else
      let v := readValue s r idx (if r.kind = 9 then row else noRow)
      leWord (slice (fromBar (barUnit idx r) v) (8 * word) 8)

/-- The ring of a doorbell word (R521). -/
def doorbellRing (off : Nat) : Option Nat :=
  if off < 0x8000 then some (off / 8)
  else if off < 0x10000 then some (txRing ((off - 0x8000) / 8))
  else if off < 0x10040 then some (cmdRing ((off - 0x10000) / 8))
  else if off < 0x10080 then some (cplRing ((off - 0x10040) / 8))
  else if off = 0x10080 then some dumpRing
  else if off = 0x10088 then some eventRing
  else none

/-- BAR4: the consumer count and the producer count last accepted (R521), and the MSI-X table of the function's
vectors (R511); a vector is sent when it is signalled, so none pends. -/
def doorbellAt (s : State) (fn off : Nat) : Nat :=
  match doorbellRing off with
  | some r => (ringAt s r).cons % 2 ^ 32 * 2 ^ 32 + (ringAt s r).prod % 2 ^ 32
  | none =>
    if off < 0x20000 || 0x30000 ≤ off then 0
    else match msixWord s fn off with
      | some w => tget 0 s.host.msix w
      | none => 0

/-- The part serves a read of a BAR: in a stopped boot only the identity objects, `reset.boot.status` and
`reset.boot.image` in BAR0 (R608); in reset and frozen none. -/
def barServes (s : State) (fn bar off : Nat) : Bool :=
  match s.sys.run with
  | .running => true
  | .bootStopped =>
    fn == 0 && bar == 0 && (off / 0x800 == 0x1000
      || (off / 0x800 == 0x9000 && (off % 0x800 / 8 == 3 || off % 0x800 / 8 == 4)))
  | _ => false

/-- The word that a BAR read returns. A virtual function's BAR0 holds its own `pool.req`, which reads as
zero, and `pool.resp` (R511). -/
def barReadWord (s : State) (fn bar off : Nat) : Nat :=
  if !barServes s fn bar off then 0
  else if bar = 4 then doorbellAt s fn off
  else if fn = 0 then (if bar = 0 then barWordAt s off else if bar = 2 then barTableAt s off else 0)
  else if bar = 0 && off = 8 then tget 0 (pools s).resp fn
  else 0

/-! ## Readout of a frozen part (R617) -/

/-- JTAG gives IDCODE at any time (R617; its value stands with the pins of chapter 20). -/
def jtagIdcode : Nat := 0xB6412A3D

/-- Byte i of a value; zero beyond its end. -/
def byteOr (b : Bytes) (i : Nat) : Byte := b.getD i 0

/-- A byte of HBM by its logical offset (R213). -/
def hbmByte (s : State) (a : Nat) : Byte :=
  if a < 2 ^ 33 then byteOr (tget [] s.mem.hbm (a / 64)) (a % 64)
  else if a < 6 * 2 ^ 32 then
    byteOr (tget [] s.mem.companion ((a - 2 ^ 33) / 128)) ((a - 2 ^ 33) % 128)
  else tget 0 s.mem.bulk (a - 6 * 2 ^ 32)

/-- A byte of the control stores: cluster by cluster, side by side, word by word (log entry 135). -/
def storeByte (s : State) (a : Nat) : Byte :=
  byteOr (bytesOf 32 (tget 0 (clusterAt s (a / 2 ^ 18)).words (a % 2 ^ 18 / 32))) (a % 32)

/-- A byte of the cluster tables: cluster by cluster, physical page by page. -/
def tableByte (s : State) (a : Nat) : Byte :=
  byteOr (tget [] (clusterAt s (a / 2 ^ 19)).pages (a % 2 ^ 19 / 256)) (a % 256)

/-- What the debug access port answers: nothing outside a freeze, nor outside the map of R617. Memory whose
layout the map does not give shows a value that the manual leaves open. The key store and the Mabin session
slots lie outside the map. -/
def debugRead (s : State) (a : Nat) : Option Byte :=
  if s.sys.run ≠ .frozen then none
  else if a < 0x08000000 then some (BitVec.ofNat 8 (tget 0 s.mem.dir a))
  else if 0x0E000000 ≤ a && a < 0x0F000000 then some (storeByte s (a - 0x0E000000))
  else if 0x0F000000 ≤ a && a < 0x11000000 then some (tableByte s (a - 0x0F000000))
  else if 0x11C00000 ≤ a && a < 0x12C00000 then some (tget 0 s.mem.util (a - 0x11C00000))
  else if a < 0x14800000 then some (Config.debugByte s.beat a)
  else if 0x1000000000 ≤ a && a < 0x1000000000 + 48 * 2 ^ 30 then some (hbmByte s (a - 0x1000000000))
  else none

end Sys2Proof.Machine
end

