-- ==== Sys2Proof/Tests/Slice0.lean ====
section
/-! SUPPORT. Small tests of the commands, and a witness for the hypotheses of every statement: theorem
witness_<Statement> shows, clause by clause, concrete states and operands that meet them. -/

namespace Sys2Proof.Tests

open Host Sys2Proof Sys2Proof.Machine

set_option Elab.async false

/-! ## Small states -/

def base : State := State.reset

def runAs (r : RunState) : State := { base with sys := { base.sys with run := r } }

def atBeat (b : Nat) (s : State) : State := { s with beat := b }

/-- Beat b, and the next boundary in the beat after. -/
def lateBeat (b : Nat) (s : State) : State :=
  { s with beat := b, rm := { s.rm with b0 := b + 1 } }

/-- Node n in port state st, with a timer. -/
def portIn (n st : Nat) (t : PortTimer) : State :=
  modPort base n fun p => { p with state := st, timer := t, mode := 2 }

/-- Every pipe at home beat h. -/
def pipesAt (h : Nat) (s : State) : State :=
  (List.range 8).foldl (fun s p => modPipe s p fun k => { k with h := h }) s

/-- Ring r in a state, with a row of 2^size elements or bytes, and requester i holding the DMA arbiter. -/
def withRing (r st size i : Nat) (s : State) : State :=
  let row := putNat (zeros 32) 8 8 (2 ^ 63 + size * 2 ^ 56 + 5 * 2 ^ 8)
  let s := setRw s 0x8100 (ringPlace r).1 (ringPlace r).2 row
  modArb (modRing s r fun x => { x with state := st }) arbDma fun a =>
    { a with holder := some (i, 0, 0) }

def session : Session :=
  { tier := 3, minor := 2, path := .mgmtUdp, cred := 1, key := zeros 32, rxHigh := 0, rxSeen := [],
    txCtr := 1, lastBeat := 0, frozen := false, subs := [], notifyQ := [], notifySeq := 0,
    block := none, held := [], codes := 0 }

def withSession (n : Nat) (x : Session) (s : State) : State :=
  { s with mabin := { s.mabin with sessions := tins s.mabin.sessions n x } }

def sealed (num : Nat) (slot : Option Nat) : Sealed :=
  { ver := { VerCfg.zero with num := num }, target := 5, sealNext := 0, slot := slot,
    reserveNext := 0, causes := 0, prep := [], doneTick := none }

def withPending (q : Sealed) (s : State) : State :=
  { s with ver := { s.ver with pending := [q] } }

def withTodo (w : Nat) (s : State) : State := { s with rm := { s.rm with todo := [w] } }

def snapshot : Snapshot :=
  { tick := 1, beat := 0, seq := 0, version := 0, keep := false, words := [], line := [], filtered := [],
    entries := [], police := [], withEntries := false }

theorem pair_of_map {α β : Type} {x : Option (α × β)} {b : β} (h : x.map Prod.snd = some b) :
    ∃ u, x = some (u, b) := by
  obtain _ | ⟨u, b⟩ := x
  · cases h
  · exact ⟨u, by simp_all⟩

/-- A choice that has a property, and with which a function answers b beside its state. -/
theorem choice_of_map {α β γ : Type} {x : Option α} {p : α → Bool} {f : α → Option (β × γ)} {b : γ}
    (h : (x.map fun a => (p a, (f a).map Prod.snd)) = some (true, some b)) :
    ∃ a u, x = some a ∧ p a = true ∧ f a = some (u, b) := by
  obtain _ | a := x
  · cases h
  · simp only [Option.map_some, Option.some.injEq, Prod.mk.injEq] at h
    obtain ⟨u, hu⟩ := pair_of_map h.2
    exact ⟨a, u, rfl, h.1, hu⟩

/-- Node n with an object at a value, in force. -/
def portObj (n sub : Nat) (v : Bytes) (s : State) : State :=
  { setRw s (0x3100 + n) sub noRow v with held := [] }

/-- A packet of 64 bytes that came in at node 0, whole. -/
def pkt : Pkt :=
  { id := 1, node := 0, cls := 0, vslot := 0, vnum := 0, bytes := zeros 64, full := zeros 192, inBeat := 0,
    tailBeat := 0, tick := 0, stampBeat := 0, stampNs := 0, stampFrac := 0, stampTb := 0, stampValid := false,
    vec := zeros 192, exc := [], excWord := 0, policy := 0, tailDone := true, bad := 0,
    dec := { Decision.none with kind := 2 }, policer := none, colour := 0, search := none, lateStart := false, mirror := none, given := 0,
    hits := [], cells := 1, stage := .admitted, due := 0, holds := false, flow := FlowPart.none,
    out := OutPart.none, tx := none }

def withPkt (k : Pkt) (s : State) : State := { s with pkts := [k] }

/-- A Renset image with one section. -/
def image (t : Nat) (body : Bytes) : Bytes :=
  zeros 26 ++ [0, 1] ++ zeros 100 ++ bytesOf 2 t ++ [0, 0] ++ bytesOf 4 144
    ++ bytesOf 4 body.length ++ zeros 4 ++ body

def withVersion (v : VerCfg) (s : State) : State :=
  { s with ver := { s.ver with slots := s.ver.slots.set 0 { state := .current, ver := v } } }

def withImage (raw : Bytes) : State :=
  withVersion { VerCfg.zero with images := [{ clusters := 2 ^ 64 - 1, raw := raw }] } base

/-- Pipe p executes home beat H, at which the position of home beat 0 is due. -/
def dueState (p : Nat) (w : Work) (status : Nat) (s : State) : State :=
  atBeat 5000 (modPipe s p fun k => { k with
    h := horizon s, pos := [{ Pos.init with work := w, status := status }] })

theorem ok_of_isSome {ε α : Type} {x : Except ε α} (h : x.toOption.isSome = true) :
    ∃ v, x = .ok v := by
  obtain e | v := x
  · cases h
  · exact ⟨v, rfl⟩

theorem commitRuns_of {s : State} {p : Nat} {q : Pos}
    (a : calm s = true ∧ duePos s p (pipeAt s p).h = some q ∧ q.done = false ∧
      passedNow s p = 0 ∧ homeReady s p = true)
    (b : (homeTry s p (pipeAt s p).h none).toOption.isSome = true)
    (c : (commitStep s p q (pipeAt s p).h none).toOption.isSome = true) :
    ∃ u, CommitRuns s p q u := by
  obtain ⟨a1, a2, a3, a4, a5⟩ := a
  obtain ⟨⟨u, x⟩, hu⟩ := ok_of_isSome c
  exact ⟨u, running_of_calm a1, a2, a3, a4, a5, ok_of_isSome b, x, hu⟩

/-- The whole host memory is one window of function f. -/
def windowed (f : Nat) (s : State) : State :=
  { s with objs := putCfg s.objs (0x8010 + f) 1 0 (bytesOf 8 0 ++ bytesOf 8 64) }

/-! ## Witnesses: resets, supply, freeze -/

theorem witness_PowerAndChipResetsLoseState :
    base.sys.run ≠ .supplyHeld ∧ (runAs .frozen).sys.run ≠ .supplyHeld ∧ 0 < 3 ∧ 2 < 3 := by decide

theorem witness_BootEndsInService :
    ((runAs .inReset).sys.run = .inReset ∧ Unarmed (runAs .inReset) 0x0023) ∧
    ((runAs .bootStopped).sys.run = .bootStopped ∧
      ({ (runAs .bootStopped).sys with bootStatus := 6 }).bootStatus = 6) ∧
    (runAs .supplyHeld).sys.run = .supplyHeld := by
  dsimp only [Unarmed]; decide +kernel

/-- A CHIP reset, a SOFT reset and a PIPE reset that beat 0 asked for; the latter two at a boundary that
has passed in their beat. -/
def chipWaits (b : Nat) : State :=
  { base with sys := { base.sys with chipAt := some 0 }, beat := b }

def softWaits : State :=
  { lateBeat (2 ^ 20) base with
    sys := { base.sys with softAt := some 0 }, rm := { base.rm with boundaryBeat := 2 ^ 20, b0 := 2 ^ 20 + 1 } }

def pipeWaits (p : Nat) : State :=
  { softWaits with sys := { base.sys with pipeAt := [(p, 0)] } }

theorem witness_ResetCommandsWait :
    MayWrite base .bar 0x9000 1 noRow (bytesOf 4 (resetWord 1 0)) ∧
    MayWrite base .bar 0x9000 1 noRow (bytesOf 4 (resetWord 2 0)) ∧
    (7 < 8 ∧ MayWrite base .bar 0x9000 1 noRow (bytesOf 4 (resetWord 3 7))) ∧
    (129 < 130 ∧ MayWrite base .bar 0x9000 1 noRow (bytesOf 4 (resetWord 4 129))) ∧
    base.sys.chipAt.getD base.beat = 0 ∧
    (Running (chipWaits 9999) ∧ (endOfBeat (chipWaits 9999)).sys.run = .running ∧
      (chipWaits 9999).sys.chipAt = some 0 ∧ 0 + 10000 = (chipWaits 9999).beat + 1) ∧
    (softWaits.sys.run = .running ∧ pastCommit softWaits = softWaits ∧
      softWaits.sys.softAt = some 0 ∧ resetDue softWaits 0 = true ∧ softWaits.sys.soft = false) ∧
    ((pipeWaits 7).sys.run = .running ∧ pastSoft (pipeWaits 7) = pipeWaits 7 ∧
      tfind (pipeWaits 7).sys.pipeAt 7 = some 0 ∧ resetDue (pipeWaits 7) 0 = true ∧
      (pipeAt (pipeWaits 7) 7).resetting = false ∧ (pipeAt (pipeWaits 7) 7).power = 0) ∧
    ({ base with sys := { base.sys with soon := [.portReset 129] } }).sys.soon = [.portReset 129] := by
  dsimp only [MayWrite, Running]; decide +kernel

theorem witness_SoftResetDiscardsAndRestarts :
    (softWaits.sys.run = .running ∧ pastCommit softWaits = softWaits ∧
      softWaits.sys.softAt = some 0 ∧ resetDue softWaits 0 = true ∧ softWaits.sys.soft = false) ∧
    (let s := { atBeat 312500 base with sys := { base.sys with soft := true, softBeat := 0 } }
     s.sys.run = .running ∧ s.sys.soft = true ∧ s.sys.softBeat < s.beat ∧ boundaryDue s = true) := by
  decide +kernel

def pipeResets (p : Nat) : State := modPipe base p fun k => { k with resetting := true }

theorem witness_PipeAndFunctionResets :
    ((pipeWaits 7).sys.run = .running ∧ pastSoft (pipeWaits 7) = pipeWaits 7 ∧ 7 < 8 ∧ tfind (pipeWaits 7).sys.pipeAt 7 = some 0 ∧
      resetDue (pipeWaits 7) 0 = true ∧ (pipeAt (pipeWaits 7) 7).resetting = false ∧
      (pipeAt (pipeWaits 7) 7).power = 0) ∧
    (Running (pipeResets 7) ∧ 7 < 8 ∧ (pipeAt (pipeResets 7) 7).resetting = true) ∧
    (Running base ∧ 0 < 1 ∧ 1 < 64) ∧ (Running base ∧ 0 < 63 ∧ 63 < 64 ∧ base.pkts = []) ∧
    (Running (setRw base 0x8100 1 4095 (putNat (zeros 32) 24 8 63)) ∧
      ringOwner (setRw base 0x8100 1 4095 (putNat (zeros 32) 24 8 63)) 4095 = 63) := by
  dsimp only [Running]; decide +kernel

def warned : State :=
  lateBeat 1250000 { base with sys := { base.sys with warnSince := some 0, supplies :=
    [Supply.init, Supply.init, { Supply.init with state := 1 }] } }

theorem witness_SupplyWarningsAndFreezes :
    (settled base = base ∧ 2 < 3 ∧ 2 < base.sys.supplies.length ∧ (supplyAt base 2).state = 0) ∧
    (settled warned = warned ∧ 2 < 3 ∧ 2 < warned.sys.supplies.length ∧ (supplyAt warned 2).state ≠ 0) ∧
    (Running warned ∧ warned.sys.warnSince = some 0 ∧ warned.sys.dipAt + 1250000 ≤ warned.beat) ∧
    Running base ∧ MayWrite base .bar 0x9020 1 noRow [1] ∧ (runAs .frozen).sys.run = .frozen := by
  dsimp only [Running, MayWrite]; decide +kernel

/-! ## Witnesses: beats, ticks, versions, records -/

/-- The lock's lease ends, and the armed event of it freezes the part (R614). -/
def freezing : State :=
  { setRw base 0x9020 2 0 (bytesOf 2 evLockExpired) with
    held := [], mabin := { base.mabin with holder := some 3, expires := 0 } }

theorem witness_BeatAdvances :
    (Running base ∧ (endOfBeat base).sys.run = .running ∧ base.sys.chipAt = none) ∧
    (Running (lateBeat (2 ^ 64 - 1) base) ∧ (endOfBeat (lateBeat (2 ^ 64 - 1) base)).sys.run = .running ∧
      (lateBeat (2 ^ 64 - 1) base).sys.chipAt = none) ∧
    (Running (chipWaits 9999) ∧ (endOfBeat (chipWaits 9999)).sys.run = .running ∧
      (chipWaits 9999).sys.chipAt = some 0 ∧ (chipWaits 9999).beat + 1 < 2 ^ 64 ∧
      0 + 10000 ≤ (chipWaits 9999).beat + 1) ∧
    (Running freezing ∧ (endOfBeat freezing).sys.run ≠ .running) := by
  dsimp only [Running]; decide +kernel

theorem witness_TickBoundaryNumbersTheTick :
    ((atBeat 312500 base).sys.run = .running ∧ boundaryDue (atBeat 312500 base) = true ∧
      (atBeat 312500 base).sys.soft = false) ∧
    boundaryDue (atBeat 312499 base) = false := by decide +kernel

def committing : State :=
  let s := withPending (sealed 1 (some 3)) base
  { s with ver := { s.ver with committedAt := some 1 } }

def draining : State :=
  { base with ver := { base.ver with slots := base.ver.slots.set 3 { Slot.zero with state := .draining } } }

theorem witness_VersionLifeCycle :
    (Running (withPending (sealed 1 none) base) ∧ base.ver.slots.length = 4 ∧
      (withPending (sealed 1 none) base).ver.pending.find? (fun q => q.slot.isNone)
        = some (sealed 1 none) ∧
      (List.range 4).find? (fun k => (slotAt (withPending (sealed 1 none) base) k).state == .free)
        = some 1 ∧
      reserveConflict (withPending (sealed 1 none) base) (sealed 1 none) 1 = false) ∧
    (committing.sys.run = .running ∧ pastBoundary committing = committing ∧ committing.ver.slots.length = 4 ∧ 3 < 4 ∧
      committing.ver.committedAt = some 1 ∧
      committing.ver.pending.find? (fun q => q.ver.num == 1) = some (sealed 1 (some 3)) ∧
      (sealed 1 (some 3)).slot = some 3 ∧ 3 ≠ committing.ver.current ∧ committing.ver.current < 4) ∧
    (Running draining ∧ 3 < 4 ∧ (slotAt draining 3).state = .draining ∧ holders draining 3 = 0) ∧
    (65535 < 2 ^ 16 ∧ MayWrite (withPending (sealed 65535 none) base) .bar 0x1400 6 noRow
        (bytesOf 2 65535) ∧
      (withPending (sealed 65535 none) base).ver.pending.getLast? = some (sealed 65535 none) ∧
      (sealed 65535 none).ver.num = 65535) := by
  dsimp only [Running, MayWrite]; decide +kernel

def watching : State :=
  withTodo (todoNotify 15) (withSession 15 { session with subs :=
    [{ kind := 2, a := 0x8820 * 256 + 1, b := 1, last := none }] } base)

def dumping : State := { base with cnt := { base.cnt with taken := some snapshot } }

/-- The boundary of tick 1 is due, every period is 1, and session 15 subscribes to an object. -/
def atBoundary : State :=
  let s := { base with objs := putCfg (putCfg (putCfg base.objs 0x1500 4 noRow [0, 0, 0, 1]) 0x8820 1 noRow [0, 1])
                         0x5800 8 noRow [0, 0, 0, 1] }
  atBeat 312500 (withSession 15 { session with subs :=
    [{ kind := 2, a := 0x8820 * 256 + 1, b := 1, last := none }] } s)

theorem atBoundary_is : AtBoundary atBoundary (settled atBoundary) := by
  refine ⟨?_, ?_, ?_, ?_, rfl, ?_⟩ <;> decide +kernel

theorem witness_AtBoundary :
    onPeriod (settled atBoundary) (rw (settled atBoundary) 0x1500 4) = true ∧
    onPeriod (settled atBoundary) (rw (settled atBoundary) 0x8820 1) = true ∧
    onPeriod (settled atBoundary) (rw (settled atBoundary) 0x5800 8) = true ∧
    ∃ x b, sessionAt (settled atBoundary) 15 = some x ∧ x.subs = [b] ∧
      subDue (settled atBoundary) b = true ∧ b.last = none ∧
      (lookupObj (b.a / 256) (b.a % 256)).isSome = true := by
  refine ⟨?_, ?_, ?_, { session with subs :=
    [{ kind := 2, a := 0x8820 * 256 + 1, b := 1, last := none }] },
    { kind := 2, a := 0x8820 * 256 + 1, b := 1, last := none }, ?_⟩ <;> decide +kernel

/-- A cluster whose image lists one entry has room for its task. -/
theorem witness_exportBuilds :
    let s := withTodo todoIdle (withImage (image 7 (zeros 8)))
    Running s ∧ bit (maskClusters (homeMask s)) 63 = true ∧
      clusterImage (curVer s) 63 = some (image 7 (zeros 8)) ∧ (clusterAt s 63).idleQ.length ≤ 49 ∧
      (exportBuilds (image 7 (zeros 8))).length = 1 := by
  dsimp only [Running]; decide +kernel

theorem witness_BoundaryWorkIsDoneOnce :
    (Running (withTodo todoBeacon base) ∧
      (withTodo todoBeacon base).rm.todo.contains todoBeacon = true) ∧
    (Running dumping ∧ dumping.cnt.taken = some snapshot) ∧
    (Running (withTodo todoIdle base) ∧ (withTodo todoIdle base).rm.todo.contains todoIdle = true) ∧
    (Running watching ∧ watching.rm.todo.contains (todoNotify 15) = true ∧
      ∃ x b, sessionAt watching 15 = some x ∧ x.subs = [b] ∧ subDue watching b = true ∧
        b.last = none ∧ (lookupObj (b.a / 256) (b.a % 256)).isSome = true) := by
  refine ⟨?_, ?_, ?_, ?_, ?_, { session with subs :=
    [{ kind := 2, a := 0x8820 * 256 + 1, b := 1, last := none }] },
    { kind := 2, a := 0x8820 * 256 + 1, b := 1, last := none }, ?_⟩ <;>
  (try dsimp only [Running]) <;> decide +kernel

def eventState : State := withRing eventRing 1 6 8193 base

def dumpState : State :=
  withRing dumpRing 1 17 8192 (pipesAt 1000000
    { base with cnt := { base.cnt with snapshots := [snapshot] } })

/-- A record waits in domain 0, and the collector is behind port 0. -/
def exportState : State :=
  modPipe { setRw base 0x5060 2 noRow [1] with held := [] } 0 fun k =>
    { k with exportQ := [{ template := 1, data := zeros 8 }] }

theorem witness_RecordsLeaveForTheirRings :
    (Running eventState ∧ ringLive eventState eventRing = true ∧
      holds eventState arbDma 8193 = true ∧ eventState.sys.lost = 0 ∧
      eventState.sys.evq = [Event.resetDone] ∧ byteRoom eventState eventRing 64 = some (0, 64)) ∧
    (Running dumpState ∧ ringLive dumpState dumpRing = true ∧ holds dumpState arbDma 8192 = true ∧
      dumpState.cnt.snapshots = [snapshot] ∧ streamsPassed dumpState snapshot = true ∧
      dumpLength snapshot ≤ 2 ^ rowSize (ringRow dumpState dumpRing) ∧
      byteRoom dumpState dumpRing (dumpLength snapshot) = some (0, 75840)) ∧
    (Running exportState ∧ 0 < 16 ∧ 0 < 1 ∧ 1 ≤ (domainQueue exportState 0).length ∧
      partStopped exportState = false ∧
      messageFits exportState (exportMessage exportState 0 1).length = true ∧
      ∃ u, sendMessage exportState 0 1 (exportMessage exportState 0 1) [] = some (u, .whole)) ∧
    (∃ s : State, Running s ∧ s.host.tmplDue.contains 15 = true ∧ partStopped s = false ∧
      templateSet s = []) := by
  refine ⟨?_, ?_, ⟨?_, ?_, ?_, ?_, ?_, ?_, pair_of_map ?_⟩,
    { base with host := { base.host with tmplDue := [15] } }, ?_⟩ <;>
  (try dsimp only [Running]) <;> decide +kernel

/-! ## Witnesses: ports and lanes -/

/-- Node n in mode m, and enabled. -/
def moded (n m : Nat) : State := portObj n 1 [BitVec.ofNat 8 m] base

def enabled (n m : Nat) : State := portObj n 2 [1] (moded n m)

/-- Node n, enabled in mode m, in port state st with a timer. -/
def running (n m st : Nat) (t : PortTimer) : State :=
  modPort (enabled n m) n fun p => { p with state := st, timer := t, mode := m, fec := 0 }

/-- Node n and auto-negotiation 1, without Clause 73 (0), and without training. -/
def negotiating (n : Nat) : State := portObj n 4 [1] (moded n 7)

def untrained (n : Nat) : State := portObj n 6 [0] (portObj n 4 [0] (moded n 3))

def clockless (p : Nat) (s : State) : State := modPipe s p fun k => { k with refclkLost := true }

/-- An UP node with its mode. -/
def upNode (n m : Nat) : State := running n m 5 .none

def mayEnable (s : State) (n : Nat) : Prop :=
  MayWrite s .bar (0x3100 + n) 2 noRow [1] ∧ portEnabled s n = false ∧ enableOk s n = true ∧
    reservesOk { setRw s (0x3100 + n) 2 noRow [1] with held := [] } = true ∧
    clockGood s n = true ∧ lanesWanted s n = true ∧ portMode s n ≠ 0

theorem witness_BringUpStarts :
    (129 < 130 ∧ mayEnable (moded 129 9) 129 ∧ mayEnable (negotiating 120) 120 ∧
      portAn (negotiating 120) 120 = 1 ∧ mayEnable (untrained 0) 0 ∧ portAn (untrained 0) 0 ≠ 1 ∧
      rwBool (untrained 0) 0x3100 6 = false) ∧
    (Running (running 127 2 0 (.restart 0)) ∧
      (portAt (running 127 2 0 (.restart 0)) 127).timer = .restart 0 ∧
      0 ≤ (running 127 2 0 (.restart 0)).beat ∧ portEnabled (running 127 2 0 (.restart 0)) 127 = true ∧
      clockGood (running 127 2 0 (.restart 0)) 127 = true ∧
      lanesWanted (running 127 2 0 (.restart 0)) 127 = true ∧
      portMode (running 127 2 0 (.restart 0)) 127 ≠ 0) ∧
    (let s := lateBeat 1250000 (clockless 7 (running 127 2 0 .none))
     Running s ∧ 7 < 8 ∧ (pipeAt s 7).refclkLost = true ∧ (pipeAt s 7).refclkAt + 1250000 ≤ s.beat ∧
      portEnabled s (16 * 7 + 15) = true ∧ lanesWanted s (16 * 7 + 15) = true ∧
      portMode s (16 * 7 + 15) ≠ 0) := by
  (try dsimp only [Running, mayEnable, MayWrite]); and_intros <;> decide +kernel

def agreed : State := modPort (portObj 0 5 [0, 0, 0x07, 0xFF] (negotiating 0)) 0 fun p => { p with state := 1 }

def faulty (n : Nat) : State := modPort (running n 2 4 .none) n fun p => { p with faults := 4 }

theorem witness_BringUpAdvances :
    (Running agreed ∧ 0 < 130 ∧ (portAt agreed 0).state = 1 ∧
      (advertised agreed 0).contains 7 = true ∧ fecResolves agreed 0 7 3 = true) ∧
    (Running (running 129 9 3 (.train 5)) ∧ 129 < 130 ∧
      (portAt (running 129 9 3 (.train 5)) 129).state = 3) ∧
    (let s := running 127 2 2 (.step 5)
     Running s ∧ (portAt s 127).state = 2 ∧ trains s 127 (portAt s 127).mode = true ∧
      keepsCoeffs (portAt s 127) = false) ∧
    (Running (running 129 9 4 (.lock 5)) ∧ 129 < 130 ∧
      (portAt (running 129 9 4 (.lock 5)) 129).state = 4 ∧
      (portAt (running 129 9 4 (.lock 5)) 129).faults = 0 ∧
      searching (running 129 9 4 (.lock 5)) 129 = false ∧ 240 ≤ 240 ∧
      (portAt (running 129 9 4 (.lock 5)) 129).timer ≠ .none) ∧
    (Running (faulty 129) ∧ 129 < 130 ∧ (portAt (faulty 129) 129).state = 4 ∧
      (portAt (faulty 129) 129).faults ≠ 0 ∧ searching (faulty 129) 129 = false ∧
      (portAt (faulty 129) 129).timer = .none) := by
  (try dsimp only [Running]); and_intros <;> decide +kernel

theorem witness_FailedBringUpWaits :
    (Running (running 3 2 3 (.train 0)) ∧ (portAt (running 3 2 3 (.train 0)) 3).state = 3 ∧
      (portAt (running 3 2 3 (.train 0)) 3).timer = .train 0 ∧
      0 ≤ (running 3 2 3 (.train 0)).beat) ∧
    (Running (running 3 2 4 (.lock 0)) ∧ 3 < 130 ∧ (portAt (running 3 2 4 (.lock 0)) 3).state = 4 ∧
      (portAt (running 3 2 4 (.lock 0)) 3).timer = .lock 0 ∧ 0 ≤ (running 3 2 4 (.lock 0)).beat) ∧
    ((portAt (running 0 7 4 (.lock 9)) 0).state = 4 ∧ 240 < 241 ∧
      2 ≤ modeLanes (portAt (running 0 7 4 (.lock 9)) 0).mode) ∧
    (Running (running 3 2 4 (.kept 0)) ∧ (portAt (running 3 2 4 (.kept 0)) 3).state = 4 ∧
      (portAt (running 3 2 4 (.kept 0)) 3).timer = .kept 0 ∧
      trains (running 3 2 4 (.kept 0)) 3 (portAt (running 3 2 4 (.kept 0)) 3).mode = true) ∧
    (trains (running 129 9 4 (.kept 0)) 129 (portAt (running 129 9 4 (.kept 0)) 129).mode = false ∧
      (portAt (running 129 9 4 (.kept 0)) 129).timer = .kept 0) := by
  (try dsimp only [Running]); and_intros <;> decide +kernel

theorem witness_PortLeavesUp :
    (Running (running 129 9 5 .none) ∧ 129 < 130 ∧ (portAt (running 129 9 5 .none) 129).state = 5 ∧
      (portAt (running 129 9 5 .none) 129).rx = none ∧
      (portAt (running 129 9 5 .none) 129).tx = none ∧
      (portAt (running 129 9 5 .none) 129).link = 0) ∧
    (rw { setRw (running 3 2 5 .none) 0x6103 0x15 noRow [0, 0] with held := [] } 0x6103 0x15 = 0 ∧
      rw (running 129 9 5 .none) (0x6100 + 129) 0x15 ≠ 0) ∧
    (2 < 3 ∧ 0 < 3) ∧
    (Running (running 127 2 5 .none) ∧ 7 < 8 ∧ (pipeAt (running 127 2 5 .none) 7).refclkLost = false ∧
      (∀ i, i < 16 → (portAt (running 127 2 5 .none) (16 * 7 + i)).rx = none ∧
        (portAt (running 127 2 5 .none) (16 * 7 + i)).tx = none) ∧
      portEnabled (running 127 2 5 .none) (16 * 7 + 15) = true) ∧
    (129 < 130 ∧ MayWrite (running 129 9 5 .none) .bar (0x3100 + 129) 2 noRow [0] ∧
      portEnabled (running 129 9 5 .none) 129 = true) := by
  (try dsimp only [Running, MayWrite]); and_intros <;> decide +kernel

/-- Lane l asked for a power value. -/
def laneObj (l sub : Nat) (v : Bytes) (s : State) : State :=
  { setRw s (0x3000 + l) sub noRow v with held := [] }

def busyLane (l : Nat) : State := modLane base l fun x => { x with busy := true, window := 16, windowEnd := 0 }

def sleeping : State :=
  modPort (portObj 3 0x0B [1] (running 3 2 5 .none)) 3 fun p => { p with lpi := true }

theorem witness_LanesSearchAndSleep :
    (127 < 130 ∧ MayWrite (running 127 2 5 .none) .bar (0x3000 + 127) 0x0B noRow [1] ∧
      portOfLane (running 127 2 5 .none) 127 = some 127 ∧
      (portAt (running 127 2 5 .none) 127).state = 5 ∧
      (portAt (running 127 2 5 .none) 127).mode ∈ [2, 3, 5] ∧
      rwBool (running 127 2 5 .none) (0x3000 + 127) 0x0B = false) ∧
    (129 < 130 ∧ 65 < 256 ∧ MayWrite base .bar (0x3000 + 129) 0x0C noRow (bytesOf 1 65) ∧
      (laneAt base 129).busy = false) ∧
    (Running (busyLane 129) ∧ (laneAt (busyLane 129) 129).busy = true ∧
      (laneAt (busyLane 129) 129).windowEnd ≤ (busyLane 129).beat ∧ 16 ≤ (laneAt (busyLane 129) 129).window) ∧
    (129 < 130 ∧ MayWrite base .bar (0x3000 + 129) 0x0B noRow [0]) ∧
    (127 < 128 ∧ MayWrite base .bar (0x3000 + 127) 2 noRow [2] ∧ portOfLane base 127 = none ∧
      MayWrite (running 127 2 5 .none) .bar (0x3000 + 127) 2 noRow [2] ∧
      127 ∈ footprint (running 127 2 5 .none) 127 ∧
      rw (running 127 2 5 .none) (0x3000 + 127) 2 = 0) ∧
    (129 < 130 ∧ MayWrite base .bar (0x3000 + 129) 2 noRow [3] ∧ portOfLane base 129 = none ∧
      MayWrite (running 129 9 5 .none) .bar (0x3000 + 129) 2 noRow [3] ∧
      portOfLane (running 129 9 5 .none) 129 = some 129 ∧
      129 ∈ footprint (running 129 9 5 .none) 129 ∧
      rw (running 129 9 5 .none) (0x3000 + 129) 2 = 0) ∧
    (let s := laneObj 129 2 [3] (running 129 9 0 .none)
     129 < 130 ∧ MayWrite s .bar (0x3000 + 129) 2 noRow [0] ∧ portOfLane s 129 = some 129 ∧
      129 ∈ footprint s 129 ∧ rw s (0x3000 + 129) 2 = 3 ∧ clockGood s 129 = true ∧
      portMode s 129 ≠ 0 ∧
      ∀ x, x ∈ footprint s 129 → tfind s.held (keyOf (0x3000 + x) 2 noRow) = none) ∧
    (Running sleeping ∧ 3 < 130 ∧ (portAt sleeping 3).state = 5 ∧
      rwBool sleeping (0x3100 + 3) 0x0B = true ∧ (portAt sleeping 3).tx = none) ∧
    (portAt sleeping 3).lpi = true := by
  (try dsimp only [Running, MayWrite]); and_intros <;> decide +kernel

/-! ## Witnesses: home halves, clusters and engines -/

def slipState : State :=
  modPipe (dueState 7 .idle 0 base) 7 fun k =>
    { k with h := horizon base - 4,
             reads := [{ id := 0, h := 0, slot := 0, bytes := 64, area := 0, requester := 0,
                         after := 0, issued := true, landed := false, bad := false, issueBeat := 0 }] }

theorem witness_EmptyHomeBeatAdvancesTheClock :
    (Running base ∧ homeReady base 7 = true ∧ slipping base 7 (pipeAt base 7).h = false ∧
      mergeHeld base 7 (pipeAt base 7).h = false ∧ emptyBeat base 7 (pipeAt base 7).h = true) ∧
    (Running slipState ∧ homeReady slipState 7 = true ∧
      slipping slipState 7 (pipeAt slipState 7).h = true) := by
  (try dsimp only [Running]); and_intros <;> decide +kernel

/-- The packet trapped, in a version whose trap verdict is FORWARD to port 1. -/
def trapState : State :=
  dueState 0 (.packet 1) 0 (withPkt { pkt with flow := { FlowPart.none with trapped := true } }
    (withVersion { VerCfg.zero with cfg := putCfg [] 0x5030 1 0 ([0x10] ++ zeros 15) } base))

def duePosition (w : Work) (status : Nat) : Pos := { Pos.init with work := w, status := status }

/-- The last slot of pipe 7's bucket 0 in quarantine, its test pattern written and read back. -/
def scrubState : State :=
  let s := dueState 7 (.dscrub 0 (some (slotOf 7 0 3, zeros 64))) 0 base
  { s with mem := { s.mem with dir := [(slotOf 7 0 3, 255)], quarantine := [slotOf 7 0 3] } }

theorem witness_CommitStepsRunOnce :
    (∃ u, CommitRuns trapState 0 (duePosition (.packet 1) 0) u) ∧
    (pktAt trapState 1).any (fun k => k.flow.trapped &&
      (trapDecision (slotVer trapState k.vslot) k.flow.profile).kind != 3) = true ∧
    (∃ u, CommitRuns (dueState 7 (.age 0x4003FF []) 0 base) 7 (duePosition (.age 0x4003FF []) 0) u) ∧
    (∃ u, CommitRuns (dueState 7 (.move (.slot 4) 0 9 false 0) 0 base) 7
      (duePosition (.move (.slot 4) 0 9 false 0) 0) u) ∧
    (∃ u, CommitRuns scrubState 7 (duePosition (.dscrub 0 (some (slotOf 7 0 3, zeros 64))) 0) u) ∧
    (dirAt scrubState (slotOf 7 0 3) = 255 ∧
      (duePosition (.dscrub 0 (some (slotOf 7 0 3, zeros 64))) 0).rebuild = [] ∧
      ((duePosition (.dscrub 0 (some (slotOf 7 0 3, zeros 64))) 0).badSlots.any fun e =>
        e.1 == slotOf 7 0 3) = false) := by
  refine ⟨commitRuns_of ?_ ?_ ?_, ?_, commitRuns_of ?_ ?_ ?_, commitRuns_of ?_ ?_ ?_,
    commitRuns_of ?_ ?_ ?_, ?_⟩ <;> decide +kernel

def hostCmd (op : Nat) : Cmd :=
  { count := 9, recv := 0, tick := 0, kind := 0, held := true, body := [BitVec.ofNat 8 (16 * op)] ++ zeros 263, arg := 0 }

theorem witness_TableCommandsComplete :
    (∃ u, CommitRuns (dueState 7 (.hcmd (hostCmd 1)) 4 base) 7 (duePosition (.hcmd (hostCmd 1)) 4) u) ∧
    (∃ u, CommitRuns (dueState 7 (.hcmd (hostCmd 1)) 0 base) 7 (duePosition (.hcmd (hostCmd 1)) 0) u) ∧
    (∃ u, CommitRuns (dueState 7 (.hcmd (hostCmd 2)) 0 base) 7 (duePosition (.hcmd (hostCmd 2)) 0) u) ∧
    (∃ u, CommitRuns (dueState 7 (.hcmd (hostCmd 3)) 0 base) 7 (duePosition (.hcmd (hostCmd 3)) 0) u) ∧
    (∃ u, CommitRuns (dueState 7 (.hcmd (hostCmd 4)) 0 base) 7 (duePosition (.hcmd (hostCmd 4)) 0) u) ∧
    (∃ u, CommitRuns (dueState 7 (.hcmd (hostCmd 15)) 7 base) 7 (duePosition (.hcmd (hostCmd 15)) 7) u) ∧
    ((hostCmd 1).kind = 0 ∧ cmdOp (hostCmd 1).body = 1 ∧ cmdOp (hostCmd 2).body = 2 ∧
      cmdOp (hostCmd 3).body = 3 ∧ cmdOp (hostCmd 4).body = 4 ∧ (0 : Nat) ≠ 7 ∧ (4 : Nat) ≠ 7) := by
  refine ⟨commitRuns_of ?_ ?_ ?_, commitRuns_of ?_ ?_ ?_, commitRuns_of ?_ ?_ ?_,
    commitRuns_of ?_ ?_ ?_, commitRuns_of ?_ ?_ ?_, commitRuns_of ?_ ?_ ?_, ?_⟩ <;> decide +kernel

def aRead : Machine.Read :=
  { id := 0, h := 0, slot := 2 ^ 27 - 1, bytes := 64, area := 0, requester := 0, after := 0, issued := true,
    landed := false, bad := false, issueBeat := 0 }

def readState : State := modPipe base 7 fun k => { k with reads := [aRead], nextRead := 1 }

/-- Two writes of one slot are out. -/
def writeState : State :=
  modPipe base 7 fun k => { k with reads := [{ aRead with requester := writeReq, slot := 5 },
    { aRead with id := 1, requester := writeReq, slot := 5 }] }

def oneWrite : State :=
  modPipe base 0 fun k => { k with reads := [{ aRead with requester := writeReq, slot := 5 }] }

def held : Pkt := { pkt with stage := .holding }

def joining : State :=
  modCluster (withPkt { pkt with flow := { FlowPart.none with complete := true } } base) 63
    fun c => { c with reseq := [1] }

theorem witness_LandingsAndReleases :
    (Running readState ∧ pipeLive readState 7 = true ∧
      (pipeAt readState 7).reads.find? (fun x => x.id == aRead.id) = some aRead ∧
      aRead.issued = true ∧ aRead.landed = false ∧ aRead.requester ≠ 3 ∧
      aRead.requester ≠ writeReq ∧ aRead.id < (pipeAt readState 7).nextRead) ∧
    (Running writeState ∧ pipeLive writeState 7 = true ∧
      (pipeAt writeState 7).reads.any (writeOut 5) = true ∧
      ((ldel (writeOut 5) (pipeAt writeState 7).reads).any fun x =>
        x.requester == writeReq && x.slot == 5 && x.area == 0) = true) ∧
    (Running oneWrite ∧ pipeLive oneWrite 0 = true ∧ (pipeAt oneWrite 0).reads.any (writeOut 5) = true ∧
      ((ldel (writeOut 5) (pipeAt oneWrite 0).reads).any fun x =>
        x.requester == writeReq && x.slot == 5 && x.area == 0) = false) ∧
    (Running (withPkt held base) ∧ pipeLive (withPkt held base) 0 = true ∧
      argMin orderKey (mayCross (withPkt held base) 0) = some held) ∧
    (Running joining ∧ inRotation joining 63 = true ∧ pipeLive joining (63 / 8) = true ∧
      (clusterAt joining 63).reseq = [1] ∧ (clusterAt joining 63).released ≠ some joining.beat ∧
      ((pktAt joining 1).any fun k => k.flow.complete && decide (k.flow.doneAt ≤ joining.beat)) = true) := by
  (try dsimp only [Running]); and_intros <;> decide +kernel

/-- Engine 15 of cluster 63 with a load since beat 0, at a beat. -/
def working (l : EngLoad) (b : Nat) : State :=
  atBeat b (modEngine (withPkt pkt base) 63 15 fun g => { g with load := l })

def idleTask (kind : Nat) : Task :=
  { kind := kind, arg := 0, data := [], copy := none, granted := none }

def idleReady : State :=
  modCluster (withImage (image 7 (zeros 120))) 63 fun c => { c with idleQ := [idleTask 15] }

def retiring : State := modEngine (working (.idle (idleTask 1)) 0) 63 15 fun g =>
  { g with retiring := true, freeAt := 7 }

def verifying : State :=
  withPkt { pkt with flow := { FlowPart.none with verify := 1, cluster := some 0,
                                                  out := [(16, BitVec.ofNat 64 (2 ^ 56))] } }
    (withImage (image 6 ([0xA0] ++ zeros 135)))

theorem witness_EnginesRunTrapAndPublish :
    (let s := working (.packet 1) 0
     let g := landUpTo (engineAt s 63 15) s.beat
     Running s ∧ mayIssue s 63 15 = true ∧ Ecc.single ≠ .double ∧ (clusterAt s 63).state = 0 ∧
      wordTrap g (fetchWord s 63 g) g.pc (engineImage s 63 g) = none) ∧
    (Running (working (.packet 1) 120) ∧
      holdsPacket (engineAt (working (.packet 1) 120) 63 15) 120 = true ∧
      overdue (working (.packet 1) 120) (engineAt (working (.packet 1) 120) 63 15) 120 = true ∧
      inRotation (working (.packet 1) 120) 63 = true ∧
      (clusterAt (working (.packet 1) 120) 63).state = 0 ∧
      pipeLive (working (.packet 1) 120) (63 / 8) = true) ∧
    (Running (working (.idle (idleTask 1)) 32) ∧
      runsIdle (engineAt (working (.idle (idleTask 1)) 32) 63 15) = true ∧
      overdue (working (.idle (idleTask 1)) 32)
        (engineAt (working (.idle (idleTask 1)) 32) 63 15) 32 = true ∧
      inRotation (working (.idle (idleTask 1)) 32) 63 = true) ∧
    (Running idleReady ∧ rwBool idleReady 0x5800 7 = true ∧ inRotation idleReady 63 = true ∧
      pipeLive idleReady (63 / 8) = true ∧ (clusterAt idleReady 63).idleQ = [idleTask 15] ∧
      idleEngine idleReady 63 = some 15 ∧
      clusterImage (curVer idleReady) 63 = some (image 7 (zeros 120)) ∧
      imgIdleEntry (image 7 (zeros 120)) (idleTask 15).kind = some 0) ∧
    (Running retiring ∧ (engineAt retiring 63 15).load = .idle (idleTask 1) ∧
      (engineAt retiring 63 15).retiring = true ∧
      (engineAt retiring 63 15).freeAt ≤ retiring.beat + 7 ∧
      overdue retiring (engineAt retiring 63 15) 32 = false ∧ inRotation retiring 63 = true ∧
      pipeLive retiring (63 / 8) = true) ∧
    (Running verifying ∧ ((pktAt verifying 1).any fun k => k.flow.verify == 1 &&
      decide (k.flow.verifyDue ≤ verifying.beat) && pipeLive verifying k.flow.home &&
      (verifyArg k ((clusterImage (slotVer verifying k.vslot)
        (k.flow.cluster.getD 0)).getD [])).isSome) = true) := by
  (try dsimp only [Running]); and_intros <;> decide +kernel

/-! ## Witnesses: frames -/

/-- A frame of 60 zero bytes with its FCS. -/
def goodFrame : Bytes := zeros 60 ++ fcsOf (zeros 60)

theorem witness_FrameIngressAccepts :
    Running (upNode 127 2) ∧ 129 < 130 ∧ (portAt (upNode 127 2) 127).state = 5 ∧
      (portAt (upNode 127 2) 127).rx = none ∧ macRxOn (upNode 127 2) 127 = false ∧
      isControl goodFrame = false ∧
      (portAt (upNode 127 2) 127).refusing = false ∧ (portAt (upNode 127 2) 127).frozen = false ∧
      (portAt (upNode 127 2) 127).frozenCls = 0 ∧ isDiverted (upNode 127 2) 127 goodFrame = false ∧
      ∀ a : Arrival, a = {
          node := 127, frame := goodFrame, stamp := rxStamp (upNode 127 2) 127 0, macsec := false, staged := false,
          exactEcc := .ok, cls := none, direct := none, tx := none } →
        (takeCells (upNode 127 2) 127 (ingressClass (upNode 127 2) a (parseFrame
          (parseCtx (upNode 127 2) (curVer (upNode 127 2)) goodFrame)))
          1).isSome = true := by
  (try dsimp only [Running]); and_intros
  all_goals first | decide +kernel | (rintro a rfl; decide +kernel)

def arriving : Pkt :=
  { pkt with bytes := goodFrame, tailDone := false, stage := .receiving, vec := zeros 192 }

def receiving : State :=
  atBeat 2 (modPort (withPkt arriving (upNode 0 2)) 0 fun p => { p with rx := some 1 })

def judged : Pkt := { pkt with policer := some 0, stage := .toEgress }

def leaving : Pkt := { pkt with stage := .toEgress }

theorem no_gates (q b : Nat) : gateOversize (withPkt leaving base)
    (slotVer (withPkt leaving base) leaving.vslot) (decNode leaving.dec) q b = false := by
  have h : (cfg (slotVer (withPkt leaving base) leaving.vslot) (0x7200 + decNode leaving.dec) 1 == 1)
    = false := by decide +kernel
  simp only [gateOversize, h, Bool.false_and]

theorem witness_TailsJudgementsAndEgress :
    (Running receiving ∧ (portAt receiving 0).rx = some arriving.id ∧
      pktAt receiving arriving.id = some arriving ∧ arriving.node = 0 ∧
      tailReady receiving arriving = true ∧ judgeTail receiving arriving false = 0 ∧
      arriving.policy = 0 ∧ arriving.dec.kind = 2 ∧ arriving.stage = .receiving ∧
      arriving.mirror = none ∧ arriving.search = none ∧ arriving.exc = [] ∧ arriving.tx = none ∧
      (takeUpTo receiving arriving arriving.bytes.length).isSome = true) ∧
    (Running (atBeat 1 (withPkt judged base)) ∧
      pktAt (atBeat 1 (withPkt judged base)) judged.id = some judged ∧ judged.policer = some 0 ∧
      (nextJudged (atBeat 1 (withPkt judged base)) (policerPipe 0) 1).map Pkt.id = some judged.id ∧
      judged.stage ≠ .gone) ∧
    (Running (withPkt leaving base) ∧ pktAt (withPkt leaving base) leaving.id = some leaving ∧
      entryReady (withPkt leaving base) leaving = true ∧ leaving.policer = none ∧
      editsOf (withPkt leaving base) leaving = [] ∧ vecMacsec leaving.vec = false ∧
      (∀ q b, gateOversize (withPkt leaving base) (slotVer (withPkt leaving base) leaving.vslot)
        (decNode leaving.dec) q b = false) ∧
      (portAt (withPkt leaving base) (decNode leaving.dec)).link < 2) := by
  (try dsimp only [Running]); and_intros
  all_goals first | exact no_gates | decide +kernel

def queued : Pkt := { pkt with stage := .queued, out := { OutPart.none with sent := goodFrame } }

/-- A frame in queue 0, which leads to node 0. -/
def sendable : State :=
  let s := modQueue (withPkt queued (upNode 0 2)) 0 fun _ => [1]
  { s with mem := { s.mem with svcParent := [(0, 2 ^ 15)] } }

def sending : State :=
  modPort (withPkt { queued with stage := .sending } (upNode 129 9)) 129 fun p =>
    { p with tx := some 1 }

theorem witness_TransmissionStartsAndEnds :
    (Running sendable ∧ 0 < 130 ∧ maySend sendable 0 = true ∧ (portAt sendable 0).tx = none ∧
      flowDue sendable 0 = false ∧ pipeLive sendable (nodePipe 0) = true ∧ sendable = storeCut sendable 0 ∧
      (∃ kid, choosePort sendable 0 (readyQueues sendable 0) = some kid ∧ kid.queue = 0) ∧
      headOf sendable 0 = some queued ∧ pktAt sendable queued.id = some queued) ∧
    (Running sending ∧ (portAt sending 129).tx = some 1 ∧
      ((pktAt sending 1).any fun k => k.tailDone && decide (k.out.endBeat ≤ sending.beat)) = true) := by
  refine ⟨⟨?_, ?_, ?_, ?_, ?_, ?_, ?_, Option.map_eq_some_iff.1 ?_, ?_, ?_⟩, ?_, ?_, ?_⟩ <;>
  (try dsimp only [Running]) <;> decide +kernel

/-- Node 0 in pause mode 1, or PFC (2), with class 0 at XOFF. -/
def stopping (m : Nat) : State :=
  modAcct { setRw (setRw (upNode 0 2) 0x6100 1 noRow [BitVec.ofNat 8 m]) 0x6100 2 noRow [0xFF]
    with held := [] } 0 fun a => { a with x := [(0, 1)] }

def repeating : State := modPort (stopping 2) 0 fun p => { p with told := [(0, 1)], repeatAt := [(0, 0)] }

/-- A pause frame of time 0. -/
def pauseBody : Bytes := bytesOf 6 0x0180C2000001 ++ zeros 6 ++ [0x88, 0x08, 0, 1] ++ zeros 44

def pauseFrame : Bytes := pauseBody ++ fcsOf pauseBody

def pausing : State := modPort (upNode 129 9) 129 fun p => { p with pauseEnd := [(7, 0)] }

theorem witness_FlowControlTellsAndObeys :
    (0 < 130 ∧ isUp (stopping 1) 0 = true ∧ untold (stopping 1) 0 ≠ []) ∧
    (let s := modPort (stopping 1) 0 fun p => { p with fcQ := [[(0, 1), (7, 0)], [(0, 0)]] }
     Running s ∧ flowReady s 0 = true ∧ (portAt s 0).fcQ = [[(0, 1), (7, 0)], [(0, 0)]] ∧
      (tkeys [(0, 1), (7, 0)]).Nodup ∧ macTxOn s 0 = false) ∧
    (Running repeating ∧ flowReady repeating 0 = true ∧ repeats repeating 0 ≠ []) ∧
    (Running (stopping 2) ∧ 0 < 130 ∧ (portAt (stopping 2) 0).state = 5 ∧
      isControl pauseFrame = true ∧ macRxOn (stopping 2) 0 = false ∧ fcMode (stopping 2) 0 ≠ 0 ∧
      natAt pauseFrame 14 2 = 1 ∧ natAt pauseFrame 16 2 = 0) ∧
    (Running pausing ∧ tfind (portAt pausing 129).pauseEnd 7 = some 0 ∧ 0 ≤ pausing.beat) := by
  (try dsimp only [Running]); and_intros <;> decide +kernel

def linkIn (n l : Nat) : State := modPort base n fun p => { p with link := l }

def gateIn (g : Gate) : State :=
  modTb (modPort base 129 fun p => { p with gate := g }) 0 fun t => { t with state := .valid }

theorem witness_LinkLossAndGatesRun :
    (Running (linkIn 129 1) ∧ (portAt (linkIn 129 1) 129).link = 1 ∧
      (portAt (linkIn 129 1) 129).holdEnd ≤ (linkIn 129 1).beat) ∧
    (Running (linkIn 129 2) ∧ (portAt (linkIn 129 2) 129).link = 2 ∧
      queuedFor (linkIn 129 2) 129 = []) ∧
    (let s := gateIn { Gate.init with change := some (0, 0, 1000, 0, [0]) }
     Running s ∧ (gateAt s 129).change = some (0, 0, 1000, 0, [0]) ∧ tbValid s 0 = true ∧
      tbReached s 0 0 = true) ∧
    (let s := gateIn { Gate.init with running := true, cycle := 1000 }
     Running s ∧ (gateAt s 129).running = true ∧
      tbReached s (gateAt s 129).tb (gateAt s 129).next = true) := by
  (try dsimp only [Running]); and_intros <;> decide +kernel

def aCopy (w : Option Nat) : Copy :=
  { id := 0, sample := false, session := 0, ring := 4095, header := zeros 32, body := zeros 64,
    record := [], words := [], waitUntil := w, cells := 1 }

def withCopy (w : Option Nat) : State :=
  windowed 0 (modRing (withRing 4095 1 4 4095 { base with buf := { base.buf with copies := [aCopy w] } })
    4095 fun r => { r with prod := 1 })

theorem witness_CopiesAreDelivered :
    (Running (withCopy none) ∧ copyAt (withCopy none) 0 = some (aCopy none) ∧
      (nextCopyOf (withCopy none) 4095).map Copy.id = some 0 ∧
      rxTakes (withCopy none) 4095 (.copy 0) = true ∧ holds (withCopy none) arbDma 4095 = true ∧
      ∃ u, rxDeliver (withCopy none) 4095 (.copy 0) (aCopy none).words (copyBytes (aCopy none)) [(0, 96)]
        = some (u, .whole)) ∧
    (let s := withCopy (some 0)
     Running s ∧ copyAt s 0 = some (aCopy (some 0)) ∧ 0 ≤ s.beat) := by
  refine ⟨⟨?_, ?_, ?_, ?_, ?_, pair_of_map ?_⟩, ?_⟩ <;>
  (try dsimp only [Running]) <;> decide +kernel

/-! ## Witnesses: search banks and scheduler tables -/

/-- Bank 127 in legacy mode, with entries of one unit. -/
def legacyState : State := { setRw base (0x4800 + 127) 3 noRow [1] with held := [] }

def legacyRow (w : Nat) : Bytes := [0, 15] ++ bytesOf 2 (2048 / w - 1) ++ zeros (32 * w)

/-- A version that gives bank 127 to no group. -/
def looseBank : State :=
  withVersion { VerCfg.zero with cfg := putCfg [] (0x4800 + 127) 2 noRow [15] } base

theorem witness_SearchAndSchedulerTables :
    (Running base ∧ ingressReady base 7 = true ∧ jobOf base .ingress base.beat = jobTwrite) ∧
    (Running (atBeat 243872 base) ∧ ingressReady (atBeat 243872 base) 7 = true ∧
      jobOf (atBeat 243872 base) .ingress 243872 = jobTscrub ∧ Ecc.single ≠ .double) ∧
    (Running (atBeat 26 base) ∧ egressReady (atBeat 26 base) 7 = true ∧
      jobOf (atBeat 26 base) .egress 26 = jobEwrite) ∧
    (let r := legacyRow (curWidth legacyState 127)
     7 < 8 ∧ MayWrite legacyState .bar (0x4D00 + 7) 1 0 r ∧ natAt r 0 2 < 16 ∧
      bankLegacy legacyState (16 * 7 + natAt r 0 2) = true ∧
      rowSizeOk (r.drop 4) (curWidth legacyState (16 * 7 + natAt r 0 2)) = true ∧
      natAt r 2 2 < 2048 / curWidth legacyState (16 * 7 + natAt r 0 2) ∧
      (pipeAt legacyState 7).legacy.length < 256) ∧
    (MayWrite base .bar 0x7000 (0 + 1) 65535 (defaultAt 0x7000 1 65535) ∧
      nodeRowOk (defaultAt 0x7000 1 65535) = true ∧ base.buf.schedQ.length < 1024 ∧
      MayWrite base .bar 0x7000 (3 + 1) 135 [] ∧ nodeRowOk [] = true) ∧
    (MayWrite base .bar 0x7000 5 noRow (bytesOf 4 (3 * 2 ^ 30 + 135)) ∧
      bits (3 * 2 ^ 30 + 135) 16 0 < levelSize (bits (3 * 2 ^ 30 + 135) 31 30)) ∧
    (127 < 128 ∧ 1 < 256 ∧ MayWrite looseBank .bar (0x4800 + 127) 3 noRow [BitVec.ofNat 8 1] ∧
      (∀ k, k < 4 → isLive looseBank k = true → bankGroup (slotVer looseBank k) 127 = 15) ∧
      ∀ q, q ∈ looseBank.ver.pending → bankGroup q.ver 127 = 15) := by
  (try dsimp only [Running, MayWrite]); and_intros <;> decide +kernel

/-! ## Witnesses: cipher units, time bases, timed pins, arbiters -/

/-- Node 127 with MACsec receive on; an EAPOL frame passes by it. -/
def macState : State :=
  { upNode 127 2 with digObjs := putCfg [] (0x7900 + 127) 1 noRow [1] }

def macBody : Bytes := zeros 12 ++ [0x88, 0x8E] ++ zeros 46

def staging : State :=
  let f : Staged := { frame := goodFrame, cells := 1, due := 0, stampBeat := 0, stampNs := 0, stampFrac := 0,
                      stampTb := 0, stampValid := false, sa := none }
  modPort base 127 fun p => { p with staging := [f] }

/-- What a receive decision delivers. -/
def delivered : RxVerdict → Option (Bytes × Option (Nat × Nat))
  | .deliver b sa => some (b, sa)
  | _ => none

theorem deliver_of {v : RxVerdict} {b : Bytes} {sa : Option (Nat × Nat)}
    (h : delivered v = some (b, sa)) : v = .deliver b sa := by
  cases v <;> simp_all [delivered]

theorem witness_MacsecReceiveAndDelivery :
    (Running macState ∧ 127 < 128 ∧ (portAt macState 127).state = 5 ∧ macRxOn macState 127 = true ∧
      pipeLive macState (nodePipe 127) = true ∧
      (macBody ++ fcsOf macBody).length ≤ rw macState (0x3100 + 127) 12 + 32 ∧
      unitServes macState (unitOf 127) = true ∧
      rxDecide macState 127 macBody false = .deliver macBody none) ∧
    (Running staging ∧ deliverReady staging 127 = true) := by
  refine ⟨⟨?_, ?_, ?_, ?_, ?_, ?_, ?_, deliver_of ?_⟩, ?_, ?_⟩ <;>
  (try dsimp only [Running]) <;> decide +kernel

def unitIn (u st b : Nat) : State :=
  atBeat b { base with cipher := { Cipher.init with units := [(u, { CipherUnit.init with state := st })] } }

def keyValue : Bytes := bytesOf 2 8191 ++ [32] ++ zeros 44

theorem witness_CipherUnitsLeaveAndReturn :
    (MayWrite base .bar 0x7800 1 noRow keyValue ∧ keyValue.length = 47 ∧ keyWriteOk keyValue = true) ∧
    (Running base ∧ 8 < 9 ∧ (cipherUnit base 8).state ≠ 1 ∧ base.sys.soon = []) ∧
    (MayWrite (unitIn 8 1 0) .bar 0x7800 5 noRow (bytesOf 1 8) ∧ (cipherUnit (unitIn 8 1 0) 8).state = 1) ∧
    (Running (unitIn 8 2 4096) ∧ (cipherUnit (unitIn 8 2 4096) 8).state = 2 ∧
      (cipherUnit (unitIn 8 2 4096) 8).passed = false ∧
      (cipherUnit (unitIn 8 2 4096) 8).restoreBeat + 4096 ≤ (unitIn 8 2 4096).beat) := by
  (try dsimp only [Running, MayWrite]); and_intros <;> decide +kernel

/-- Ring 4095's transmit ring with a job, its grant of the lookaside arbiter, and a job that has run. -/
def jobDesc : List Nat := [0, 2 * 2 ^ 62, 0, 0, 0]

def jobState : State :=
  windowed 0 (modArb (modRing (withRing (txRing 4095) 1 4 0 base) (txRing 4095) fun r =>
    { r with desc := some jobDesc }) arbLa fun a => { a with holder := some (16 + 4095, 0, 0) })

/-- ENCRYPT with key 0; and one that is bad. -/
def jobRec : Bytes := [0x10] ++ zeros 63

def aJob : Job := { ring := 4095, count := 0, status := 4, words := [], writes := [] }

def jobDone : State :=
  modArb { base with cipher := { Cipher.init with jobs := [aJob] } } arbDma fun a =>
    { a with holder := some (8196, 0, 0) }

theorem witness_LookasideJobsRunAndComplete :
    (Running jobState ∧ (ringAt jobState (txRing 4095)).desc = some jobDesc ∧
      holds jobState arbLa (16 + 4095) = true ∧ isJob jobDesc = true ∧
      jobRec.length = 64 ∧
      inWindow jobState (ringOwner jobState (txRing 4095)) (jobDesc.getD 0 0) 64 = true ∧
      (jobRecordBad jobRec = false → ∀ e, e ∈ jobSpans jobRec →
        inWindow jobState (ringOwner jobState (txRing 4095)) e.1 e.2 = true) ∧
      jobRecordBad jobRec = false ∧ jobRecordBad (zeros 64) = true ∧
      counterSpent jobState (jobKey jobRec) = false) ∧
    (Running jobDone ∧ jobDone.cipher.jobs.find? (fun j => j.ring == 4095) = some aJob ∧
      holds jobDone arbDma 8196 = true ∧ aJob.status < 5) := by
  (try dsimp only [Running]); and_intros <;> decide +kernel

def tbIn (b : Nat) (st : TbState) : State :=
  modTb base b fun t => { t with state := st, boundaries := 2 }

theorem witness_TimeBasesFollowWrites :
    (MayWrite base .bar (0x2000 + 3) 1 noRow [1] ∧ (tbAt base 3).state = .disabled) ∧
    (Running (tbIn 3 .settling) ∧ (tbAt (tbIn 3 .settling) 3).state = .settling ∧
      2 ≤ (tbAt (tbIn 3 .settling) 3).boundaries) ∧
    (MayWrite (tbIn 3 .valid) .bar (0x2000 + 3) 4 noRow (bytesOf 8 (2 ^ 64 - 1)) ∧
      (tbAt (tbIn 3 .valid) 3).state ≠ .disabled ∧ (tbAt (tbIn 3 .valid) 3).stepUsed = false ∧
      (tbAt (tbIn 3 .valid) 3).stepPending = none ∧ (tbAt (tbIn 3 .valid) 3).slew = 0) ∧
    (tbAt (modTb base 3 fun t => { t with stepPending := some (-1) }) 3).stepPending = some (-1) ∧
    (MayWrite base .bar (0x2000 + 3) 3 noRow (bytesOf 4 65536000) ∧
      (signed 32 65536000).natAbs ≤ 65536000 ∧ (tbAt base 3).slew = 0) ∧
    (MayWrite base .bar (0x2000 + 3) 3 noRow (bytesOf 4 (2 ^ 32 - 65536000)) ∧
      (signed 32 (2 ^ 32 - 65536000)).natAbs ≤ 65536000) ∧
    (MayWrite base .bar (0x2000 + 3) 6 noRow (bytesOf 8 (2 ^ 64 - 1)) ∧
      rateFits (tbRate base 3) (tbSppm base 3) = true) ∧
    (MayWrite (tbIn 3 .valid) .bar (0x2000 + 3) 1 noRow [0] ∧ (tbAt (tbIn 3 .valid) 3).state ≠ .disabled) ∧
    (3 < 4 ∧ (tbAt (soonDo (tbIn 3 .valid) (.tbDisable 3)) 3).state ≠ .disabled ∧
      (soonDo (tbIn 3 .valid) (.tbDisable 3)).sys.soon = [.tbDisable 3]) := by
  (try dsimp only [Running, MayWrite]); and_intros <;> decide +kernel

/-- Output pin 7 in a mode, its time base 0 VALID, the next pulse at reading 0. -/
def pinState (m : Nat) : State :=
  modTb { setRw base (0x2040 + 7) 1 noRow [0, BitVec.ofNat 8 m] with held := [] } 0 fun t =>
    { t with state := .valid }

def pulsing : State := { base with pinsOut := [(7, { PinOut.init with active := true })] }

/-- Input pin 3 captures rising and falling edges. -/
def tinState : State := { setRw base (0x2060 + 3) 1 noRow [0, 3] with held := [] }

theorem witness_TimedPinsActAtTheirReading :
    (MayWrite base .bar (0x2040 + 7) 5 noRow (bytesOf 4 1000) ∧
      widthOk (natOf (stored base (0x2040 + 7) 1 noRow)) (natOf (stored base (0x2040 + 7) 4 noRow)) 1000
        = true) ∧
    (MayWrite (pinState 2) .bar (0x2040 + 7) 3 noRow (bytesOf 4 (2 ^ 32 - 1)) ∧
      natOf (stored (pinState 2) (0x2040 + 7) 1 noRow) = 2 ∧
      widthOk 2 (natOf (stored (pinState 2) (0x2040 + 7) 4 noRow))
        (natOf (stored (pinState 2) (0x2040 + 7) 5 noRow)) = true) ∧
    (Running (pinState 1) ∧ toutMode (pinState 1) 7 ∈ [1, 2] ∧ (toutAt (pinState 1) 7).active = false ∧
      (toutAt (pinState 1) 7).fired = false ∧
      reached32 (tbNs (pinState 1) (toutTb (pinState 1) 7)) (toutAt (pinState 1) 7).next = true ∧
      tbValid (pinState 1) (toutTb (pinState 1) 7) = true ∧ toutMode (pinState 2) 7 = 2) ∧
    (Running pulsing ∧ (toutAt pulsing 7).active = true ∧ (toutAt pulsing 7).endBeat ≤ pulsing.beat) ∧
    (Running tinState ∧ bit (rw tinState (0x2060 + 3) 1) 0 = true ∧
      bit (rw tinState (0x2060 + 3) 1) 1 = true ∧ (tinAt tinState 3).fifo.length < 16) ∧
    (16 < 256 ∧ MayWrite base .bar (0x2060 + 3) 4 noRow (bytesOf 1 16)) ∧
    (soonDo base (.tinDrop 3 16)).sys.soon = [.tinDrop 3 16] := by
  (try dsimp only [Running, MayWrite]); and_intros <;> decide +kernel

def aReq : Req := { latest := 0, boost := 0, wait := 0, since := 0 }

def contest (a i : Nat) : State :=
  atBeat 1 (modArb base a fun x => { x with reqs := [(i, aReq)], roundBeat := none })

def hbmContest : State :=
  modPipe (contest 7 0) 7 fun k => { k with reads := [{ aRead with requester := 1, issued := false }] }

def granted (a : Nat) : State :=
  lateBeat 1000000 (modArb base a fun x => { x with holder := some (5, 0, -3) })

theorem witness_ArbitersGrantTheWinner :
    (Running (contest 9 5) ∧ 9 < 10 ∧ (arbAt (contest 9 5) 9).roundBeat ≠ some (contest 9 5).beat ∧
      arbFree (contest 9 5) 9 = true ∧ (winner (contest 9 5) 9).map Prod.fst = some 5 ∧
      ((arbAt (contest 9 5) 9).reqs.map Prod.fst).Nodup) ∧
    (Running hbmContest ∧ 7 < 10 ∧ (arbAt hbmContest 7).roundBeat ≠ some hbmContest.beat ∧
      arbFree hbmContest 7 = true ∧ (winner hbmContest 7).map Prod.fst = some 0 ∧
      ((arbAt hbmContest 7).reqs.map Prod.fst).Nodup ∧ (hbmRead hbmContest 7 0).isSome = true) ∧
    (Running (granted arbDma) ∧ (arbAt (granted arbDma) arbDma).holder = some (5, 0, -3) ∧
      0 + arbMax (granted arbDma) arbDma ≤ (granted arbDma).beat) ∧
    ((arbAt (granted arbLa) arbLa).holder = some (5, 0, -3) ∧
      0 + arbMax (granted arbLa) arbLa ≤ (granted arbLa).beat) := by
  (try dsimp only [Running]); and_intros <;> decide +kernel

/-! ## Witnesses: host interface -/

/-- Ring r running, with a producer count. -/
def posting (r c : Nat) : State := modRing (withRing r 1 4 0 base) r fun x => { x with prod := c }

theorem witness_DoorbellsPostTheirCounts :
    (Running (posting 4095 0) ∧ (fnAt (posting 4095 0) 0).frozen = false ∧
      0 = ringOwner (posting 4095 0) 4095 ∧ (ringAt (posting 4095 0) 4095).state = 1 ∧
      countOk (posting 4095 0) 4095 16 = true ∧ countOk (posting 4095 1) 4095 1 = true) ∧
    (Running (posting (txRing 4095) 0) ∧ 0 = ringOwner (posting (txRing 4095) 0) (txRing 4095) ∧
      (ringAt (posting (txRing 4095) 0) (txRing 4095)).state = 1 ∧
      countOk (posting (txRing 4095) 0) (txRing 4095) 16 = true) ∧
    (Running (posting (cplRing 7) 0) ∧ 0 = ringOwner (posting (cplRing 7) 0) (cplRing 7) ∧
      (ringAt (posting (cplRing 7) 0) (cplRing 7)).state = 1 ∧
      countOk (posting (cplRing 7) 0) (cplRing 7) 16 = true) ∧
    (Running (posting (cmdRing 7) 0) ∧ 0 = ringOwner (posting (cmdRing 7) 0) (cmdRing 7) ∧
      (ringAt (posting (cmdRing 7) 0) (cmdRing 7)).state = 1 ∧
      countOk (posting (cmdRing 7) 0) (cmdRing 7) 16 = true) ∧
    (Running (posting eventRing 0) ∧ (fnAt (posting eventRing 0) 0).frozen = false ∧
      (ringAt (posting eventRing 0) eventRing).state = 1 ∧
      (ringAt (posting dumpRing 0) dumpRing).state = 1) ∧
    (countOk (posting 4095 0) 4095 17 = false ∧ countOk (posting 4095 1) 4095 0 = false) := by
  (try dsimp only [Running]); and_intros <;> decide +kernel

/-- Transmit ring 4095 with a descriptor to fetch, and its owner's window. -/
def fetchState : State :=
  windowed 0 (modRing (withRing (txRing 4095) 1 4 (txRing 4095) base) (txRing 4095) fun x =>
    { x with prod := 1 })

/-- A descriptor: length 64, no flags, and the beat of its fetch. -/
def frameDesc : List Nat := [0, 64, 0, 0]

def enterState : State :=
  modRing fetchState (txRing 4095) fun x => { x with desc := some (frameDesc ++ [0]) }

/-- A frame for host ring 4095 in queue 0, which leads to node 133. -/
def hostPkt : Pkt :=
  { pkt with stage := .queued, dec := { Decision.none with kind := 4, ring := 4095 },
             out := { OutPart.none with sent := goodFrame } }

def hostSend : State :=
  let s := windowed 0 (modRing (withRing 4095 1 4 4095 (withPkt hostPkt base)) 4095 fun x =>
    { x with prod := 1 })
  let s := modQueue s 0 fun _ => [1]
  { s with mem := { s.mem with svcParent := [(0, 2 ^ 15 + 133)] } }

def completing : State :=
  modPipe (modRing (withRing (cplRing 7) 1 4 8194 base) (cplRing 7) fun x => { x with prod := 1 }) 7
    fun k => { k with cpls := [{ body := zeros 164, count := 0 }] }

def signalling : State :=
  atBeat 6250 (modRing (withRing 8209 1 4 0 base) 8209 fun x => { x with firstUnsig := some 0 })

theorem witness_DescriptorsAndCompletionsMove :
    (Running fetchState ∧ 4095 < 4096 ∧ holds fetchState arbDma (txRing 4095) = true ∧
      ringLive fetchState (txRing 4095) = true ∧ (ringAt fetchState (txRing 4095)).state = 1 ∧
      unfetched fetchState (txRing 4095) = true ∧
      inWindow fetchState (ringOwner fetchState (txRing 4095))
        (elemAddr fetchState (txRing 4095) (nextCount fetchState (txRing 4095)))
        (elemBytes fetchState (txRing 4095)) = true ∧
      descBad fetchState 4095 (descWords fetchState (txRing 4095) frameDesc) = false) ∧
    (Running enterState ∧ (ringAt enterState (txRing 4095)).desc = some (frameDesc ++ [0]) ∧
      holds enterState arbDma (txRing 4095) = true ∧
      isJob (frameDesc ++ [0]) = false ∧
      xOf enterState (130 + 4095 / 1024) (descClass (frameDesc ++ [0])) = false ∧
      (portAt enterState (130 + 4095 / 1024)).rx = none ∧
      (portAt enterState (130 + 4095 / 1024)).refusing = false ∧
      pipeLive enterState (nodePipe (130 + 4095 / 1024)) = true ∧
      inWindow enterState (ringOwner enterState (txRing 4095)) ((frameDesc ++ [0]).getD 0 0)
        (descBytes (frameDesc ++ [0])) = true) ∧
    (Running hostSend ∧ 4095 < 4096 ∧ pipeLive hostSend (2 + 4095 / 1024) = true ∧
      rxClosed hostSend 4095 = false ∧ holds hostSend arbDma 4095 = true ∧ (ringAt hostSend 4095).part = none ∧
      ∃ kid u, choosePort hostSend (130 + 4095 / 1024) (ringQueues hostSend 4095) = some kid ∧
        (headOf hostSend kid.queue == some hostPkt) = true ∧
        rxDeliver (startHost hostSend kid hostPkt 4095) 4095 (.frame hostPkt.id) (rxWords hostPkt
          (if hostPkt.dec.kind = 4 then hostPkt.dec.reason else 0) hostPkt.out.sent.length)
          (hostPkt.out.sent.take (hostPkt.out.sent.length - 4)) [(0, 2048)] = some (u, .whole)) ∧
    (Running completing ∧ (pipeAt completing 7).cpls = [{ body := zeros 164, count := 0 }] ∧
      ringLive completing (cplRing 7) = true ∧ 0 < posted completing (cplRing 7) ∧
      holds completing arbDma 8194 = true) ∧
    (Running signalling ∧ (ringAt signalling 8209).firstUnsig = some 0 ∧
      rowIrqUsec (ringRow signalling 8209) ≠ 0 ∧
      0 + rowIrqUsec (ringRow signalling 8209) * 1250 ≤ signalling.beat) := by
  refine ⟨?_, ?_, ⟨?_, ?_, ?_, ?_, ?_, ?_, choice_of_map ?_⟩, ?_, ?_⟩ <;>
  (try dsimp only [Running]) <;> and_intros <;> decide +kernel

/-- Function 0 with a window and a vector; a row of 256 elements. -/
def vectored : State := { setRw (windowed 0 base) 0x8010 2 noRow [0, 0, 0, 1] with held := [] }

def enableRow : Bytes := putNat (zeros 32) 8 8 (2 ^ 63 + 8 * 2 ^ 56)

/-- Ring r's row before its enable. -/
def plainRow : Bytes := putNat (zeros 32) 8 8 (8 * 2 ^ 56)

def ringOff (r : Nat) : Bytes :=
  putNat (slice (storedRow (posting r 0) r) 0 32) 8 8
    (setBit (rowWord (slice (storedRow (posting r 0) r) 0 32) 1) 63 false)

def stoppingRing : State := modRing base 8209 fun x => { x with state := 2 }

theorem witness_RingsFunctionsAndLink :
    (plainRow.length = 32 ∧ putNat plainRow 8 8 (setBit (rowWord plainRow 1) 63 true) = enableRow ∧
      MayWrite vectored .bar 0x8100 (ringPlace 4095).1 (ringPlace 4095).2 enableRow ∧
      rowEnable (storedRow vectored 4095) = false ∧
      (∀ x, x = keptValue 0x8100 (ringPlace 4095).1 enableRow →
        rowEnable x = true ∧ ringRowOk vectored 4095 x = true) ∧
      (ringAt vectored 4095).state ≠ 3 ∧ ringIdle (ringAt vectored 4095) = true) ∧
    (MayWrite (posting 4095 0) .bar 0x8100 (ringPlace 4095).1 (ringPlace 4095).2 (ringOff 4095) ∧
      rowEnable (storedRow (posting 4095 0) 4095) = true ∧
      (∀ x, x = keptValue 0x8100 (ringPlace 4095).1 (ringOff 4095) →
        rowEnable x = false ∧ ringRowOk (posting 4095 0) 4095 x = true)) ∧
    (Running stoppingRing ∧ (ringAt stoppingRing 8209).state = 2 ∧
      ringIdle (ringAt stoppingRing 8209) = true) ∧
    (Running base ∧ 63 < 64 ∧ (fnAt base 63).frozen = false) ∧ (255 < 256 ∧ 63 ≤ 63) := by
  (try dsimp only [Running, MayWrite]); and_intros
  all_goals first | decide +kernel | (intro x h; rw [h]; decide +kernel)

/-- Function 63 enabled, with a minimum of one buffer of pool 7; a buffer of pool 7 that it holds; its
owner frozen. -/
def poolState : State :=
  { base with host := { base.host with vfs := 63 },
              objs := putCfg [] (0x6880 + 127) 2 7 (bytesOf 4 1) }

def lastBuffer : Nat := handleOf 7 255

def poolTaken : State :=
  { poolState with host := { poolState.host with pools :=
    { poolState.host.pools with alloc := [(lastBuffer, 127)] } } }

def frozenOwner : State :=
  { poolTaken with host := { poolTaken.host with pools :=
    { poolTaken.host.pools with frozen := [127] } } }

theorem witness_PoolRequestsAreServed :
    (Running poolState ∧ 0 < 63 ∧ 63 < 64 ∧ fnEnabled poolState 63 = true ∧ (fnAt poolState 63).frozen = false ∧
      (pools poolState).waiting = [] ∧ (pools poolState).freeing = [] ∧ ownerRefused poolState (64 + 63) = false ∧ 0 < 16384 ∧
      16384 ≤ 16384 ∧
      poolHeld poolState (64 + 63) (poolFor 16384) < ownerMax poolState (64 + 63) (poolFor 16384) ∧
      (poolHeld poolState (64 + 63) (poolFor 16384) < ownerMin poolState (64 + 63) (poolFor 16384) ∨
        poolUnused poolState (poolFor 16384) < poolFree poolState (poolFor 16384)) ∧
      lowestFree poolState (poolFor 16384) = some 0) ∧
    (Running poolTaken ∧ fnEnabled poolTaken 63 = true ∧ (fnAt poolTaken 63).frozen = false ∧
      (pools poolTaken).waiting = [] ∧ (pools poolTaken).freeing = [] ∧ ownerRefused poolTaken (64 + 63) = false ∧
      lastBuffer < 2 ^ 32 ∧ isBuffer poolTaken lastBuffer = true ∧
      tfind (pools poolTaken).alloc lastBuffer = some (64 + 63)) ∧
    (MayWrite frozenOwner .bar (0x6880 + 127) 5 noRow [1] ∧
      (pools frozenOwner).frozen.contains 127 = true) := by
  (try dsimp only [Running, MayWrite]); and_intros <;> decide +kernel

/-! ## Witnesses: Mabin sessions and messages -/

/-- A message to session n with a counter, before its tag. -/
def headOfMsg (n type flags : Nat) (body : Bytes) : Bytes :=
  [1, 2, BitVec.ofNat 8 type, BitVec.ofNat 8 flags] ++ bytesOf 2 n ++ bytesOf 2 (body.length + 36)
    ++ bytesOf 8 1 ++ bytesOf 4 7 ++ body

/-- The message with the tag of a key. -/
def msgOf (key : Bytes) (n type flags : Nat) (body : Bytes) : Bytes :=
  headOfMsg n type flags body ++ gmac key (msgIv n 0 1) (headOfMsg n type flags body)

theorem msgOf_length (key : Bytes) (n type flags : Nat) (body : Bytes) :
    (msgOf key n type flags body).length = body.length + 36 := by
  simp [msgOf, headOfMsg, gmac_length]; omega

theorem msgBody_msgOf (key : Bytes) (n type flags : Nat) (body : Bytes) :
    msgBody (msgOf key n type flags body) = body := by
  rw [msgOf, msgBody_append _ _ (gmac_length ..)]
  simp [headOfMsg, bytesOf]

theorem msgSigned_msgOf (key : Bytes) (n type flags : Nat) (body : Bytes) :
    msgSigned (msgOf key n type flags body) = headOfMsg n type flags body :=
  msgSigned_append _ _ (gmac_length ..)

theorem msgTag_msgOf (key : Bytes) (n type flags : Nat) (body : Bytes) :
    msgTag (msgOf key n type flags body) = gmac key (msgIv n 0 1) (headOfMsg n type flags body) :=
  msgTag_append _ _ (gmac_length ..)

theorem itemsOf_msgOf (key : Bytes) (n type flags : Nat) (body : Bytes) :
    itemsOf (msgOf key n type flags body) = parseItems (body.length + 1) body := by
  rw [itemsOf, msgBody_msgOf]

/-- Session 15, open on a path, its credential in slot 1. -/
def x15 (p : MabinPath) : Session := { session with path := p }

def open15 (p : MabinPath) : State :=
  { base with mabin := { base.mabin with
      sessions := [(15, x15 p)], creds := [(1, { tier := 3, key := zeros 32 })] } }

/-- A message to session 15. -/
def msg (type flags : Nat) (body : Bytes) : Bytes := msgOf (zeros 32) 15 type flags body

theorem msgBody_msg (type flags : Nat) (body : Bytes) : msgBody (msg type flags body) = body :=
  msgBody_msgOf ..

theorem itemsOf_msg (type flags : Nat) (body : Bytes) :
    itemsOf (msg type flags body) = parseItems (body.length + 1) body := itemsOf_msgOf ..

theorem accepts_msg {s : State} {p : MabinPath} {x : Session} {type flags : Nat} {body : Bytes}
    (a : calm s = true ∧ (s.mabin.holder = none ∨ s.beat < s.mabin.expires) ∧
      sessionAt s 15 = some x ∧ sessionIdle s 15 = false ∧ x.frozen = false ∧ x.key = zeros 32 ∧
      freshCtr x 1 = true)
    (b : body.length + 36 ≤ msgLimit p ∧ isOpening (msg type flags body) = false ∧
      msgSess (msg type flags body) = 15 ∧ msgCtr (msg type flags body) = 1 ∧
      byteAt (msg type flags body) 0 = 1 ∧ natAt (msg type flags body) 6 2 = body.length + 36 ∧
      ((msgType (msg type flags body) == 2 || msgType (msg type flags body) == 3 ||
        msgType (msg type flags body) == 4) && (parseItems (body.length + 1) body).isNone) = false) :
    Accepts s p 15 x (msg type flags body) := by
  obtain ⟨a1, a2, a3, a4, a5, a6, a7⟩ := a
  obtain ⟨b1, b2, b3, b4, b5, b6, b7⟩ := b
  have hl : (msg type flags body).length = body.length + 36 := msgOf_length ..
  refine ⟨running_of_calm a1, a2, a3, a4, a5, by omega, by omega, b2, b3, ?_, by rw [b4]; exact a7, ?_⟩
  · rw [b4, a6]; exact (msgTag_msgOf ..).trans (by rw [msg, msgSigned_msgOf])
  · rw [protocolFault, itemsOf_msg, b5, b6, hl, b7]; simp

/-- A HELLO that opens a session with the credential of slot 1. -/
def helloBody : Bytes := [1, 0, 1, 3, 1, 0, 0, 0] ++ zeros 16

def helloHead : Bytes := headOfMsg 0xFFFF 1 0 helloBody

def hello : Bytes := helloHead ++ gmac (zeros 32) (zeros 12) helloHead

theorem hello_body : msgBody hello = helloBody := by
  rw [hello, msgBody_append _ _ (gmac_length ..)]; decide +kernel

theorem hello_length : hello.length = 60 := by
  rw [hello, List.length_append, gmac_length]; decide +kernel

theorem hello_tag : msgTag hello = gmac (zeros 32) (zeros 12) (msgSigned hello) := by
  rw [hello, msgTag_append _ _ (gmac_length ..), msgSigned_append _ _ (gmac_length ..)]

theorem hello_nonce : slice (slice helloBody 8 16) 0 12 = zeros 12 := by decide +kernel

def idleState : State := lateBeat (1250000000 * 2 ^ 24) (open15 .mailbox)

/-- The lock held by session h. -/
def locked (h : Nat) (s : State) : State :=
  { s with mabin := { s.mabin with holder := some h, expires := 1000 } }

theorem witness_SessionsOpenRekeyAndClose :
    (Running (open15 .mgmtUdp) ∧ isOpening hello = true ∧ hello.length = 60 ∧ natAt hello 6 2 = 60 ∧
      credOf (open15 .mgmtUdp) (byteAt (msgBody hello) 4) = some { tier := 3, key := zeros 32 } ∧
      msgTag hello = gmac (zeros 32) (slice (slice (msgBody hello) 8 16) 0 12) (msgSigned hello) ∧
      chooseVersion (natAt (msgBody hello) 0 2) (natAt (msgBody hello) 2 2) = some 0x0103 ∧
      (List.range 16).find? (fun n => (sessionAt (open15 .mgmtUdp) n).isNone) = some 0) ∧
    (Accepts (open15 .mailbox) .mailbox 15 (x15 .mailbox) (msg 1 8 helloBody) ∧
      msgType (msg 1 8 helloBody) = 1 ∧ msgRekey (msg 1 8 helloBody) = true ∧
      msgClose (msg 1 8 helloBody) = false ∧ 2 ≤ (x15 .mailbox).minor ∧
      (msgBody (msg 1 8 helloBody)).length = 24 ∧
      credOf (open15 .mailbox) (x15 .mailbox).cred = some { tier := 3, key := zeros 32 } ∧
      (x15 .mailbox).held = [] ∧
      chooseVersion (natAt (msgBody (msg 1 8 helloBody)) 0 2) (natAt (msgBody (msg 1 8 helloBody)) 2 2)
        = some 0x0103) ∧
    (Accepts (locked 15 (open15 .mailbox)) .mailbox 15 (x15 .mailbox) (msg 1 16 []) ∧
      msgType (msg 1 16 []) = 1 ∧ msgClose (msg 1 16 []) = true ∧
      (locked 15 (open15 .mailbox)).mabin.holder = some 15) ∧
    (Running idleState ∧ sessionIdle idleState 15 = true) := by
  simp only [msgBody_msg, hello_body]
  refine ⟨⟨?_, ?_, hello_length, ?_, ?_, by rw [hello_nonce]; exact hello_tag, ?_, ?_⟩,
    ⟨accepts_msg ?_ ?_, ?_⟩, ⟨accepts_msg ?_ ?_, ?_⟩, ?_⟩ <;>
  (try dsimp only [Running]) <;> decide +kernel

/-- An item with its bytes in a request. -/
def itemOf (idx sub kind : Nat) (value : Bytes) : Item :=
  { idx := idx, sub := sub, kind := kind, row := noRow, staged := false, value := value }

def reqBytes (i : Item) : Bytes :=
  bytesOf 2 i.idx ++ bytesOf 1 i.sub ++ bytesOf 1 i.kind ++ bytesOf 4 i.row
    ++ bytesOf 2 i.value.length ++ [0, 0] ++ i.value ++ zeros (4 * ceilDiv i.value.length 4 - i.value.length)

def readOne : Item := itemOf 0x8820 1 3 []
def writeOne : Item := itemOf 0x8820 1 3 [0, 9]
def stageOne : Item := itemOf 0x2800 1 4 (bytesOf 4 5000)

theorem witness_ItemsAreReadWrittenAndStaged :
    (Accepts (open15 .mgmtUdp) .mgmtUdp 15 (x15 .mgmtUdp) (msg 2 0 (reqBytes readOne)) ∧
      msgType (msg 2 0 (reqBytes readOne)) = 2 ∧ itemsOf (msg 2 0 (reqBytes readOne)) = some [readOne] ∧
      readError (served (open15 .mgmtUdp) 15 (x15 .mgmtUdp) (msg 2 0 (reqBytes readOne))) 15 readOne = 0 ∧ (x15 .mgmtUdp).txCtr ≠ ctrEnd ∧
      (readItem (countItem (served (open15 .mgmtUdp) 15 (x15 .mgmtUdp) (msg 2 0 (reqBytes readOne))) 15 1
        readOne) readOne).2.length ≤ 1300) ∧
    (Accepts (open15 .mailbox) .mailbox 15 (x15 .mailbox) (msg 3 0 (reqBytes writeOne)) ∧
      msgType (msg 3 0 (reqBytes writeOne)) = 3 ∧
      itemsOf (msg 3 0 (reqBytes writeOne)) = some [writeOne] ∧
      joinsStaging writeOne.idx writeOne.sub = false ∧
      writeItemError (served (open15 .mailbox) 15 (x15 .mailbox) (msg 3 0 (reqBytes writeOne))) 15 writeOne = 0 ∧
      ∃ u, writeAny (receive 99 .mailbox) writeOne.idx writeOne.sub writeOne.row writeOne.value
        (served (open15 .mailbox) 15 (x15 .mailbox) (msg 3 0 (reqBytes writeOne))) = some u) ∧
    (Accepts (locked 15 (open15 .inbandUdp)) .inbandUdp 15 (x15 .inbandUdp) (msg 4 0 (reqBytes stageOne)) ∧
      msgType (msg 4 0 (reqBytes stageOne)) = 4 ∧
      itemsOf (msg 4 0 (reqBytes stageOne)) = some [stageOne] ∧
      stageItemError (served (locked 15 (open15 .inbandUdp)) 15 (x15 .inbandUdp)
        (msg 4 0 (reqBytes stageOne))) 15 stageOne = 0 ∧
      joinsStaging stageOne.idx stageOne.sub = false ∧ stageOne.kind ≠ 9 ∧
      stagedValueOk stageOne.idx stageOne.sub stageOne.row stageOne.value = true) := by
  simp only [itemsOf_msg]
  refine ⟨⟨accepts_msg ?_ ?_, ?_⟩, ⟨accepts_msg ?_ ?_, ?_, ?_, ?_, ?_, Option.isSome_iff_exists.1 ?_⟩,
    accepts_msg ?_ ?_, ?_⟩ <;> decide +kernel

/-- The next version with tick.rate 5000 staged. -/
def nextVer : VerCfg :=
  { num := 1, cfg := [(keyOf 0x2800 1 noRow, bytesOf 4 5000)], images := [], sides := 0 }

/-- Subscriber nodes from 136 on are not enabled. -/
theorem sub_off (n : Nat) (h : 136 ≤ n) (h' : n < 8192) : subEnabled nextVer n = false := by
  have hk : keyOf 0x2800 1 noRow ≠ keyOf 0x7000 7 n := fun e => by
    have e' : (0x2800 * 256 + 1) * 2 ^ 32 + 0xFFFFFFFF = (0x7000 * 256 + 7) * 2 ^ 32 + n := e
    omega
  have hr : lookupObj 0x7000 7 = some (obj 0x7000 1 7 9 .st 1 .soft 8192 2 0 0 0) := by decide +kernel
  have hd : defaultAt 0x7000 7 n = bytesOf 2 0 := by
    simp only [defaultAt, hr, defaultOf, obj]
    simp [h', Nat.not_lt.2 h]
  simp only [subEnabled, subParent, cfgRow, nextVer, tfind, hk, if_false, hd]
  decide

theorem subs_ok : ((List.range 8192).all fun n => !subEnabled nextVer n ||
    svcAttached nextVer (subService nextVer n)) = true := by
  have h0 : ((List.range 136).all fun n => !subEnabled nextVer n ||
    svcAttached nextVer (subService nextVer n)) = true := by decide +kernel
  refine List.all_eq_true.2 fun n hn => ?_
  by_cases h : n < 136
  · exact List.all_eq_true.1 h0 n (List.mem_range.2 h)
  · simp [sub_off n (by omega) (List.mem_range.1 hn)]

theorem gates_ok : ((List.range 136).all (gateOk nextVer)) = true := by decide +kernel

theorem next_ok (s : State) (a : searchOk s VerCfg.zero nextVer = true)
    (b : imagesOk s VerCfg.zero nextVer = true)
    (c : ((changedRows VerCfg.zero nextVer 0x7000 7).all (fun n =>
        subService VerCfg.zero n == subService nextVer n || !enabledLive s n)
      && (changedRows VerCfg.zero nextVer 0x7000 8).all (fun n => !servesLive s n)) = true) :
    versionOk s VerCfg.zero nextVer = true := by
  have h : (plansOk nextVer && profilesOk nextVer && templatesOk nextVer && balanceOk nextVer
    && (List.range 136).all (portSelOk nextVer)) = true := by decide +kernel
  simp only [Bool.and_eq_true] at h c
  simp only [versionOk, topologyOk, subs_ok, gates_ok, a, b, c, h, Bool.and_self]

theorem sealReason_of {s : State} {t : Nat}
    (a : s.ver.pending.length < 3 ∧ t ≤ s.rm.tick + 2 ^ 24 ∧ stagedLegacy s = false ∧
      s.mabin.imageHere = false ∧ imagePairOk s = true ∧ newestVer s = VerCfg.zero ∧ stagedVer s = nextVer)
    (b : versionOk s VerCfg.zero nextVer = true) : sealReason s t = 0 := by
  obtain ⟨a1, a2, a3, a4, a5, a6, a7⟩ := a
  have a2' : ¬ s.rm.tick + 2 ^ 24 < t := Nat.not_lt.2 a2
  simp only [sealReason, a3, a4, a5, a6, a7, b, Nat.not_le.2 a1, a2', if_false]
  simp

/-- Something is staged: tick.rate 5000. -/
def withStaged (s : State) : State :=
  { s with mabin := { s.mabin with staged := [(keyOf 0x2800 1 noRow, bytesOf 4 5000)] } }

/-- COMMIT with target tick 9. -/
def commitBody : Bytes := bytesOf 8 9 ++ zeros 4

theorem witness_TheStagingLockIsTakenCommittedAndFreed :
    (Accepts (open15 .mailbox) .mailbox 15 (x15 .mailbox) (msg 6 0 []) ∧ msgType (msg 6 0 []) = 6 ∧
      (open15 .mailbox).mabin.holder = none ∧
      (locked 15 (open15 .mailbox)).mabin.holder = some 15 ∧
      leaseEnd (open15 .mailbox) > (open15 .mailbox).beat) ∧
    (let s := withStaged (locked 15 (open15 .mailbox))
     Accepts s .mailbox 15 (x15 .mailbox) (msg 5 0 commitBody) ∧ msgType (msg 5 0 commitBody) = 5 ∧
      (msgBody (msg 5 0 commitBody)).length = 12 ∧ byteAt (msgBody (msg 5 0 commitBody)) 8 = 0 ∧
      s.mabin.holder = some 15 ∧ leaseEnd s > s.beat ∧ anyStaged s = true ∧
      sealReason (served s 15 (x15 .mailbox) (msg 5 0 commitBody))
        (natAt (msgBody (msg 5 0 commitBody)) 0 8) = 0) ∧
    (Accepts (locked 15 (open15 .mailbox)) .mailbox 15 (x15 .mailbox) (msg 7 0 []) ∧
      msgType (msg 7 0 []) = 7 ∧ (locked 15 (open15 .mailbox)).mabin.holder = some 15 ∧
      leaseEnd (locked 15 (open15 .mailbox)) > (locked 15 (open15 .mailbox)).beat) ∧
    (MayWrite base .bar 0x1300 4 noRow (bytesOf 8 (2 ^ 60)) ∧ base.mabin.holder = none) ∧
    (MayWrite (locked 16 base) .bar 0x1300 4 noRow (bytesOf 8 (2 * 2 ^ 60)) ∧
      (locked 16 base).mabin.holder = some 16 ∧ (locked 16 base).beat < (locked 16 base).mabin.expires ∧
      leaseEnd (locked 16 base) > (locked 16 base).beat) ∧
    (let s := withStaged (locked 16 base)
     2 ^ 24 < 2 ^ 48 ∧ MayWrite s .bar 0x1300 4 noRow (bytesOf 8 (3 * 2 ^ 60 + 2 ^ 24)) ∧
      s.mabin.holder = some 16 ∧ s.beat < s.mabin.expires ∧ leaseEnd s > s.beat ∧
      anyStaged s = true ∧ sealReason s (2 ^ 24) = 0) ∧
    (Running (atBeat 1000 (locked 3 base)) ∧ (atBeat 1000 (locked 3 base)).mabin.holder = some 3 ∧
      (atBeat 1000 (locked 3 base)).mabin.expires ≤ (atBeat 1000 (locked 3 base)).beat) := by
  simp only [msgBody_msg]
  refine ⟨⟨accepts_msg ?_ ?_, ?_⟩,
    ⟨accepts_msg ?_ ?_, ?_, ?_, ?_, ?_, ?_, ?_, sealReason_of ?_ (next_ok _ ?_ ?_ ?_)⟩,
    ⟨accepts_msg ?_ ?_, ?_⟩, ?_, ?_, ⟨?_, ?_, ?_, ?_, ?_, ?_, sealReason_of ?_ (next_ok _ ?_ ?_ ?_)⟩, ?_⟩ <;>
  (try dsimp only [Running, MayWrite]) <;> decide +kernel

/-- Body and state of an answer that is no error. -/
def goodBody : Reply → Option Bytes
  | .good _ b => some b
  | .bad .. => none

theorem good_of {r : Reply} {b : Bytes} (h : goodBody r = some b) : ∃ u, r = .good u b := by
  cases r <;> simp_all [goodBody]

def addEvents : Bytes := [1, 0, 0, 0xFF, 0xFF]

def addObject : Bytes := [2, 0x88, 0x20, 1] ++ bytesOf 1 0 ++ bytesOf 4 65535

/-- A block of the value of object 0x8820.1: read, and one chunk of a write. -/
def blockHead (op len : Nat) : Bytes :=
  [BitVec.ofNat 8 op, 0] ++ bytesOf 2 0x8820 ++ [1, 0] ++ bytesOf 2 0 ++ bytesOf 4 noRow ++ bytesOf 4 0
    ++ bytesOf 4 len

theorem witness_SubscriptionsAndBlocks :
    (Accepts (open15 .mailbox) .mailbox 15 (x15 .mailbox) (msg 8 0 addEvents) ∧
      msgType (msg 8 0 addEvents) = 8 ∧ byteAt (msgBody (msg 8 0 addEvents)) 0 = 1 ∧
      (msgBody (msg 8 0 addEvents)).length = 5 ∧ (x15 .mailbox).subs.length < 64 ∧
      ∀ b, b ∈ (x15 .mailbox).subs → b.kind ≠ 1) ∧
    (Accepts (open15 .mailbox) .mailbox 15 (x15 .mailbox) (msg 8 0 addObject) ∧
      msgType (msg 8 0 addObject) = 8 ∧ byteAt (msgBody (msg 8 0 addObject)) 0 = 2 ∧
      (msgBody (msg 8 0 addObject)).length = 9 ∧ 2 ≤ (x15 .mailbox).minor ∧
      (x15 .mailbox).subs.length < 64 ∧ (∀ b, b ∈ (x15 .mailbox).subs → b.kind ≠ 2) ∧
      ((lookupObj (natAt (msgBody (msg 8 0 addObject)) 1 2) (byteAt (msgBody (msg 8 0 addObject)) 3)).any
        fun r => r.acc == .rw) = true ∧
      0 < natAt (msgBody (msg 8 0 addObject)) 5 4 ∧ natAt (msgBody (msg 8 0 addObject)) 5 4 ≤ 65535) ∧
    (Accepts (open15 .mailbox) .mailbox 15 (x15 .mailbox) (msg 8 0 [3]) ∧ msgType (msg 8 0 [3]) = 8 ∧
      byteAt (msgBody (msg 8 0 [3])) 0 = 3 ∧ (msgBody (msg 8 0 [3])).length = 1) ∧
    (let m := msg 10 0 (blockHead 1 2)
     Accepts (open15 .mgmtUdp) .mgmtUdp 15 (x15 .mgmtUdp) m ∧ msgType m = 10 ∧
      1 ≤ (x15 .mgmtUdp).minor ∧ 20 ≤ (msgBody m).length ∧ byteAt (msgBody m) 0 = 1 ∧
      (x15 .mgmtUdp).txCtr ≠ ctrEnd ∧
      ∃ u, blockRead (served (open15 .mgmtUdp) 15 (x15 .mgmtUdp) m) 15 .mgmtUdp (msgBody m)
        = .good u (blockHead 1 2 ++ [0x0F, 0xA0])) ∧
    (let m := msg 10 32 (blockHead 2 2 ++ [0])
     Accepts (open15 .mgmtUdp) .mgmtUdp 15 (x15 .mgmtUdp) m ∧ msgType m = 10 ∧
      20 ≤ (msgBody m).length ∧ byteAt (msgBody m) 0 = 2 ∧ natAt (msgBody m) 6 2 = 0 ∧
      isStaged (natAt (msgBody m) 2 2) (byteAt (msgBody m) 4) = false ∧ msgMore m = true) ∧
    (let m := msg 10 0 (blockHead 2 2 ++ [0, 9])
     Accepts (open15 .mailbox) .mailbox 15 (x15 .mailbox) m ∧ msgType m = 10 ∧
      20 ≤ (msgBody m).length ∧ byteAt (msgBody m) 0 = 2 ∧ natAt (msgBody m) 6 2 = 0 ∧
      isStaged (natAt (msgBody m) 2 2) (byteAt (msgBody m) 4) = false ∧ msgMore m = false ∧
      ∃ u, blockApply (receive 99 .mailbox) (putBlock (served (open15 .mailbox) 15 (x15 .mailbox) m) 15 none)
        15 ((msgBody m).take 20) ((msgBody m).drop 20) = .good u []) := by
  simp only [msgBody_msg]
  refine ⟨⟨accepts_msg ?_ ?_, ?_⟩, ⟨accepts_msg ?_ ?_, ?_⟩, ⟨accepts_msg ?_ ?_, ?_⟩,
    ⟨accepts_msg ?_ ?_, ?_, ?_, ?_, ?_, ?_, good_of ?_⟩, ⟨accepts_msg ?_ ?_, ?_⟩,
    ⟨accepts_msg ?_ ?_, ?_, ?_, ?_, ?_, ?_, ?_, good_of ?_⟩⟩ <;> decide +kernel

def credValue (slot tier : Nat) (key : Bytes) : Bytes :=
  [BitVec.ofNat 8 slot, BitVec.ofNat 8 tier, 0, 0] ++ key

theorem witness_MailboxAndObjectWrites :
    (Accepts (open15 .mailbox) .mailbox 15 (x15 .mailbox) (msg 6 0 []) ∧ msgType (msg 6 0 []) = 6 ∧
      (open15 .mailbox).mabin.holder = none ∧
      MayWrite (open15 .mailbox) .bar 0x1100 7 noRow (msg 6 0 [])) ∧
    (MayWrite base .bar 0x1200 1 noRow (credValue 8 2 (zeros 31 ++ [1])) ∧
      byteAt (credValue 8 2 (zeros 31 ++ [1])) 0 = 8 ∧ byteAt (credValue 8 2 (zeros 31 ++ [1])) 1 ≤ 2) ∧
    (MayWrite base .bar 0x1200 1 noRow (credValue 1 0 (zeros 32)) ∧
      byteAt (credValue 1 0 (zeros 32)) 0 = 1 ∧ natOf (slice (credValue 1 0 (zeros 32)) 4 32) = 0) ∧
    MayWrite base .bar 0x8820 1 noRow [0xFF, 0xFF] ∧
    (65535 < 2 ^ 16 ∧ MayWrite base .bar 0x8820 1 noRow (bytesOf 2 65535)) ∧
    (Running base ∧ fnEnabled base 0 = true ∧ (fnAt base 0).frozen = false ∧ 0x27FF8 < 0x30000 ∧
      msixWord base 0 0x27FF8 = some 4095 ∧ msixWord base 0 0x28000 = none) := by
  refine ⟨⟨accepts_msg ?_ ?_, ?_⟩, ?_⟩ <;> (try dsimp only [MayWrite, Running]) <;> decide +kernel

/-! ## Witnesses: images, keys, releases, counters, power, log -/

/-- A stored image, wholly received. -/
def imageState : State :=
  { locked 16 base with mabin := { (locked 16 base).mabin with
      image := zeros 256, imageHere := true, imageDone := true, imageStatus := 2 ^ 24 } }

def keyTaken : State :=
  { open15 .mailbox with sys := { base.sys with fuses := { slots := [(4, zeros 48)], revoked := [] } } }

theorem witness_ImagesAndKeys :
    (Running (locked 16 base) ∧ tierOf (locked 16 base) .bar = some 2 ∧ 2 ≤ 2 ∧
      (locked 16 base).mabin.holder = some (originNum .bar) ∧
      (locked 16 base).beat < (locked 16 base).mabin.expires ∧
      ((if (locked 16 base).mabin.imageHere && !(locked 16 base).mabin.imageDone
        then (locked 16 base).mabin.image else []) ++ zeros 8).length ≤ 16777216) ∧
    (Running imageState ∧ imageState.mabin.imageHere = true ∧ imageState.mabin.imageDone = true ∧
      imageState.mabin.imageStatus = 2 ^ 24) ∧
    ((zeros 48).length = 48 ∧ MayWrite (open15 .mailbox) (.sess 15) 0x5800 5 noRow (bytesOf 1 4 ++ zeros 48) ∧
      1 ≤ 4 ∧ 4 ≤ 4 ∧ slotTaken (open15 .mailbox) 4 = false ∧ (open15 .mailbox).sys.warnSince = none ∧
      (open15 .mailbox).sys.fuseQ = []) ∧
    (MayWrite keyTaken (.sess 15) 0x5800 6 noRow (bytesOf 1 4) ∧ slotTaken keyTaken 4 = true ∧
      slotRevoked keyTaken 4 = false ∧ keyTaken.sys.warnSince = none ∧ keyTaken.sys.fuseQ = []) := by
  (try dsimp only [Running, MayWrite]); and_intros <;> decide +kernel

theorem witness_AcceptedReleasesWait :
    MayWrite base .bar (0x5900 + 63) 8 noRow [1] ∧ MayWrite base .bar (0x5900 + 63) 9 noRow [1] ∧
    (129 < 2 ^ 16 ∧ 7 < 2 ^ 8 ∧ MayWrite base .bar 0x9040 1 noRow (bytesOf 4 (frozenWord 1 7 129))) ∧
    MayWrite base .bar 0x9040 1 noRow (bytesOf 4 (frozenWord 2 0xFF 63)) ∧
    MayWrite base .bar 0x9040 1 noRow (bytesOf 4 (frozenWord 3 0xFF 8209)) ∧
    MayWrite base .bar 0x9040 1 noRow (bytesOf 4 (frozenWord 4 0xFF 15)) ∧
    MayWrite base .bar 0x9040 1 noRow (bytesOf 4 (frozenWord 5 0xFF 127)) ∧
    (MayWrite base .bar 0x501C 1 noRow (bytesOf 4 (2 ^ 27 - 1)) ∧ slotPipe (2 ^ 27 - 1) < 8) ∧
    MayWrite base .bar 0x5040 7 noRow (bytesOf 4 (2 ^ 20 - 1)) := by
  (try dsimp only [MayWrite]); and_intros <;> decide +kernel

/-- A row of cnt.filter.select that the part accepts. -/
def filterRow : Bytes := zeros 32

theorem witness_CountersFollowTheirWrites :
    (9215 ≤ 9215 ∧ MayWrite base .bar 0x8800 2 noRow (bytesOf 4 9215)) ∧
    (MayWrite base .bar 0x8810 1 255 filterRow ∧ filterRowOk filterRow = true) ∧
    (MayWrite base .bar 0x8810 2 noRow (zeros 16) ∧ (zeros 16).length = 16) ∧ Running base := by
  (try dsimp only [Running, MayWrite]); and_intros <;> decide +kernel

/-- Pipe 5 is no home pipe. -/
def spare : State := { base with objs := putCfg [] 0x5000 2 noRow [1] }

def waking : State :=
  let s := modPipe base 7 fun k => { k with power := 2, wakeDone := true }
  { s with beat := 312500, rm := { s.rm with boundaryBeat := 312500, k := 2 } }

theorem witness_PipePowerLogAndI2c :
    (5 < 8 ∧ rw spare 0x9010 5 < 256 ∧
      MayWrite spare .bar 0x9010 5 noRow (bytesOf 1 (setBit (rw spare 0x9010 5) 5 true)) ∧
      pipeMayStop spare 5 = true) ∧
    (7 < 8 ∧ MayWrite base .bar 0x9010 5 noRow (bytesOf 1 (setBit (rw base 0x9010 5) 7 false))) ∧
    (Running waking ∧ (pipeAt waking 7).power = 2 ∧ (pipeAt waking 7).wakeDone = true ∧
      waking.sys.warnSince = none ∧ waking.beat = waking.rm.boundaryBeat ∧
      (pipeAt waking 7).resetBeat < waking.beat) ∧
    (2 ^ 64 - 1 < 2 ^ 64 ∧ MayWrite base .bar 0x9030 2 noRow (bytesOf 8 (2 ^ 64 - 1))) ∧
    (let s := { base with sys := { base.sys with i2cPtr := 2 } }
     settled s = s ∧ s.sys.i2cPtr = 2 ∧ tfind s.sys.i2cLatch 2 = none) := by
  (try dsimp only [Running, MayWrite]); and_intros <;> decide +kernel

/-! ## Witnesses: statements of every state -/

def frozenLow : State :=
  { runAs .frozen with sys := { (runAs .frozen).sys with supplies :=
    [Supply.init, Supply.init, { Supply.init with state := 1 }] } }

theorem witness_FrozenPartWaitsForAReset :
    (frozenLow.sys.run = .frozen ∧ 1 < 3 ∧ 1 < frozenLow.sys.supplies.length ∧
      (supplyAt frozenLow 1).state = 0) ∧
    (2 < 3 ∧ 2 < frozenLow.sys.supplies.length ∧ (supplyAt frozenLow 2).state ≠ 0) ∧
    ((∀ b, Instr.beat ≠ .porNAssert b) ∧ Instr.beat ≠ .resetNAssert ∧
      ∀ m mv, Instr.beat ≠ .supplyReset m mv) := by
  refine ⟨by decide, by decide, ?_⟩; simp

theorem witness_SecretsNeedASafePath :
    (isSecret 0x7800 1 = true ∧ (lookupObj 0x7800 1).isSome = true ∧ tierOf base .bar = some 2 ∧
      ((lookupObj 0x7800 1).any fun r => decide (r.tier ≤ 2)) = true) ∧
    (isSecret 0x1200 1 = true ∧
      ((lookupObj 0x1200 1).any fun r => (itemOf 0x1200 1 8 []).kind == r.kind && decide (r.tier ≤ 3)) = true ∧
      (itemOf 0x1200 1 8 []).row = noRow ∧ sessionAt (open15 .mgmtUdp) 15 = some (x15 .mgmtUdp) ∧
      (x15 .mgmtUdp).path ≠ .mailbox ∧ tierOf (open15 .mgmtUdp) (.sess 15) = some 3) ∧
    settled (open15 .mgmtUdp) = open15 .mgmtUdp ∧
    (∃ t, exec (.mabinCredWrite (.sess 15) (credValue 1 0 (zeros 32))) (open15 .mgmtUdp) = .next t) ∧
    (∃ t, exec (.cipherKeyWrite (.sess 15) keyValue) (open15 .mgmtUdp) = .next t) := by
  refine ⟨by decide +kernel, by decide +kernel, by decide +kernel, ⟨_, rfl⟩, _, rfl⟩

/-- Shift counts 47, the window's last whole one, and beyond. -/
theorem witness_WideShiftsEmptyTheWindow :
    (bit (2 ^ 47) 47 = true ∧ 0 < 65536 ∧ 65536 ≤ 65536 ∧
      47 = (47 % 65536 + 65536 - bits (2 ^ 47) 63 48 % 65536) % 65536 ∧ 47 ≤ 47 ∧ 47 < (65536 + 1) / 2) ∧
    (32767 = (32767 % 65536 + 65536 - bits (2 ^ 47) 63 48 % 65536) % 65536 ∧ 32767 < (65536 + 1) / 2) := by
  decide +kernel

theorem witness_StepRunsTheFrontCommand :
    ({ base with pending := [.beat, .freeze] }).pending = .beat :: [.freeze] ∧ base.pending = [] := by
  decide

theorem witness_CommandsFollowTheirBoundary :
    actsOn .freeze (actsOn .freeze base) = actsOn .freeze base ∧
    (runAs .frozen).sys.run ≠ .running ∧
    ((atBeat 312500 base).sys.run = .running ∧ (atBeat 312500 base).sys.soft = false ∧
      boundaryDue (atBeat 312500 base) = true) := by
  decide +kernel

theorem base_good : Good base :=
  ⟨by decide, by decide, by decide, by decide, by decide, by decide⟩

theorem witness_EveryStepKeepsTheBounds :
    Good base ∧ (∃ t, step base = .next t) ∧ ∃ t, step { base with pending := [.beat] } = .next t :=
  ⟨base_good, ⟨_, rfl⟩, _, rfl⟩

theorem witness_CommandsLeaveTheRestOfTheirGroup :
    (0 ≠ 3 ∧ settled (tbIn 3 .settling) = tbIn 3 .settling ∧ Instr.tbValid 3 ∈ [Instr.tbEnable .bar 3, .tbValid 3, .tbDisable .bar 3, .tbStep .bar 3 0,
      .tbRateWrite .bar 3 0, .tbSlew .bar 3 0] ∧ ∃ t, exec (.tbValid 3) (tbIn 3 .settling) = .next t) ∧
    (settled (pinState 1) = pinState 1 ∧ ∃ t, exec (.timeOutPulse 7) (pinState 1) = .next t) ∧
    (settled tinState = tinState ∧ ∃ t, exec (.timeCapture 3 true 0) tinState = .next t) ∧
    (settled (posting 4095 0) = posting 4095 0 ∧
      ∃ t, exec (.rxRingDoorbell 0 4095 16) (posting 4095 0) = .next t) ∧
    (8191 ≠ txRing 4094 ∧ ∃ t, exec (.txRingDoorbell 0 4094 16) (posting 4095 0) = .next t) ∧
    (settled (busyLane 129) = busyLane 129 ∧
      ∃ t, exec (.laneSearchWindowEnd 129 0) (busyLane 129) = .next t) ∧
    (settled (running 129 9 3 (.train 5)) = running 129 9 3 (.train 5) ∧
      ∃ t, exec (.trainingDone 129 []) (running 129 9 3 (.train 5)) = .next t) := by
  have h (s : State) (a : calm s = true) : settled s = s := (running_of_calm a).2
  exact ⟨⟨by decide, h _ (by decide +kernel), by decide, _, rfl⟩, ⟨h _ (by decide +kernel), _, rfl⟩,
    ⟨h _ (by decide +kernel), _, rfl⟩, ⟨h _ (by decide +kernel), _, rfl⟩, ⟨by decide, _, rfl⟩,
    ⟨h _ (by decide +kernel), _, rfl⟩, h _ (by decide +kernel), _, rfl⟩

theorem witness_FramesOfResetsBeatsAndHome :
    (family .counterDump ∈ [Family.resets, .beats, .home, .search] ∧ .fuses ∉ mayTouch .counterDump ∧
      ∃ t, exec .counterDump dumping = .next t) ∧
    family (.twrite 0) = .search ∧ family (.homeBeat 0 none) = .home ∧ family .freeze = .resets := by
  refine ⟨⟨by decide, by decide, _, rfl⟩, by decide⟩

theorem witness_FramesOfTrafficPortsAndTime :
    (family (.linkDown 129) ∈ [Family.frames, .ports, .cipher, .timing, .arbiters] ∧
      .timeBases ∉ mayTouch (.linkDown 129) ∧ ∃ t, exec (.linkDown 129) (upNode 129 9) = .next t) ∧
    family (.frameTail ⟨0, []⟩) = .frames ∧ family .entropyHealthFail = .cipher ∧
    family (.tbValid 0) = .timing ∧ family (.arbiterRound 0) = .arbiters := by
  refine ⟨⟨by decide, by decide, _, rfl⟩, by decide⟩

theorem witness_FramesOfHostTablesAndMabin :
    (family (.completionWrite 7) ∈ [Family.host, .tables, .mabin, .counters, .releases] ∧
      .cipher ∉ mayTouch (.completionWrite 7) ∧ ∃ t, exec (.completionWrite 7) completing = .next t) ∧
    family .imageVerify = .tables ∧ family .localLock = .mabin ∧
    family (.cntFilterChain .bar []) = .counters ∧ family (.i2cRead 1) = .releases := by
  refine ⟨⟨by decide, by decide, _, rfl⟩, by decide⟩

/-! ## Well-formed commands: each check refuses a command that it is there for -/

theorem test_ill_formed_1 : ([
   .boot 4 none false false false false, .resetCmdChip (.sess 16), .resetCmdSoft (.sess 16),
   .resetCmdPipe (.sess 16) 0, .resetCmdPipe .bar 256, .resetCmdPort (.sess 16) 0,
   .resetCmdPort .bar 256, .pipeResetStart 8, .pipeReset 8, .functionReset 64, .supplyWarn 3 0,
   .supplyDip 3 0, .supplyReset 3 0, .debugFreeze (.sess 16), .slotRetire 4, .objectNotify 16,
   .homeBeat 8 none, .hbmReadLand 8 0 .ok, .hbmWriteLand 8 0, .hbmWriteLand 0 134217728,
   .holdingQueueRelease 8, .microwordIssue 64 0 .ok, .microwordIssue 0 16 .ok,
   .engineBudgetTrap 64 0, .engineBudgetTrap 0 16, .resequencerRelease 64, .idleStepStart 64,
   .idleStepPublish 64 0 [], .idleStepPublish 0 16 [], .idleOverrun 64 0, .idleOverrun 0 16,
   .packetCommit 8, .ageCommit 8, .relocMoveCommit 8, .dscrubCommit 8, .hcmdInsert 8,
   .hcmdDelete 8, .hcmdModify 8, .hcmdRead 8, .hcmdRejected 8,
   .flowQuarantineRelease (.sess 16) 0, .flowQuarantineRelease .bar 4294967296,
   .natRelease (.sess 16) 0, .twrite 8, .tscrub 8 none .ok] : List Instr).all (fun c => !c.wf) = true := by decide

theorem test_ill_formed_2 : ([
   .ewrite 8, .frameIngress 136 [] 0 .ok, .frameIngress 0 [] (2 ^ 20) .ok, .frameTail ⟨136, []⟩,
   .frameTransmitStart 136 [] none, .frameTransmitEnd 136, .flowControlFrameSend 136,
   .flowControlRepeat 136, .pauseFrameReceive 136 [], .pauseExpiry 136 0, .pauseExpiry 0 8,
   .linkHoldExpiry 136, .linkFlushed 136, .gateListStarted 136, .gateInstant 136,
   .portEnable (.sess 16) 0, .portEnable .bar 130, .portDisable (.sess 16) 0,
   .portDisable .bar 136, .anComplete 136 0 0, .trainingDone 136 [], .trainingTimeout 136,
   .linkUp 136 0, .lockTimeout 136 0, .restartDelayExpiry 136, .linkDown 136, .linkHiBer 136 0,
   .linkFaultClear 136, .serRefclkLost 8, .serRefclkRestored 8, .laneSearchEnter (.sess 16) 0,
   .laneSearchEnter .bar 130, .laneSearchSlip (.sess 16) 0 0, .laneSearchSlip .bar 130 0,
   .laneSearchSlip .bar 0 256, .laneSearchWindowEnd 130 0, .laneSearchExit (.sess 16) 0,
   .laneSearchExit .bar 130, .lanePowerDeep (.sess 16) 0, .lanePowerDeep .bar 130,
   .lanePowerOff (.sess 16) 0, .lanePowerOff .bar 130, .lanePowerActive (.sess 16) 0,
   .lanePowerActive .bar 130, .lpiEnter 136] : List Instr).all (fun c => !c.wf) = true := by decide

theorem test_ill_formed_3 : ([
   .lpiWake 136, .macsecRxFrame 136 [] 0 false, .macsecRxFrame 0 [] (2 ^ 20) false,
   .macsecRxDeliver 136 .ok, .cipherUnitRestore (.sess 16) 0, .cipherUnitRestore .bar 256,
   .cipherKatDone 9 false, .lookasideJob 8210 [] [] [] [] false, .lookasideJobComplete 8210,
   .tbEnable (.sess 16) 0, .tbEnable .bar 4, .tbValid 4, .tbDisable (.sess 16) 0,
   .tbDisable .bar 4, .tbStep (.sess 16) 0 0, .tbStep .bar 4 0, .tbRateWrite (.sess 16) 0 0,
   .tbRateWrite .bar 4 0, .tbSlew (.sess 16) 0 0, .tbSlew .bar 4 0,
   .toutConfigWrite (.sess 16) 0 0 0, .toutConfigWrite .bar 8 0 0, .toutConfigWrite .bar 0 256 0,
   .toutConfigWrite .bar 0 0 18446744073709551616, .timeOutPulse 8, .timeOutPulseEnd 8,
   .timeCapture 4 false 0, .tinAck (.sess 16) 0 0, .tinAck .bar 4 0, .tinAck .bar 0 256,
   .arbiterRound 10, .arbiterGrantCut 10, .rxRingDoorbell 64 0 0, .rxRingDoorbell 0 8210 0,
   .txRingDoorbell 64 0 0, .txRingDoorbell 0 8210 0, .cmdRingDoorbell 64 0 0 [],
   .cmdRingDoorbell 0 8 0 [], .completionRingDoorbell 64 0 0, .completionRingDoorbell 0 8 0,
   .byteRingDoorbell 64 false 0, .txDescriptorFetch 8210 [], .txFrameEnter 8210 [],
   .rxWriteback 8210 ⟨[], []⟩, .completionWrite 8] : List Instr).all (fun c => !c.wf) = true := by decide

theorem test_ill_formed_4 : ([
   .msixTimerExpiry 8210, .ringEnable (.sess 16) 0 [], .ringEnable .bar 8210 [],
   .ringDisable (.sess 16) 0, .ringDisable .bar 8210, .ringStopped 8210, .dmaReadError 64 0,
   .dmaReadError 0 8210, .barWrite 64 0 0 0, .barWrite 0 6 0 0, .barWrite 0 0 536870912 0,
   .barWrite 0 0 0 18446744073709551616, .poolAllocate 64 0 0, .poolFree 64 0 0,
   .poolReqInvalid 64 0 0, .poolOwnerReclaim (.sess 16) 0, .poolOwnerReclaim .bar 128,
   .schedRowWrite (.sess 16) 0 0 [], .schedRowWrite .bar 4 0 [], .schedRowWrite .bar 0 65536 [],
   .schedClearDebt (.sess 16) 0, .schedClearDebt .bar 18446744073709551616,
   .versionCancel (.sess 16) 0, .legacyWrite (.sess 16) 0 [], .legacyWrite .bar 8 [],
   .bankModeWrite (.sess 16) 0 0, .bankModeWrite .bar 128 0, .bankModeWrite .bar 0 256,
   .engineImageStage (.sess 16) [] false, .engineKeyEnrol (.sess 16) 0 [] none,
   .engineKeyEnrol .bar 256 [] none, .engineKeyRevoke (.sess 16) 0 none,
   .engineKeyRevoke .bar 256 none, .engineClusterFreeze (.sess 16) 0,
   .engineClusterFreeze .bar 64, .engineClusterRelease (.sess 16) 0,
   .engineClusterRelease .bar 64, .sessionIdleExpiry 16, .mabinCredWrite (.sess 16) [],
   .cipherKeyWrite (.sess 16) [], .cntOverflowClear (.sess 16) 0,
   .cntFilterSelect (.sess 16) 0 [], .cntFilterSelect .bar 256 [], .cntFilterChain (.sess 16) [],
   .releasePort (.sess 16) 0 0] : List Instr).all (fun c => !c.wf) = true := by decide

theorem test_ill_formed_5 : ([
   .releasePort .bar 65536 0, .releasePort .bar 0 256, .releaseFunction (.sess 16) 0,
   .releaseFunction .bar 65536, .releaseRing (.sess 16) 0, .releaseRing .bar 65536,
   .releaseSession (.sess 16) 0, .releaseSession .bar 65536, .releasePoolOwner (.sess 16) 0,
   .releasePoolOwner .bar 65536, .powerPipeOff (.sess 16) 0, .powerPipeOff .bar 8,
   .powerPipeWake (.sess 16) 0, .powerPipeWake .bar 8, .pipePower 8, .eventLogAck (.sess 16) 0,
   .objectWrite (.sess 16) 0 0 0 [], .objectWrite .bar 65536 0 0 [],
   .objectWrite .bar 0 256 0 [], .objectWrite .bar 0 0 4294967296 [],
   .keptCoefficientsLockTimeout 136] : List Instr).all (fun c => !c.wf) = true := by decide

theorem test_well_formed :
    ([.beat, .boot 3 none true true true true, .homeBeat 7 none, .frameTail ⟨135, []⟩, .portEnable (.sess 15) 129,
      .tbEnable .bar 3, .arbiterRound 9, .ringStopped 8209, .poolOwnerReclaim .bar 127,
      .engineClusterFreeze .bar 63, .pauseExpiry 135 7, .i2cRead 9] : List Instr).all Instr.wf = true := by
  decide

/-- No row of the table has bits. -/
theorem test_no_word_decodes :
    (decodeTableWord 0 0).isNone = true ∧ (decodeTableWord 32 0xFFFFFFFF).isNone = true ∧
      State.withFetchWord base 8 1 = base := ⟨rfl, rfl, rfl⟩

/-! ## Figures of the manual's worked examples -/

/-- R73's example: C(R) and the default home plan at 4,000 Hz; C(4,800) of R55's example. -/
theorem test_default_home_plan :
    carouselMin 4000 = 9755 ∧ carouselMin 4800 = 8129 ∧
      (defaultPlan .home 4000).map Prod.snd = [914, 2133, 609, 3962, 914, 914] := by decide

/-- R372's example: a 100G four-NRZ port, 100 m, 1,000 ns, MTU 1,536. -/
theorem test_headroom : modeHeadroom 5 100 1000 12 0 = 343 := by decide +kernel

/-- R430's example: d(1,556) and d(1,538) on a 100G port. -/
theorem test_gate_time :
    frameBeats (upNode 0 5) 0 1556 = 156 ∧ frameBeats (upNode 0 5) 0 1538 = 154 := by decide +kernel

/-- R217's alt, worked by hand with the default seed_bucket of R261. -/
theorem test_alternative_bucket : altBucket base 0x5E = 0x0ACFED := by decide +kernel

/-- The check value of IEEE 802.3's CRC-32. -/
theorem test_crc32 : crc32 (ascii "123456789".toList) = 0xCBF43926 := by decide +kernel

/-- FIPS 197, C.1. -/
theorem test_aes128 :
    natOf (aesEncrypt (bytesOf 16 0x000102030405060708090a0b0c0d0e0f)
      (bytesOf 16 0x00112233445566778899aabbccddeeff)) = 0x69c4e0d86a7b0430d8cdb78070b4c55a := by
  decide +kernel

/-! ## One step of some commands -/

/-- The state after a command. -/
def after (c : Instr) (s : State) : State :=
  match exec c s with
  | .next t => t
  | _ => s

/-- R50: the beat counter counts beats. -/
theorem test_beat : (after .beat base).beat = 1 := by decide +kernel

/-- R55: at 4,000 Hz the first boundary of free running is beat 312,500; it begins tick 1. -/
theorem test_tick_boundary :
    (after .tickBoundary (atBeat 312500 base)).rm.tick = 1 ∧
      (after .tickBoundary (atBeat 312499 base)).rm.tick = 0 := by decide +kernel

/-- R65: home beat 0 runs in beat 0. -/
theorem test_home_beat : (pipeAt (after (.homeBeat 3 none) base) 3).h = 1 := by decide +kernel

/-- R602: the reset class in reset.last, 1 POWER by the pin and 2 by the internal detector. -/
theorem test_power_reset :
    (after (.porNAssert false) base).sys.last = 1 ∧ (after (.porNAssert true) base).sys.last = 2 := by
  decide +kernel

/-- R614: a frozen part does nothing on a command of its core. -/
theorem test_frozen_part_waits : (after .beat (runAs .frozen)).beat = 0 := by decide +kernel

/-- R101, R102: NEGOTIATE with Clause 73. -/
theorem test_port_enable :
    (portAt (after (.portEnable .bar 120) (negotiating 120)) 120).state = 1 := by decide +kernel

/-- R102: LOCK to UP. -/
theorem test_link_up :
    (portAt (after (.linkUp 129 0) (running 129 9 4 (.lock 5))) 129).state = 5 := by decide +kernel

/-- R361: a frame takes its cells from the free list: 64 bytes take one. -/
theorem test_frame_takes_a_cell :
    (after (.frameIngress 0 goodFrame 0 .ok) (upNode 0 2)).buf.cellsFree = 262143 := by decide +kernel

/-- R369: time 0 ends a pause of every class. -/
theorem test_pause_frame :
    (portAt (after (.pauseFrameReceive 0 pauseFrame) (stopping 1)) 0).pauseEnd = [] := by decide +kernel

/-- R476: enabling a DISABLED base makes it SETTLING. -/
theorem test_time_base_enable : (tbAt (after (.tbEnable .bar 3) base) 3).state = .settling := by
  decide +kernel

/-- R493: a capture takes a row; R494, R496: TIN_ACK removes it at the next beat. -/
theorem test_capture_and_ack :
    (tinAt (after (.timeCapture 3 true 0) tinState) 3).fifo.length = 1 ∧
      (tinAt (runSoon (after (.tinAck .bar 3 1) (after (.timeCapture 3 true 0) tinState))) 3).fifo = [] := by
  decide +kernel

/-- R502: the winner's request leaves the arbiter, and the DMA arbiter holds its grant. -/
theorem test_arbiter_round :
    ((arbAt (after (.arbiterRound 8) (contest 8 5)) 8).holder.map Prod.fst) = some 5 := by
  decide +kernel

/-- R521: a count within the ring posts; one beyond it freezes the ring. -/
theorem test_doorbell :
    (ringAt (after (.rxRingDoorbell 0 4095 16) (posting 4095 0)) 4095).prod = 16 ∧
      (ringAt (after (.rxRingDoorbell 0 4095 17) (posting 4095 0)) 4095).state = 3 := by
  decide +kernel

/-- R400: the lowest free buffer of the smallest pool that fits; a request of function 63. -/
theorem test_pool_allocate :
    tfind (pools (after .beat (after (.poolAllocate 63 1 64) poolState))).alloc (handleOf 0 0) = some 127 := by
  decide +kernel

/-- R435: the write waits in the global queue. -/
theorem test_sched_row_write :
    (after (.schedRowWrite .bar 3 135 []) base).buf.schedQ.length = 1 := by decide +kernel

/-- R569: the local session's number as the lock's holder is 16. -/
theorem test_local_lock : (after .localLock base).mabin.holder = some 16 := by decide +kernel

/-- R548: a write of a read-only object is rejected, and leaves what it names. -/
theorem test_read_only_rejected :
    (after (.objectWrite .bar 0x8820 3 noRow (zeros 8)) base).objs = [] ∧
      (after (.objectWrite .bar 0x8820 3 noRow (zeros 8)) base).host.lastReject ≠ 0 := by
  decide +kernel

/-- R579: the clear removes the overflow flag and keeps the count. -/
theorem test_overflow_clear :
    tget 0 (after (.cntOverflowClear .bar 5)
      { base with cnt := { base.cnt with words := [(5, 2 ^ 63 + 7)] } }).cnt.words 5 = 7 := by
  decide +kernel

/-- R468: an entropy failure takes all nine units out of service. -/
theorem test_entropy_fail :
    ((List.range 9).all fun u =>
      (cipherUnit (after .beat (after .entropyHealthFail base)) u).state == 1) = true := by
  decide +kernel

/-- R630: register 2 of I2C. -/
theorem test_i2c :
    (after (.i2cRead 1) (after (.i2cPointerWrite 2) base)).out = [.i2c [0xB0]] := by decide +kernel

/-- R70, R167: TSCRUB moves the scrub position. -/
theorem test_tscrub :
    (pipeAt (after (.tscrub 7 none .ok) (atBeat 243872 base)) 7).scrubPos = 1 := by decide +kernel

end Sys2Proof.Tests
end

namespace Sys2Proof.Machine

/-! ## The queue's front command -/

/-- A waiting command runs on the state from which it has been taken (R18). -/
theorem step_of_pending_eq_cons {s : State} {c : Instr} {rest : List Instr}
    (h : s.pending = c :: rest) : step s = exec c { s with pending := rest } := by
  rw [step, h]

/-- Settles O52: the two cases of the queue, a front command or none. -/
theorem stepRunsTheFrontCommand : Obligations.StepRunsTheFrontCommand :=
  ⟨fun _ _ _ waiting => step_of_pending_eq_cons waiting, fun _ idle => step_empty idle⟩

end Sys2Proof.Machine

namespace Sys2Proof.Machine

-- One proof after the other: the frames below are many short proofs, and each would hold a thread of its own.
set_option Elab.async false

/-! ## A command acts on what its boundary leaves -/

/-- A command is a function of the state that it acts on. -/
theorem exec_eq_row (c : Instr) : ∃ row : State → State, ∀ s, exec c s = .next (row (actsOn c s)) := by
  cases c <;> exact ⟨_, fun _ => rfl⟩

/-- A part that does not run has no boundary. -/
theorem settled_of_stopped {s : State} (h : s.sys.run ≠ .running) : settled s = s := by
  simp only [settled, pastSoft, pastCommit, pastBoundary, whenRun_stopped h]

/-- Settles O53: exec of a command is a function of what the boundary leaves. -/
theorem commandsFollowTheirBoundary : Obligations.CommandsFollowTheirBoundary := by
  refine ⟨fun c s again => ?_, fun s => settled_of_stopped, fun s run noSoft isDue => ?_⟩
  · obtain ⟨row, hrow⟩ := exec_eq_row c
    rw [hrow, hrow, again]
  · rw [pastBoundary, whenRun_running run, boundaryFirst]
    have : lastRestart s = false := by simp [lastRestart, mayRestart, noSoft]
    simp only [this, isDue, Bool.false_eq_true, if_false, if_true]

/-! ## Frames: what the effect of a command may change

`Touches P s t` says that t is s up to the parts of P. It is reflexive and transitive, so the frame of a function of
the model is composed from the frames of those it calls. -/

/-- p is one of P. -/
def among : List Part → Part → Bool
  | [], _ => false
  | q :: P, p => Nat.beq q.ctorIdx p.ctorIdx || among P p

/-- Every part of Q is one of P. -/
def inside (Q P : List Part) : Bool := Q.all (among P)

/-- From s to t the parts outside P stay, the queue is as it was, and what has left the part stays. -/
structure Touches (P : List Part) (s t : State) : Prop where
  queue : t.pending = s.pending
  left : s.out <+: t.out
  rest : ∀ p, among P p = false → same p s t

/-- Whatever state o answers, it touches P alone. -/
structure OptTouches (P : List Part) (s : State) (o : Option State) : Prop where
  get : ∀ {t}, o = some t → Touches P s t

/-- x where p is one of P, y where it is not. -/
abbrev pick {α : Type} (P : List Part) (p : Part) (x y : α) : α :=
  match among P p with
  | true => x
  | false => y

/-- s with the parts of P as t has them. -/
abbrev overlay (P : List Part) (s t : State) : State :=
  { s with
    beat := pick P .clock t.beat s.beat,
    rm := pick P .clock t.rm s.rm,
    sys := pick P .system (pick P .fuses t.sys { t.sys with fuses := s.sys.fuses }) s.sys,
    objs := pick P .objects t.objs s.objs,
    held := pick P .objects t.held s.held,
    deferred := pick P .objects t.deferred s.deferred,
    digObjs := pick P .digest t.digObjs s.digObjs,
    digVer := pick P .digest t.digVer s.digVer,
    ver := pick P .version t.ver s.ver,
    pkts := pick P .packets t.pkts s.pkts,
    nextPkt := pick P .packets t.nextPkt s.nextPkt,
    ports := pick P .ports t.ports s.ports,
    lanes := pick P .lanes t.lanes s.lanes,
    buf := pick P .buffer t.buf s.buf,
    mem := {
      tcam := pick P .search t.mem.tcam s.mem.tcam,
      shadow := pick P .search t.mem.shadow s.mem.shadow,
      exact := pick P .search t.mem.exact s.mem.exact,
      oldUnits := pick P .search t.mem.oldUnits s.mem.oldUnits,
      oldExact := pick P .search t.mem.oldExact s.mem.oldExact,
      widths := pick P .search t.mem.widths s.mem.widths,
      dir := pick P .flow t.mem.dir s.mem.dir,
      hbm := pick P .flow t.mem.hbm s.mem.hbm,
      companion := pick P .flow t.mem.companion s.mem.companion,
      bulk := pick P .flow t.mem.bulk s.mem.bulk,
      quarantine := pick P .flow t.mem.quarantine s.mem.quarantine,
      util := pick P .util t.mem.util s.mem.util,
      rewrite := pick P .rewrites t.mem.rewrite s.mem.rewrite,
      subParent := pick P .rewrites t.mem.subParent s.mem.subParent,
      svcParent := pick P .rewrites t.mem.svcParent s.mem.svcParent },
    pipes := pick P .pipes t.pipes s.pipes,
    clusters := pick P .clusters t.clusters s.clusters,
    tbs := pick P .timeBases t.tbs s.tbs,
    pinsOut := pick P .pins t.pinsOut s.pinsOut,
    pinsIn := pick P .pins t.pinsIn s.pinsIn,
    cipher := pick P .cipher t.cipher s.cipher,
    host := {
      rings := pick P .rings t.host.rings s.host.rings,
      fns := pick P .rings t.host.fns s.host.fns,
      arbs := pick P .arbiters t.host.arbs s.host.arbs,
      pools := pick P .pools t.host.pools s.host.pools,
      link := pick P .link t.host.link s.host.link,
      vfs := pick P .link t.host.vfs s.host.vfs,
      tmplDue := pick P .templates t.host.tmplDue s.host.tmplDue,
      lastReject := pick P .reject t.host.lastReject s.host.lastReject,
      msix := pick P .vectors t.host.msix s.host.msix },
    mabin := {
      sessions := pick P .sessions t.mabin.sessions s.mabin.sessions,
      creds := pick P .sessions t.mabin.creds s.mabin.creds,
      authFailTick := pick P .sessions t.mabin.authFailTick s.mabin.authFailTick,
      drawn := pick P .sessions t.mabin.drawn s.mabin.drawn,
      mboxOut := pick P .sessions t.mabin.mboxOut s.mabin.mboxOut,
      collect := pick P .sessions t.mabin.collect s.mabin.collect,
      holder := pick P .lock t.mabin.holder s.mabin.holder,
      expires := pick P .lock t.mabin.expires s.mabin.expires,
      staged := pick P .lock t.mabin.staged s.mabin.staged,
      emptied := pick P .lock t.mabin.emptied s.mabin.emptied,
      image := pick P .lock t.mabin.image s.mabin.image,
      imageDone := pick P .lock t.mabin.imageDone s.mabin.imageDone,
      imageHere := pick P .lock t.mabin.imageHere s.mabin.imageHere,
      target := pick P .lock t.mabin.target s.mabin.target,
      imageStatus := pick P .lock t.mabin.imageStatus s.mabin.imageStatus,
      localResult := pick P .lock t.mabin.localResult s.mabin.localResult },
    cnt := pick P .counters t.cnt s.cnt,
    beacon := pick P .beacon t.beacon s.beacon
 }

theorem pick_of_not_among {α : Type} {P : List Part} {p : Part} (h : among P p = false) (x y : α) :
    pick P p x y = y := by
  simp [pick, h]

theorem among_congr {P : List Part} {q p : Part} (h : q.ctorIdx = p.ctorIdx) : among P q = among P p := by
  induction P with
  | nil => rfl
  | cons r P ih => simp [among, h, ih]

theorem among_of_inside {Q P : List Part} (h : inside Q P = true) {p : Part} (hp : among P p = false) :
    among Q p = false := by
  induction Q with
  | nil => rfl
  | cons q Q ih =>
    simp only [inside, List.all_cons, Bool.and_eq_true] at h
    have ne : Nat.beq q.ctorIdx p.ctorIdx = false := by
      by_contra e
      have := among_congr (P := P) (Nat.eq_of_beq_eq_true (by simpa using e))
      simp [this, hp] at h
    simp [among, ne, ih h.2]

theorem inside_trans {Q P R : List Part} (h : inside Q P = true) (k : inside P R = true) : inside Q R = true := by
  simp only [inside, List.all_eq_true] at h ⊢
  intro q hq
  by_contra e
  have := among_of_inside k (by simpa using e)
  simp [h q hq] at this

theorem overlay_touches (P : List Part) (s t : State) : Touches P s (overlay P s t) := by
  refine ⟨rfl, List.prefix_rfl, fun p hp => ?_⟩
  cases p <;> simp only [same, pick_of_not_among hp, and_self]
  case fuses => unfold pick; cases among P .system <;> rfl

namespace Touches

variable {P Q : List Part} {s t u : State}

theorem refl : Touches P s s := ⟨rfl, List.prefix_rfl, fun p _ => same_refl p s⟩

theorem trans (h : Touches P s t) (k : Touches P t u) : Touches P s u :=
  ⟨k.queue.trans h.queue, h.left.trans k.left, fun p hp => same_trans (h.rest p hp) (k.rest p hp)⟩

/-- A narrower frame is a frame. -/
theorem within (h : Touches Q s t) (hQ : inside Q P = true := by rfl) : Touches P s t :=
  ⟨h.queue, h.left, fun p hp => h.rest p (among_of_inside hQ hp)⟩

/-- A step from t, after what led from s to t. -/
theorem after (k : Touches Q t u) (h : Touches P s t) (hQ : inside Q P = true := by rfl) : Touches P s u :=
  h.trans (k.within hQ)

/-- An update of the state's own fields. -/
theorem update (h : t = overlay P s t := by rfl) : Touches P s t :=
  h ▸ overlay_touches P s t

/-- An update of the state's own fields, after what led to t. -/
theorem set (h : Touches P s t) (e : u = overlay P t u := by rfl) : Touches P s u :=
  h.trans (update e)

theorem ite {c : Prop} [Decidable c] (h : Touches P s t) (k : Touches P s u) :
    Touches P s (if c then t else u) := by
  split
  · exact h
  · exact k

theorem foldl {α : Type} {f : State → α → State} {l : List α} (k : ∀ t a, Touches P t (f t a))
    (h : Touches P s t) : Touches P s (l.foldl f t) := by
  induction l generalizing t with
  | nil => exact h
  | cons a l ih => exact ih (h.trans (k t a))

theorem foldlFst {α β : Type} {f : State × β → α → State × β} {l : List α} {x : State × β}
    (k : ∀ a i, Touches P a.1 (f a i).1) (h : Touches P s x.1) : Touches P s (l.foldl f x).1 := by
  induction l generalizing x with
  | nil => exact h
  | cons i l ih => exact ih (h.trans (k x i))

theorem times {f : State → State} {n : Nat} (k : ∀ t, Touches P t (f t)) (h : Touches P s t) :
    Touches P s (times f n t) := by
  induction n generalizing t with
  | zero => exact h
  | succ n ih => exact ih (h.trans (k t))

theorem whenRun {f : State → State} (h : Touches P s t) (k : Touches P s (f t)) : Touches P s (whenRun t f) := by
  unfold Machine.whenRun
  exact .ite k h

theorem guardS {c : Bool} {f : State → State} (h : Touches P s t) (k : Touches P s (f t)) :
    Touches P s (guardS c t f) := by
  unfold Machine.guardS
  exact .ite k h

/-- The state of a pair that a function has answered. -/
theorem fst {β : Type} {x : State × β} {y : β} (h : Touches P s x.1) (e : x = (t, y)) : Touches P s t := by
  rw [e] at h
  exact h

/-- The state of a pair that is written out. -/
theorem pair {β : Type} {y : β} (h : Touches P s t) : Touches P s (t, y).1 := h

theorem getD {o : Option State} (k : OptTouches P s o) (h : Touches P s t) : Touches P s (o.getD t) := by
  cases o with
  | none => exact h
  | some u => exact k.get rfl

end Touches

namespace OptTouches

variable {P Q : List Part} {s t : State} {o : Option State}

theorem none : OptTouches P s Option.none :=
  ⟨fun {t} e => absurd e.symm (Option.some_ne_none t)⟩

theorem some (h : Touches P s t) : OptTouches P s (Option.some t) :=
  ⟨fun e => Option.some.inj e ▸ h⟩

theorem within (h : OptTouches Q s o) (hQ : inside Q P = true := by rfl) : OptTouches P s o :=
  ⟨fun e => (h.get e).within hQ⟩

theorem after (k : OptTouches Q t o) (h : Touches P s t) (hQ : inside Q P = true := by rfl) : OptTouches P s o :=
  ⟨fun e => (k.get e).after h hQ⟩

theorem trans (h : Touches P s t) (k : OptTouches P t o) : OptTouches P s o :=
  ⟨fun e => h.trans (k.get e)⟩

theorem ite {c : Prop} [Decidable c] {o' : Option State} (h : OptTouches P s o) (k : OptTouches P s o') :
    OptTouches P s (if c then o else o') := by
  split
  · exact h
  · exact k

theorem someFst {β : Type} {y : β} (h : Touches P s t) : OptTouches P s ((Option.some (t, y)).map Prod.fst) :=
  .some h

theorem okFst {ε β : Type} {y : β} (h : Touches P s t) :
    OptTouches P s ((Except.ok (t, y) : Except ε _).toOption.map Prod.fst) :=
  .some h

/-! The state that a function has answered. -/

theorem getFst {β : Type} {x : Option (State × β)} {y : β} (h : OptTouches P s (x.map Prod.fst))
    (e : x = .some (t, y)) : Touches P s t := h.get (by rw [e]; rfl)

theorem getOk {ε : Type} {x : Except ε State} (h : OptTouches P s x.toOption) (e : x = .ok t) : Touches P s t :=
  h.get (by rw [e]; rfl)

theorem getOkFst {ε β : Type} {x : Except ε (State × β)} {y : β} (h : OptTouches P s (x.toOption.map Prod.fst))
    (e : x = .ok (t, y)) : Touches P s t := h.get (by rw [e]; rfl)

theorem bind {f : State → Option State} (h : OptTouches P s o) (k : ∀ t, OptTouches P t (f t)) :
    OptTouches P s (o.bind f) := by
  cases o with
  | none => exact .none
  | some t => exact .trans (h.get rfl) (k t)

theorem map {f : State → State} (h : OptTouches P s o) (k : ∀ t, Touches P t (f t)) :
    OptTouches P s (o.map f) := by
  cases o with
  | none => exact .none
  | some t => exact .some ((h.get rfl).trans (k t))

theorem mapFst {β : Type} {f : State → State × β} (h : OptTouches P s o) (k : ∀ t, Touches P t (f t).1) :
    OptTouches P s ((o.map f).map Prod.fst) := by
  cases o with
  | none => exact .none
  | some t => exact .some ((h.get rfl).trans (k t))

theorem mapOther {α : Type} {x : Option α} {f : α → State} (k : ∀ a, Touches P s (f a)) :
    OptTouches P s (x.map f) := by
  cases x with
  | none => exact .none
  | some a => exact .some (k a)

theorem mapOtherFst {α β : Type} {x : Option α} {f : α → State × β} (k : ∀ a, Touches P s (f a).1) :
    OptTouches P s ((x.map f).map Prod.fst) := by
  cases x with
  | none => exact .none
  | some a => exact .some (k a)

theorem bindOther {α : Type} {x : Option α} {f : α → Option State} (k : ∀ a, OptTouches P s (f a)) :
    OptTouches P s (x.bind f) := by
  cases x with
  | none => exact .none
  | some a => exact k a

theorem mapOk {ε : Type} {x : Except ε State} {f : State → State} (h : OptTouches P s x.toOption)
    (k : ∀ t, Touches P t (f t)) : OptTouches P s (x.map f).toOption := by
  cases x with
  | error => exact .none
  | ok t => exact .some ((h.get rfl).trans (k t))

theorem mapOkFst {ε β : Type} {x : Except ε State} {f : State → State × β} (h : OptTouches P s x.toOption)
    (k : ∀ t, Touches P t (f t).1) : OptTouches P s ((x.map f).toOption.map Prod.fst) := by
  cases x with
  | error => exact .none
  | ok t => exact .some ((h.get rfl).trans (k t))

theorem bindOk {ε : Type} {x : Except ε State} {f : State → Except ε State} (h : OptTouches P s x.toOption)
    (k : ∀ t, OptTouches P t (f t).toOption) : OptTouches P s (x >>= f).toOption := by
  cases x with
  | error => exact .none
  | ok t => exact .trans (h.get rfl) (k t)

theorem bindOkFst {ε β : Type} {x : Except ε State} {f : State → Except ε (State × β)}
    (h : OptTouches P s x.toOption) (k : ∀ t, OptTouches P t ((f t).toOption.map Prod.fst)) :
    OptTouches P s ((x >>= f).toOption.map Prod.fst) := by
  cases x with
  | error => exact .none
  | ok t => exact .trans (h.get rfl) (k t)

theorem bindOkOf {ε β : Type} {x : Except ε (State × β)} {f : State × β → Except ε State}
    (h : OptTouches P s (x.toOption.map Prod.fst)) (k : ∀ r, OptTouches P r.1 (f r).toOption) :
    OptTouches P s (x >>= f).toOption := by
  cases x with
  | error => exact .none
  | ok r => exact .trans (h.get rfl) (k r)

theorem bindOkFstOf {ε β γ : Type} {x : Except ε (State × β)} {f : State × β → Except ε (State × γ)}
    (h : OptTouches P s (x.toOption.map Prod.fst)) (k : ∀ r, OptTouches P r.1 ((f r).toOption.map Prod.fst)) :
    OptTouches P s ((x >>= f).toOption.map Prod.fst) := by
  cases x with
  | error => exact .none
  | ok r => exact .trans (h.get rfl) (k r)

theorem mapFstOk {ε β : Type} {x : Except ε (State × β)} {f : State × β → State}
    (h : OptTouches P s (x.toOption.map Prod.fst)) (k : ∀ r, Touches P r.1 (f r)) :
    OptTouches P s (x.map f).toOption := by
  cases x with
  | error => exact .none
  | ok r => exact .some ((h.get rfl).trans (k r))

theorem mapOkOf {ε β γ : Type} {x : Except ε (State × β)} {f : State × β → State × γ}
    (h : OptTouches P s (x.toOption.map Prod.fst)) (k : ∀ r, Touches P r.1 (f r).1) :
    OptTouches P s ((x.map f).toOption.map Prod.fst) := by
  cases x with
  | error => exact .none
  | ok r => exact .some ((h.get rfl).trans (k r))

theorem mapFstOf {β γ : Type} {x : Option (State × β)} {f : State × β → State × γ}
    (h : OptTouches P s (x.map Prod.fst)) (k : ∀ r, Touches P r.1 (f r).1) :
    OptTouches P s ((x.map f).map Prod.fst) := by
  cases x with
  | none => exact .none
  | some r => exact .some ((h.get rfl).trans (k r))

theorem foldlMOk {ε α : Type} {f : State → α → Except ε State} {l : List α}
    (k : ∀ t a, OptTouches P t (f t a).toOption) (h : Touches P s t) :
    OptTouches P s (l.foldlM f t).toOption := by
  induction l generalizing s t with
  | nil => exact .some h
  | cons a l ih => exact .trans h (bindOk (k t a) fun _ => ih .refl)

theorem bindSome {ε : Type} {x : Option (Except ε State)} {r : Except ε State}
    (h : OptTouches P s (x.bind Except.toOption)) (e : x = .some r) : OptTouches P s r.toOption := by
  rw [e] at h
  exact h

theorem mapSome {ε : Type} {r : Except ε State} {f : State → State} (h : OptTouches P s r.toOption)
    (k : ∀ t, Touches P t (f t)) : OptTouches P s (r.map fun t => Option.some (f t)).toOption.join := by
  cases r with
  | error => exact .none
  | ok t => exact .some ((h.get rfl).trans (k t))

theorem foldlBind {α : Type} {f : α → State → Option State} {l : List α} (k : ∀ a t, OptTouches P t (f a t))
    (h : OptTouches P s o) : OptTouches P s (l.foldl (fun o a => o.bind (f a)) o) := by
  induction l generalizing o with
  | nil => exact h
  | cons a l ih => exact ih (h.bind (k a))

/-- The state that a job has left, if it ran. -/
theorem joinOk {ε β : Type} {r : Except ε (Option State)} {f : Option State → State × β}
    (h : OptTouches P s r.toOption.join) (k : ∀ o, OptTouches P s o → Touches P s (f o).1) :
    OptTouches P s ((r.map f).toOption.map Prod.fst) := by
  cases r with
  | error => exact .none
  | ok o => exact .some (k o h)

end OptTouches

/-! ### What a boundary, a reset and a write may change -/

/-- The parts that a boundary may change. -/
abbrev boundaryParts : List Part :=
  [.clock, .system, .fuses, .objects, .digest, .version, .packets, .ports, .buffer, .search, .flow, .pipes, .clusters,
    .timeBases, .pins, .cipher, .templates, .sessions, .counters]

/-- The parts that a SOFT reset may change. -/
abbrev softParts : List Part :=
  [.clock, .system, .objects, .digest, .version, .packets, .ports, .buffer, .search, .flow, .rewrites, .pipes,
    .clusters, .cipher, .rings, .arbiters, .pools, .templates, .sessions, .lock, .counters, .out]

/-- The parts that the boundary, the commit and the resets of a beat may change. -/
abbrev settledParts : List Part := boundaryParts ++ softParts

/-- The parts that the write of an object may change. -/
abbrev written : List Part :=
  [.system, .fuses, .objects, .version, .packets, .ports, .lanes, .buffer, .search, .pipes, .clusters, .timeBases,
    .cipher, .rings, .arbiters, .pools, .sessions, .lock, .counters, .out]

/-! ### The operations that every family shares -/

theorem setRw_touches (s : State) (idx sub row : Nat) (v : Bytes) :
    Touches [.objects] s (setRw s idx sub row v) := by
  unfold setRw
  extract_lets k v held d
  exact .update

theorem deferWrite_touches (s : State) (k : Key) (v : Bytes) :
    Touches [.objects] s (deferWrite s k v) := by
  unfold deferWrite
  exact .update

theorem count_touches (s : State) (n k : Nat) :
    Touches [.counters] s (count s n k) := by
  unfold count
  exact .ite .refl .update

theorem countLine_touches (s : State) (n k : Nat) :
    Touches [.counters] s (countLine s n k) := by
  unfold countLine
  exact .update

theorem countR_touches (s : State) (n k tick : Nat) :
    Touches [.counters] s (countR s n k tick) := by
  unfold countR
  exact .ite .refl .update

theorem countEntry_touches (s : State) (row hit bad ttl tick : Nat) :
    Touches [.counters] s (countEntry s row hit bad ttl tick) := by
  unfold countEntry
  extract_lets f _
  exact .update

theorem countPolice_touches (s : State) (policer colour n tick : Nat) :
    Touches [.counters] s (countPolice s policer colour n tick) := by
  unfold countPolice
  extract_lets f _
  exact .update

theorem filtered_touches (s : State) (source tier : Nat) (masters : List (Nat × Nat)) (addr : Nat)
    (cls : Option Nat) (k : Nat) :
    Touches [.counters] s (filtered s source tier masters addr cls k) := by
  unfold filtered
  extract_lets lo rows _
  exact .update

theorem logEvent_touches (s : State) (e : Event) :
    Touches [.system] s (logEvent s e) := by
  unfold logEvent
  extract_lets row _
  exact .update

theorem queueEvent_touches (s : State) (e : Event) :
    Touches [.system, .counters] s (queueEvent s e) := by
  unfold queueEvent
  exact .ite .update ((count_touches ..).after .update)

theorem notify_touches (s : State) (n : Nat) (x : Session) (body : Bytes) :
    Touches [.sessions, .counters] s (notify s n x body) := by
  unfold notify
  extract_lets room _ _ s₁
  exact .ite .update ((count_touches ..).after .update)

theorem tellSessions_touches (s : State) (e : Event) :
    Touches [.sessions, .counters] s (tellSessions s e) := by
  unfold tellSessions
  exact .foldl (fun _ _ => .ite (notify_touches ..).within .refl) .refl

theorem postEvent_touches (s : State) (e : Event) :
    Touches [.system, .sessions, .counters] s (postEvent s e) := by
  unfold postEvent
  exact (tellSessions_touches ..).after ((queueEvent_touches ..).after (.ite (logEvent_touches ..).within .refl))

theorem startFreeze_touches (s : State) (trigger code : Nat) :
    Touches [.system, .sessions, .counters] s (startFreeze s trigger code) := by
  unfold startFreeze
  split
  · extract_lets s₁ _
    exact .set (t := s₁) (postEvent_touches ..).within
  · exact .refl

theorem raiseAt_touches (s : State) (code source tick : Nat) (values : List Nat) :
    Touches [.system, .sessions, .counters] s (raiseAt s code source tick values) := by
  unfold raiseAt
  extract_lets s₁
  exact .ite ((startFreeze_touches ..).after (postEvent_touches ..).within) (postEvent_touches ..).within

theorem raiseEv_touches (s : State) (code source : Nat) (values : List Nat) :
    Touches [.system, .sessions, .counters] s (raiseEv s code source values) := by
  unfold raiseEv
  exact (raiseAt_touches ..).within

theorem soonDo_touches (s : State) (x : Soon) :
    Touches [.system] s (soonDo s x) := by
  unfold soonDo
  exact .update

theorem freezeMaster_touches (s : State) (type cls num : Nat) :
    Touches [.system, .sessions, .counters] s (freezeMaster s type cls num) := by
  unfold freezeMaster
  extract_lets w _
  exact .ite .refl ((raiseEv_touches ..).after .update)

theorem releaseMaster_touches (s : State) (type cls num : Nat) :
    Touches [.system, .sessions, .counters] s (releaseMaster s type cls num) := by
  unfold releaseMaster
  exact (raiseEv_touches ..).after .update

theorem modPort_touches (s : State) (n : Nat) (f : Port → Port) :
    Touches [.ports] s (modPort s n f) := by
  unfold modPort
  exact .update

theorem modLane_touches (s : State) (l : Nat) (f : Lane → Lane) :
    Touches [.lanes] s (modLane s l f) := by
  unfold modLane
  exact .update

theorem modPipe_touches (s : State) (p : Nat) (f : Pipe → Pipe) :
    Touches [.pipes] s (modPipe s p f) := by
  unfold modPipe
  exact .update

theorem modCluster_touches (s : State) (c : Nat) (f : Cluster → Cluster) :
    Touches [.clusters] s (modCluster s c f) := by
  unfold modCluster
  exact .update

theorem modEngine_touches (s : State) (c e : Nat) (f : Engine → Engine) :
    Touches [.clusters] s (modEngine s c e f) := by
  unfold modEngine
  exact (modCluster_touches ..).within

theorem modTb_touches (s : State) (t : Nat) (f : TimeBase → TimeBase) :
    Touches [.timeBases] s (modTb s t f) := by
  unfold modTb
  exact .update

theorem modRing_touches (s : State) (r : Nat) (f : Ring → Ring) :
    Touches [.rings] s (modRing s r f) := by
  unfold modRing
  exact .update

theorem modFn_touches (s : State) (n : Nat) (f : Fn → Fn) :
    Touches [.rings] s (modFn s n f) := by
  unfold modFn
  exact .update

theorem modPkt_touches (s : State) (id : Nat) (f : Pkt → Pkt) :
    Touches [.packets] s (modPkt s id f) := by
  unfold modPkt
  exact .update

theorem dropPkt_touches (s : State) (id : Nat) :
    Touches [.packets] s (dropPkt s id) := by
  unfold dropPkt
  exact .update

theorem modQueue_touches (s : State) (q : Nat) (f : List Nat → List Nat) :
    Touches [.buffer] s (modQueue s q f) := by
  unfold modQueue
  exact .update

theorem modNode_touches (s : State) (k : Nat) (f : Node → Node) :
    Touches [.buffer] s (modNode s k f) := by
  unfold modNode
  exact .update

theorem emit_touches (s : State) (o : Output) : Touches [.out] s (emit s o) := by
  refine ⟨rfl, List.prefix_append .., fun p hp => ?_⟩
  cases p
  case out => cases hp
  all_goals simp only [same, emit, and_self]

theorem useFresh_touches (s : State) :
    Touches [.system] s (useFresh s) := by
  unfold useFresh
  exact .update

theorem freshBytes_touches (n : Nat) (s : State) : Touches [.system] s (freshBytes n s).1 := by
  induction n generalizing s with
  | zero => exact .refl
  | succ n ih => exact (ih _).after (useFresh_touches ..)

/-! ### Sessions -/

theorem modSession_touches (s : State) (n : Nat) (f : Session → Session) :
    Touches [.sessions] s (modSession s n f) := by
  unfold modSession
  split
  · exact .refl
  · exact .update

theorem countAccess_touches (s : State) (src : Origin) (source idx sub : Nat) :
    Touches [.counters] s (countAccess s src source idx sub) := by
  unfold countAccess
  exact (filtered_touches ..).within

theorem rejectWrite_touches (s : State) (src : Origin) (idx sub err : Nat) :
    Touches [.reject, .counters] s (rejectWrite s src idx sub err) := by
  unfold rejectWrite
  extract_lets s₁ _
  split
  · exact .ite .refl (.set (t := s₁) (filtered_touches ..).within)
  · exact (filtered_touches ..).within

theorem expires_touches (s : State) (n : Nat) :
    Touches [.lock] s { s with mabin := { s.mabin with expires := n } } := .update

theorem renewLease_touches (s : State) (who : Nat) : Touches [.lock] s (renewLease s who) := by
  unfold renewLease
  exact .ite (expires_touches ..) .refl

/-- A write touches the lease, the reject record, the filters, and what its effect does. -/
theorem Touches.writeBy {P : List Part} {s t : State} {src : Origin} {idx sub row : Nat} {v : Bytes}
    {eff : State → Option State} (h : Touches P s t) (k : ∀ t, OptTouches P t (eff t))
    (hP : inside [.reject, .lock, .counters] P = true := by rfl) :
    Touches P s (writeBy t src idx sub row v eff) := by
  have lease : Touches P s (renewLease t (originNum src)) :=
    (renewLease_touches ..).after h (inside_trans rfl hP)
  have count (x : State) (a b : Nat) (l : List (Nat × Nat)) (c : Nat) (d : Option Nat) (e : Nat) :
      Touches P x (filtered x a b l c d e) := (filtered_touches ..).within (inside_trans rfl hP)
  have reject (x : State) (e : Nat) : Touches P x (rejectWrite x src idx sub e) :=
    (rejectWrite_touches ..).within (inside_trans rfl hP)
  unfold Machine.writeBy
  refine .ite h ?_
  extract_lets
  refine .ite ?_ (lease.trans (reject ..))
  split
  next u e => exact lease.trans (((k _).get e).trans (count ..))
  · exact lease.trans (reject ..)

theorem Touches.writeCmd {P : List Part} {s t : State} {src : Origin} {idx sub row : Nat} {v : Bytes}
    {eff : State → Option State} (h : Touches P s t) (k : ∀ t, OptTouches P t (eff t))
    (hP : inside [.reject, .lock, .counters] P = true := by rfl) :
    Touches P s (writeCmd t src idx sub row v eff) :=
  h.whenRun (h.writeBy k hP)

/-! ### Functions, rings, doorbells and interrupts -/

theorem freezeFn_touches (s : State) (f cause detail : Nat) :
    Touches [.system, .rings, .sessions, .counters] s (freezeFn s f cause detail) := by
  unfold freezeFn
  split
  · exact .refl
  · extract_lets s₁
    exact (freezeMaster_touches ..).after (modFn_touches ..).within

theorem freezeRing_touches (s : State) (r : Nat) :
    Touches [.system, .rings, .sessions, .counters] s (freezeRing s r) := by
  unfold freezeRing
  exact (freezeMaster_touches ..).after (modRing_touches ..).within

theorem dmaWrite_touches (s : State) (r addr : Nat) (b : Bytes) :
    Touches [.system, .rings, .sessions, .counters, .out] s (dmaWrite s r addr b) := by
  unfold dmaWrite
  extract_lets f
  exact .ite ((filtered_touches ..).after (emit_touches ..).within) (freezeFn_touches ..).within

theorem signalRing_touches (s : State) (r : Nat) :
    Touches [.rings, .out] s (signalRing s r) := by
  unfold signalRing
  exact (emit_touches ..).after (modRing_touches ..).within

theorem notSignalled_touches (s : State) (r : Nat) :
    Touches [.rings, .out] s (notSignalled s r) := by
  unfold notSignalled
  extract_lets s₁ n
  exact .ite ((signalRing_touches ..).after (modRing_touches ..).within) (modRing_touches ..).within

theorem headWrite_touches (s : State) (r : Nat) :
    Touches [.system, .rings, .sessions, .counters, .out] s (headWrite s r) := by
  unfold headWrite
  extract_lets h
  exact .ite .refl (dmaWrite_touches ..).within

theorem writeBack_touches (s : State) (r : Nat) (words : List Nat) :
    Touches [.system, .rings, .sessions, .counters, .out] s (writeBack s r words) := by
  unfold writeBack
  extract_lets c n ws w0 a s₁ s₂ s₃
  exact (notSignalled_touches ..).after ((headWrite_touches ..).after
    ((modRing_touches ..).after ((dmaWrite_touches ..).after (dmaWrite_touches ..).within)))

theorem drainBegun_touches (r n : Nat) (s : State) : Touches [.system, .rings, .sessions, .counters, .out] s
    (drainBegun r n s) := by
  induction n generalizing s with
  | zero => exact .refl
  | succ n ih =>
    unfold drainBegun
    split
    · exact (ih _).after ((writeBack_touches ..).after (modRing_touches ..).within)
    · exact .refl

theorem completeCount_touches (s : State) (r c : Nat) (words : List Nat) :
    Touches [.system, .rings, .sessions, .counters, .out] s (completeCount s r c words) := by
  unfold completeCount
  extract_lets s₁
  exact (drainBegun_touches ..).after (modRing_touches ..).within

theorem modArb_touches (s : State) (a : Nat) (f : Arb → Arb) :
    Touches [.arbiters] s (modArb s a f) := by
  unfold modArb
  exact .update

theorem endGrant_touches (s : State) (a : Nat) :
    Touches [.arbiters] s (endGrant s a) := by
  unfold endGrant
  exact (modArb_touches ..).within

theorem putRingRow_touches (s : State) (r : Nat) (row : Bytes) :
    Touches [.objects] s (putRingRow s r row) := by
  unfold putRingRow
  exact (setRw_touches ..).within

theorem ringWrite_touches (r : Nat) (row : Bytes) (s : State) :
    OptTouches [.objects, .rings] s (ringWrite r row s) := by
  unfold ringWrite
  extract_lets place row old s₁
  exact .ite .none (.ite (.some ((modRing_touches ..).after (putRingRow_touches ..).within))
    (.ite (.some ((modRing_touches ..).after (putRingRow_touches ..).within))
    (.some (putRingRow_touches ..).within)))

theorem dropUnfetched_touches (r : Nat) (s : State) :
    Touches [.pipes] s (dropUnfetched r s) := by
  unfold dropUnfetched
  exact .ite (modPipe_touches ..).within .refl

theorem ringRowWrite_touches (r : Nat) (row : Bytes) (s : State) :
    OptTouches [.objects, .pipes, .rings] s (ringRowWrite r row s) := by
  unfold ringRowWrite
  exact .map (ringWrite_touches ..).within (fun _ => (dropUnfetched_touches ..).within)

theorem doorbell_touches (s : State) (fn r offset count : Nat) :
    Touches [.system, .rings, .sessions, .counters] s (doorbell s fn r offset count) := by
  unfold doorbell
  exact .ite .refl (.ite (freezeFn_touches ..).within (.ite (.ite (modRing_touches ..).within
    (freezeRing_touches ..).within) .refl))

theorem byteDoorbell_touches (s : State) (fn r offset value : Nat) :
    Touches [.system, .rings, .sessions, .counters] s (byteDoorbell s fn r offset value) := by
  unfold byteDoorbell
  exact .ite .refl (.ite (freezeFn_touches ..).within (.ite (modRing_touches ..).within .refl))

theorem writeRecord_touches (s : State) (r : Nat) (b : Bytes) (start fin : Nat) :
    Touches [.system, .rings, .sessions, .counters, .out] s (writeRecord s r b start fin) := by
  unfold writeRecord
  extract_lets size s₁ s₂
  exact (notSignalled_touches ..).after ((dmaWrite_touches ..).after
    ((modRing_touches ..).after (dmaWrite_touches ..).within))

theorem stopDone_touches (s : State) (r : Nat) :
    Touches [.rings] s (stopDone s r) := by
  unfold stopDone
  exact .ite (modRing_touches ..).within .refl

theorem rowRxRingDoorbell_touches (fn ring count : Nat) (s : State) :
    Touches [.system, .rings, .sessions, .counters] s (rowRxRingDoorbell fn ring count s) := by
  unfold rowRxRingDoorbell
  exact .whenRun .refl (doorbell_touches ..).within

theorem rowTxRingDoorbell_touches (fn ring count : Nat) (s : State) :
    Touches [.system, .rings, .sessions, .counters] s (rowTxRingDoorbell fn ring count s) := by
  unfold rowTxRingDoorbell
  exact .whenRun .refl (doorbell_touches ..).within

theorem rowCompletionRingDoorbell_touches (fn pipe count : Nat) (s : State) :
    Touches [.system, .rings, .sessions, .counters] s (rowCompletionRingDoorbell fn pipe count s) := by
  unfold rowCompletionRingDoorbell
  exact .whenRun .refl (doorbell_touches ..).within

theorem rowByteRingDoorbell_touches (fn : Nat) (isEvent : Bool) (offset : Nat) (s : State) :
    Touches [.system, .rings, .sessions, .counters] s (rowByteRingDoorbell fn isEvent offset s) := by
  unfold rowByteRingDoorbell
  exact .whenRun .refl (byteDoorbell_touches ..).within

theorem submitCmds_touches (s : State) (pipe first : Nat) (bodies : List Bytes) :
    Touches [.pipes] s (submitCmds s pipe first bodies) := by
  unfold submitCmds
  exact (modPipe_touches ..).within

theorem rowCmdRingDoorbell_touches (fn pipe count : Nat) (bodies : List Bytes) (s : State) :
    Touches [.system, .pipes, .rings, .sessions, .counters] s (rowCmdRingDoorbell fn pipe count bodies s) := by
  unfold rowCmdRingDoorbell
  refine .whenRun .refl ?_
  extract_lets r before s₁ n
  exact .ite ((submitCmds_touches ..).after (doorbell_touches ..).within) (doorbell_touches ..).within

theorem rowMsixTimerExpiry_touches (ring : Nat) (s : State) :
    Touches [.rings, .out] s (rowMsixTimerExpiry ring s) := by
  unfold rowMsixTimerExpiry
  refine .whenRun .refl ?_
  extract_lets n
  split
  · exact .ite (signalRing_touches ..).within .refl
  · exact .refl

theorem rowRingEnable_touches (src : Origin) (ring : Nat) (row : Bytes) (s : State) :
    Touches [.objects, .rings, .reject, .lock, .counters] s (rowRingEnable src ring row s) := by
  unfold rowRingEnable
  split
  · exact .writeCmd .refl (fun _ => (ringWrite_touches ..).within)

theorem rowRingDisable_touches (src : Origin) (ring : Nat) (s : State) :
    Touches [.objects, .pipes, .rings, .reject, .lock, .counters] s (rowRingDisable src ring s) := by
  unfold rowRingDisable
  split
  · extract_lets old row
    exact .writeCmd .refl (fun _ => (ringRowWrite_touches ..).within)

theorem rowRingStopped_touches (ring : Nat) (s : State) :
    Touches [.rings] s (rowRingStopped ring s) := by
  unfold rowRingStopped
  exact .whenRun .refl (stopDone_touches ..).within

theorem rowDmaReadError_touches (fn ring : Nat) (s : State) :
    Touches [.system, .rings, .sessions, .counters] s (rowDmaReadError fn ring s) := by
  unfold rowDmaReadError
  exact .whenRun .refl ((freezeFn_touches ..).after (count_touches ..).within)

theorem rowPcieLinkTrained_touches (speed width : Nat) (s : State) :
    Touches [.link] s (rowPcieLinkTrained speed width s) := by
  unfold rowPcieLinkTrained
  exact .whenRun .refl .update

theorem rowSriovVfEnable_touches (count : Nat) (s : State) :
    Touches [.link] s (rowSriovVfEnable count s) := by
  unfold rowSriovVfEnable
  exact .whenRun .refl (.ite .update .refl)

/-! ### Time bases, pulse outputs and capture inputs -/

theorem markTb_touches (s : State) (t : Nat) :
    Touches [.timeBases] s (markTb s t) := by
  unfold markTb
  extract_lets m old
  exact (modTb_touches ..).within

theorem modTout_touches (s : State) (k : Nat) (f : PinOut → PinOut) :
    Touches [.pins] s (modTout s k f) := by
  unfold modTout
  exact .update

theorem missOneShot_touches (s : State) (k : Nat) :
    Touches [.system, .objects, .pins, .sessions, .counters] s (missOneShot s k) := by
  unfold missOneShot
  extract_lets s₁
  exact (raiseEv_touches ..).after (.set (t := s₁) ((setRw_touches ..).after (modTout_touches ..).within))

theorem realignPin_touches (s : State) (k mode tb start period : Nat) (fromStart : Bool) :
    Touches [.system, .objects, .pins, .sessions, .counters] s (realignPin s k mode tb start period fromStart) := by
  unfold realignPin
  extract_lets now s₁
  exact .ite (modTout_touches ..).within (.ite (.ite ((missOneShot_touches ..).after (modTout_touches ..).within)
    (modTout_touches ..).within) .refl)

theorem realignAll_touches (s : State) (t : Nat) :
    Touches [.system, .objects, .pins, .sessions, .counters] s (realignAll s t) := by
  unfold realignAll
  exact .foldl (fun _ _ => .ite (realignPin_touches ..).within .refl) .refl

theorem tickLost_touches (s : State) :
    Touches [.clock] s (tickLost s) := by
  unfold tickLost
  exact .ite .refl .update

theorem applyStep_touches (s : State) (t : Nat) :
    Touches [.clock, .system, .objects, .timeBases, .pins, .sessions, .counters] s (applyStep s t) := by
  unfold applyStep
  extract_lets b
  split
  · exact .refl
  · extract_lets b₁ s₁ s₂ s₃
    exact (realignAll_touches ..).after (.ite ((tickLost_touches ..).after
      ((raiseEv_touches ..).after (modTb_touches ..).within))
      ((raiseEv_touches ..).after (modTb_touches ..).within))

theorem startSlew_touches (s : State) (t : Nat) :
    Touches [.timeBases] s (startSlew s t) := by
  unfold startSlew
  exact (modTb_touches ..).within

theorem advanceTb_touches (s : State) (t : Nat) :
    Touches [.clock, .system, .objects, .timeBases, .pins, .sessions, .counters] s (advanceTb s t) := by
  unfold advanceTb
  extract_lets changed s₁ b
  refine .trans (t := s₁) ((startSlew_touches ..).after (applyStep_touches ..).within) ?_
  split
  · split
    · extract_lets s₂ s₃
      refine .trans (t := s₃) (.trans (t := s₂) (modTb_touches ..).within (.ite (markTb_touches ..).within .refl))
        ?_
      exact .ite (raiseEv_touches ..).within .refl

theorem advanceAll_touches (s : State) :
    Touches [.clock, .system, .objects, .timeBases, .pins, .sessions, .counters] s (advanceAll s) := by
  unfold advanceAll
  exact .foldl (fun _ _ => (advanceTb_touches ..).within) .refl

theorem tbEnable_touches (t : Nat) (s : State) :
    OptTouches [.objects, .timeBases] s (tbEnable t s) := by
  unfold tbEnable
  exact .ite (.some ((modTb_touches ..).after (setRw_touches ..).within)) (.some .refl)

theorem tbDisable_touches (t : Nat) (s : State) :
    OptTouches [.system, .objects] s (tbDisable t s) := by
  unfold tbDisable
  exact .ite (.some .refl) (.some ((soonDo_touches ..).after (setRw_touches ..).within))

theorem tbStop_touches (t : Nat) (s : State) :
    Touches [.clock, .system, .timeBases, .sessions, .counters] s (tbStop t s) := by
  unfold tbStop
  extract_lets s₁ s₂
  exact .ite ((tickLost_touches ..).after ((raiseEv_touches ..).after (modTb_touches ..).within))
    ((raiseEv_touches ..).after (modTb_touches ..).within)

theorem tbStep_touches (t offset : Nat) (s : State) :
    OptTouches [.timeBases] s (tbStep t offset s) := by
  unfold tbStep
  extract_lets b
  exact .ite .none (.some (modTb_touches ..).within)

theorem tbSetRate_touches (t rate : Nat) (s : State) :
    OptTouches [.objects] s (tbSetRate t rate s) := by
  unfold tbSetRate
  extract_lets r
  exact .ite .none (.some (setRw_touches ..).within)

theorem tbSlew_touches (t offset : Nat) (s : State) :
    OptTouches [.timeBases] s (tbSlew t offset s) := by
  unfold tbSlew
  exact .ite (.some (modTb_touches ..).within) .none

theorem tbSetSlewPpm_touches (t : Nat) (v : Bytes) (s : State) :
    OptTouches [.objects] s (tbSetSlewPpm t v s) := by
  unfold tbSetSlewPpm
  exact .some (setRw_touches ..).within

theorem tbBecomeValid_touches (s : State) (t : Nat) :
    Touches [.system, .objects, .timeBases, .pins, .sessions, .counters] s (tbBecomeValid s t) := by
  unfold tbBecomeValid
  extract_lets s₁ s₂
  exact (realignAll_touches ..).after ((markTb_touches ..).after
    ((raiseEv_touches ..).after (modTb_touches ..).within))

theorem realignWritten_touches (s : State) (k : Nat) :
    Touches [.system, .objects, .pins, .sessions, .counters] s (realignWritten s k) := by
  unfold realignWritten
  exact (realignPin_touches ..).within

theorem toutWrite_touches (k sub value : Nat) (s : State) :
    OptTouches [.system, .objects] s (toutWrite k sub value s) := by
  unfold toutWrite
  extract_lets get len s₁
  exact .ite .none (.some (.ite ((soonDo_touches ..).after (setRw_touches ..).within) (setRw_touches ..).within))

theorem pulse_touches (s : State) (k : Nat) :
    Touches [.system, .objects, .pins, .sessions, .counters, .out] s (pulse s k) := by
  unfold pulse
  extract_lets o t mode width
  exact .ite .refl (.ite (.ite (missOneShot_touches ..).within .refl)
    ((emit_touches ..).after (modTout_touches ..).within))

theorem pulseEnd_touches (s : State) (k : Nat) :
    Touches [.pins, .out] s (pulseEnd s k) := by
  unfold pulseEnd
  extract_lets o
  exact .ite ((emit_touches ..).after (modTout_touches ..).within) .refl

theorem modTin_touches (s : State) (i : Nat) (f : PinIn → PinIn) :
    Touches [.pins] s (modTin s i f) := by
  unfold modTin
  exact .update

theorem capture_touches (s : State) (i : Nat) (rise : Bool) (back : Nat) :
    Touches [.system, .pins, .sessions, .counters] s (capture s i rise back) := by
  unfold capture
  extract_lets edge o row again s₁
  exact .ite .refl (.ite ((raiseEv_touches ..).after (modTin_touches ..).within)
    (.ite (modTin_touches ..).within ((raiseEv_touches ..).after (modTin_touches ..).within)))

theorem tinDrop_touches (i rows : Nat) (s : State) :
    Touches [.pins] s (tinDrop i rows s) := by
  unfold tinDrop
  exact (modTin_touches ..).within

theorem tinAck_touches (i rows : Nat) (s : State) :
    OptTouches [.system] s (tinAck i rows s) := by
  unfold tinAck
  exact .some (soonDo_touches ..).within

theorem ptpWrite_touches (n sub : Nat) (v : Bytes) (s : State) :
    OptTouches [.objects, .ports] s (ptpWrite n sub v s) := by
  unfold ptpWrite
  extract_lets old
  exact .some ((setRw_touches ..).after (modPort_touches ..).within)

theorem rowTbEnable_touches (src : Origin) (tb : Nat) (s : State) :
    Touches [.objects, .timeBases, .reject, .lock, .counters] s (rowTbEnable src tb s) := by
  unfold rowTbEnable
  exact .writeCmd .refl (fun _ => (tbEnable_touches ..).within)

theorem rowTbStep_touches (src : Origin) (tb offset : Nat) (s : State) :
    Touches [.timeBases, .reject, .lock, .counters] s (rowTbStep src tb offset s) := by
  unfold rowTbStep
  exact .writeCmd .refl (fun _ => (tbStep_touches ..).within)

theorem rowTbRateWrite_touches (src : Origin) (tb rate : Nat) (s : State) :
    Touches [.objects, .reject, .lock, .counters] s (rowTbRateWrite src tb rate s) := by
  unfold rowTbRateWrite
  exact .writeCmd .refl (fun _ => (tbSetRate_touches ..).within)

theorem rowTbSlew_touches (src : Origin) (tb offset : Nat) (s : State) :
    Touches [.timeBases, .reject, .lock, .counters] s (rowTbSlew src tb offset s) := by
  unfold rowTbSlew
  exact .writeCmd .refl (fun _ => (tbSlew_touches ..).within)

theorem rowToutConfigWrite_touches (src : Origin) (pin sub value : Nat) (s : State) :
    Touches [.system, .objects, .reject, .lock, .counters] s (rowToutConfigWrite src pin sub value s) := by
  unfold rowToutConfigWrite
  exact .writeCmd .refl (fun _ => (toutWrite_touches ..).within)

theorem rowTimeOutPulse_touches (pin : Nat) (s : State) :
    Touches [.system, .objects, .pins, .sessions, .counters, .out] s (rowTimeOutPulse pin s) := by
  unfold rowTimeOutPulse
  exact .whenRun .refl (pulse_touches ..).within

theorem rowTimeOutPulseEnd_touches (pin : Nat) (s : State) :
    Touches [.pins, .out] s (rowTimeOutPulseEnd pin s) := by
  unfold rowTimeOutPulseEnd
  exact .whenRun .refl (pulseEnd_touches ..).within

theorem rowTimeCapture_touches (pin : Nat) (rise : Bool) (back : Nat) (s : State) :
    Touches [.system, .pins, .sessions, .counters] s (rowTimeCapture pin rise back s) := by
  unfold rowTimeCapture
  exact .whenRun .refl (capture_touches ..).within

theorem rowTinAck_touches (src : Origin) (pin rows : Nat) (s : State) :
    Touches [.system, .reject, .lock, .counters] s (rowTinAck src pin rows s) := by
  unfold rowTinAck
  exact .writeCmd .refl (fun _ => (tinAck_touches ..).within)

/-! ### The packet buffer and its queues -/

theorem modAcct_touches (s : State) (n : Nat) (f : Acct → Acct) :
    Touches [.buffer] s (modAcct s n f) := by
  unfold modAcct
  exact .update

theorem charge1_touches (s : State) (n k : Nat) :
    OptTouches [.buffer] s (charge1 s n k) := by
  unfold charge1
  extract_lets a s₁ _
  exact .ite (.some (modAcct_touches ..).within) (.ite (.some (.set (t := s₁) (modAcct_touches ..).within))
    (.ite (.some (modAcct_touches ..).within) .none))

theorem charge_touches (n k cells : Nat) (s : State) : OptTouches [.buffer] s (charge n k cells s) := by
  induction cells generalizing s with
  | zero => exact .some .refl
  | succ cells ih =>
    unfold charge
    split
    · exact .none
    next t e => exact (ih t).after ((charge1_touches ..).get e)

theorem release1_touches (s : State) (n k : Nat) :
    Touches [.buffer] s (release1 s n k) := by
  unfold release1
  extract_lets a rk s₁ _
  exact .ite (modAcct_touches ..).within (.ite (.set (t := s₁) (modAcct_touches ..).within)
    (modAcct_touches ..).within)

theorem fromFree_touches (s : State) (cells : Nat) :
    Touches [.buffer] s (fromFree s cells) := by
  unfold fromFree
  extract_lets free _
  exact .update

theorem takeCells_touches (s : State) (n k cells : Nat) :
    OptTouches [.buffer] s (takeCells s n k cells) := by
  unfold takeCells
  exact .map (charge_touches ..).within (fun _ => (fromFree_touches ..).within)

theorem giveCells_touches (s : State) (n k cells : Nat) :
    Touches [.buffer] s (giveCells s n k cells) := by
  unfold giveCells
  extract_lets s₁ _
  exact .set (t := s₁) (.times (fun _ => (release1_touches ..).within) .refl)

theorem returnCells_touches (s : State) (n k cells : Nat) :
    Touches [.buffer] s (returnCells s n k cells) := by
  unfold returnCells
  exact .ite .refl .update

theorem giveReturned_touches (s : State) :
    Touches [.buffer] s (giveReturned s) := by
  unfold giveReturned
  exact .foldl (fun _ _ => (giveCells_touches ..).within) .update

theorem evalX_touches (s : State) (n k : Nat) :
    Touches [.buffer] s (evalX s n k) := by
  unfold evalX
  extract_lets ks a f xoff xon held high calm s₁
  exact .ite ((modAcct_touches ..).after (.ite (modAcct_touches ..).within .refl))
    (.ite (modAcct_touches ..).within .refl)

theorem evalAllX_touches (s : State) :
    Touches [.buffer] s (evalAllX s) := by
  unfold evalAllX
  exact .foldl (fun _ _ => .ite (evalX_touches ..).within (.foldl (fun _ _ => (evalX_touches ..).within) .refl))
    .refl

theorem txFinish_touches (s : State) (k : Pkt) (status : Nat) :
    Touches [.system, .rings, .sessions, .counters, .out] s (txFinish s k status) := by
  unfold txFinish
  split
  · exact .ite (completeCount_touches ..).within .refl
  · exact .refl

theorem freePkt_touches (s : State) (k : Pkt) :
    Touches [.packets, .buffer] s (freePkt s k) := by
  unfold freePkt
  extract_lets s₁
  exact .ite ((modPkt_touches ..).after (returnCells_touches ..).within)
    ((dropPkt_touches ..).after (returnCells_touches ..).within)

theorem readCells_touches (n : Nat) (l : List (Nat × Ecc)) (s : State) :
    Touches [.system, .sessions, .counters] s (readCells n l s).1 := by
  induction l generalizing s with
  | nil => exact .refl
  | cons c l ih =>
    obtain ⟨i, e⟩ := c
    cases e with
    | ok => exact ih s
    | single => exact (ih _).after (count_touches ..).within
    | double =>
      exact (ih _).after ((raiseEv_touches ..).after ((count_touches ..).after (useFresh_touches ..).within))

theorem zeroDeficit_touches (s : State) (k : Nat) :
    Touches [.buffer] s (zeroDeficit s k) := by
  unfold zeroDeficit
  exact (modNode_touches ..).within

theorem settleDeficits_touches (s : State) (q : Nat) :
    Touches [.buffer] s (settleDeficits s q) := by
  unfold settleDeficits
  extract_lets busy svc s₁ s₂
  refine .ite .refl (.trans (t := s₁) (zeroDeficit_touches ..) (.ite .refl ?_))
  exact .trans (t := s₂) (zeroDeficit_touches ..) (.ite .refl (zeroDeficit_touches ..))

theorem leaveQueue_touches (s : State) (q id : Nat) :
    Touches [.buffer] s (leaveQueue s q id) := by
  unfold leaveQueue
  exact (settleDeficits_touches ..).after (modQueue_touches ..).within

theorem discardPkt_touches (s : State) (id : Nat) :
    Touches [.system, .packets, .buffer, .rings, .sessions, .counters, .out] s (discardPkt s id) := by
  unfold discardPkt
  split
  · exact .refl
  · extract_lets s₁ s₂
    refine .trans (t := s₂) ((txFinish_touches ..).after (.ite (leaveQueue_touches ..).within .refl)) ?_
    exact .ite (freePkt_touches ..).within (modPkt_touches ..).within

theorem enterFlush_touches (s : State) (n : Nat) :
    Touches [.ports] s (enterFlush s n) := by
  unfold enterFlush
  exact .ite .refl (modPort_touches ..).within

theorem flushOne_touches (s : State) (n : Nat) :
    Touches [.system, .packets, .ports, .buffer, .rings, .sessions, .counters, .out] s (flushOne s n) := by
  unfold flushOne
  split
  · split
    · exact .refl
    · exact (modPort_touches ..).after ((discardPkt_touches ..).after (count_touches ..).within)
  · exact .refl

theorem flushEnd_touches (s : State) (n : Nat) :
    Touches [.system, .ports, .sessions, .counters] s (flushEnd s n) := by
  unfold flushEnd
  split
  · extract_lets s₁
    exact (modPort_touches ..).after (raiseEv_touches ..).within
  · exact .refl

theorem cutTransmit_touches (s : State) (n : Nat) :
    Touches [.system, .packets, .ports, .buffer, .rings, .sessions, .counters, .out] s (cutTransmit s n) := by
  unfold cutTransmit
  split
  · exact .refl
  · extract_lets s₁
    exact (discardPkt_touches ..).after ((count_touches ..).after (modPort_touches ..).within)

theorem linkLost_touches (s : State) (n : Nat) :
    Touches [.system, .packets, .ports, .buffer, .rings, .sessions, .counters, .out] s (linkLost s n) := by
  unfold linkLost
  extract_lets s₁ hold
  exact .ite ((enterFlush_touches ..).after (cutTransmit_touches ..).within)
    ((modPort_touches ..).after (cutTransmit_touches ..).within)

theorem linkBack_touches (s : State) (n : Nat) :
    Touches [.ports] s (linkBack s n) := by
  unfold linkBack
  exact (modPort_touches ..).within

theorem addCopy_touches (s : State) (c : Copy) :
    Touches [.buffer, .counters] s (addCopy s c) := by
  unfold addCopy
  extract_lets cells s₁ _
  exact .ite (.set (t := s₁) (fromFree_touches ..).within) (count_touches ..).within

theorem endCopy_touches (s : State) (c : Copy) :
    Touches [.buffer] s (endCopy s c) := by
  unfold endCopy
  exact .update

/-! ### Beats and the carousel -/

theorem countCarousel_touches (s : State) (half : Half) (p cls : Nat) :
    Touches [.counters] s (countCarousel s half p cls) := by
  unfold countCarousel
  exact (count_touches ..).within

/-! ### Search memories -/

theorem putUnit_touches (s : State) (n : Nat) (u : TcamUnit) :
    Touches [.search] s (putUnit s n u) := by
  unfold putUnit
  exact .update

theorem putExact_touches (s : State) (n : Nat) (e : ExactEnt) :
    Touches [.search] s (putExact s n e) := by
  unfold putExact
  exact .update

theorem modSealed_touches (s : State) (num : Nat) (f : Sealed → Sealed) :
    Touches [.version] s (modSealed s num f) := by
  unfold modSealed
  exact .update

theorem modPrep_touches (s : State) (num p : Nat) (f : Prep → Prep) :
    Touches [.version] s (modPrep s num p f) := by
  unfold modPrep
  exact (modSealed_touches ..).within

theorem writeUnit_touches (s : State) (n w i slots : Nat) (row : Bytes) (valid : Bool) :
    Touches [.search] s (writeUnit s n w i slots row valid) := by
  unfold writeUnit
  split
  · extract_lets old s₁ _
    exact .ite ((putUnit_touches ..).after (putUnit_touches ..).within) (putUnit_touches ..).within

theorem wipeBank_touches (s : State) (g : Nat) :
    Touches [.search] s (wipeBank s g) := by
  unfold wipeBank
  exact .update

theorem rewiden_touches (s : State) (g w : Nat) :
    Touches [.search] s (rewiden s g w) := by
  unfold rewiden
  extract_lets s₁ _
  exact .set (t := s₁) (wipeBank_touches ..).within

theorem passAt_touches (s : State) (num p at_ i : Nat) :
    Touches [.version] s (passAt s num p at_ i) := by
  unfold passAt
  exact (modPrep_touches ..).within

theorem prepTcam_touches (s : State) (q : Sealed) (sl p b e : Nat) :
    Touches [.version, .search] s (prepTcam s q sl p b e) := by
  unfold prepTcam
  extract_lets w n at_ u need i s₁ s₂ m
  exact .ite (.ite ((passAt_touches ..).after (writeUnit_touches ..).within)
    ((passAt_touches ..).after (writeUnit_touches ..).within))
    (.ite ((putUnit_touches ..).after (passAt_touches ..).within)
    ((putUnit_touches ..).after (passAt_touches ..).within))

theorem prepExact_touches (s : State) (q : Sealed) (sl p r : Nat) :
    Touches [.version, .search] s (prepExact s q sl p r) := by
  unfold prepExact
  extract_lets s₁ n e row need m
  exact .ite ((putExact_touches ..).after (passAt_touches ..).within)
    (.ite ((putExact_touches ..).after (passAt_touches ..).within)
    ((putExact_touches ..).after (passAt_touches ..).within))

theorem prepStep_touches (s : State) (q : Sealed) (p : Nat) :
    OptTouches [.version, .search] s (prepStep s q p) := by
  unfold prepStep
  split
  · exact .none
  · split
    · exact .none
    · extract_lets k b
      split
      · extract_lets s₁
        exact .some ((modPrep_touches ..).after (.foldl (fun _ _ => (rewiden_touches ..).within) .refl))
      · split
        · exact .some (prepTcam_touches ..).within
        · split
          · exact .some (prepTcam_touches ..).within
          · exact .mapOther (fun _ => (prepExact_touches ..).within)

theorem passOver_touches (p : Nat) (s : State) (l : List Sealed) : Touches [.version] s (passOver p s l) := by
  induction l generalizing s with
  | nil => exact .refl
  | cons q l ih =>
    unfold passOver
    split
    · exact .refl
    · exact .ite ((ih _).after (passAt_touches ..).within) .refl

theorem prepAny_touches (s : State) (p : Nat) :
    OptTouches [.version, .search] s (prepAny s p) := by
  unfold prepAny
  exact .bindOther (fun _ => (prepStep_touches ..).within)

theorem legacyBeat_touches (s : State) (p : Nat) (l : Legacy) :
    Touches [.search, .pipes] s (legacyBeat s p l) := by
  unfold legacyBeat
  extract_lets w n u i s₁
  exact .ite ((modPipe_touches ..).after (putUnit_touches ..).within)
    (.ite ((modPipe_touches ..).after (writeUnit_touches ..).within)
    ((modPipe_touches ..).after (writeUnit_touches ..).within))

theorem legacyPush_touches (p : Nat) (row : Bytes) (s : State) :
    OptTouches [.pipes] s (legacyPush p row s) := by
  unfold legacyPush
  extract_lets b e g body w
  exact .ite (.some (modPipe_touches ..).within) .none

theorem dropWrites_touches (s : State) (g : Nat) :
    Touches [.version, .pipes] s (dropWrites s g) := by
  unfold dropWrites
  extract_lets s₁ _
  exact .set (t := s₁) (modPipe_touches ..).within

theorem setBankMode_touches (g mode : Nat) (s : State) :
    OptTouches [.objects, .version, .search, .pipes] s (setBankMode g mode s) := by
  unfold setBankMode
  extract_lets free s₁
  exact .ite (.some ((wipeBank_touches ..).after ((setRw_touches ..).after
    (.ite .refl (dropWrites_touches ..).within)))) .none

theorem ranIngress_touches (s : State) (p cls : Nat) :
    Touches [.pipes, .counters] s (ranIngress s p cls) := by
  unfold ranIngress
  exact (countCarousel_touches ..).after (modPipe_touches ..).within

theorem twriteBeat_touches (s : State) (p : Nat) :
    Touches [.version, .search, .pipes, .counters] s (twriteBeat s p) := by
  unfold twriteBeat
  extract_lets s₁ s₂
  split
  · split
    · exact (ranIngress_touches ..).after ((legacyBeat_touches ..).after (modPipe_touches ..).within)
    · unfold s₂
      refine .trans (t := s₁) (modPipe_touches ..).within ?_
      split
      next u e =>
        exact (ranIngress_touches ..).after (((prepAny_touches ..).get e).after (passOver_touches ..).within)
      · exact (ranIngress_touches ..).after (passOver_touches ..).within
  · unfold s₂
    refine .trans (t := s₁) (modPipe_touches ..).within ?_
    split
    next u₁ e₁ =>
      exact (ranIngress_touches ..).after (((prepAny_touches ..).get e₁).after (passOver_touches ..).within)
    · exact (ranIngress_touches ..).after (passOver_touches ..).within

theorem scrubBeat_touches (s : State) (p : Nat) (found : Option TcamUnit) (sh : Ecc) :
    Touches [.system, .search, .pipes, .sessions, .counters] s (scrubBeat s p found sh) := by
  unfold scrubBeat
  extract_lets pos b u n s₁ _ s₂ n0 clear _ s₃ s₄
  split
  · refine (raiseEv_touches ..).after ((count_touches ..).after (.set (t := s₂) ?_))
    unfold s₂
    refine .trans (t := s₁) (modPipe_touches ..).within ?_
    split
    · exact .update
    · exact .refl
  · split
    · refine (raiseEv_touches ..).after ((count_touches ..).after (.set (t := s₂) ?_))
      unfold s₂
      refine .trans (t := s₁) (modPipe_touches ..).within ?_
      split
      · exact .update
      · exact .refl
    · unfold s₂
      refine .trans (t := s₁) (modPipe_touches ..).within ?_
      split
      · exact .update
      · exact .refl

theorem rowTwrite_touches (pipe : Nat) (s : State) :
    Touches [.version, .search, .pipes, .counters] s (rowTwrite pipe s) := by
  unfold rowTwrite
  exact .whenRun .refl (.guardS .refl (.ite (twriteBeat_touches ..).within
    (.ite (ranIngress_touches ..).within .refl)))

theorem rowTscrub_touches (pipe : Nat) (found : Option TcamUnit) (shadow : Ecc) (s : State) :
    Touches [.system, .search, .pipes, .sessions, .counters] s (rowTscrub pipe found shadow s) := by
  unfold rowTscrub
  exact .whenRun .refl (.guardS .refl (.ite ((ranIngress_touches ..).after (scrubBeat_touches ..).within)
    (.ite (ranIngress_touches ..).within .refl)))

theorem rowLegacyWrite_touches (src : Origin) (pipe : Nat) (row : Bytes) (s : State) :
    Touches [.pipes, .reject, .lock, .counters] s (rowLegacyWrite src pipe row s) := by
  unfold rowLegacyWrite
  exact .writeCmd .refl (fun _ => (legacyPush_touches ..).within)

theorem rowBankModeWrite_touches (src : Origin) (bank mode : Nat) (s : State) :
    Touches [.objects, .version, .search, .pipes, .reject, .lock, .counters] s
      (rowBankModeWrite src bank mode s) := by
  unfold rowBankModeWrite
  exact .writeCmd .refl (fun _ => (setBankMode_touches ..).within)

/-! ### Directories and records -/

theorem putDir_touches (s : State) (a v : Nat) :
    Touches [.flow] s (putDir s a v) := by
  unfold putDir
  exact .update

theorem putSlot_touches (s : State) (a : Nat) (b : Bytes) :
    Touches [.flow] s (putSlot s a b) := by
  unfold putSlot
  exact .update

theorem writeRaw_touches (s : State) (a : Nat) (dbl : Bool) (r : Bytes) :
    Touches [.flow] s (writeRaw s a dbl r) := by
  unfold writeRaw
  exact .ite ((putSlot_touches ..).after (putSlot_touches ..).within) (putSlot_touches ..).within

theorem writeRecordAt_touches (s : State) (a : Nat) (dbl : Bool) (r : Bytes) :
    Touches [.flow] s (writeRecordAt s a dbl r) := by
  unfold writeRecordAt
  exact (writeRaw_touches ..).within

theorem putCompanion_touches (s : State) (a : Nat) (b : Bytes) :
    Touches [.flow] s (putCompanion s a b) := by
  unfold putCompanion
  exact .update

/-! ### What a home half keeps beside its records -/

theorem modPos_touches (s : State) (p h : Nat) (f : Pos → Pos) :
    Touches [.pipes] s (modPos s p h f) := by
  unfold modPos
  exact (modPipe_touches ..).within

theorem putCache_touches (s : State) (p a : Nat) (dbl : Bool) (pin : Pin) :
    OptTouches [.pipes] s (putCache s p a dbl pin) := by
  unfold putCache
  exact .mapOther (fun _ => (modPipe_touches ..).within)

theorem enterRead_touches (s : State) (p a : Nat) (dbl : Bool) :
    OptTouches [.pipes] s (enterRead s p a dbl) := by
  unfold enterRead
  exact .ite (.some (modPipe_touches ..).within) (putCache_touches ..).within

theorem askFrom_touches (s : State) (p h slot bytes area requester after : Nat) :
    Touches [.pipes] s (askFrom s p h slot bytes area requester after) := by
  unfold askFrom
  exact (modPipe_touches ..).within

theorem askRead_touches (s : State) (p h slot bytes area requester : Nat) :
    Touches [.pipes] s (askRead s p h slot bytes area requester) := by
  unfold askRead
  exact (askFrom_touches ..).within

theorem askWrite_touches (s : State) (p slot area : Nat) :
    Touches [.pipes] s (askWrite s p slot area) := by
  unfold askWrite
  exact (askFrom_touches ..).within

theorem issueRead_touches (s : State) (p id : Nat) :
    Touches [.pipes, .counters] s (issueRead s p id) := by
  unfold issueRead
  split
  · exact .refl
  · extract_lets s₁ s₂ off writes
    refine .trans (t := s₂) (.trans (t := s₁) (modPipe_touches ..).within (.ite (count_touches ..).within .refl)) ?_
    exact .ite (filtered_touches ..).within (filtered_touches ..).within

theorem issueReads_touches (p n : Nat) (s : State) : Touches [.pipes, .counters] s (issueReads p n s) := by
  induction n generalizing s with
  | zero => exact .refl
  | succ n ih =>
    unfold issueReads
    extract_lets
    split
    · exact .refl
    · split
      · exact .refl
      · exact (ih _).after (issueRead_touches ..).within

theorem askCandidates_touches (s : State) (p h n bytes requester after : Nat) :
    Touches [.pipes] s (askCandidates s p h n bytes requester after) := by
  unfold askCandidates
  split
  · exact .refl
  · extract_lets s₁
    exact (modPos_touches ..).after (.foldl (fun _ _ => (askFrom_touches ..).within) .refl)

theorem holdClaim_touches (s : State) (p h : Nat) (pl : Place) :
    Touches [.pipes] s (holdClaim s p h pl) := by
  unfold holdClaim
  split
  · exact .refl
  · exact (modPipe_touches ..).within

theorem occupy_touches (s : State) (a f : Nat) (dbl : Bool) :
    Touches [.flow] s (occupy s a f dbl) := by
  unfold occupy
  extract_lets s₁
  exact .ite ((putDir_touches ..).after (putDir_touches ..).within) (putDir_touches ..).within

theorem vacate_touches (s : State) (a : Nat) (dbl : Bool) :
    Touches [.flow] s (vacate s a dbl) := by
  unfold vacate
  extract_lets s₁
  exact .ite ((putDir_touches ..).after (putDir_touches ..).within) (putDir_touches ..).within

theorem takePlace_touches (s : State) (p profile : Nat) (key : Bytes) :
    OptTouches [.flow, .pipes] s ((takePlace s p profile key).map Prod.fst) := by
  unfold takePlace
  extract_lets
  split
  split
  · exact .some (occupy_touches ..).within
  · exact .mapOtherFst fun _ => (modPipe_touches ..).within

theorem pinPlace_touches (s : State) (p : Nat) (dbl : Bool) (x : Place) :
    OptTouches [.pipes] s (pinPlace s p dbl x) := by
  unfold pinPlace
  split
  · exact (putCache_touches ..).within
  · exact (putCache_touches ..).within
  · exact .some .refl

theorem makeClaim_touches (s : State) (p h profile : Nat) (key : Bytes) :
    OptTouches [.flow, .pipes] s ((makeClaim s p h profile key).map Prod.fst) := by
  unfold makeClaim
  split
  · exact .someFst .refl
  next u _ e =>
    exact .mapFst ((pinPlace_touches ..).after (((takePlace_touches ..).getFst e).within))
      (fun _ => .pair (modPipe_touches ..).within)

theorem storeRecord_touches (s : State) (p h : Nat) (dbl : Bool) (r : Bytes) (x : Place) :
    OptTouches [.flow, .pipes] s (storeRecord s p h dbl r x) := by
  unfold storeRecord
  split
  · extract_lets s₁
    exact .ite (.some ((askWrite_touches ..).after (writeRecordAt_touches ..).within))
      ((putCache_touches ..).after ((askWrite_touches ..).after (writeRecordAt_touches ..).within))
  · exact .some (modPipe_touches ..).within
  · exact (putCache_touches ..).after (modPipe_touches ..).within

theorem freeStashEntry_touches (s : State) (p i tick : Nat) :
    Touches [.pipes, .counters] s (freeStashEntry s p i tick) := by
  unfold freeStashEntry
  extract_lets had s₁
  exact .ite ((countR_touches ..).after (modPipe_touches ..).within) (modPipe_touches ..).within

theorem releasePlace_touches (s : State) (p : Nat) (pl : Place) (dbl : Bool) (h tick : Nat) :
    Touches [.flow, .pipes, .counters] s (releasePlace s p pl dbl h tick) := by
  unfold releasePlace
  split
  · exact (modPipe_touches ..).within
  · split
    · exact (modPipe_touches ..).after (.ite .refl (vacate_touches ..).within)
    · exact (modPipe_touches ..).after (.ite .refl (vacate_touches ..).within)
    · exact (freeStashEntry_touches ..).within

theorem dropClaim_touches (s : State) (p : Nat) (c : Claim) :
    Touches [.pipes] s (dropClaim s p c) := by
  unfold dropClaim
  exact (modPipe_touches ..).within

theorem leaveClaim_touches (s : State) (p : Nat) (c : Claim) (h tick : Nat) :
    Touches [.flow, .pipes, .counters] s (leaveClaim s p c h tick) := by
  unfold leaveClaim
  extract_lets rest s₁
  exact .ite ((countR_touches ..).after ((releasePlace_touches ..).after (dropClaim_touches ..).within))
    (modPipe_touches ..).within

theorem natFreeAt_touches (s : State) (p i port : Nat) :
    Touches [.pipes] s (natFreeAt s p i port) := by
  unfold natFreeAt
  exact (modPipe_touches ..).within

theorem natRelease_touches (s : State) (p i port : Nat) :
    Touches [.pipes] s (natRelease s p i port) := by
  unfold natRelease
  exact .ite (natFreeAt_touches ..).within .refl

theorem natEndRecord_touches (s : State) (p : Nat) (dbl : Bool) (r : Bytes) :
    Touches [.pipes] s (natEndRecord s p dbl r) := by
  unfold natEndRecord
  extract_lets a
  exact .ite .refl (natFreeAt_touches ..).within

theorem endRecord_touches (s : State) (p h tick : Nat) (pl : Place) (dbl : Bool) :
    OptTouches [.flow, .pipes, .counters] s (endRecord s p h tick pl dbl) := by
  unfold endRecord
  extract_lets r profile key holders
  refine .map (storeRecord_touches ..).within (fun t => ?_)
  extract_lets s₁ s₂
  refine .trans (t := s₂) ?_ ?_
  · unfold s₂
    refine .trans (t := s₁) (natEndRecord_touches ..).within ?_
    split
    · exact .ite ((countR_touches ..).after (modPipe_touches ..).within) .refl
    · exact .refl
  · split
    · exact (releasePlace_touches ..).within
    · split
      · exact (modPipe_touches ..).within
      · exact (modPipe_touches ..).within

theorem quarantine_touches (s : State) (p a cause tick : Nat) :
    Touches [.system, .flow, .pipes, .sessions, .counters] s (quarantine s p a cause tick) := by
  unfold quarantine
  split
  · exact .refl
  · extract_lets slots s₁ _ s₂ s₃
    exact (raiseAt_touches ..).after ((countR_touches ..).after
      ((modPipe_touches ..).after (.set (t := s₁) (.foldl (fun _ _ => (putDir_touches ..).within) .refl))))

theorem quarantineBad_touches (s : State) (p : Nat) (q : Pos) :
    Touches [.system, .flow, .pipes, .sessions, .counters] s (quarantineBad s p q) := by
  unfold quarantineBad
  exact .foldl (fun _ _ => .ite .refl (quarantine_touches ..).within) .refl

theorem alarms_touches (s : State) (p tick : Nat) :
    Touches [.system, .pipes, .sessions, .counters] s (alarms s p tick) := by
  unfold alarms
  extract_lets oa sa o t k s₁ s₂
  refine .trans (t := s₂) (.trans (t := s₁) (modPipe_touches ..).within (.ite (raiseAt_touches ..).within .refl)) ?_
  exact .ite (raiseAt_touches ..).within .refl

theorem dirDouble_touches (s : State) (p h c b tick requester : Nat) :
    Touches [.system, .flow, .pipes, .sessions, .counters] s (dirDouble s p h c b tick requester) := by
  unfold dirDouble
  extract_lets s₁ s₂ s₃
  exact (raiseAt_touches ..).after ((count_touches ..).after
    (.foldl (fun _ _ => (askRead_touches ..).within) ((modPos_touches ..).after
    (.foldl (fun _ _ => (putDir_touches ..).within) .refl))))

theorem readWords_touches (s : State) (p h c tick requester : Nat) (bs : List Nat) (upset : Option (Nat × Ecc)) :
    Touches [.system, .flow, .pipes, .sessions, .counters] s (readWords s p h c tick requester bs upset) := by
  unfold readWords
  split
  · exact .ite (count_touches ..).within .refl
  · exact .ite (dirDouble_touches ..).within .refl
  · exact .refl

theorem readDirectory_touches (s : State) (p h tick requester : Nat) (bs : List Nat) (upset : Option (Nat × Ecc)) :
    Touches [.system, .flow, .pipes, .sessions, .counters] s (readDirectory s p h tick requester bs upset) := by
  unfold readDirectory
  exact (readWords_touches ..).within

theorem rebuildBucket_touches (s : State) (p : Nat) (q : Pos) (b : Nat) :
    Touches [.flow] s (rebuildBucket s p q b) := by
  unfold rebuildBucket
  extract_lets bad one
  refine .foldl (fun t a => ?_) .refl
  unfold one
  extract_lets a here fpOf _ s₁
  split
  · split
    · exact (occupy_touches ..).within
  · exact .ite .refl (.ite .update (.ite ((occupy_touches ..).after .update)
      (.ite ((putDir_touches ..).after .update) ((putDir_touches ..).after .update))))

theorem judgeRead_touches (s : State) (p : Nat) (r : Read) (ecc : Ecc) :
    Touches [.pipes] s (judgeRead s p r ecc) := by
  unfold judgeRead
  split
  · exact .refl
  · extract_lets dbl pl bad fault tested found
    have hfound (profile : Nat) (key : Bytes) : Touches [.pipes] s (found profile key) :=
      .ite ((holdClaim_touches ..).after (modPos_touches ..).within) .refl
    clear_value tested
    refine .ite .refl ?_
    split
    · exact .ite (modPos_touches ..).within .refl
    · refine .ite (.ite (modPos_touches ..).within .refl) (.ite (modPos_touches ..).within (.ite .refl ?_))
      split
      · split
        · exact hfound ..
        · exact .refl
      · exact .ite (hfound ..) (.ite (modPos_touches ..).within .refl)
      · exact .refl

theorem landRead_touches (s : State) (p id : Nat) (ecc : Ecc) :
    Touches [.pipes, .counters] s (landRead s p id ecc) := by
  unfold landRead
  split
  · exact .refl
  · split
    · exact .refl
    · extract_lets bad s₁ s₂ s₃ s₄
      refine .trans (t := s₄) ((judgeRead_touches ..).after ((modPipe_touches ..).after
        (.ite ((count_touches ..).after (.ite (count_touches ..).within .refl))
        (.ite (count_touches ..).within .refl)))) ?_
      split
      · exact (modPipe_touches ..).within
      · exact .ite (askCandidates_touches ..).within .refl

theorem landWrite_touches (s : State) (p a : Nat) :
    Touches [.pipes] s (landWrite s p a) := by
  unfold landWrite
  split
  · exact .refl
  · extract_lets s₁
    exact .ite (modPipe_touches ..).within ((modPipe_touches ..).after (modPipe_touches ..).within)

/-! ### Engines and clusters -/

theorem queueTask_touches (s : State) (c : Nat) (t : Task) :
    OptTouches [.clusters] s (queueTask s c t) := by
  unfold queueTask
  exact .ite (.some (modCluster_touches ..).within) .none

theorem unformat_touches (s : State) (t : Task) :
    Touches [.buffer] s (unformat s t) := by
  unfold unformat
  split
  · exact .refl
  · exact .update

theorem discardTask_touches (s : State) (c : Nat) (t : Task) :
    Touches [.buffer, .counters] s (discardTask s c t) := by
  unfold discardTask
  exact (unformat_touches ..).after (count_touches ..).within

theorem freeGranted_touches (s : State) (t : Task) :
    Touches [.pools] s (freeGranted s t) := by
  unfold freeGranted
  split
  · exact .refl
  · exact .update

theorem offerTask_touches (s : State) (c : Nat) (t : Task) :
    Touches [.buffer, .clusters, .pools, .counters] s (offerTask s c t) := by
  unfold offerTask
  exact .getD (queueTask_touches ..).within ((freeGranted_touches ..).after (discardTask_touches ..).within)

theorem cancelIdle_touches (s : State) (c e : Nat) (requeue : Bool) :
    Touches [.buffer, .clusters, .counters] s (cancelIdle s c e requeue) := by
  unfold cancelIdle
  split
  · extract_lets s₁
    exact .ite ((modCluster_touches ..).after ((modEngine_touches ..).after (count_touches ..).within))
      ((discardTask_touches ..).after ((modEngine_touches ..).after (count_touches ..).within))
  · exact .refl

theorem cancelAllIdle_touches (s : State) (c : Nat) (requeue : Bool) :
    Touches [.buffer, .clusters, .counters] s (cancelAllIdle s c requeue) := by
  unfold cancelAllIdle
  exact .foldl (fun _ _ => (cancelIdle_touches ..).within) .refl

theorem markTrapped_touches (s : State) (c : Nat) :
    Touches [.packets] s (markTrapped s c) := by
  unfold markTrapped
  exact .update

theorem frozenList_touches (s : State) (l : List Nat) :
    Touches [.system] s { s with sys := { s.sys with frozenList := l } } := .update

theorem trapCluster_touches (s : State) (c cause info : Nat) (vector : Bytes) :
    Touches [.system, .packets, .buffer, .clusters, .sessions, .counters] s
      (trapCluster s c cause info vector) := by
  unfold trapCluster
  refine .ite .refl ?_
  extract_lets s₁ s₂ s₃ s₄ w
  have h₂ : Touches [.buffer, .clusters, .counters] s s₂ :=
    .foldl (fun _ _ => (unformat_touches ..).within) (cancelAllIdle_touches ..).within
  have h₄ : Touches [.packets, .buffer, .clusters, .counters] s s₄ :=
    (count_touches ..).after ((markTrapped_touches ..).after ((modCluster_touches ..).after h₂.within))
  exact (raiseEv_touches ..).after ((frozenList_touches s₄ _).after h₄.within)

theorem trapEngine_touches (s : State) (c e cause : Nat) :
    Touches [.system, .packets, .buffer, .clusters, .sessions, .counters] s (trapEngine s c e cause) := by
  unfold trapEngine
  extract_lets g addr info
  exact (trapCluster_touches ..).within

theorem finishPacket_touches (s : State) (c e : Nat) :
    Touches [.packets] s (finishPacket s c e) := by
  unfold finishPacket
  extract_lets g done
  split
  · exact (modPkt_touches ..).within
  · exact .refl

theorem issueWord_touches (s : State) (c e : Nat) (ecc : Ecc) :
    Touches [.system, .packets, .buffer, .clusters, .sessions, .counters] s (issueWord s c e ecc) := by
  unfold issueWord
  extract_lets _ g s₁ img w s₂ s₃ t s₄ rd g' s₅
  refine .trans (t := s₂) (.trans (t := s₁) (modEngine_touches ..).within (.ite (count_touches ..).within .refl)) ?_
  refine .trans (t := s₃) (.ite .refl (count_touches ..).within) ?_
  split
  · exact (trapEngine_touches ..).within
  split
  · exact (trapEngine_touches ..).within
  · refine .trans (t := s₅) ((modEngine_touches ..).after (.ite (filtered_touches ..).within .refl)) ?_
    exact .ite (finishPacket_touches ..).within .refl

theorem dispatch_touches (s : State) (p id : Nat) :
    Touches [.packets, .buffer, .pipes, .clusters, .counters] s (dispatch s p id) := by
  unfold dispatch
  split
  · extract_lets c s₁ _
    refine .trans (t := s₁) (modPipe_touches ..).within ?_
    split
    · exact .refl
    · extract_lets s₂ img g s₃ s₄
      exact (modPkt_touches ..).after ((count_touches ..).after
        ((modCluster_touches ..).after ((modEngine_touches ..).after (cancelIdle_touches ..).within)))
  · exact .refl

theorem startIdle_touches (s : State) (c : Nat) :
    Touches [.buffer, .clusters, .counters] s (startIdle s c) := by
  unfold startIdle
  split
  · exact .refl
  · split
    · extract_lets s₁ _
      refine .trans (t := s₁) (modCluster_touches ..).within ?_
      split
      · exact (discardTask_touches ..).within
      · exact (modEngine_touches ..).within
    · exact .refl

theorem rowMicrowordIssue_touches (cluster engine : Nat) (ecc : Ecc) (s : State) :
    Touches [.system, .packets, .buffer, .clusters, .sessions, .counters] s
      (rowMicrowordIssue cluster engine ecc s) := by
  unfold rowMicrowordIssue
  exact .whenRun .refl (.guardS .refl (issueWord_touches ..).within)

theorem rowEngineBudgetTrap_touches (cluster engine : Nat) (s : State) :
    Touches [.system, .packets, .buffer, .clusters, .sessions, .counters] s
      (rowEngineBudgetTrap cluster engine s) := by
  unfold rowEngineBudgetTrap
  exact .whenRun .refl (.guardS .refl (trapEngine_touches ..).within)

theorem rowIdleStepStart_touches (cluster : Nat) (s : State) :
    Touches [.buffer, .clusters, .counters] s (rowIdleStepStart cluster s) := by
  unfold rowIdleStepStart
  exact .whenRun .refl (.guardS .refl (startIdle_touches ..).within)

theorem rowIdleOverrun_touches (cluster engine : Nat) (s : State) :
    Touches [.system, .buffer, .clusters, .sessions, .counters] s (rowIdleOverrun cluster engine s) := by
  unfold rowIdleOverrun
  exact .whenRun .refl (.guardS .refl ((raiseEv_touches ..).after
    ((count_touches ..).after (cancelIdle_touches ..).within)))

/-! ### Commit programs -/

theorem pipeCount_touches (c : CommitCtx) (s : State) (o : Nat) :
    Touches [.counters] s (pipeCount c s o) := by
  unfold pipeCount
  exact (countR_touches ..).within

/-! The operations of a commit program keep the state but for counts, allocations and their events. -/

@[simp] theorem setQ_s (t : CommitSt) (d v : Nat) : (setQ t d v).s = t.s := by unfold setQ; split <;> rfl

@[simp] theorem setP_s (t : CommitSt) (w : Nat) (b : Bool) : (setP t w b).s = t.s := by
  unfold setP; split <;> rfl

@[simp] theorem setF_s (t : CommitSt) (w v : Nat) : (setF t w v).s = t.s := by unfold setF; split <;> rfl

theorem touches_ite_s {P : List Part} {s : State} {c : Prop} [Decidable c] {t u : CommitSt}
    (h : Touches P s t.s) (k : Touches P s u.s) : Touches P s (if c then t else u).s := by
  split
  · exact h
  · exact k

theorem natAlloc_touches (c : CommitCtx) (t : CommitSt) (a b first cnt : Nat) (paired : Bool) :
    Touches [.system, .pipes, .sessions, .counters] t.s (natAlloc c t a b first cnt paired).1.s := by
  unfold natAlloc
  split
  · exact .refl
  · extract_lets old
    split
    · exact .refl
    · split
      · exact (modPipe_touches ..).within
      · split
        · exact .refl
        · exact (raiseAt_touches ..).after (modPipe_touches ..).within

theorem natRev_touches (c : CommitCtx) (t : CommitSt) (a : Nat) :
    Touches [.counters] t.s (natRev c t a).1.s := by
  have h (b : Bool) : Touches [.counters] t.s (if b then { t with s := pipeCount c t.s 24 } else t).s :=
    touches_ite_s (pipeCount_touches ..) .refl
  unfold natRev
  extract_lets addr port away t'
  split
  · exact h away
  · extract_lets
    split <;> exact h away

/-- Only the allocations and the counts of an operation reach the state. -/
theorem opEffect_touches (c : CommitCtx) (t : CommitSt) (w : Nat) :
    Touches [.system, .pipes, .sessions, .counters] t.s (opEffect c t w).s := by
  have hcount (o : Nat) : Touches [.system, .pipes, .sessions, .counters] t.s (pipeCount c t.s o) :=
    (pipeCount_touches ..).within
  have same {u : CommitSt} (h : u.s = t.s) : Touches [.system, .pipes, .sessions, .counters] t.s u.s := h ▸ .refl
  unfold opEffect
  extract_lets op imm a b0 m b f d fin _ _ _ _ _ _ _ _ _ exported _ _ _ _ sampled
  have hfin (u : CommitSt) (nf q : Nat) (p : Bool) : (fin u nf q p).s = u.s := by simp [fin]
  clear_value fin
  -- the arithmetic operations
  iterate 6 refine touches_ite_s (same (by simp [hfin])) ?_
  refine touches_ite_s (same (by simp)) ?_
  refine touches_ite_s (same (by simp [hfin])) ?_
  refine touches_ite_s (same (by simp [apply_ite CommitSt.s])) ?_
  -- NAT
  refine touches_ite_s ?_ ?_
  · split
    next u q ok e =>
      have := natAlloc_touches c t a b0 (imm % 16) (bits imm 7 4 + 1) (bit imm 8)
      rw [e] at this
      simpa using this
  -- LB
  refine touches_ite_s ?_ ?_
  · split
    · exact same (by simp)
    · exact same (by simp [hfin])
  refine touches_ite_s .refl ?_
  -- EXPORT
  refine touches_ite_s ?_ ?_
  · refine touches_ite_s (hcount 19) (touches_ite_s .refl (touches_ite_s (hcount 16) .refl))
  -- SAMPLE
  refine touches_ite_s ?_ ?_
  · have hs : sampled.s = t.s := hfin ..
    refine touches_ite_s (same hs) (touches_ite_s (same hs) (touches_ite_s (same hs) ?_))
    show Touches _ _ (pipeCount c sampled.s 21)
    exact hs ▸ hcount 21
  iterate 4 refine touches_ite_s (same (by simp [hfin])) ?_
  refine touches_ite_s ?_ .refl
  split
  next u q ok e =>
    have := natRev_touches c t a
    rw [e] at this
    simpa using this.within

/-- A word's operation, or the count of why it does not act. -/
theorem runOp_touches (c : CommitCtx) (t : CommitSt) (w : Nat) :
    Touches [.system, .pipes, .sessions, .counters] t.s (runOp c t w).s := by
  unfold runOp
  extract_lets g
  refine touches_ite_s .refl ?_
  split
  · exact (pipeCount_touches ..).within
  · exact opEffect_touches ..

theorem runOps_touches (c : CommitCtx) (t : CommitSt) (ws : List Nat) :
    Touches [.system, .pipes, .sessions, .counters] t.s (runOps c t ws).s := by
  unfold runOps
  induction ws generalizing t with
  | nil => exact .refl
  | cons w ws ih => exact (ih _).after (runOp_touches c t w)

theorem bindTemplates_touches (c : CommitCtx) (t : CommitSt) (abi2 : Bool) (mask node : Nat) :
    Touches [.counters] t.s (bindTemplates c t abi2 mask node).1 := by
  unfold bindTemplates
  refine .foldlFst (fun a i => ?_) .refl
  split
  · exact .refl
  · exact .pair (countR_touches ..)

theorem pushExport_touches (s : State) (p template : Nat) (data : Bytes) :
    Touches [.pipes] s (pushExport s p template data) := by
  unfold pushExport
  exact (modPipe_touches ..).within

theorem emitExport_touches (c : CommitCtx) (t : CommitSt) : OptTouches [.pipes] t.s (emitExport c t) := by
  unfold emitExport
  split
  · exact .some .refl
  · split
    · exact .none
    · exact .some (pushExport_touches ..)

theorem expiryExport_touches (s : State) (p tick : Nat) (v : VerCfg) (profile : Nat) (rcd : Bytes) :
    OptTouches [.pipes, .counters] s (expiryExport s p tick v profile rcd) := by
  unfold expiryExport
  extract_lets n
  exact .ite (.some (countR_touches ..).within) (.ite .none
    (.ite (.some (pushExport_touches ..).within) (.some (pushExport_touches ..).within)))

theorem emitSample_touches (c : CommitCtx) (t : CommitSt) (s : State) :
    Touches [.buffer] s (emitSample c t s) := by
  unfold emitSample
  split
  · exact .refl
  · extract_lets n fmt task copy _ _
    exact .update

theorem OptTouches.orPin {P : List Part} {s : State} {o : Option State} (h : OptTouches P s o) :
    OptTouches P s (orPin o).toOption := by
  cases o with
  | none => exact .none
  | some t => exact h

theorem OptTouches.orExport {P : List Part} {s : State} {o : Option State} (h : OptTouches P s o) :
    OptTouches P s (orExport o).toOption := by
  cases o with
  | none => exact .none
  | some t => exact h

/-! ### Commit steps of a home half -/

theorem enterReads_touches (s : State) (p : Nat) (q : Pos) :
    OptTouches [.pipes] s (enterReads s p q).toOption := by
  unfold enterReads
  extract_lets rs s₁
  refine .foldlMOk (fun t r => ?_) (modPipe_touches ..)
  split
  · exact (enterRead_touches ..).orPin
  · exact .some .refl

theorem beforeCommit_touches (s : State) (p : Nat) (q : Pos) :
    OptTouches [.system, .flow, .pipes, .sessions, .counters] s (beforeCommit s p q).toOption := by
  unfold beforeCommit
  extract_lets s₁
  exact (enterReads_touches ..).after (.foldl (fun _ _ => (rebuildBucket_touches ..).within)
    (quarantineBad_touches ..).within)

theorem learnOverflow_touches (s : State) (p tick : Nat) :
    Touches [.system, .pipes, .sessions, .counters] s (learnOverflow s p tick) := by
  unfold learnOverflow
  extract_lets s₁
  exact .ite (countR_touches ..).within ((raiseAt_touches ..).after
    ((modPipe_touches ..).after (countR_touches ..).within))

theorem placeLate_touches (s : State) (p c tick profile : Nat) (key : Bytes) :
    Touches [.system, .flow, .pipes, .sessions, .counters] s (placeLate s p c tick profile key).1 := by
  unfold placeLate
  split
  · exact .pair (learnOverflow_touches ..).within
  next u _ e =>
    extract_lets pl s₁
    exact .pair ((countR_touches ..).after ((modPipe_touches ..).after (((takePlace_touches ..).getFst e).within)))

theorem openMiss_touches (s : State) (p h c tick profile : Nat) (key : Bytes) (upset : Option (Nat × Ecc)) :
    Touches [.system, .flow, .pipes, .sessions, .counters] s (openMiss s p h c tick profile key upset).1 := by
  unfold openMiss
  split
  · extract_lets s₁ k
    refine .trans (t := s₁) (readWords_touches ..).within ?_
    split
    · exact (placeLate_touches ..).within
    · split
      · split
        · exact .pair (dropClaim_touches ..).within
        · split
          · exact .pair .refl
          · exact (placeLate_touches ..).within

theorem leaveClaims_touches (s : State) (p h tick : Nat) :
    Touches [.flow, .pipes, .counters] s (leaveClaims s p h tick) := by
  unfold leaveClaims
  exact .foldl (fun _ _ => (leaveClaim_touches ..).within) .refl

theorem findRecord_touches (s : State) (p c : Nat) (q : Pos) (profile : Nat) (key : Bytes) (learns : Bool)
    (upset : Option (Nat × Ecc)) :
    Touches [.system, .flow, .pipes, .sessions, .counters] s (findRecord s p c q profile key learns upset).1 := by
  unfold findRecord
  extract_lets learns missed
  split
  · split
    · exact .pair .refl
    · unfold missed
      split
      · exact .pair .refl
      · split
        · exact .pair (learnOverflow_touches ..).within
        · split
          · exact (openMiss_touches ..).within
          · exact .pair .refl
  · split
    · exact .pair .refl
    · split
      · split
        · exact .pair (dropClaim_touches ..).within
        · exact .pair (leaveClaim_touches ..).within
      · split
        · exact .pair .refl
        · unfold missed
          split
          · exact .pair .refl
          · split
            · exact .pair (learnOverflow_touches ..).within
            · split
              · exact (openMiss_touches ..).within
              · exact .pair .refl

theorem packetVerdict_touches (c : CommitCtx) (t : CommitSt) (n : Nat) (defined : Bool) :
    Touches [.counters] t.s (packetVerdict c t n defined).1 := by
  unfold packetVerdict
  split
  · exact .refl
  · extract_lets w s₁
    split
    exact .pair (.ite (pipeCount_touches ..) .refl)

theorem sendOn_touches (s : State) (k : Pkt) (d : Decision) (edits : List Nat) (hint : Nat) :
    Touches [.system, .packets, .buffer, .rings, .sessions, .counters, .out] s (sendOn s k d edits hint) := by
  unfold sendOn
  exact .ite ((discardPkt_touches ..).after (countR_touches ..).within) (modPkt_touches ..).within

theorem commitTrapped_touches (s : State) (p : Nat) (q : Pos) (k : Pkt) (c : Nat) :
    Touches [.system, .packets, .buffer, .flow, .pipes, .rings, .sessions, .counters, .out] s
      (commitTrapped s p q k c) := by
  unfold commitTrapped
  split
  next u _ e =>
    extract_lets hit s₁ hint
    exact (sendOn_touches ..).after ((leaveClaims_touches ..).after
      ((countR_touches ..).after ((countR_touches ..).after (((findRecord_touches ..).fst e).within))))

theorem commitProgram_touches (s : State) (p : Nat) (q : Pos) (k : Pkt) (c : Nat) (raw : Bytes)
    (upset : Option (Nat × Ecc)) :
    OptTouches [.system, .packets, .buffer, .flow, .pipes, .rings, .sessions, .counters, .out] s
      ((commitProgram s p q k c raw upset).toOption.map Prod.fst) := by
  unfold commitProgram
  extract_lets v profile dbl n prog learns
  split
  next u f found =>
  extract_lets u₁ place created rcd s₁ ctx st t t₁ sent
  have hran : Touches [.system, .flow, .pipes, .sessions, .counters] s t₁.s := by
    have hs₁ : Touches [.system, .flow, .pipes, .sessions, .counters] s s₁ :=
      (countR_touches ..).after ((leaveClaims_touches ..).after ((findRecord_touches ..).fst found))
    have ht : Touches [.system, .flow, .pipes, .sessions, .counters] s t.s :=
      (runOps_touches ctx st _).after hs₁
    exact touches_ite_s ht ht
  have hsent (x : State) :
      OptTouches [.system, .packets, .buffer, .flow, .pipes, .rings, .sessions, .counters, .out] x
        ((sent x).toOption.map Prod.fst) := by
    unfold sent
    extract_lets t₂
    clear_value t₂
    refine .bindOkFst (.orExport (emitExport_touches ctx { t₂ with s := x }).within) fun y => ?_
    extract_lets y₁
    have hy₁ : Touches [.system, .packets, .buffer, .flow, .pipes, .rings, .sessions, .counters, .out] y y₁ :=
      (emitSample_touches ..).within
    split
    next w d tpl verdict =>
      have hw := (packetVerdict_touches ctx { t₂ with s := y₁ } n prog.isSome).fst verdict
      split
      next z edits bound =>
        have hz : Touches [.counters] w z := by
          by_cases dropped : d.kind = 3
          · rw [if_pos dropped] at bound
            exact Touches.refl.fst (x := (w, [])) bound
          · rw [if_neg dropped] at bound
            exact (bindTemplates_touches ctx { t₂ with s := w } _ _ _).fst bound
        exact .okFst ((sendOn_touches ..).after (hz.after (hw.after hy₁)))
  clear_value place
  split
  · exact .bindOkFst (.orPin ((storeRecord_touches ..).after hran.within)) hsent
  · exact .bindOkFst (.some hran.within) hsent

theorem commitPacket_touches (s : State) (p : Nat) (q : Pos) (id c : Nat) (upset : Option (Nat × Ecc)) :
    OptTouches [.system, .packets, .buffer, .flow, .pipes, .rings, .sessions, .counters, .out] s
      ((commitPacket s p q id c upset).toOption.map Prod.fst) := by
  unfold commitPacket
  split
  · exact .okFst (leaveClaims_touches ..).within
  · split
    · exact .okFst (commitTrapped_touches ..).within
    · extract_lets raw
      exact (commitProgram_touches ..).within

theorem ageRecord_touches (s : State) (p : Nat) (q : Pos) (pl : Place) (dbl : Bool) :
    OptTouches [.flow, .pipes, .counters] s (ageRecord s p q pl dbl).toOption := by
  unfold ageRecord
  extract_lets r fl b profile a l ended
  have hended (t : State) : OptTouches [.flow, .pipes, .counters] t (ended t).toOption :=
    .bindOk (.orPin (endRecord_touches ..).within) fun _ => .some (countR_touches ..).within
  split
  · exact .some .refl
  · split
    · exact .bindOk (.orExport (expiryExport_touches ..).within) hended
    · exact .bindOk (.some .refl) hended

theorem commitAge_touches (s : State) (p : Nat) (q : Pos) (item : Nat) (slots : List Nat) :
    OptTouches [.flow, .pipes, .counters] s (commitAge s p q item slots).toOption := by
  unfold commitAge
  split
  · refine .foldlMOk (fun t a => ?_) .refl
    extract_lets
    split
    · exact .some .refl
    · exact ageRecord_touches ..
  · split
    · exact ageRecord_touches ..
    · exact .some .refl

theorem dropStash_touches (s : State) (p i : Nat) :
    Touches [.pipes] s (dropStash s p i) := by
  unfold dropStash
  exact (modPipe_touches ..).within

theorem abandonMove_touches (s : State) (p : Nat) (q : Pos) (src : Place) (dst : Nat) (dbl : Bool) (entry : Nat) :
    Touches [.flow, .pipes, .counters] s (abandonMove s p q src dst dbl entry) := by
  unfold abandonMove
  extract_lets s₁ s₂ s₃
  refine (countR_touches ..).after ?_
  unfold s₃
  refine .trans (t := s₂) ((modPipe_touches ..).after (vacate_touches ..).within) ?_
  split
  · exact (dropStash_touches ..).within
  · exact .refl

theorem commitMove_touches (s : State) (p : Nat) (q : Pos) (src : Place) (dst : Nat) (dbl : Bool) (entry : Nat) :
    OptTouches [.flow, .pipes, .counters] s (commitMove s p q src dst dbl entry).toOption := by
  unfold commitMove
  extract_lets r claim bad follow followed emptied
  have hfollowed (t : State) : OptTouches [.flow, .pipes, .counters] t (followed t).toOption :=
    .some ((countR_touches ..).after (modPipe_touches ..).within)
  have hemptied (t : State) : OptTouches [.flow, .pipes, .counters] t (emptied t).toOption := by
    have hbody (t : State) (b : Bytes) :
        Touches [.flow, .pipes, .counters] t (askWrite (putCompanion t dst b) p dst 1) :=
      (askWrite_touches ..).after (putCompanion_touches ..).within
    unfold emptied
    split
    · exact .bindOk (.orPin ((storeRecord_touches ..).after (hbody ..))) hfollowed
    · exact .bindOk (.orPin ((storeRecord_touches ..).after (hbody ..))) hfollowed
    · exact .bindOk (.some ((dropStash_touches ..).after (hbody ..))) hfollowed
  clear_value claim
  split
  · exact .some (abandonMove_touches ..).within
  · split
    · exact .bindOk (.some ((modPipe_touches ..).after ((askWrite_touches ..).after
        (writeRecordAt_touches ..).within)))
        hemptied
    · exact .bindOk (.orPin (storeRecord_touches ..).within) hemptied

theorem releaseSlot_touches (s : State) (p a tick : Nat) :
    Touches [.system, .flow, .pipes, .sessions, .counters] s (releaseSlot s p a tick) := by
  unfold releaseSlot
  extract_lets s₁ _ s₂
  exact (raiseAt_touches ..).after (.set (t := s₁) ((putDir_touches ..).after
    ((askWrite_touches ..).after (putSlot_touches ..).within)))

theorem commitDscrub_touches (s : State) (p : Nat) (q : Pos) (test : Option Nat) :
    Touches [.system, .flow, .pipes, .sessions, .counters] s (commitDscrub s p q test) := by
  unfold commitDscrub
  split
  · exact .refl
  · exact .ite .refl (.ite (countR_touches ..).within (releaseSlot_touches ..).within)

theorem consumed_touches (s : State) (p count : Nat) :
    Touches [.rings] s (consumed s p count) := by
  unfold consumed
  exact (modRing_touches ..).within

theorem complete_touches (s : State) (p : Nat) (q : Pos) (c : Cmd) (status place : Nat) (image : Bytes) :
    Touches [.pipes, .rings] s (complete s p q c status place image) := by
  unfold complete
  extract_lets body
  exact .ite ((consumed_touches ..).after (modPipe_touches ..).within) .refl

theorem commitInsert_touches (s : State) (p c : Nat) (q : Pos) (m : Cmd) (upset : Option (Nat × Ecc)) :
    OptTouches [.system, .flow, .pipes, .rings, .sessions, .counters] s
      (commitInsert s p c q m upset).toOption := by
  unfold commitInsert
  extract_lets key dbl profile
  split
  · exact .some (complete_touches ..).within
  split
  · exact .some (complete_touches ..).within
  split
  next u f found =>
  have hu : Touches [.system, .flow, .pipes, .rings, .sessions, .counters] s u := by
    refine Touches.fst ?_ found
    split
    · split
      · exact .pair (dropClaim_touches ..).within
      · split
        · exact .pair .refl
        · exact (openMiss_touches ..).within
    · split
      · exact .pair .refl
      · exact (openMiss_touches ..).within
  extract_lets u₁
  have hu₁ : Touches [.system, .flow, .pipes, .rings, .sessions, .counters] s u₁ := (leaveClaims_touches ..).after
    hu
  split
  · exact .some ((complete_touches ..).after hu₁)
  · exact .some ((complete_touches ..).after hu₁)
  · exact .bindOk (.orPin ((storeRecord_touches ..).after hu₁)) fun _ => .some (complete_touches ..).within

theorem actOnRecord_touches (s : State) (p : Nat) (q : Pos) (m : Cmd) (pl : Place) (dbl : Bool) :
    OptTouches [.flow, .pipes, .rings, .counters] s (actOnRecord s p q m pl dbl).toOption := by
  unfold actOnRecord
  extract_lets r
  split
  · exact .bindOk (.orPin (endRecord_touches ..).within) (fun _ => .some
      ((complete_touches ..).after (countR_touches ..).within))
  · split
    · exact .bindOk (.orPin (storeRecord_touches ..).within) (fun _ => .some (complete_touches ..).within)
    · exact .some (complete_touches ..).within

theorem commitBySlot_touches (s : State) (p : Nat) (q : Pos) (m : Cmd) :
    OptTouches [.flow, .pipes, .rings, .counters] s (commitBySlot s p q m).toOption := by
  unfold commitBySlot
  extract_lets a pl d dbl read r
  split
  · exact .some (complete_touches ..).within
  · split
    · exact .some (complete_touches ..).within
    · split
      · exact .some (complete_touches ..).within
      · split
        · exact .some (complete_touches ..).within
        · exact (actOnRecord_touches ..).within

theorem commitCmd_touches (s : State) (p c : Nat) (q : Pos) (m : Cmd) (upset : Option (Nat × Ecc)) :
    OptTouches [.system, .flow, .pipes, .rings, .sessions, .counters] s
      (commitCmd s p c q m upset).toOption := by
  unfold commitCmd
  split
  · exact .some (.ite (releaseSlot_touches ..).within .refl)
  split
  · exact .some (natRelease_touches ..).within
  split
  · exact .some (complete_touches ..).within
  split
  · exact (commitBySlot_touches ..).within
  split
  · exact commitInsert_touches ..
  split
  · exact (actOnRecord_touches ..).within
  · exact .some (complete_touches ..).within

theorem settleEarly_touches (s : State) (p : Nat) :
    Touches [.flow, .pipes] s (settleEarly s p) := by
  unfold settleEarly
  extract_lets k free
  refine .foldl (fun t a => ?_) .refl
  extract_lets s₁
  exact .getD ((putCache_touches ..).after ((askWrite_touches ..).after
    ((writeRecordAt_touches ..).after (modPipe_touches ..).within)))
    ((askWrite_touches ..).after ((writeRecordAt_touches ..).after (modPipe_touches ..).within))

theorem commitStep_touches (s : State) (p : Nat) (q : Pos) (c : Nat) (upset : Option (Nat × Ecc)) :
    OptTouches [.system, .packets, .buffer, .flow, .pipes, .rings, .sessions, .counters, .out] s
      ((commitStep s p q c upset).toOption.map Prod.fst) := by
  unfold commitStep
  refine .bindOkFst (beforeCommit_touches ..).within fun t => ?_
  extract_lets done
  have hdone (r : State × Bool) :
      OptTouches [.system, .packets, .buffer, .flow, .pipes, .rings, .sessions, .counters, .out] r.1
        ((done r).toOption.map Prod.fst) :=
    .okFst ((alarms_touches ..).after ((count_touches ..).after
      ((settleEarly_touches ..).after (modPos_touches ..).within)))
  split
  · exact .bindOkFstOf (commitPacket_touches ..) hdone
  · exact .bindOkFstOf (.mapOkFst (commitAge_touches ..).within fun _ => .pair .refl) hdone
  · exact .bindOkFstOf (.mapOkFst (commitMove_touches ..).within fun _ => .pair .refl) hdone
  · exact .bindOkFstOf (.okFst (commitDscrub_touches ..).within) hdone
  · exact .bindOkFstOf (.mapOkFst (commitCmd_touches ..).within fun _ => .pair .refl) hdone
  · exact .bindOkFstOf (.okFst .refl) hdone

/-! ### The home beat -/

theorem addPos_touches (s : State) (p : Nat) (q : Pos) :
    Touches [.pipes] s (addPos s p q) := by
  unfold addPos
  extract_lets before
  exact (modPipe_touches ..).within

theorem lookupStep_touches (s : State) (p h profile : Nat) (key : Bytes) (learn hold : Bool) (requester : Nat) :
    OptTouches [.flow, .pipes] s (lookupStep s p h profile key learn hold requester).toOption := by
  unfold lookupStep
  split
  extract_lets r blocked r₁ s₁
  refine .trans (t := s₁) (modPos_touches ..).within ?_
  split
  · extract_lets s₂
    have hs₂ : Touches [.flow, .pipes] s₁ s₂ := .ite (holdClaim_touches ..).within .refl
    split
    · exact .some ((modPipe_touches ..).after hs₂)
    · exact .some ((modPipe_touches ..).after hs₂)
    · exact .some hs₂
  split
  · exact .some (askCandidates_touches ..).within
  split
  · split
    · exact .none
    next u pl e => exact .some ((modPos_touches ..).after ((makeClaim_touches ..).getFst e))
    next u e => exact .some ((modPos_touches ..).after ((makeClaim_touches ..).getFst e))
  · exact .some .refl

theorem admitPacket_touches (s : State) (p h : Nat) (k : Pkt) (upset : Option (Nat × Ecc)) :
    OptTouches [.system, .packets, .buffer, .flow, .pipes, .clusters, .sessions, .counters] s
      (admitPacket s p h k upset).toOption := by
  unfold admitPacket
  split
  · extract_lets s₁ s₂
    exact .bindOk ((lookupStep_touches ..).after ((readDirectory_touches ..).after (addPos_touches ..).within))
      (fun _ => .some ((issueReads_touches ..).after ((dispatch_touches ..).after (modPkt_touches ..).within)))

theorem jobAge1_touches (s : State) (p h tick : Nat) (upset : Option (Nat × Ecc)) :
    OptTouches [.system, .flow, .pipes, .sessions, .counters] s (jobAge1 s p h tick upset) := by
  unfold jobAge1
  split
  · exact .none
  · extract_lets item s₁ s₂ s₃ slots s₄
    exact .ite (.some (.foldl (fun _ _ => .ite .refl (askRead_touches ..).within)
      ((modPos_touches ..).after ((readDirectory_touches ..).after
      ((addPos_touches ..).after (modPipe_touches ..).within)))))
      (.some ((addPos_touches ..).after (modPipe_touches ..).within))

theorem admitMove_touches (s : State) (p h : Nat) (m : Place × Nat × Nat) (dbl : Bool) (entry : Nat) :
    OptTouches [.flow, .pipes] s ((admitMove s p h m dbl entry).bind Except.toOption) := by
  unfold admitMove
  split
  extract_lets srcOk s₁ s₂ s₃
  split
  · exact .none
  · have h₂ : Touches [.flow, .pipes] s s₂ := (occupy_touches ..).after (modPos_touches ..).within
    have h₃ : Touches [.flow, .pipes] s₂ s₃ := by
      unfold s₃
      split
      · exact (askRead_touches ..).after (.ite (putDir_touches ..).within
          ((askRead_touches ..).after (putDir_touches ..).within))
      · exact (askRead_touches ..).after (.ite (putDir_touches ..).within
          ((askRead_touches ..).after (putDir_touches ..).within))
      · exact (modPipe_touches ..).within
    exact (OptTouches.orPin (putCache_touches ..)).after (h₂.trans h₃)

theorem workDone_touches (s : State) (p h tick : Nat) :
    Touches [.pipes] s (workDone s p h tick) := by
  unfold workDone
  exact (addPos_touches ..).within

theorem jobReloc1_touches (s : State) (p h tick : Nat) (upset : Option (Nat × Ecc)) :
    OptTouches [.system, .flow, .pipes, .sessions, .counters] s (jobReloc1 s p h tick upset).toOption.join := by
  unfold jobReloc1
  split
  · split
    · exact .some (modPipe_touches ..).within
    · extract_lets s₁
      refine .trans (t := s₁) ((readDirectory_touches ..).after (workDone_touches ..).within) ?_
      split
      · exact .some ((countR_touches ..).after (modPipe_touches ..).within)
      next r e =>
        exact .mapSome ((admitMove_touches ..).bindSome e).within fun _ => (modPipe_touches ..).within
  · split
    · exact .none
    · extract_lets plan s₁
      refine .trans (t := s₁) ((readDirectory_touches ..).after (workDone_touches ..).within) ?_
      split
      · exact .some (modPipe_touches ..).within
      · exact .some ((countR_touches ..).after (modPipe_touches ..).within)

theorem jobStash1_touches (s : State) (p h tick : Nat) (upset : Option (Nat × Ecc)) :
    OptTouches [.system, .flow, .pipes, .sessions, .counters] s (jobStash1 s p h tick upset).toOption.join := by
  unfold jobStash1
  extract_lets k busy
  split
  · exact .none
  · extract_lets s₁ last back
    refine .trans (t := s₁) ((readDirectory_touches ..).after (addPos_touches ..).within) ?_
    have hback : Touches [.system, .flow, .pipes, .sessions, .counters] s₁ back := (modPipe_touches ..).within
    split
    · exact .some hback
    · split
      · exact .some hback
      next r e => exact .mapSome (f := id) ((admitMove_touches ..).bindSome e).within fun _ => .refl

theorem jobDscrub1_touches (s : State) (p h tick : Nat) (upset : Option (Nat × Ecc)) :
    Touches [.system, .flow, .pipes, .sessions, .counters] s (jobDscrub1 s p h tick upset) := by
  unfold jobDscrub1
  extract_lets b s₁ s₂ s₃ bad
  refine .trans (t := s₃) ((readDirectory_touches ..).after ((addPos_touches ..).after (modPipe_touches ..).within))
    ?_
  clear_value bad
  split
  · split
    · exact .refl
    · split
      next u _ e =>
        exact (askRead_touches ..).after ((modPos_touches ..).after
          ((putSlot_touches ..).after (((freshBytes_touches ..).fst e).within)))
  · exact .refl

theorem admitCmd_touches (s : State) (p h tick : Nat) (m : Cmd) (upset : Option (Nat × Ecc)) :
    OptTouches [.system, .flow, .pipes, .sessions, .counters] s (admitCmd s p h tick m upset).toOption := by
  unfold admitCmd
  extract_lets s₁ st a s₂ d dbl s₃ key insert
  split
  · exact .some ((readDirectory_touches ..).after (addPos_touches ..).within)
  · split
    · exact .some (addPos_touches ..).within
    · split
      · exact .some ((modPos_touches ..).after (addPos_touches ..).within)
      · split
        · exact .some (.ite ((modPos_touches ..).after ((readDirectory_touches ..).after
            (addPos_touches ..).within)) ((askRead_touches ..).after
            ((modPos_touches ..).after ((readDirectory_touches ..).after (addPos_touches ..).within))))
        · split
          · extract_lets s₄
            exact .mapOk ((lookupStep_touches ..).after ((readDirectory_touches ..).after
              (addPos_touches ..).within)) (fun _ => (modPos_touches ..).within)

theorem jobComp1_touches (s : State) (p h tick : Nat) :
    OptTouches [.flow, .pipes] s (jobComp1 s p h tick) := by
  unfold jobComp1
  split
  · exact .none
  · split
    · exact .none
    · extract_lets id take s₁ s₂
      refine .some ((workDone_touches ..).after ((askRead_touches ..).after ?_))
      unfold s₂
      refine .trans (t := s₁) (modPipe_touches ..).within ?_
      split
      · exact (putCompanion_touches ..).within
      · exact .refl

/-- A job that did work without a position of its own gets an idle one. -/
theorem ensurePos_touches {P : List Part} {s : State} (p h tick : Nat) {r : State × Nat} (k : Touches P s r.1)
    (hP : inside [.pipes] P = true := by rfl) :
    Touches P s (if (posAt r.1 p h).isSome then r else (workDone r.1 p h tick, r.2)).1 := by
  split
  · exact k
  · exact (workDone_touches ..).after k hP

theorem carouselBeat_touches (s : State) (p h : Nat) (upset : Option (Nat × Ecc)) :
    OptTouches [.system, .flow, .pipes, .sessions, .counters] s
      ((carouselBeat s p h upset).toOption.map Prod.fst) := by
  unfold carouselBeat
  extract_lets tick j idle ensure
  have hidle {o : Option State} (ho : OptTouches [.system, .flow, .pipes, .sessions, .counters] s o) :
      Touches [.system, .flow, .pipes, .sessions, .counters] s (idle o).1 := by
    cases o with
    | none => exact .pair (addPos_touches ..).within
    | some t => exact .pair (ho.get rfl)
  have hensure {r : State × Nat} (hr : Touches [.system, .flow, .pipes, .sessions, .counters] s r.1) :
      Touches [.system, .flow, .pipes, .sessions, .counters] s (ensure r).1 := ensurePos_touches p h tick hr
  split
  · exact .some (hensure (hidle (jobAge1_touches ..)))
  split
  · exact .joinOk (jobReloc1_touches ..) fun _ ho => hensure (hidle ho)
  split
  · exact .joinOk (jobStash1_touches ..) fun _ ho => hensure (hidle ho)
  split
  · exact .okFst (jobDscrub1_touches ..)
  split
  · exact .some (hensure (hidle (jobComp1_touches ..).within))
  split
  · split
    · exact .okFst (hidle .none)
    · split
      · split
        · exact .some (hidle .none)
        · split
          · exact .okFst (hidle .none)
          · exact .mapOkFst ((admitCmd_touches ..).after (modPipe_touches ..).within) fun _ => .pair .refl
      · exact .some (hidle .none)
  · exact .some (hidle .none)

theorem rebuildLater_touches (s : State) (p h : Nat) (bs : List Nat) :
    Touches [.pipes] s (rebuildLater s p h bs) := by
  unfold rebuildLater
  split
  · exact .refl
  · extract_lets s₁
    exact (modPos_touches ..).after (.ite .refl (addPos_touches ..).within)

theorem homeTry_touches (s : State) (p h : Nat) (upset : Option (Nat × Ecc)) :
    OptTouches [.system, .packets, .buffer, .flow, .pipes, .clusters, .rings, .sessions, .counters, .out] s
      (homeTry s p h upset).toOption := by
  unfold homeTry
  split
  · exact .none
  split
  · exact .none
  split
  · exact .none
  extract_lets ended admitted
  have hended (t : State) :
      OptTouches [.system, .packets, .buffer, .flow, .pipes, .clusters, .rings, .sessions, .counters, .out] t
        (ended t).toOption := .some (alarms_touches ..).within
  have hadmitted (r : State × List Nat) :
      OptTouches [.system, .packets, .buffer, .flow, .pipes, .clusters, .rings, .sessions, .counters, .out] r.1
        (admitted r).toOption := by
    unfold admitted
    split
    next t damage =>
    extract_lets t₁ t₂
    have ht₂ : Touches [.system, .packets, .buffer, .flow, .pipes, .clusters, .rings, .sessions, .counters, .out]
        t t₂ := (rebuildLater_touches ..).after (modPipe_touches ..).within
    split
    · exact .bindOk (.mapFstOk ((carouselBeat_touches ..).after ht₂) fun _ => (countCarousel_touches ..).within)
        hended
    · split
      · exact .bindOk ((admitPacket_touches ..).after ht₂) hended
      · exact .bindOk (.some ht₂) hended
  split
  · exact .bindOkOf (.okFst (count_touches ..).within) hadmitted
  · refine .bindOkOf ?_ hadmitted
    split
    · exact .okFst .refl
    · exact .mapOkOf (commitStep_touches ..).within fun _ => .pair .refl

theorem holdBeat_touches (s : State) (p c : Nat) :
    Touches [.pipes, .counters] s (holdBeat s p c) := by
  unfold holdBeat
  extract_lets k s₁ s₂
  exact (modPipe_touches ..).after ((count_touches ..).after
    ((count_touches ..).after (.ite (count_touches ..).within .refl)))

theorem homeBeat_touches (s : State) (p : Nat) (upset : Option (Nat × Ecc)) :
    Touches [.system, .packets, .buffer, .flow, .pipes, .clusters, .rings, .sessions, .counters, .out] s
      (homeBeat s p upset) := by
  unfold homeBeat
  extract_lets h n quiet
  split
  · exact (holdBeat_touches ..).within
  next u e =>
    exact (modPipe_touches ..).after ((issueReads_touches ..).after (((homeTry_touches ..).getOk e).within))

theorem commitDue_touches (s : State) (p : Nat) (isKind : Pos → Bool) :
    Touches [.system, .packets, .buffer, .flow, .pipes, .rings, .sessions, .counters, .out] s
      (commitDue s p isKind) := by
  unfold commitDue
  extract_lets h
  split
  · exact .refl
  · split
    · exact .refl
    · split
      next u u₁ _ e e₁ =>
        exact ((commitStep_touches ..).getOkFst e₁).within
      · exact .refl

theorem endSlip_touches (s : State) (p : Nat) :
    Touches [.system, .pipes, .sessions, .counters] s (endSlip s p) := by
  unfold endSlip
  extract_lets k s₁ n s₂
  exact .ite .refl (.ite ((raiseEv_touches ..).after ((modPipe_touches ..).after
    (.ite .refl (holdBeat_touches ..).within))) ((modPipe_touches ..).after
    (.ite .refl (holdBeat_touches ..).within)))

theorem enterVerify_touches (s : State) (p : Nat) (k : Pkt) :
    Touches [.packets, .pipes] s (enterVerify s p k) := by
  unfold enterVerify
  split
  · exact .refl
  · extract_lets stop s₁
    exact (modPkt_touches ..).after (modPipe_touches ..).within

theorem enterVerifies_touches (p n : Nat) (s : State) : Touches [.packets, .pipes] s (enterVerifies p n s) := by
  induction n generalizing s with
  | zero => exact .refl
  | succ n ih =>
    unfold enterVerifies
    split
    · exact .trans (enterVerify_touches ..) (ih _)
    · exact .refl

theorem requestVerify_touches (s : State) (k : Pkt) (raw : Bytes) :
    Touches [.packets] s (requestVerify s k raw) := by
  unfold requestVerify
  exact .ite .refl (modPkt_touches ..).within

theorem idleRequest_touches (s : State) (c : Nat) (k : Pkt) (raw : Bytes) :
    Touches [.buffer, .clusters, .pools, .counters] s (idleRequest s c k raw) := by
  unfold idleRequest
  extract_lets w kind
  exact .ite .refl (.ite (count_touches ..).within (offerTask_touches ..).within)

theorem releaseOldest_touches (s : State) (c : Nat) :
    Touches [.packets, .pipes, .clusters] s (releaseOldest s c) := by
  unfold releaseOldest
  extract_lets q
  split
  · exact .refl
  · split
    · exact (modCluster_touches ..).within
    · split
      · exact .refl
      · extract_lets raw s₁ s₂
        exact (enterVerifies_touches ..).after ((requestVerify_touches ..).after
          ((modPkt_touches ..).after (modCluster_touches ..).within))

theorem reachEntry_touches (s : State) (c e : Nat) :
    Touches [.packets, .buffer, .clusters, .pools, .counters] s (reachEntry s c e) := by
  unfold reachEntry
  extract_lets g
  split
  · split
    · exact .refl
    · split
      · exact (modPkt_touches ..).after (modEngine_touches ..).within
      · split
        · exact (idleRequest_touches ..).within
        · exact .refl
  · exact .refl

theorem reachEntries_touches (s : State) :
    Touches [.packets, .buffer, .clusters, .pools, .counters] s (reachEntries s) := by
  unfold reachEntries
  exact .foldl (fun _ _ => .ite (.foldl (fun _ _ => (reachEntry_touches ..).within) .refl) .refl) .refl

/-! ### The commands of the home halves -/

theorem rowHomeBeat_touches (pipe : Nat) (upset : Option (Nat × Ecc)) (s : State) :
    Touches [.system, .packets, .buffer, .flow, .pipes, .clusters, .rings, .sessions, .counters, .out] s
      (rowHomeBeat pipe upset s) := by
  unfold rowHomeBeat
  exact .whenRun .refl (.guardS .refl (homeBeat_touches ..).within)

theorem landIdle_touches (s : State) (p id : Nat) (ecc : Ecc) :
    Touches [.system, .buffer, .pipes, .clusters, .pools, .counters] s (landIdle s p id ecc) := by
  unfold landIdle
  extract_lets s₁ c s₂
  refine .trans (t := s₂) ((modPipe_touches ..).after (.ite (count_touches ..).within .refl)) ?_
  split
  · exact .refl
  · split
    · split
      next u _ e =>
        exact (offerTask_touches ..).after (((freshBytes_touches ..).fst e).within)
    · exact (offerTask_touches ..).within

theorem landAccess_touches (s : State) (p id : Nat) (ecc : Ecc) :
    Touches [.system, .buffer, .pipes, .clusters, .pools, .counters] s (landAccess s p id ecc) := by
  unfold landAccess
  split
  · exact (landIdle_touches ..).within
  · exact (landRead_touches ..).within

theorem rowHbmReadLand_touches (pipe read : Nat) (ecc : Ecc) (s : State) :
    Touches [.system, .buffer, .pipes, .clusters, .pools, .sessions, .counters] s
      (rowHbmReadLand pipe read ecc s) := by
  unfold rowHbmReadLand
  exact .whenRun .refl (.guardS .refl ((endSlip_touches ..).after
    ((issueReads_touches ..).after (landAccess_touches ..).within)))

theorem rowHbmWriteLand_touches (pipe slot : Nat) (s : State) :
    Touches [.pipes, .counters] s (rowHbmWriteLand pipe slot s) := by
  unfold rowHbmWriteLand
  exact .whenRun .refl (.guardS .refl ((issueReads_touches ..).after (landWrite_touches ..).within))

theorem releaseHeld_touches (p n : Nat) (s : State) : Touches [.packets] s (releaseHeld p n s) := by
  induction n generalizing s with
  | zero => exact .refl
  | succ n ih =>
    unfold releaseHeld
    split
    · exact .refl
    · exact .trans (modPkt_touches ..) (ih _)

theorem rowHoldingQueueRelease_touches (pipe : Nat) (s : State) :
    Touches [.packets] s (rowHoldingQueueRelease pipe s) := by
  unfold rowHoldingQueueRelease
  exact .whenRun .refl (.guardS .refl (releaseHeld_touches ..).within)

theorem rowResequencerRelease_touches (cluster : Nat) (s : State) :
    Touches [.packets, .pipes, .clusters] s (rowResequencerRelease cluster s) := by
  unfold rowResequencerRelease
  exact .whenRun .refl (.guardS .refl (releaseOldest_touches ..).within)

theorem rowPacketCommit_touches (pipe : Nat) (s : State) :
    Touches [.system, .packets, .buffer, .flow, .pipes, .rings, .sessions, .counters, .out] s
      (rowPacketCommit pipe s) := by
  unfold rowPacketCommit
  exact .whenRun .refl (commitDue_touches ..).within

theorem rowAgeCommit_touches (pipe : Nat) (s : State) :
    Touches [.system, .packets, .buffer, .flow, .pipes, .rings, .sessions, .counters, .out] s
      (rowAgeCommit pipe s) := by
  unfold rowAgeCommit
  exact .whenRun .refl (commitDue_touches ..).within

theorem rowRelocMoveCommit_touches (pipe : Nat) (s : State) :
    Touches [.system, .packets, .buffer, .flow, .pipes, .rings, .sessions, .counters, .out] s
      (rowRelocMoveCommit pipe s) := by
  unfold rowRelocMoveCommit
  exact .whenRun .refl (commitDue_touches ..).within

theorem rowDscrubCommit_touches (pipe : Nat) (s : State) :
    Touches [.system, .packets, .buffer, .flow, .pipes, .rings, .sessions, .counters, .out] s
      (rowDscrubCommit pipe s) := by
  unfold rowDscrubCommit
  exact .whenRun .refl (commitDue_touches ..).within

theorem rowHcmdInsert_touches (pipe : Nat) (s : State) :
    Touches [.system, .packets, .buffer, .flow, .pipes, .rings, .sessions, .counters, .out] s
      (rowHcmdInsert pipe s) := by
  unfold rowHcmdInsert
  exact .whenRun .refl (commitDue_touches ..).within

theorem rowHcmdDelete_touches (pipe : Nat) (s : State) :
    Touches [.system, .packets, .buffer, .flow, .pipes, .rings, .sessions, .counters, .out] s
      (rowHcmdDelete pipe s) := by
  unfold rowHcmdDelete
  exact .whenRun .refl (commitDue_touches ..).within

theorem rowHcmdModify_touches (pipe : Nat) (s : State) :
    Touches [.system, .packets, .buffer, .flow, .pipes, .rings, .sessions, .counters, .out] s
      (rowHcmdModify pipe s) := by
  unfold rowHcmdModify
  exact .whenRun .refl (commitDue_touches ..).within

theorem rowHcmdRead_touches (pipe : Nat) (s : State) :
    Touches [.system, .packets, .buffer, .flow, .pipes, .rings, .sessions, .counters, .out] s
      (rowHcmdRead pipe s) := by
  unfold rowHcmdRead
  exact .whenRun .refl (commitDue_touches ..).within

theorem rowHcmdRejected_touches (pipe : Nat) (s : State) :
    Touches [.system, .packets, .buffer, .flow, .pipes, .rings, .sessions, .counters, .out] s
      (rowHcmdRejected pipe s) := by
  unfold rowHcmdRejected
  exact .whenRun .refl (commitDue_touches ..).within

theorem pushCmd_touches (s : State) (p kind arg : Nat) :
    Touches [.pipes] s (pushCmd s p kind arg) := by
  unfold pushCmd
  exact (modPipe_touches ..).within

theorem rowFlowQuarantineRelease_touches (src : Origin) (slot : Nat) (s : State) :
    Touches [.pipes, .reject, .lock, .counters] s (rowFlowQuarantineRelease src slot s) := by
  unfold rowFlowQuarantineRelease
  exact .writeCmd .refl (fun _ => .ite (.some (pushCmd_touches ..).within) (.some .refl))

theorem rowNatRelease_touches (src : Origin) (entry : Nat) (s : State) :
    Touches [.pipes, .reject, .lock, .counters] s (rowNatRelease src entry s) := by
  unfold rowNatRelease
  exact .writeCmd .refl (fun _ => .some (pushCmd_touches ..).within)

theorem rowEngineClusterFreeze_touches (src : Origin) (cluster : Nat) (s : State) :
    Touches [.objects, .reject, .lock, .counters] s (rowEngineClusterFreeze src cluster s) := by
  unfold rowEngineClusterFreeze
  exact .writeCmd .refl (fun _ => .some (deferWrite_touches ..).within)

theorem rowEngineClusterRelease_touches (src : Origin) (cluster : Nat) (s : State) :
    Touches [.objects, .reject, .lock, .counters] s (rowEngineClusterRelease src cluster s) := by
  unfold rowEngineClusterRelease
  exact .writeCmd .refl (fun _ => .some (deferWrite_touches ..).within)

theorem releaseCluster_touches (s : State) (c : Nat) :
    Touches [.system, .clusters, .sessions, .counters] s (releaseCluster s c) := by
  unfold releaseCluster
  split
  · exact .refl
  · extract_lets s₁
    exact (releaseMaster_touches ..).after (modCluster_touches ..).within

/-! ### Cipher units -/

theorem putPn_touches (s : State) (i v : Nat) :
    Touches [.cipher] s (putPn s i v) := by
  unfold putPn
  exact .update

theorem unitOut_touches (s : State) (u : Nat) :
    Touches [.cipher] s (unitOut s u) := by
  unfold unitOut
  exact .update

theorem noteFault_touches (s : State) (u path : Nat) :
    Touches [.system, .cipher, .sessions, .counters] s (noteFault s u path) := by
  unfold noteFault
  extract_lets _ s₁
  exact (raiseEv_touches ..).after .update

theorem faultUnit_touches (s : State) (u path : Nat) :
    Touches [.system, .cipher, .sessions, .counters] s (faultUnit s u path) := by
  unfold faultUnit
  exact (soonDo_touches ..).after (noteFault_touches ..).within

theorem rekeyCheck_touches (s : State) (unit item next limit : Nat) :
    Touches [.system, .cipher, .sessions, .counters] s (rekeyCheck s unit item next limit) := by
  unfold rekeyCheck
  exact .ite ((raiseEv_touches ..).after .update) .refl

theorem rekeyAll_touches (s : State) :
    Touches [.system, .cipher, .sessions, .counters] s (rekeyAll s) := by
  unfold rekeyAll
  extract_lets s₁
  exact .foldl (fun _ _ => .ite (rekeyCheck_touches ..).within .refl)
    (.foldl (fun _ _ => .ite (rekeyCheck_touches ..).within .refl) .refl)

theorem exhaust_touches (s : State) (unit item : Nat) :
    Touches [.system, .cipher, .sessions, .counters] s (exhaust s unit item) := by
  unfold exhaust
  exact .ite .refl ((raiseEv_touches ..).after .update)

theorem protect_touches (s : State) (n : Nat) (body : Bytes) :
    Touches [.system, .cipher, .sessions, .counters] s (protect s n body).1 := by
  unfold protect
  split
  · exact .pair .refl
  · extract_lets i r e pn data es tci tag head off iv aad c icv s₁ s₂ s₃
    exact .pair (.ite ((exhaust_touches ..).after ((rekeyCheck_touches ..).after (putPn_touches ..).within))
      ((rekeyCheck_touches ..).after (putPn_touches ..).within))

theorem applyKey_touches (s : State) (v : Bytes) :
    Touches [.cipher] s (applyKey s v) := by
  unfold applyKey
  extract_lets e n ent _
  exact .update

theorem applySaRow_touches (s : State) (i : Nat) (v : Bytes) :
    Touches [.cipher] s (applySaRow s i v) := by
  unfold applySaRow
  extract_lets s₁ _
  exact .set (t := s₁) (putPn_touches ..).within

theorem applyIecRow_touches (s : State) (i : Nat) (v : Bytes) :
    Touches [.cipher] s (applyIecRow s i v) := by
  unfold applyIecRow
  exact .update

/-! ### The staging area and the fuses -/

theorem stageRow_touches (s : State) (idx sub row : Nat) (v : Bytes) :
    Touches [.lock] s (stageRow s idx sub row v) := by
  unfold stageRow
  exact .update

theorem stageEmpty_touches (s : State) (idx sub : Nat) :
    Touches [.lock] s (stageEmpty s idx sub) := by
  unfold stageEmpty
  extract_lets lo _
  exact .update

theorem clearStaging_touches (s : State) :
    Touches [.lock] s (clearStaging s) := by
  unfold clearStaging
  exact .update

theorem freeLock_touches (s : State) :
    Touches [.lock] s (freeLock s) := by
  unfold freeLock
  extract_lets s₁ _
  exact .set (t := s₁) (clearStaging_touches ..).within

theorem lockExpiry_touches (s : State) :
    Touches [.system, .sessions, .lock, .counters] s (lockExpiry s) := by
  unfold lockExpiry
  split
  · exact .refl
  · exact .ite ((raiseEv_touches ..).after (freeLock_touches ..).within) .refl

theorem stagePlans_touches (s : State) (raw : Bytes) :
    Touches [.lock] s (stagePlans s raw) := by
  unfold stagePlans
  exact .ite .refl (.foldl (fun _ _ => .foldl (fun _ _ => (stageRow_touches ..).within)
    (stageEmpty_touches ..).within) .refl)

theorem stageImage_touches (s : State) (image : Bytes) (last : Bool) :
    OptTouches [.lock] s (stageImage s image last) := by
  unfold stageImage
  extract_lets m b
  exact .ite .none (.some .update)

theorem verifyImage_touches (s : State) :
    Touches [.system, .sessions, .lock, .counters] s (verifyImage s) := by
  unfold verifyImage
  extract_lets m r
  exact .ite (.ite ((stagePlans_touches ..).after .update) ((raiseEv_touches ..).after .update)) .refl

/-- Staging touches the lease, the reject record, the filters, and what its effect does. -/
theorem stagingWrite_touches {P : List Part} (s : State) (src : Origin) (idx sub : Nat) {eff : State → Option State}
    (k : ∀ t, OptTouches P t (eff t))
    (hP : inside [.system, .reject, .sessions, .lock, .counters] P = true := by rfl) :
    Touches P s (stagingWrite s src idx sub eff) := by
  unfold stagingWrite
  extract_lets s₁
  have hs₁ : Touches P s s₁ := (lockExpiry_touches ..).within (inside_trans rfl hP)
  have reject (e : Nat) : Touches P s (rejectWrite s₁ src idx sub e) :=
    hs₁.trans ((rejectWrite_touches ..).within (inside_trans rfl hP))
  have lease : Touches P s (renewLease s₁ (originNum src)) :=
    hs₁.trans ((renewLease_touches ..).within (inside_trans rfl hP))
  refine .ite hs₁ (.ite (reject _) (.ite (reject _) ?_))
  split
  next u e => exact (lease.trans ((k _).get e)).trans ((filtered_touches ..).within (inside_trans rfl hP))
  · exact reject _

theorem rowEngineImageStage_touches (src : Origin) (image : Bytes) (last : Bool) (s : State) :
    Touches [.system, .reject, .sessions, .lock, .counters] s (rowEngineImageStage src image last s) :=
  .whenRun .refl (stagingWrite_touches _ _ _ _ fun _ => (stageImage_touches ..).within)

theorem rowImageVerify_touches (s : State) :
    Touches [.system, .sessions, .lock, .counters] s (rowImageVerify s) := by
  unfold rowImageVerify
  exact .whenRun .refl (verifyImage_touches ..).within

theorem putFuse_touches (s : State) (j : FuseJob) (revoked : Bool) (hash : Bytes) :
    Touches [.system, .fuses] s (putFuse s j revoked hash) := by
  unfold putFuse
  extract_lets f f₁ _
  exact .update

theorem burnFuse_touches (s : State) (j : FuseJob) :
    Touches [.system, .fuses, .sessions, .counters] s (burnFuse s j) := by
  unfold burnFuse
  split
  · split
    next u _ e =>
      exact (raiseEv_touches ..).after ((putFuse_touches ..).after (((freshBytes_touches ..).fst e).within))
  · exact (putFuse_touches ..).within

theorem startFuses_touches (s : State) :
    Touches [.system, .fuses, .sessions, .counters] s (startFuses s) := by
  unfold startFuses
  exact .ite .refl (.foldl (fun _ _ => (burnFuse_touches ..).within) .update)

theorem queueFuse_touches (s : State) (j : FuseJob) :
    Touches [.system, .fuses, .sessions, .counters] s (queueFuse s j) := by
  unfold queueFuse
  exact (startFuses_touches ..).after .update

theorem rowEngineKeyEnrol_touches (src : Origin) (slot : Nat) (hash : Bytes) (badRead : Option Nat) (s : State) :
    Touches [.system, .fuses, .reject, .sessions, .lock, .counters] s
      (rowEngineKeyEnrol src slot hash badRead s) := by
  unfold rowEngineKeyEnrol
  exact .writeCmd .refl (fun _ => .ite .none (.some (queueFuse_touches ..).within))

theorem rowEngineKeyRevoke_touches (src : Origin) (slot : Nat) (badRead : Option Nat) (s : State) :
    Touches [.system, .fuses, .reject, .sessions, .lock, .counters] s (rowEngineKeyRevoke src slot badRead s) := by
  unfold rowEngineKeyRevoke
  exact .writeCmd .refl (fun _ => .ite .none (.some (queueFuse_touches ..).within))

/-! ### Versions and their slots -/

theorem reject_touches (s : State) (num reason : Nat) :
    Touches [.system, .version, .sessions, .counters] s (reject s num reason) := by
  unfold reject
  exact (raiseEv_touches ..).after .update

theorem sealVersion_touches (s : State) (target : Nat) :
    Touches [.system, .version, .sessions, .lock, .counters] s (sealVersion s target).1 := by
  unfold sealVersion
  extract_lets r v q s₁ _
  split
  · exact .pair (.set (t := s₁) (clearStaging_touches ..).within)
  · exact .pair (reject_touches ..).within

theorem modSlot_touches (s : State) (k : Nat) (f : Slot → Slot) :
    Touches [.version] s (modSlot s k f) := by
  unfold modSlot
  exact .update

theorem freeSlot_touches (s : State) (k : Option Nat) :
    Touches [.version] s (freeSlot s k) := by
  unfold freeSlot
  split
  · exact (modSlot_touches ..).within
  · exact .refl

theorem forgetVersions_touches (s : State) (keep drop : List Sealed) :
    Touches [.search, .clusters] s (forgetVersions s keep drop) := by
  unfold forgetVersions
  extract_lets gone _
  exact .update

theorem rejectFrom_touches (s : State) (num reason : Nat) :
    Touches [.system, .version, .search, .clusters, .sessions, .counters] s (rejectFrom s num reason) := by
  unfold rejectFrom
  extract_lets keep drop newest s₁ _ s₂
  exact .foldl (fun _ _ => (reject_touches ..).within) (.set (t := s₁)
    (.foldl (fun _ _ => (freeSlot_touches ..).within) (forgetVersions_touches ..).within))

theorem reserve_touches (s : State) :
    Touches [.system, .version, .search, .clusters, .sessions, .counters] s (reserve s) := by
  unfold reserve
  split
  · split
    · exact (rejectFrom_touches ..).within
    · extract_lets base _ v _ prep s₁
      exact (modSealed_touches ..).after (modSlot_touches ..).within
  · exact .refl

theorem loadBeat_touches (s : State) (c : Nat) :
    Touches [.clusters] s (loadBeat s c) := by
  unfold loadBeat
  split
  · exact .refl
  · split
    · exact .refl
    · split
      · exact .refl
      · exact (modCluster_touches ..).within

theorem rowSlotReserve_touches (s : State) :
    Touches [.system, .version, .search, .clusters, .sessions, .counters] s (rowSlotReserve s) := by
  unfold rowSlotReserve
  exact .whenRun .refl (reserve_touches ..).within

theorem rowSlotRetire_touches (slot : Nat) (s : State) :
    Touches [.version] s (rowSlotRetire slot s) := by
  unfold rowSlotRetire
  exact .whenRun .refl (.guardS .refl (modSlot_touches ..).within)

theorem cancelVersion_touches (num : Nat) (s : State) :
    OptTouches [.system, .version, .search, .clusters, .sessions, .counters] s (cancelVersion num s) := by
  unfold cancelVersion
  split
  · exact .ite (.some (rejectFrom_touches ..).within) .none
  · exact .none

theorem rowVersionCancel_touches (src : Origin) (version : Nat) (s : State) :
    Touches [.system, .version, .search, .clusters, .reject, .sessions, .lock, .counters] s
      (rowVersionCancel src version s) := by
  unfold rowVersionCancel
  exact .writeCmd .refl (fun _ => (cancelVersion_touches ..).within)

theorem countLegacy_touches (s : State) :
    Touches [.digest] s (countLegacy s) := by
  unfold countLegacy
  exact .update

/-! ### Time gates -/

theorem modGate_touches (s : State) (n : Nat) (f : Gate → Gate) :
    Touches [.ports] s (modGate s n f) := by
  unfold modGate
  exact (modPort_touches ..).within

theorem gateTbLost_touches (s : State) (n : Nat) (f : Gate → Gate) :
    Touches [.system, .ports, .sessions, .counters] s (gateTbLost s n f) := by
  unfold gateTbLost
  extract_lets was s₁
  exact .ite (modGate_touches ..).within ((raiseEv_touches ..).after (modGate_touches ..).within)

theorem gateCommit_touches (s : State) (n : Nat) :
    Touches [.system, .ports, .sessions, .counters] s (gateCommit s n) := by
  unfold gateCommit
  extract_lets v o tb
  exact .ite (modGate_touches ..).within (.ite (modGate_touches ..).within (gateTbLost_touches ..).within)

theorem gatesCommit_touches (s : State) (old : VerCfg) :
    Touches [.system, .ports, .sessions, .counters] s (gatesCommit s old) := by
  unfold gatesCommit
  exact .foldl (fun _ _ => .ite (gateCommit_touches ..).within .refl) .refl

theorem gateStart_touches (s : State) (n : Nat) :
    Touches [.system, .ports, .sessions, .counters] s (gateStart s n) := by
  unfold gateStart
  split
  · exact .refl
  · split
    · extract_lets s₁
      exact (raiseEv_touches ..).after (modGate_touches ..).within
    · exact .refl

theorem gateAdvance_touches (s : State) (n : Nat) :
    Touches [.ports] s (gateAdvance s n) := by
  unfold gateAdvance
  extract_lets g last start e
  exact .ite (modGate_touches ..).within .refl

theorem gatesLose_touches (s : State) (t : Nat) :
    Touches [.system, .ports, .sessions, .counters] s (gatesLose s t) := by
  unfold gatesLose
  exact .foldl (fun _ _ => .ite (gateTbLost_touches ..).within .refl) .refl

theorem gatesRegain_touches (s : State) (t : Nat) :
    Touches [.system, .ports, .sessions, .counters] s (gatesRegain s t) := by
  unfold gatesRegain
  exact .foldl (fun _ _ => .ite (gateCommit_touches ..).within .refl) .refl

theorem rowGateListStarted_touches (node : Nat) (s : State) :
    Touches [.system, .ports, .sessions, .counters] s (rowGateListStarted node s) := by
  unfold rowGateListStarted
  exact .whenRun .refl (gateStart_touches ..).within

theorem rowGateInstant_touches (node : Nat) (s : State) :
    Touches [.ports] s (rowGateInstant node s) := by
  unfold rowGateInstant
  exact .whenRun .refl (gateAdvance_touches ..).within

theorem rowTbValid_touches (tb : Nat) (s : State) :
    Touches [.system, .objects, .ports, .timeBases, .pins, .sessions, .counters] s (rowTbValid tb s) := by
  unfold rowTbValid
  exact .whenRun .refl (.guardS .refl ((gatesRegain_touches ..).after (tbBecomeValid_touches ..).within))

theorem tbStops_touches (s : State) (tb : Nat) :
    Touches [.clock, .system, .ports, .timeBases, .sessions, .counters] s (tbStops s tb) := by
  unfold tbStops
  exact .ite .refl ((gatesLose_touches ..).after (tbStop_touches ..).within)

theorem rowTbDisable_touches (src : Origin) (tb : Nat) (s : State) :
    Touches [.system, .objects, .reject, .lock, .counters] s (rowTbDisable src tb s) := by
  unfold rowTbDisable
  exact .writeCmd .refl (fun _ => (tbDisable_touches ..).within)

/-! ### The scheduling tree -/

theorem gainAll_touches (s : State) :
    Touches [.buffer] s (gainAll s) := by
  unfold gainAll
  exact .foldl (fun _ _ => (modNode_touches ..).within) .refl

theorem chargeNode_touches (s : State) (k n : Nat) :
    Touches [.buffer] s (chargeNode s k n).1 := by
  unfold chargeNode
  extract_lets r c p u
  exact .pair (modNode_touches ..).within

theorem chargePath_touches (s : State) (ks : List Nat) (n : Nat) : Touches [.buffer] s (chargePath s ks n).1 :=
  .foldlFst (fun _ _ => (chargeNode_touches ..).within) .refl

theorem creditFrame_touches (s : State) (k : Pkt) (n : Nat) :
    Touches [.buffer] s (creditFrame s k n) := by
  unfold creditFrame
  extract_lets d u s₁
  exact (settleDeficits_touches ..).after (.foldl (fun _ _ => (modNode_touches ..).within) .refl)

theorem applySched_touches (s : State) (w : SchedWrite) :
    Touches [.buffer] s (applySched s w) := by
  unfold applySched
  split
  · exact (modNode_touches ..).within
  · extract_lets r
    exact (modNode_touches ..).within

theorem queueSched_touches (s : State) (k : Nat) (row : Option Bytes) :
    OptTouches [.buffer] s (queueSched s k row) := by
  unfold queueSched
  exact .ite .none (.some .update)

theorem schedRow_touches (level index : Nat) (row : Bytes) (s : State) :
    OptTouches [.objects, .buffer] s (schedRow level index row s) := by
  unfold schedRow
  exact .ite .none (.map (queueSched_touches ..).within (fun _ => (setRw_touches ..).within))

theorem schedClear_touches (value : Nat) (s : State) :
    OptTouches [.buffer] s (schedClear value s) := by
  unfold schedClear
  extract_lets level i
  exact .ite (queueSched_touches ..).within .none

theorem rowSchedRowWrite_touches (src : Origin) (level index : Nat) (row : Bytes) (s : State) :
    Touches [.objects, .buffer, .reject, .lock, .counters] s (rowSchedRowWrite src level index row s) := by
  unfold rowSchedRowWrite
  exact .writeCmd .refl (fun _ => (schedRow_touches ..).within)

theorem rowSchedClearDebt_touches (src : Origin) (value : Nat) (s : State) :
    Touches [.buffer, .reject, .lock, .counters] s (rowSchedClearDebt src value s) := by
  unfold rowSchedClearDebt
  exact .writeCmd .refl (fun _ => (schedClear_touches ..).within)

/-! ### The ringmaster's schedule -/

theorem passEarly_touches (s : State) :
    Touches [.clock] s (passEarly s) := by
  unfold passEarly
  extract_lets r
  split
  · exact .refl
  · split
    · split
      · exact .update
    · exact .refl

/-- Only the ringmaster changes. -/
theorem rm_touches (s : State) (r : Ringmaster) : Touches [.clock] s { s with rm := r } := .update

theorem joinNext_touches (s : State) : Touches [.clock] s (joinNext s) := by
  have joined (next : Nat → Nat → Nat → Nat × Nat) (e : Nat) : Touches [.clock] s
      (match next (e / 1000000000) (e % 1000000000) s.rm.rate with
        | (j, k) => { s with rm := { s.rm with mode := .joining, j := j, kk := k,
                                               notBefore := s.beat + tickBeats s.rm.rate } }) := rm_touches ..
  unfold joinNext
  split
  · exact .refl
  · exact .ite .refl (joined boundaryAfter _)

theorem passBoundary_touches (s : State) : Touches [.clock, .system, .sessions, .counters] s (passBoundary s) := by
  unfold passBoundary
  generalize nextLocked = next
  extract_lets r s₁ joined
  split
  · exact (joinNext_touches ..).after (rm_touches ..).within
  split
  · exact (raiseEv_touches ..).after (rm_touches ..).within
  split
  extract_lets s₂
  have hs₂ : Touches [.clock, .system, .sessions, .counters] s s₂ := (rm_touches ..).within
  exact .ite ((raiseEv_touches ..).after hs₂) hs₂

theorem changeRate_touches (s : State) (rate : Nat) : Touches [.clock] s (changeRate s rate) := by
  have changed (next : Nat → Nat → Nat → Nat × Nat) (r : Ringmaster) (old : Nat × Nat) (pos : Nat) :
      Touches [.clock] s
        (match r.mode with
          | .free => { s with rm := { r with b0 := s.beat, k := 1 } }
          | _ => match next old.1 pos rate with
            | (j, k) => { s with rm := { r with j := j, kk := k, notBefore := s.beat + tickBeats rate } }) := by
    split
    · exact rm_touches ..
    · exact rm_touches ..
  unfold changeRate
  exact .ite .refl (changed boundaryAfter _ _ _)

theorem compareDigest_touches (s : State) :
    Touches [.system, .version, .sessions, .counters] s (compareDigest s) := by
  unfold compareDigest
  extract_lets want have_ _ put
  exact .ite .refl (.ite (.ite ((raiseEv_touches ..).after .update) .update)
    (.ite .refl ((raiseEv_touches ..).after .update)))

theorem makeCurrent_touches (s : State) (q : Sealed) (k : Nat) :
    Touches [.clock, .system, .digest, .version, .ports, .sessions, .counters] s (makeCurrent s q k) := by
  unfold makeCurrent
  extract_lets old s₁ s₂ _ _ s₃ row _ s₄ s₅
  exact (raiseEv_touches ..).after ((gatesCommit_touches ..).after
    ((changeRate_touches ..).after (.set (t := s₃) (.set (t := s₂)
    ((modSlot_touches ..).after (modSlot_touches ..).within)))))

theorem commitDueVersion_touches (s : State) :
    Touches [.clock, .system, .digest, .version, .ports, .sessions, .counters] s (commitDueVersion s) := by
  unfold commitDueVersion
  split
  · exact .refl
  · split
    · split
      · exact (compareDigest_touches ..).after (makeCurrent_touches ..).within
      · exact .update
    · exact .update

theorem rowVersionCommit_touches (s : State) :
    Touches [.clock, .system, .digest, .version, .ports, .sessions, .counters] s (rowVersionCommit s) := by
  unfold rowVersionCommit
  exact .whenRun .refl (commitDueVersion_touches ..).within

/-! ### Frames on their way in -/

theorem headroomOverflow_touches (s : State) (n k : Nat) :
    Touches [.system, .ports, .sessions, .counters] s (headroomOverflow s n k) := by
  unfold headroomOverflow
  extract_lets s₁
  exact .ite ((freezeMaster_touches ..).after ((modPort_touches ..).after (count_touches ..).within))
    ((freezeMaster_touches ..).after ((modPort_touches ..).after (count_touches ..).within))

theorem countHits_touches (s : State) (hits : List Nat) (tick : Nat) :
    Touches [.counters] s (countHits s hits tick) := by
  unfold countHits
  exact .foldl (fun _ _ => (countEntry_touches ..).within) .refl

theorem exactError_touches (s : State) (p bucket : Nat) (x : Ecc) :
    Touches [.system, .sessions, .counters] s (exactError s p bucket x) := by
  unfold exactError
  split
  · exact .refl
  · exact (count_touches ..).within
  · exact (raiseEv_touches ..).after (count_touches ..).within

theorem selectMirror_touches (s : State) (v : VerCfg) (p sess : Nat) :
    Touches [.pipes] s (selectMirror s v p sess).1 := by
  unfold selectMirror
  extract_lets n c m
  split
  · exact .pair .refl
  · split
    · exact .pair (modPipe_touches ..).within
    · exact .pair (modPipe_touches ..).within

/-- Pass 1 writes what it has found into its packet, which keeps its number and its node. -/
theorem passOne_writes (s : State) (k : Pkt) (a : Search) :
    ∃ (u : State) (f : Pkt → Pkt), Touches [.system, .pipes, .sessions, .counters] s u ∧ (∀ x, (f x).id = x.id) ∧
      (∀ x, (f x).node = x.node) ∧ passOne s k a = modPkt u k.id f := by
  unfold passOne
  extract_lets v n pipe c p status vec key s₁ r _ d flow policy dec s₂
  have hs₁ : Touches [.system, .pipes, .sessions, .counters] s s₁ := by
    unfold s₁
    clear_value key
    split
    · exact (exactError_touches ..).within
    · exact .refl
  have hs₂ : Touches [.system, .pipes, .sessions, .counters] s s₂ :=
    .ite hs₁ ((countHits_touches ..).after hs₁)
  split
  next u m e =>
    have hu : Touches [.system, .pipes, .sessions, .counters] s u := by
      refine hs₂.trans (.fst ?_ e)
      split
      · exact (selectMirror_touches ..).within
      · exact .pair .refl
    refine ⟨u, _, hu, ?_, ?_, rfl⟩
    · exact fun _ => rfl
    · exact fun _ => rfl

theorem passOne_touches (s : State) (k : Pkt) (a : Search) :
    Touches [.system, .packets, .pipes, .sessions, .counters] s (passOne s k a) := by
  obtain ⟨u, f, hu, -, -, e⟩ := passOne_writes s k a
  rw [e]
  exact (modPkt_touches ..).after hu.within

theorem takeEntries_touches (n : Nat) (s : State) : Touches [.packets, .pipes] s (takeEntries n s) := by
  induction n generalizing s with
  | zero => exact .refl
  | succ n ih =>
    unfold takeEntries
    split
    · exact .refl
    · exact .trans ((modPkt_touches ..).after (modPipe_touches ..).within) (ih _)

theorem searchThrough_touches (p beat n : Nat) (s : State) :
    Touches [.system, .packets, .pipes, .sessions, .counters] s (searchThrough p beat n s) := by
  induction n generalizing s with
  | zero => exact .refl
  | succ n ih =>
    unfold searchThrough
    split
    · exact .refl
    · exact .trans (passOne_touches ..) (ih _)

theorem passOneBeat_touches (s : State) :
    Touches [.system, .packets, .pipes, .sessions, .counters] s (passOneBeat s) := by
  unfold passOneBeat
  exact (takeEntries_touches ..).after (.foldl (fun _ _ => (searchThrough_touches ..).within) .refl)

theorem arrive_touches (s : State) (a : Arrival) :
    Touches [.system, .packets, .ports, .buffer, .sessions, .counters, .out] s (arrive s a) := by
  unfold arrive
  extract_lets n cls port
  split
  · exact .refl
  · split
    · exact (count_touches ..).within
    · split
      · exact (emit_touches ..).after (count_touches ..).within
      · split
        · exact (headroomOverflow_touches ..).within
        next u e =>
          extract_lets k s₁ k₁
          exact .set (t := s₁) ((modPort_touches ..).after (.set (t := u) (((takeCells_touches ..).get e).within)))

theorem stomp_touches (s : State) (k : Pkt) (bytes : Bytes) :
    Touches [.packets, .buffer, .counters] s (stomp s k bytes) := by
  unfold stomp
  extract_lets n s₁ s₂
  exact (modPkt_touches ..).after (.ite ((creditFrame_touches ..).after (count_touches ..).within)
    (count_touches ..).within)

theorem countAccepted_touches (s : State) (k : Pkt) :
    Touches [.counters] s (countAccepted s k) := by
  unfold countAccepted
  extract_lets s₁ s₂
  exact (filtered_touches ..).after ((filtered_touches ..).after
    ((countR_touches ..).after (countR_touches ..).within))

theorem enterWriteback_touches (s : State) (k : Pkt) (bad : Nat) :
    Touches [.system, .packets, .rings, .arbiters, .sessions, .counters, .out] s (enterWriteback s k bad) := by
  unfold enterWriteback
  split
  · exact .refl
  · extract_lets done s₁ s₂
    exact .ite ((endGrant_touches ..).after ((modPkt_touches ..).after
      (.ite (completeCount_touches ..).within .refl))) ((modPkt_touches ..).after
      (.ite (completeCount_touches ..).within .refl))

theorem countExcs_touches (s : State) (k : Pkt) :
    Touches [.counters] s (countExcs s k) := by
  unfold countExcs
  exact .foldl (fun _ _ => (countR_touches ..).within) .refl

theorem badTail_touches (s : State) (k : Pkt) (bad : Nat) (cut : Bool) :
    Touches [.system, .packets, .buffer, .rings, .sessions, .counters, .out] s (badTail s k bad cut) := by
  unfold badTail
  extract_lets s₁ s₂ s₃ s₄
  refine .trans (t := s₄) ?_ ?_
  · unfold s₄
    refine .trans (t := s₃) ?_ ?_
    · unfold s₃
      refine .trans (t := s₂) ?_ ?_
      · unfold s₂
        refine .trans (t := s₁) (countR_touches ..).within ?_
        split
        · exact (countEntry_touches ..).within
        · exact .refl
      · exact .ite (countR_touches ..).within .refl
    · exact .ite (countExcs_touches ..).within .refl
  · exact .ite (discardPkt_touches ..).within (.ite .refl (stomp_touches ..).within)

theorem mirrorCopy_touches (s : State) (k : Pkt) (cells : List (Nat × Ecc)) :
    Touches [.system, .buffer, .sessions, .counters] s (mirrorCopy s k cells).1 := by
  unfold mirrorCopy
  split
  · exact .pair .refl
  · extract_lets n c
    split
    next u _ e =>
      split
      · exact .pair (((readCells_touches ..).fst e).within)
      · exact .pair ((addCopy_touches ..).after (((readCells_touches ..).fst e).within))

theorem crossHome_touches (s : State) (k : Pkt) :
    Touches [.packets] s (crossHome s k) := by
  unfold crossHome
  extract_lets v key home _
  split
  · extract_lets waits s₁
    refine (modPkt_touches ..).after ?_
    unfold s₁
    split
    · exact (modPkt_touches ..).within
    · exact .refl

/-- The state in which the exceptions of a packet are counted and its port has told them. -/
def exceptionsTold (s : State) (k : Pkt) : State :=
  if k.exc.isEmpty then countExcs s k
  else modPort (countExcs s k) k.node fun p => { p with excLast := k.excWord }

theorem goodTail_told (s : State) (k : Pkt) (cells : List (Nat × Ecc)) :
    Touches [.system, .packets, .buffer, .rings, .sessions, .counters, .out] (exceptionsTold s k)
      (goodTail s k cells) := by
  unfold goodTail
  extract_lets s₁ s₂
  change Touches _ s₂ _
  split
  next u damaged e =>
    extract_lets s₃ d s₄
    have hu : Touches [.system, .buffer, .sessions, .counters] s₂ u := (mirrorCopy_touches ..).fst e
    have hs₃ : Touches [.system, .buffer, .sessions, .counters] s₂ s₃ := .ite ((countR_touches ..).after hu) hu
    have hs₄ : Touches [.system, .packets, .buffer, .sessions, .counters] s₂ s₄ :=
      (modPkt_touches ..).after hs₃.within
    split
    · exact (discardPkt_touches ..).after hs₃.within
    split
    · exact (stomp_touches ..).after hs₃.within
    split
    · exact .ite ((crossHome_touches ..).after hs₃.within)
        (.ite ((discardPkt_touches ..).after hs₄.within) hs₄.within)
    split
    · exact (creditFrame_touches ..).after hs₃.within
    · exact .ite ((modPkt_touches ..).after hs₃.within) hs₃.within

theorem goodTail_touches (s : State) (k : Pkt) (cells : List (Nat × Ecc)) :
    Touches [.system, .packets, .ports, .buffer, .rings, .sessions, .counters, .out] s (goodTail s k cells) := by
  refine .trans (t := exceptionsTold s k) ?_ (goodTail_told ..).within
  exact .ite (countExcs_touches ..).within ((modPort_touches ..).after (countExcs_touches ..).within)

theorem overflowWithin_stops (s : State) (k : Pkt) :
    ∃ u, Touches [.system, .packets, .buffer, .rings, .sessions, .counters, .out]
        (modPort s k.node fun p => { p with rx := none, rxWhole := false }) u ∧
      overflowWithin s k = headroomOverflow u k.node k.cls := by
  unfold overflowWithin
  extract_lets s₁ k s₂ s₃ s₄
  refine ⟨s₄, ?_, rfl⟩
  unfold s₄
  refine .trans (t := s₃) ?_ ?_
  · unfold s₃
    refine .trans (t := s₂) (modPkt_touches ..).within ?_
    split
    · exact .ite .refl (completeCount_touches ..).within
    · exact .refl
  · exact .ite (stomp_touches ..).within (discardPkt_touches ..).within

theorem overflowWithin_touches (s : State) (k : Pkt) :
    Touches [.system, .packets, .ports, .buffer, .rings, .sessions, .counters, .out] s (overflowWithin s k) := by
  obtain ⟨u, hu, e⟩ := overflowWithin_stops s k
  rw [e]
  exact (headroomOverflow_touches ..).after (.trans (modPort_touches ..).within hu.within)

theorem takeUpTo_touches (s : State) (k : Pkt) (bytes : Nat) :
    OptTouches [.packets, .buffer] s (takeUpTo s k bytes) := by
  unfold takeUpTo
  extract_lets n
  exact .map (takeCells_touches ..).within (fun _ => (modPkt_touches ..).within)

theorem cellsArrive_touches (s : State) :
    Touches [.system, .packets, .ports, .buffer, .rings, .sessions, .counters, .out] s (cellsArrive s) := by
  unfold cellsArrive
  refine .foldl (fun t a => ?_) .refl
  split
  · exact .refl
  · exact .getD (takeUpTo_touches ..).within (overflowWithin_touches ..).within

theorem cellsSent_touches (s : State) :
    Touches [.packets, .buffer] s (cellsSent s) := by
  unfold cellsSent
  refine .foldl (fun t a => ?_) .refl
  split
  · exact .refl
  · extract_lets n
    exact .ite .refl ((modPkt_touches ..).after (giveCells_touches ..).within)

theorem tailEffects_touches (s : State) (k : Pkt) (cut : Bool) (cells : List (Nat × Ecc)) :
    Touches [.system, .packets, .ports, .buffer, .rings, .arbiters, .sessions, .counters, .out] s
      (tailEffects s k cut cells) := by
  unfold tailEffects
  extract_lets s₁ flow tick bad k k₁ k₂ s₂ s₃ s₄ s₅
  have hs₃ : Touches [.packets, .ports, .counters] s s₃ :=
    (countAccepted_touches ..).after ((modPkt_touches ..).after (modPort_touches ..).within)
  refine .trans (t := s₄) (.ite ((countHits_touches ..).after hs₃.within) hs₃.within) ?_
  refine .trans (t := s₅) (enterWriteback_touches ..).within ?_
  exact .ite (goodTail_touches ..).within (badTail_touches ..).within

theorem searchBeforeTail_touches (s : State) (k : Pkt) :
    Touches [.system, .packets, .pipes, .sessions, .counters] s (searchBeforeTail s k) := by
  unfold searchBeforeTail
  split
  · exact .refl
  · split
    · exact (searchThrough_touches ..).after (modPkt_touches ..).within
    · exact (modPkt_touches ..).within

theorem frameEnd_touches (s : State) (k : Pkt) (cut : Bool) (cells : List (Nat × Ecc)) :
    Touches [.system, .packets, .ports, .buffer, .pipes, .rings, .arbiters, .sessions, .counters, .out] s
      (frameEnd s k cut cells) := by
  unfold frameEnd
  extract_lets s₁ _ k
  refine .trans (t := s₁) (searchBeforeTail_touches ..).within ?_
  split
  · exact (overflowWithin_touches ..).within
  next u e =>
    exact (tailEffects_touches ..).after (((takeUpTo_touches ..).get e).within)

theorem frameTail_touches (s : State) (n : Nat) (cells : List (Nat × Ecc)) :
    Touches [.system, .packets, .ports, .buffer, .pipes, .rings, .arbiters, .sessions, .counters, .out] s
      (frameTail s n cells) := by
  unfold frameTail
  split
  · exact .guardS .refl (frameEnd_touches ..).within
  · exact .refl

theorem ownFrameTail_touches (s : State) (n : Nat) :
    Touches [.system, .packets, .ports, .buffer, .pipes, .rings, .arbiters, .sessions, .counters, .out] s
      (ownFrameTail s n) := by
  unfold ownFrameTail
  split
  · exact (frameTail_touches ..).within
  · exact .refl

theorem cutReceive_touches (s : State) (n : Nat) :
    Touches [.system, .packets, .ports, .buffer, .pipes, .rings, .arbiters, .sessions, .counters, .out] s
      (cutReceive s n) := by
  unfold cutReceive
  split
  · exact .refl
  · exact .ite .refl (frameEnd_touches ..).within

theorem judgeFrame_touches (s : State) (k : Pkt) :
    Touches [.packets, .buffer, .counters] s (judgeFrame s k) := by
  unfold judgeFrame
  split
  · exact .refl
  · extract_lets r tick n dei _
    split
    · extract_lets s₁ s₂
      exact .ite ((dropPkt_touches ..).after ((countPolice_touches ..).after .update))
        ((modPkt_touches ..).after ((countPolice_touches ..).after .update))

theorem judgeAll_touches (p beat n : Nat) (s : State) :
    Touches [.packets, .buffer, .counters] s (judgeAll p beat n s) := by
  induction n generalizing s with
  | zero => exact .refl
  | succ n ih =>
    unfold judgeAll
    split
    · exact .trans (judgeFrame_touches ..).within (ih _)
    · exact .refl

theorem fillPolicer_touches (s : State) (i : Nat) (row : Bytes) :
    Touches [.buffer] s (fillPolicer s i row) := by
  unfold fillPolicer
  extract_lets r p _
  exact .update

theorem enqueue_touches (s : State) (k : Pkt) (q : Nat) :
    Touches [.packets, .buffer] s (enqueue s k q) := by
  unfold enqueue
  extract_lets n _ put s₁ s₂
  exact .ite (.ite ((modQueue_touches ..).after (modPkt_touches ..).within)
    ((modQueue_touches ..).after (modPkt_touches ..).within))
    ((modQueue_touches ..).after (modPkt_touches ..).within)

theorem enterEgress_touches (s : State) (k : Pkt) :
    Touches [.system, .packets, .buffer, .pipes, .rings, .sessions, .counters, .out] s (enterEgress s k) := by
  unfold enterEgress
  extract_lets v n action s₁ tagged _
  refine .trans (t := s₁) (modPipe_touches ..).within ?_
  split
  · exact (discardPkt_touches ..).within
  split
  extract_lets s₂ q e body vec body₁ k s₃ s₄
  refine .trans (t := s₂) (.ite (countR_touches ..).within .refl) ?_
  split
  · exact (discardPkt_touches ..).after (countR_touches ..).within
  refine .trans (t := s₃) (.ite .refl (countR_touches ..).within) ?_
  split
  · refine (discardPkt_touches ..).after ?_
    unfold s₄
    split
    · exact (countEntry_touches ..).within
    · exact .refl
  · exact .ite ((discardPkt_touches ..).after (count_touches ..).within) (enqueue_touches ..).within

theorem rowFrameIngress_touches (node : Nat) (frame : Bytes) (phase : Nat) (exactEcc : Ecc) (s : State) :
    Touches [.system, .packets, .ports, .buffer, .sessions, .counters, .out] s
      (rowFrameIngress node frame phase exactEcc s) := by
  unfold rowFrameIngress
  exact .whenRun .refl (.guardS .refl ((modPkt_touches ..).after (arrive_touches ..).within))

theorem rowFrameTail_touches (node : Nat) (cells : List (Nat × Ecc)) (s : State) :
    Touches [.system, .packets, .ports, .buffer, .pipes, .rings, .arbiters, .sessions, .counters, .out] s
      (rowFrameTail node cells s) := by
  unfold rowFrameTail
  exact .whenRun .refl (frameTail_touches ..).within

theorem rowPolicerJudge_touches (pkt : Nat) (s : State) :
    Touches [.packets, .buffer, .counters] s (rowPolicerJudge pkt s) := by
  unfold rowPolicerJudge
  refine .whenRun .refl ?_
  split
  · exact .guardS .refl (judgeFrame_touches ..).within
  · exact .refl

theorem rowEgressEntry_touches (pkt : Nat) (s : State) :
    Touches [.system, .packets, .buffer, .pipes, .rings, .sessions, .counters, .out] s (rowEgressEntry pkt s) := by
  unfold rowEgressEntry
  refine .whenRun .refl ?_
  split
  · exact .guardS .refl (enterEgress_touches ..).within
  · exact .refl

/-! ### Frames on their way out -/

theorem ptpUpdate_touches (s : State) (n : Nat) (k : Pkt) (te : Nat) (body : Bytes) :
    Touches [.counters] s (ptpUpdate s n k te body).1 := by
  unfold ptpUpdate
  extract_lets t ti delay
  split
  · split
    · exact .pair .refl
    · exact .pair (countR_touches ..).within
  · split
    · split
      · exact .pair .refl
      · split
        · exact .pair .refl
        · exact .pair (count_touches ..).within
    · exact .pair .refl

theorem startFrame_touches (s : State) (n : Nat) (kid : Kid) (k : Pkt) (blocks : Option Nat) :
    Touches [.system, .packets, .ports, .buffer, .cipher, .sessions, .counters] s
      (startFrame s n kid k blocks) := by
  unfold startFrame
  extract_lets len _ s₁
  split
  next u path charged =>
  split
  split
  next v body stamped =>
  extract_lets _ failed
  split
  next w cipher guarded =>
  have hw : Touches [.system, .packets, .ports, .buffer, .cipher, .sessions, .counters] s w :=
    ((protect_touches ..).fst guarded).after (((ptpUpdate_touches ..).fst stamped).after
      (((chargePath_touches ..).fst charged).after (.set (t := s) .refl)))
  extract_lets whole sent s₂ s₃ s₄ s₅
  have hs₃ : Touches [.system, .packets, .ports, .buffer, .cipher, .sessions, .counters] s s₃ :=
    (modPort_touches ..).after ((leaveQueue_touches ..).after ((modPkt_touches ..).after hw))
  have hs₄ : Touches [.system, .packets, .ports, .buffer, .cipher, .sessions, .counters] s s₄ :=
    .ite ((count_touches ..).after hs₃) hs₃
  have hs₅ : Touches [.system, .packets, .ports, .buffer, .cipher, .sessions, .counters] s s₅ := by
    unfold s₅
    split
    · exact (creditFrame_touches ..).after hs₄
    · exact hs₄
  exact .ite ((faultUnit_touches ..).after ((count_touches ..).after ((count_touches ..).after hs₅))) hs₅

theorem readFrame_touches (s : State) (n : Nat) (k : Pkt) (cells : List (Nat × Ecc)) :
    Touches [.system, .packets, .ports, .buffer, .rings, .sessions, .counters, .out] s (readFrame s n k cells) := by
  unfold readFrame
  split
  next u e =>
    exact ((readCells_touches ..).fst e).within
  next u₁ e₁ =>
    extract_lets s₁
    exact (discardPkt_touches ..).after ((modPort_touches ..).after
      ((modPkt_touches ..).after (((readCells_touches ..).fst e₁).within)))
  next u₂ _ _ e₂ =>
    split
    · exact .ite (((readCells_touches ..).fst e₂).within) ((stomp_touches ..).after
        (((readCells_touches ..).fst e₂).within))
    · exact ((readCells_touches ..).fst e₂).within

theorem storeCut_touches (s : State) (n : Nat) :
    Touches [.packets] s (storeCut s n) := by
  unfold storeCut
  split
  · exact .refl
  · split
    · exact .refl
    · exact .ite .refl (modPkt_touches ..).within

theorem transmitStart_touches (s : State) (n : Nat) (cells : List (Nat × Ecc)) (blocks : Option Nat) :
    Touches [.system, .packets, .ports, .buffer, .cipher, .rings, .sessions, .counters, .out] s
      (transmitStart s n cells blocks) := by
  unfold transmitStart
  extract_lets s₁
  refine .trans (t := s₁) (storeCut_touches ..).within ?_
  split
  · exact .refl
  · split
    · exact .refl
    · exact (readFrame_touches ..).after (startFrame_touches ..).within

theorem transmitEnd_touches (s : State) (n : Nat) (k : Pkt) :
    Touches [.system, .packets, .ports, .buffer, .rings, .sessions, .counters, .out] s (transmitEnd s n k) := by
  unfold transmitEnd
  extract_lets s₁ len s₂ s₃ s₄ s₅
  exact (freePkt_touches ..).after ((txFinish_touches ..).after
    ((modPort_touches ..).after (.ite (emit_touches ..).within
    ((filtered_touches ..).after ((filtered_touches ..).after
    ((count_touches ..).after ((count_touches ..).after (emit_touches ..).within)))))))

theorem tellPeer_touches (s : State) (n : Nat) (xs : Tbl Nat) :
    Touches [.system, .ports, .cipher, .sessions, .counters, .out] s (tellPeer s n xs) := by
  unfold tellPeer
  extract_lets f
  split
  next u _ e =>
    extract_lets s₁ again
    exact (modPort_touches ..).after ((emit_touches ..).after
      ((count_touches ..).after (((protect_touches ..).fst e).within)))

theorem queueFlow_touches (s : State) (n : Nat) :
    Touches [.ports] s (queueFlow s n) := by
  unfold queueFlow
  extract_lets ks
  exact .ite .refl (modPort_touches ..).within

theorem queueFlows_touches (s : State) :
    Touches [.ports] s (queueFlows s) := by
  unfold queueFlows
  exact .foldl (fun _ _ => (queueFlow_touches ..).within) .refl

theorem tellNext_touches (s : State) (n : Nat) :
    Touches [.system, .ports, .cipher, .sessions, .counters, .out] s (tellNext s n) := by
  unfold tellNext
  split
  · exact .refl
  · exact (tellPeer_touches ..).after (modPort_touches ..).within

theorem tellAgain_touches (s : State) (n : Nat) :
    Touches [.system, .ports, .cipher, .sessions, .counters, .out] s (tellAgain s n) := by
  unfold tellAgain
  exact (tellPeer_touches ..).within

theorem pauseClass_touches (s : State) (n k quanta : Nat) :
    Touches [.ports] s (pauseClass s n k quanta) := by
  unfold pauseClass
  extract_lets stop
  exact (modPort_touches ..).within

theorem pauseReceive_touches (s : State) (n : Nat) (f : Bytes) :
    Touches [.ports, .counters] s (pauseReceive s n f) := by
  unfold pauseReceive
  extract_lets s₁
  exact .ite (count_touches ..).within (.ite (.foldl (fun _ _ => (pauseClass_touches ..).within)
    (count_touches ..).within) (.foldl (fun _ _ => .ite (.foldl (fun _ _ => (pauseClass_touches ..).within) .refl)
    .refl) (count_touches ..).within))

theorem ranEgress_touches (s : State) (p cls : Nat) :
    Touches [.pipes, .counters] s (ranEgress s p cls) := by
  unfold ranEgress
  exact (countCarousel_touches ..).after (modPipe_touches ..).within

theorem freshNode_touches (s : State) (k : Nat) :
    Touches [.buffer] s (freshNode s k) := by
  unfold freshNode
  extract_lets r _
  exact (modNode_touches ..).within

theorem egressWrite_touches (s : State) (v : VerCfg) (k : Key) :
    Touches [.buffer, .rewrites] s (egressWrite s v k) := by
  unfold egressWrite
  extract_lets i row fresh _ n dflt dflt₁
  exact .ite .update (.ite (.ite .refl (.ite ((freshNode_touches ..).after .update) .update))
    (.ite .refl (.ite ((freshNode_touches ..).after .update) .update)))

theorem ewriteBeat_touches (s : State) (p : Nat) :
    Touches [.version, .buffer, .rewrites, .pipes, .counters] s (ewriteBeat s p) := by
  unfold ewriteBeat
  extract_lets _ sched
  have hsched : OptTouches [.version, .buffer, .rewrites, .pipes, .counters] s sched := by
    unfold sched
    split
    · split
      · exact .some ((applySched_touches ..).after (.set (t := s) .refl))
      · exact .none
    · exact .none
  clear_value sched
  split
  next u => exact (ranEgress_touches ..).after (hsched.get rfl)
  · split
    · exact (ranEgress_touches ..).after ((modPrep_touches ..).after (egressWrite_touches ..).within)
    · exact (ranEgress_touches ..).within

theorem rowFrameTransmitStart_touches (node : Nat) (cells : List (Nat × Ecc)) (cipherFault : Option Nat) (s : State)
    :
    Touches [.system, .packets, .ports, .buffer, .cipher, .rings, .sessions, .counters, .out] s
      (rowFrameTransmitStart node cells cipherFault s) := by
  unfold rowFrameTransmitStart
  exact .whenRun .refl (.guardS .refl (transmitStart_touches ..).within)

theorem rowFrameTransmitEnd_touches (node : Nat) (s : State) :
    Touches [.system, .packets, .ports, .buffer, .rings, .sessions, .counters, .out] s
      (rowFrameTransmitEnd node s) := by
  unfold rowFrameTransmitEnd
  refine .whenRun .refl ?_
  split
  · exact .guardS .refl (transmitEnd_touches ..).within
  · exact .refl

theorem rowFlowControlFrameSend_touches (node : Nat) (s : State) :
    Touches [.system, .ports, .cipher, .sessions, .counters, .out] s (rowFlowControlFrameSend node s) := by
  unfold rowFlowControlFrameSend
  exact .whenRun .refl (.guardS .refl (tellNext_touches ..).within)

theorem rowFlowControlRepeat_touches (node : Nat) (s : State) :
    Touches [.system, .ports, .cipher, .sessions, .counters, .out] s (rowFlowControlRepeat node s) := by
  unfold rowFlowControlRepeat
  exact .whenRun .refl (.guardS .refl (tellAgain_touches ..).within)

theorem rowPauseFrameReceive_touches (node : Nat) (frame : Bytes) (s : State) :
    Touches [.ports, .counters] s (rowPauseFrameReceive node frame s) := by
  unfold rowPauseFrameReceive
  exact .whenRun .refl (.guardS .refl (pauseReceive_touches ..).within)

theorem rowPauseExpiry_touches (node cls : Nat) (s : State) :
    Touches [.ports] s (rowPauseExpiry node cls s) := by
  unfold rowPauseExpiry
  refine .whenRun .refl ?_
  split
  · exact .guardS .refl (modPort_touches ..).within
  · exact .refl

theorem rowLinkHoldExpiry_touches (node : Nat) (s : State) :
    Touches [.ports] s (rowLinkHoldExpiry node s) := by
  unfold rowLinkHoldExpiry
  exact .whenRun .refl (.guardS .refl (enterFlush_touches ..).within)

theorem rowLinkFlushed_touches (node : Nat) (s : State) :
    Touches [.system, .ports, .sessions, .counters] s (rowLinkFlushed node s) := by
  unfold rowLinkFlushed
  exact .whenRun .refl (flushEnd_touches ..).within

theorem rowEwrite_touches (pipe : Nat) (s : State) :
    Touches [.version, .buffer, .rewrites, .pipes, .counters] s (rowEwrite pipe s) := by
  unfold rowEwrite
  exact .whenRun .refl (.guardS .refl (.ite (ewriteBeat_touches ..).within
    (.ite (ranEgress_touches ..).within .refl)))

/-! ### Arbiters -/

theorem scanArb_touches (s : State) (a : Nat) :
    Touches [.arbiters] s (scanArb s a) := by
  unfold scanArb
  extract_lets ws _ holder reqs
  exact (modArb_touches ..).within

theorem scanArbs_touches (s : State) :
    Touches [.arbiters] s (scanArbs s) := by
  unfold scanArbs
  exact .foldl (fun _ _ => (scanArb_touches ..).within) .refl

theorem grant_touches (s : State) (a i : Nat) :
    Touches [.pipes, .arbiters, .counters] s (grant s a i) := by
  unfold grant
  extract_lets latest s₁
  refine .trans (t := s₁) (modArb_touches ..).within ?_
  split
  · exact (issueRead_touches ..).within
  · exact .refl

theorem arbRound_touches (s : State) (a : Nat) :
    Touches [.pipes, .arbiters, .counters] s (arbRound s a) := by
  unfold arbRound
  split
  · exact .refl
  · extract_lets losers gains lose s₁ s₂
    exact (grant_touches ..).after (.ite ((count_touches ..).after
      ((count_touches ..).after (modArb_touches ..).within)) ((count_touches ..).after (modArb_touches ..).within))

theorem cutGrant_touches (s : State) (a : Nat) :
    Touches [.arbiters] s (cutGrant s a) := by
  unfold cutGrant
  split
  · exact .ite (modArb_touches ..).within .refl
  · exact .refl

theorem rowArbiterRound_touches (arb : Nat) (s : State) :
    Touches [.pipes, .arbiters, .counters] s (rowArbiterRound arb s) := by
  unfold rowArbiterRound
  exact .whenRun .refl (.guardS .refl (arbRound_touches ..).within)

theorem rowArbiterGrantCut_touches (arb : Nat) (s : State) :
    Touches [.arbiters] s (rowArbiterGrantCut arb s) := by
  unfold rowArbiterGrantCut
  exact .whenRun .refl (.guardS .refl (cutGrant_touches ..).within)

/-! ### Counters, snapshots and dumps -/

theorem modCnt_touches (s : State) (f : Counters → Counters) :
    Touches [.counters] s (modCnt s f) := by
  unfold modCnt
  exact .update

theorem overflowClear_touches (number : Nat) (s : State) :
    OptTouches [.counters] s (overflowClear number s) := by
  unfold overflowClear
  exact .ite .none (.ite (.some (modCnt_touches ..).within) (.some (modCnt_touches ..).within))

theorem rowCntOverflowClear_touches (src : Origin) (number : Nat) (s : State) :
    Touches [.reject, .lock, .counters] s (rowCntOverflowClear src number s) := by
  unfold rowCntOverflowClear
  exact .writeCmd .refl (fun _ => (overflowClear_touches ..).within)

theorem filterSelect_touches (i : Nat) (v : Bytes) (s : State) :
    OptTouches [.objects, .counters] s (filterSelect i v s) := by
  unfold filterSelect
  exact .ite .none (.some ((modCnt_touches ..).after (setRw_touches ..).within))

theorem rowCntFilterSelect_touches (src : Origin) (row : Nat) (value : Bytes) (s : State) :
    Touches [.objects, .reject, .lock, .counters] s (rowCntFilterSelect src row value s) := by
  unfold rowCntFilterSelect
  exact .writeCmd .refl (fun _ => (filterSelect_touches ..).within)

theorem clearPairs_touches (s : State) (pairs : List Nat) :
    Touches [.counters] s (clearPairs s pairs) := by
  unfold clearPairs
  exact (modCnt_touches ..).within

theorem filterChain_touches (v : Bytes) (s : State) :
    OptTouches [.system, .objects] s (filterChain v s) := by
  unfold filterChain
  extract_lets old changed
  exact .ite (.some ((soonDo_touches ..).after (setRw_touches ..).within)) .none

theorem rowCntFilterChain_touches (src : Origin) (value : Bytes) (s : State) :
    Touches [.system, .objects, .reject, .lock, .counters] s (rowCntFilterChain src value s) := by
  unfold rowCntFilterChain
  exact .writeCmd .refl (fun _ => (filterChain_touches ..).within)

theorem clearWords_touches (s : State) (lo n : Nat) :
    Touches [.counters] s (clearWords s lo n) := by
  unfold clearWords
  exact (modCnt_touches ..).within

theorem clearPortCounters_touches (s : State) (n : Nat) (lanes : List Nat) :
    Touches [.counters] s (clearPortCounters s n lanes) := by
  unfold clearPortCounters
  exact .foldl (fun _ _ => (modCnt_touches ..).within) (clearWords_touches ..).within

theorem clearPipeCounters_touches (s : State) (p : Nat) :
    Touches [.counters] s (clearPipeCounters s p) := by
  unfold clearPipeCounters
  extract_lets s₁
  exact (modCnt_touches ..).after ((clearWords_touches ..).after (clearWords_touches ..).within)

theorem clearFnCounters_touches (s : State) (f : Nat) :
    Touches [.counters] s (clearFnCounters s f) := by
  unfold clearFnCounters
  exact (clearWords_touches ..).within

theorem clearSoftCounters_touches (s : State) :
    Touches [.counters] s (clearSoftCounters s) := by
  unfold clearSoftCounters
  exact .ite .refl (modCnt_touches ..).within

theorem missDumps_touches (s : State) :
    Touches [.counters] s (missDumps s) := by
  unfold missDumps
  extract_lets late
  exact (count_touches ..).after (modCnt_touches ..).within

theorem copyCounters_touches (s : State) :
    Touches [.counters] s (copyCounters s) := by
  unfold copyCounters
  extract_lets q
  exact (modCnt_touches ..).within

theorem keepSnapshot_touches (s : State) (q : Snapshot) :
    Touches [.counters] s (keepSnapshot s q) := by
  unfold keepSnapshot
  extract_lets s₁ m q
  exact (modCnt_touches ..).after (missDumps_touches ..).within

theorem counterDump_touches (s : State) :
    Touches [.counters] s (counterDump s) := by
  unfold counterDump
  split
  · exact (keepSnapshot_touches ..).within
  · exact .refl

theorem rowCounterDump_touches (s : State) :
    Touches [.counters] s (rowCounterDump s) := by
  unfold rowCounterDump
  exact .whenRun .refl (counterDump_touches ..).within

theorem dropSnapshot_touches (s : State) :
    Touches [.counters] s (dropSnapshot s) := by
  unfold dropSnapshot
  exact (modCnt_touches ..).within

theorem writeDump_touches (s : State) :
    Touches [.system, .rings, .arbiters, .sessions, .counters, .out] s (writeDump s) := by
  unfold writeDump
  split
  · exact .refl
  · split
    · exact .refl
    · split
      · exact (endGrant_touches ..).after ((count_touches ..).after (dropSnapshot_touches ..).within)
      · split
        · exact .refl
        · exact (endGrant_touches ..).after ((writeRecord_touches ..).after (dropSnapshot_touches ..).within)

theorem rowDumpRecordWrite_touches (s : State) :
    Touches [.system, .rings, .arbiters, .sessions, .counters, .out] s (rowDumpRecordWrite s) := by
  unfold rowDumpRecordWrite
  exact .whenRun .refl (.guardS .refl (writeDump_touches ..).within)

/-! ### The commands of the cipher units -/

theorem rxDiscard_touches (s : State) (n reason : Nat) (mismatch : Bool) :
    Touches [.counters] s (rxDiscard s n reason mismatch) := by
  unfold rxDiscard
  extract_lets s₁
  exact .ite ((countR_touches ..).after (countR_touches ..).within) (countR_touches ..).within

theorem stageFrame_touches (s : State) (n cells : Nat) (frame : Bytes) (t : Stamp) (sa : Option Nat) :
    Touches [.ports] s (stageFrame s n cells frame t sa) := by
  unfold stageFrame
  exact (modPort_touches ..).within

theorem receiveFrame_touches (s : State) (n : Nat) (frame : Bytes) (phase : Nat) (faulty : Bool) :
    Touches [.system, .ports, .cipher, .sessions, .counters] s (receiveFrame s n frame phase faulty) := by
  unfold receiveFrame
  extract_lets body
  split
  · exact (countR_touches ..).within
  · split
    · exact (countR_touches ..).within
    · split
      · exact (rxDiscard_touches ..).within
      · split
        · extract_lets s₁
          exact .ite ((faultUnit_touches ..).after (rxDiscard_touches ..).within) (rxDiscard_touches ..).within
        · extract_lets s₂
          refine (stageFrame_touches ..).after ?_
          unfold s₂
          split
          · extract_lets next
            exact (rekeyCheck_touches ..).after (putPn_touches ..).within
          · exact .refl

theorem deliverFrame_touches (s : State) (n : Nat) (exactEcc : Ecc) :
    Touches [.system, .packets, .ports, .buffer, .sessions, .counters, .out] s (deliverFrame s n exactEcc) := by
  unfold deliverFrame
  split
  · exact .refl
  · extract_lets s₁
    exact .ite (modPort_touches ..).within (.ite ((pauseReceive_touches ..).after (modPort_touches ..).within)
      ((arrive_touches ..).after (modPort_touches ..).within))

theorem rowMacsecRxFrame_touches (node : Nat) (frame : Bytes) (phase : Nat) (faulty : Bool) (s : State) :
    Touches [.system, .ports, .cipher, .sessions, .counters] s (rowMacsecRxFrame node frame phase faulty s) := by
  unfold rowMacsecRxFrame
  exact .whenRun .refl (.guardS .refl (receiveFrame_touches ..).within)

theorem rowMacsecRxDeliver_touches (node : Nat) (exactEcc : Ecc) (s : State) :
    Touches [.system, .packets, .ports, .buffer, .sessions, .counters, .out] s
      (rowMacsecRxDeliver node exactEcc s) := by
  unfold rowMacsecRxDeliver
  exact .whenRun .refl (.guardS .refl (deliverFrame_touches ..).within)

theorem verifyLand_touches (s : State) (k : Pkt) (faulty : Bool) :
    Touches [.system, .packets, .pipes, .cipher, .sessions, .counters] s (verifyLand s k faulty) := by
  unfold verifyLand
  extract_lets home c raw
  split
  · exact .refl
  · extract_lets r s₁ s₂ s₃
    refine (endSlip_touches ..).after (.trans (t := s₂) ?_ (.ite (faultUnit_touches ..).within .refl))
    exact .trans (t := s₁) (modPkt_touches ..).within (.ite .refl (countR_touches ..).within)

theorem rowVerifyResult_touches (pkt : Nat) (faulty : Bool) (s : State) :
    Touches [.system, .packets, .pipes, .cipher, .sessions, .counters] s (rowVerifyResult pkt faulty s) := by
  unfold rowVerifyResult
  refine .whenRun .refl ?_
  split
  · exact .guardS .refl (verifyLand_touches ..).within
  · exact .refl

theorem keyWrite_touches (v : Bytes) (s : State) :
    OptTouches [.objects] s (keyWrite v s) := by
  unfold keyWrite
  exact .ite (.some (deferWrite_touches ..).within) .none

theorem rowCipherKeyWrite_touches (src : Origin) (value : Bytes) (s : State) :
    Touches [.objects, .reject, .lock, .counters] s (rowCipherKeyWrite src value s) := by
  unfold rowCipherKeyWrite
  exact .writeCmd .refl (fun _ => (keyWrite_touches ..).within)

theorem startTests_touches (s : State) (u : Nat) :
    Touches [.cipher] s (startTests s u) := by
  unfold startTests
  exact .ite .update .refl

theorem rowCipherUnitRestore_touches (src : Origin) (unit : Nat) (s : State) :
    Touches [.cipher, .reject, .lock, .counters] s (rowCipherUnitRestore src unit s) := by
  unfold rowCipherUnitRestore
  exact .writeCmd .refl (fun _ => .some (startTests_touches ..).within)

theorem endTests_touches (s : State) (u : Nat) (pass : Bool) :
    Touches [.system, .cipher, .sessions, .counters] s (endTests s u pass) := by
  unfold endTests
  extract_lets _ put
  exact .ite .update ((raiseEv_touches ..).after .update)

theorem rowCipherKatDone_touches (unit : Nat) (pass : Bool) (s : State) :
    Touches [.system, .cipher, .sessions, .counters] s (rowCipherKatDone unit pass s) := by
  unfold rowCipherKatDone
  exact .whenRun .refl (.guardS .refl (endTests_touches ..).within)

theorem rowEntropyHealthFail_touches (s : State) :
    Touches [.system, .cipher, .sessions, .counters] s (rowEntropyHealthFail s) := by
  unfold rowEntropyHealthFail
  exact .whenRun .refl (.foldl (fun _ _ => .ite .refl (faultUnit_touches ..).within) .refl)

theorem takeCounter_touches (s : State) (r : Bytes) (addr : Nat) :
    Touches [.system, .cipher, .sessions, .counters] s (takeCounter s r addr).1 := by
  unfold takeCounter
  extract_lets writes k next _ s₁
  split
  · exact .pair .refl
  · exact .pair ((rekeyCheck_touches ..).after .update)

theorem finishJob_touches (s : State) (ring : Nat) (desc : List Nat) (status : Nat) (writes : List (Nat × Bytes)) :
    Touches [.cipher, .rings, .arbiters] s (finishJob s ring desc status writes) := by
  unfold finishJob
  extract_lets _ c s₁ job _
  exact (endGrant_touches ..).after (.set (t := s₁) (modRing_touches ..).within)

theorem lookaside_touches (s : State) (ring : Nat) (desc : List Nat) (record aad data tag : Bytes) (faulty : Bool) :
    Touches [.system, .cipher, .rings, .arbiters, .sessions, .counters] s
      (lookaside s ring desc record aad data tag faulty) := by
  unfold lookaside
  extract_lets r addr f spans s₁ run
  split
  · exact (endGrant_touches ..).after (freezeFn_touches ..).within
  · refine .trans (t := s₁) (.foldl (fun _ _ => .ite .refl (filtered_touches ..).within) .refl) ?_
    split
    · exact (finishJob_touches ..).within
    · split
      · exact (finishJob_touches ..).within
      · split
        · exact (finishJob_touches ..).within
        · split
          · exact (endGrant_touches ..).after (exhaust_touches ..).within
          · split
            next u _ e =>
              extract_lets s₂
              exact (finishJob_touches ..).after (.ite ((faultUnit_touches ..).after
                (((takeCounter_touches ..).fst e).within)) (((takeCounter_touches ..).fst e).within))

theorem rowLookasideJob_touches (ring : Nat) (record aad data tag : Bytes) (faulty : Bool) (s : State) :
    Touches [.system, .cipher, .rings, .arbiters, .sessions, .counters] s
      (rowLookasideJob ring record aad data tag faulty s) := by
  unfold rowLookasideJob
  refine .whenRun .refl ?_
  split
  · exact .guardS .refl (lookaside_touches ..).within
  · exact .refl

theorem completeJob_touches (s : State) (j : Job) :
    Touches [.system, .cipher, .rings, .arbiters, .sessions, .counters, .out] s (completeJob s j) := by
  unfold completeJob
  extract_lets s₁ _ s₂ s₃
  exact (endGrant_touches ..).after ((completeCount_touches ..).after
    ((count_touches ..).after (.set (t := s₁) (.foldl (fun _ _ => (dmaWrite_touches ..).within) .refl))))

theorem rowLookasideJobComplete_touches (ring : Nat) (s : State) :
    Touches [.system, .cipher, .rings, .arbiters, .sessions, .counters, .out] s
      (rowLookasideJobComplete ring s) := by
  unfold rowLookasideJobComplete
  refine .whenRun .refl ?_
  split
  · exact .guardS .refl (completeJob_touches ..).within
  · exact .refl

/-! ### Frames and completions between the part and host memory -/

theorem writeBuf_touches (ring : Nat) (words : List Nat) (first last : Bool) (b : Nat × Bytes) (s : State) :
    Touches [.system, .rings, .sessions, .counters, .out] s (writeBuf ring words first last b s) := by
  unfold writeBuf
  extract_lets s₁ mark head
  exact (writeBack_touches ..).after (dmaWrite_touches ..).within

theorem rxDeliver_touches (s : State) (ring : Nat) (item : RxItem) (words : List Nat) (body : Bytes)
    (descs : List (Nat × Nat)) :
    OptTouches [.system, .rings, .sessions, .counters, .out] s
      ((rxDeliver s ring item words body descs).map Prod.fst) := by
  -- The kernel compares rxDeliver with its body as functions: applied, it would count out how many are posted.
  suffices h : ∀ f, f = @rxDeliver → OptTouches [.system, .rings, .sessions, .counters, .out] s
      ((f s ring item words body descs).map Prod.fst) from h _ rfl
  intro f hf
  delta rxDeliver at hf
  subst hf
  beta_reduce
  generalize posted s ring = n
  split
  · extract_lets f b rest put s₁
    split
    · exact .someFst ((freezeFn_touches ..).after (modRing_touches ..).within)
    split
    · exact .someFst ((count_touches ..).after ((count_touches ..).after ((modRing_touches ..).after
        (writeBuf_touches ..).within)))
    · exact .someFst ((modRing_touches ..).after (writeBuf_touches ..).within)
  · exact .none

theorem dropPart_touches (s : State) (ring : Nat) (item : RxItem) :
    Touches [.rings] s (dropPart s ring item) := by
  unfold dropPart
  exact .ite (modRing_touches ..).within .refl

theorem hostDiscard_touches (s : State) (ring node : Nat) :
    Touches [.counters] s (hostDiscard s ring node) := by
  unfold hostDiscard
  extract_lets f s₁
  exact .ite ((count_touches ..).after (count_touches ..).within) (count_touches ..).within

theorem startHost_touches (s : State) (kid : Kid) (k : Pkt) (ring : Nat) :
    Touches [.packets, .buffer] s (startHost s kid k ring) := by
  unfold startHost
  extract_lets _ s₁
  have hs₁ : Touches [.packets, .buffer] s s₁ := .update
  exact (modPkt_touches ..).after ((leaveQueue_touches ..).after ((chargePath_touches ..).after hs₁))

theorem leaveHost_touches (s : State) (k : Pkt) (ring : Nat) :
    Touches [.packets, .buffer, .counters] s (leaveHost s k ring) := by
  unfold leaveHost
  extract_lets n len s₁ s₂
  exact (freePkt_touches ..).after ((filtered_touches ..).after
    ((filtered_touches ..).after ((count_touches ..).after (count_touches ..).within)))

theorem dropHead_touches (s : State) (q : Nat) :
    Touches [.system, .packets, .buffer, .rings, .sessions, .counters, .out] s (dropHead s q) := by
  unfold dropHead
  split
  · exact .ite ((discardPkt_touches ..).after (hostDiscard_touches ..).within) .refl
  · exact .refl

theorem dropHeads_touches (qs : List Nat) (s : State) :
    Touches [.system, .packets, .buffer, .rings, .sessions, .counters, .out] s (dropHeads qs s) := by
  unfold dropHeads
  exact .foldl (fun _ _ => .foldl (fun _ _ => (dropHead_touches ..).within) .refl) .refl

theorem rxFrame_touches (s : State) (ring : Nat) (k : Pkt) (descs : List (Nat × Nat)) (cells : List (Nat × Ecc)) :
    Touches [.system, .packets, .buffer, .rings, .arbiters, .sessions, .counters, .out] s
      (rxFrame s ring k descs cells) := by
  -- As for rxDeliver: the kernel compares the functions.
  suffices h : ∀ f, f = @rxFrame →
      Touches [.system, .packets, .buffer, .rings, .arbiters, .sessions, .counters, .out] s
        (f s ring k descs cells) from h _ rfl
  intro f hf
  delta rxFrame at hf
  subst hf
  beta_reduce
  extract_lets -underBinder words body
  split
  · exact .refl
  next t mark delivered =>
  have ht : Touches [.system, .packets, .buffer, .rings, .arbiters, .sessions, .counters, .out] s t :=
    ((rxDeliver_touches ..).getFst delivered).within
  split
  next u read =>
    have hu := ((readCells_touches ..).fst read).after ht
    exact (endGrant_touches ..).after (.ite ((leaveHost_touches ..).after hu) hu)
  · exact (endGrant_touches ..).after ((discardPkt_touches ..).after ((dropPart_touches ..).after
      (readCells_touches ..).within))

theorem rxWriteback_touches (s : State) (ring : Nat) (descs : List (Nat × Nat)) (cells : List (Nat × Ecc)) :
    Touches [.system, .packets, .buffer, .rings, .arbiters, .sessions, .counters, .out] s
      (rxWriteback s ring descs cells) := by
  unfold rxWriteback
  split
  · exact .refl
  · split
    · split
      · split
        · exact (rxFrame_touches ..).within
        · exact (endGrant_touches ..).after (dropPart_touches ..).within
      · exact .refl
    · split
      · exact .refl
      · split
        · exact .refl
        · exact .ite .refl ((rxFrame_touches ..).after (startHost_touches ..).within)

theorem rowRxWriteback_touches (ring : Nat) (descs : List (Nat × Nat)) (cells : List (Nat × Ecc)) (s : State) :
    Touches [.system, .packets, .buffer, .rings, .arbiters, .sessions, .counters, .out] s
      (rowRxWriteback ring descs cells s) := by
  unfold rowRxWriteback
  exact .whenRun .refl (.guardS .refl (.ite (dropHeads_touches ..).within (rxWriteback_touches ..).within))

theorem dropCopy_touches (s : State) (c : Copy) :
    Touches [.buffer, .rings, .counters] s (dropCopy s c) := by
  unfold dropCopy
  exact (endCopy_touches ..).after ((hostDiscard_touches ..).after (dropPart_touches ..).within)

theorem deliverCopy_touches (s : State) (c : Copy) (descs : List (Nat × Nat)) (cells : List (Nat × Ecc)) :
    Touches [.system, .buffer, .rings, .arbiters, .sessions, .counters, .out] s (deliverCopy s c descs cells) := by
  unfold deliverCopy
  split
  · exact (dropCopy_touches ..).within
  · split
    · exact .refl
    · split
      · exact .refl
      next u _ e =>
        split
        next u₁ e₁ =>
          refine (endGrant_touches ..).after (.trans (t := u₁) ?_
            (.ite ((endCopy_touches ..).after (emit_touches ..).within) .refl))
          exact ((readCells_touches ..).fst e₁).after ((rxDeliver_touches ..).getFst e).within
        next u₂ _ e₂ =>
          exact (endGrant_touches ..).after ((endCopy_touches ..).after
            ((dropPart_touches ..).after (readCells_touches ..).within))

theorem rowCopyDeliver_touches (copy : Nat) (descs : List (Nat × Nat)) (cells : List (Nat × Ecc)) (s : State) :
    Touches [.system, .buffer, .rings, .arbiters, .sessions, .counters, .out] s
      (rowCopyDeliver copy descs cells s) := by
  unfold rowCopyDeliver
  refine .whenRun .refl ?_
  split
  · exact .guardS .refl (deliverCopy_touches ..).within
  · exact .refl

theorem dropTask_touches (s : State) (copy : Nat) :
    Touches [.clusters] s (dropTask s copy) := by
  unfold dropTask
  exact .update

theorem unformatted_touches (s : State) (copy : Nat) :
    Touches [.buffer] s (unformatted s copy) := by
  unfold unformatted
  extract_lets copies _
  exact .update

theorem rowSampleFormatTimeout_touches (copy : Nat) (s : State) :
    Touches [.buffer, .clusters] s (rowSampleFormatTimeout copy s) := by
  unfold rowSampleFormatTimeout
  refine .whenRun .refl ?_
  split
  · exact .guardS .refl ((unformatted_touches ..).after (dropTask_touches ..).within)
  · exact .refl

theorem makeSample_touches (s : State) (x : Sample) :
    Touches [.buffer, .clusters, .pools, .counters] s (makeSample s x) := by
  unfold makeSample
  extract_lets id task _ s₁
  refine .trans (t := s₁) (addCopy_touches ..).within ?_
  clear_value task
  split
  · exact .ite .refl (offerTask_touches ..).within
  · exact .refl

theorem makeSamples_touches (s : State) :
    Touches [.buffer, .clusters, .pools, .counters] s (makeSamples s) := by
  unfold makeSamples
  exact .foldl (fun _ _ => (makeSample_touches ..).within) .update

theorem dropDelivery_touches (s : State) (ring : Nat) :
    Touches [.system, .packets, .buffer, .rings, .sessions, .counters, .out] s (dropDelivery s ring) := by
  unfold dropDelivery
  split
  · split
    · exact .refl
    · split
      · extract_lets s₁
        refine .trans (t := s₁) (dropPart_touches ..).within ?_
        split
        · exact (discardPkt_touches ..).after (hostDiscard_touches ..).within
        · exact .refl
      · exact .refl
  · exact .refl

theorem dropClosed_touches (s : State) :
    Touches [.system, .packets, .buffer, .rings, .sessions, .counters, .out] s (dropClosed s) := by
  unfold dropClosed
  extract_lets s₁
  exact .foldl (fun _ _ => .ite (dropCopy_touches ..).within .refl)
    (.foldl (fun _ _ => (dropDelivery_touches ..).within) (dropHeads_touches ..).within)

theorem dmaRead_touches (s : State) (r addr len : Nat) :
    OptTouches [.counters] s (dmaRead s r addr len) := by
  unfold dmaRead
  extract_lets f
  exact .ite (.some (filtered_touches ..).within) .none

theorem txFetch_touches (s : State) (ring : Nat) (words : List Nat) :
    Touches [.system, .rings, .arbiters, .sessions, .counters] s (txFetch s ring words) := by
  unfold txFetch
  extract_lets r
  split
  · exact (endGrant_touches ..).after (freezeFn_touches ..).within
  next u e =>
    extract_lets d s₁ s₂
    refine .trans (t := s₁) ((count_touches ..).after ((dmaRead_touches ..).get e).within) ?_
    refine .ite ((endGrant_touches ..).after (freezeRing_touches ..).within)
      (.trans (t := s₂) (modRing_touches ..).within ?_)
    exact .ite (endGrant_touches ..).within .refl

theorem rowTxDescriptorFetch_touches (ring : Nat) (words : List Nat) (s : State) :
    Touches [.system, .rings, .arbiters, .sessions, .counters] s (rowTxDescriptorFetch ring words s) := by
  unfold rowTxDescriptorFetch
  exact .whenRun .refl (.guardS .refl (txFetch_touches ..).within)

theorem enterFrame_touches (s : State) (ring : Nat) (d : List Nat) (buffer : Bytes) :
    Touches [.system, .packets, .ports, .buffer, .rings, .arbiters, .sessions, .counters, .out] s
      (enterFrame s ring d buffer) := by
  unfold enterFrame
  extract_lets r n c body frame info s₁ f s₂ id s₃
  refine .trans (t := s₂) ((count_touches ..).after ((count_touches ..).after (modRing_touches ..).within)) ?_
  refine .trans (t := s₃) (arrive_touches ..).within ?_
  exact .ite .refl ((endGrant_touches ..).after (completeCount_touches ..).within)

theorem txEnter_touches (s : State) (ring : Nat) (d : List Nat) (buffer : Bytes) :
    Touches [.system, .packets, .ports, .buffer, .rings, .arbiters, .sessions, .counters, .out] s
      (txEnter s ring d buffer) := by
  unfold txEnter
  extract_lets r
  split
  · exact (endGrant_touches ..).after (freezeFn_touches ..).within
  next u e =>
    exact (enterFrame_touches ..).after (((dmaRead_touches ..).get e).within)

theorem rowTxFrameEnter_touches (ring : Nat) (buffer : Bytes) (s : State) :
    Touches [.system, .packets, .ports, .buffer, .rings, .arbiters, .sessions, .counters, .out] s
      (rowTxFrameEnter ring buffer s) := by
  unfold rowTxFrameEnter
  refine .whenRun .refl ?_
  extract_lets n
  split
  · exact .guardS .refl (txEnter_touches ..).within
  · exact .refl

theorem fetchCmd_touches (s : State) :
    Touches [.system, .pipes, .rings, .arbiters, .sessions, .counters] s (fetchCmd s) := by
  unfold fetchCmd
  split
  · exact .refl
  · split
    · exact .refl
    · split
      · exact (endGrant_touches ..).after (freezeFn_touches ..).within
      next u e =>
        exact (endGrant_touches ..).after ((modPipe_touches ..).after (((dmaRead_touches ..).get e).within))

theorem writeCompletion_touches (s : State) (p : Nat) (c : Completion) :
    Touches [.system, .rings, .sessions, .counters, .out] s (writeCompletion s p c) := by
  unfold writeCompletion
  extract_lets r n a s₁ s₂ s₃ s₄
  exact (notSignalled_touches ..).after ((headWrite_touches ..).after
    ((modRing_touches ..).after ((dmaWrite_touches ..).after
    ((dmaWrite_touches ..).after (dmaWrite_touches ..).within))))

theorem rowCompletionWrite_touches (pipe : Nat) (s : State) :
    Touches [.system, .pipes, .rings, .arbiters, .sessions, .counters, .out] s (rowCompletionWrite pipe s) := by
  unfold rowCompletionWrite
  refine .whenRun .refl ?_
  split
  · exact .guardS .refl ((endGrant_touches ..).after ((writeCompletion_touches ..).after
      (modPipe_touches ..).within))
  · exact .refl

/-! ### Buffer pools and idle steps -/

theorem modPools_touches (s : State) (f : Pools → Pools) :
    Touches [.pools] s (modPools s f) := by
  unfold modPools
  exact .update

theorem countPool_touches (s : State) (p o status : Nat) (frees : Bool) :
    Touches [.counters] s (countPool s p o status frees) := by
  unfold countPool
  extract_lets s₁
  exact .ite (count_touches ..).within ((count_touches ..).after (count_touches ..).within)

theorem allocate_touches (s : State) (o len : Nat) :
    Touches [.pools, .counters] s (allocate s o len).1 := by
  unfold allocate
  extract_lets p s₁ fail
  split
  · unfold fail
    exact .pair ((countPool_touches ..).after (count_touches ..).within)
  · split
    · unfold fail
      exact .pair ((countPool_touches ..).after (count_touches ..).within)
    · split
      · unfold fail
        exact .pair ((countPool_touches ..).after (count_touches ..).within)
      · split
        · split
          · unfold fail
            exact .pair ((countPool_touches ..).after (count_touches ..).within)
          · extract_lets s₂ s₃
            exact .pair ((countPool_touches ..).after ((filtered_touches ..).after
              ((modPools_touches ..).after (count_touches ..).within)))
        · unfold fail
          exact .pair ((countPool_touches ..).after (count_touches ..).within)

theorem freezeOwner_touches (s : State) (o status h : Nat) :
    Touches [.system, .pools, .sessions, .counters] s (freezeOwner s o status h) := by
  unfold freezeOwner
  extract_lets s₁ w _
  exact (raiseEv_touches ..).after (.set (t := s₁) (modPools_touches ..).within)

theorem freeBuffer_touches (s : State) (o h : Nat) :
    Touches [.system, .pools, .sessions, .counters] s (freeBuffer s o h).1 := by
  unfold freeBuffer
  extract_lets p bad
  split
  · exact .pair (countPool_touches ..).within
  · split
    · unfold bad
      exact .pair ((freezeOwner_touches ..).after (countPool_touches ..).within)
    · split
      · unfold bad
        exact .pair ((freezeOwner_touches ..).after (countPool_touches ..).within)
      · split
        · unfold bad
          exact .pair ((freezeOwner_touches ..).after (countPool_touches ..).within)
        · split
          · unfold bad
            exact .pair ((freezeOwner_touches ..).after (countPool_touches ..).within)
          · exact .pair ((countPool_touches ..).after (modPools_touches ..).within)

theorem decideReq_touches (s : State) (q : PoolReq) :
    Touches [.system, .pools, .sessions, .counters] s (decideReq s q).1 := by
  unfold decideReq
  split
  · exact (allocate_touches ..).within
  · split
    · split
      next u _ e =>
        exact .pair (((freeBuffer_touches ..).fst e).within)
    · extract_lets st
      exact .pair (countPool_touches ..).within

theorem answerReq_touches (s : State) (q : PoolReq) (status h : Nat) :
    Touches [.pools] s (answerReq s q status h) := by
  unfold answerReq
  extract_lets word
  exact (modPools_touches ..).within

theorem takeReq_touches (q : PoolReq) (s : State) :
    Touches [.pools] s (takeReq q s) := by
  unfold takeReq
  exact (modPools_touches ..).within

theorem dropWaiting_touches (s : State) (gone : Nat → Bool) :
    Touches [.pools] s (dropWaiting s gone) := by
  unfold dropWaiting
  exact (modPools_touches ..).within

theorem poolReq_touches (s : State) (fn op seq len h : Nat) :
    Touches [.pools, .reject, .lock, .counters] s (poolReq s fn op seq len h) := by
  unfold poolReq
  extract_lets q v
  exact .ite (.writeBy .refl (fun _ => .some (takeReq_touches ..).within)) (.ite (takeReq_touches ..).within .refl)

theorem rowPoolAllocate_touches (fn seq length : Nat) (s : State) :
    Touches [.pools, .reject, .lock, .counters] s (rowPoolAllocate fn seq length s) := by
  unfold rowPoolAllocate
  exact .whenRun .refl (poolReq_touches ..).within

theorem rowPoolFree_touches (fn seq handle : Nat) (s : State) :
    Touches [.pools, .reject, .lock, .counters] s (rowPoolFree fn seq handle s) := by
  unfold rowPoolFree
  exact .whenRun .refl (poolReq_touches ..).within

theorem rowPoolReqInvalid_touches (fn op seq : Nat) (s : State) :
    Touches [.pools, .reject, .lock, .counters] s (rowPoolReqInvalid fn op seq s) := by
  unfold rowPoolReqInvalid
  exact .whenRun .refl (.guardS .refl (poolReq_touches ..).within)

theorem freeAllOf_touches (s : State) (o : Nat) :
    Touches [.pools] s (freeAllOf s o) := by
  unfold freeAllOf
  exact (modPools_touches ..).within

theorem reclaim_touches (o : Nat) (v : Bytes) (s : State) :
    OptTouches [.pools] s (reclaim o v s) := by
  unfold reclaim
  exact .some (.ite (freeAllOf_touches ..).within .refl)

theorem rowPoolOwnerReclaim_touches (src : Origin) (owner : Nat) (s : State) :
    Touches [.pools, .reject, .lock, .counters] s (rowPoolOwnerReclaim src owner s) := by
  unfold rowPoolOwnerReclaim
  exact .writeCmd .refl (fun _ => (reclaim_touches ..).within)

theorem forget_touches (s : State) (gone : Nat → Nat → Bool) :
    Touches [.pools] s (forget s gone) := by
  unfold forget
  exact (modPools_touches ..).within

theorem askBulk_touches (s : State) (p off len : Nat) (write : Option Bytes) (task : Option (Nat × Task)) :
    Touches [.pipes] s (askBulk s p off len write task) := by
  unfold askBulk
  extract_lets id s₁
  exact (modPipe_touches ..).after (askRead_touches ..).within

theorem askHost_touches (s : State) (a : HostAccess) :
    Touches [.pools] s (askHost s a) := by
  unfold askHost
  exact (modPools_touches ..).within

theorem hostAccess_touches (s : State) (a : HostAccess) :
    Touches [.system, .buffer, .clusters, .rings, .pools, .sessions, .counters, .out] s (hostAccess s a) := by
  unfold hostAccess
  split
  · exact .ite ((filtered_touches ..).after (emit_touches ..).within) (freezeFn_touches ..).within
  · exact .ite ((offerTask_touches ..).after (filtered_touches ..).within)
      ((offerTask_touches ..).after (freezeFn_touches ..).within)

theorem hostAccesses_touches (s : State) :
    Touches [.system, .buffer, .clusters, .rings, .arbiters, .pools, .sessions, .counters, .out] s
      (hostAccesses s) := by
  unfold hostAccesses
  split
  · exact .refl
  · exact .ite ((endGrant_touches ..).after ((hostAccess_touches ..).after (modPools_touches ..).within)) .refl

theorem publishWrite_touches (s : State) (c : Nat) (a : IdleAccess) :
    Touches [.flow, .util, .pipes, .pools] s (publishWrite s c a) := by
  unfold publishWrite
  extract_lets p off _ b
  split
  · exact .ite (modPipe_touches ..).within .refl
  · split
    · exact .ite ((askBulk_touches ..).after .update) .refl
    · split
      · exact .update
      · exact (askHost_touches ..).within
      · exact .refl

theorem publishRead_touches (s : State) (c : Nat) (a : IdleAccess) (t : Task) (hostData : Bytes) :
    Touches [.buffer, .pipes, .clusters, .pools, .counters] s (publishRead s c a t hostData) := by
  unfold publishRead
  extract_lets p len len₁
  split
  · exact (modPipe_touches ..).within
  · split
    · exact (askBulk_touches ..).within
    · split
      · split
        · exact (offerTask_touches ..).within
        · exact (askHost_touches ..).within
        · exact (offerTask_touches ..).within
      · exact (offerTask_touches ..).within

theorem publishTask_touches (s : State) (c : Nat) (t : Task) (read : Option IdleAccess) (hostData : Bytes) :
    Touches [.buffer, .pipes, .clusters, .pools, .counters] s (publishTask s c t read hostData) := by
  unfold publishTask
  split
  · exact (freeGranted_touches ..).after (discardTask_touches ..).within
  · split
    · exact (publishRead_touches ..).within
    · exact (offerTask_touches ..).within

theorem publishRequest_touches (s : State) (c w : Nat) (read : Option IdleAccess) (hostData : Bytes) :
    Touches [.buffer, .pipes, .clusters, .pools, .counters] s (publishRequest s c w read hostData) := by
  unfold publishRequest
  extract_lets arg t
  exact .ite .refl (.ite (publishTask_touches ..).within (takeReq_touches ..).within)

theorem publishRecord_touches (s : State) (t : Task) (record : Bytes) :
    Touches [.buffer] s (publishRecord s t record) := by
  unfold publishRecord
  split
  · exact .refl
  · exact .ite .refl .update

theorem serveReq_touches (s : State) (q : PoolReq) :
    Touches [.system, .buffer, .pipes, .clusters, .pools, .sessions, .counters] s (serveReq s q) := by
  unfold serveReq
  split
  next u _ _ e =>
    split
    · exact (answerReq_touches ..).after (((decideReq_touches ..).fst e).within)
    · exact (publishTask_touches ..).after (((decideReq_touches ..).fst e).within)

theorem serveOwner_touches (s : State) (o : Nat) :
    Touches [.system, .buffer, .pipes, .clusters, .pools, .sessions, .counters] s (serveOwner s o) := by
  unfold serveOwner
  split
  · exact .refl
  · exact (serveReq_touches ..).after (modPools_touches ..).within

theorem servePools_touches (s : State) :
    Touches [.system, .buffer, .pipes, .clusters, .pools, .sessions, .counters] s (servePools s) := by
  unfold servePools
  exact (modPools_touches ..).after (.foldl (fun _ _ => (serveOwner_touches ..).within) .refl)

theorem publish_touches (s : State) (c e : Nat) (t : Task) (hostData : Bytes) :
    Touches [.buffer, .flow, .util, .pipes, .clusters, .pools, .counters] s (publish s c e t hostData) := by
  unfold publish
  extract_lets g out o abi2 s₁ made s₂ s₃ s₄ w
  refine .trans (t := s₂) ((modPipe_touches ..).after ((count_touches ..).after (modEngine_touches ..).within)) ?_
  refine .trans (t := s₄) (.foldl (fun _ _ => (publishWrite_touches ..).within) (publishRecord_touches ..).within)
    ?_
  exact .ite .refl (publishRequest_touches ..).within

theorem rowIdleStepPublish_touches (cluster engine : Nat) (hostData : Bytes) (s : State) :
    Touches [.buffer, .flow, .util, .pipes, .clusters, .pools, .counters] s
      (rowIdleStepPublish cluster engine hostData s) := by
  unfold rowIdleStepPublish
  refine .whenRun .refl ?_
  extract_lets g
  split
  · exact .guardS .refl (publish_touches ..).within
  · exact .refl

/-! ### Messages and frames that the part originates -/

theorem originate_touches (s : State) (port queue : Nat) (body : Bytes) :
    OptTouches [.packets, .buffer] s (originate s port queue body) := by
  unfold originate
  extract_lets frame cells base _ k
  exact .map ((takeCells_touches ..).after .update) (fun _ => .update)

theorem sendMessage_touches (s : State) (d n : Nat) (msg : Bytes) (descs : List (Nat × Nat)) :
    OptTouches [.system, .packets, .buffer, .rings, .arbiters, .sessions, .counters, .out] s
      ((sendMessage s d n msg descs).map Prod.fst) := by
  unfold sendMessage
  split
  · extract_lets ring
    split
    · exact .none
    · exact .mapFstOf (rxDeliver_touches ..).within fun _ => (endGrant_touches ..).within
  · exact .mapFst (originate_touches ..).within fun _ => .refl

theorem recordsSent_touches (s : State) (d n : Nat) :
    Touches [.pipes] s (recordsSent s d n) := by
  unfold recordsSent
  exact (modPipe_touches ..).within

theorem sendRecords_touches (s : State) (d n : Nat) (descs : List (Nat × Nat)) :
    Touches [.system, .packets, .buffer, .pipes, .rings, .arbiters, .sessions, .counters, .out] s
      (sendRecords s d n descs) := by
  unfold sendRecords
  extract_lets msg
  split
  · exact .refl
  split
  next u sent e =>
    have hu := (sendMessage_touches ..).getFst e
    exact .ite ((recordsSent_touches ..).after hu.within) hu.within
  · exact .refl

theorem rowExportMessageSend_touches (domain count : Nat) (descs : List (Nat × Nat)) (s : State) :
    Touches [.system, .packets, .buffer, .pipes, .rings, .arbiters, .sessions, .counters, .out] s
      (rowExportMessageSend domain count descs s) := by
  unfold rowExportMessageSend
  exact .whenRun .refl (.guardS .refl (sendRecords_touches ..).within)

theorem templatesSent_touches (s : State) (d : Nat) :
    Touches [.templates] s (templatesSent s d) := by
  unfold templatesSent
  exact .update

theorem sendTemplates_touches (s : State) (d : Nat) (descs : List (Nat × Nat)) :
    Touches [.system, .packets, .buffer, .rings, .arbiters, .templates, .sessions, .counters, .out] s
      (sendTemplates s d descs) := by
  unfold sendTemplates
  extract_lets body
  split
  · exact (templatesSent_touches ..).within
  split
  next u sent e =>
    have hu := (sendMessage_touches ..).getFst e
    exact .ite ((templatesSent_touches ..).after hu.within) hu.within
  · exact .refl

theorem rowTemplateSetSend_touches (domain : Nat) (descs : List (Nat × Nat)) (s : State) :
    Touches [.system, .packets, .buffer, .rings, .arbiters, .templates, .sessions, .counters, .out] s
      (rowTemplateSetSend domain descs s) := by
  unfold rowTemplateSetSend
  exact .whenRun .refl (.guardS .refl (sendTemplates_touches ..).within)

theorem exportTasks_touches (s : State) (c : Nat) :
    Touches [.buffer, .clusters, .pools, .counters] s (exportTasks s c) := by
  unfold exportTasks
  split
  · exact .refl
  · exact .foldl (fun _ _ => (offerTask_touches ..).within) .refl

theorem idleExportTasks_touches (s : State) :
    Touches [.clock, .buffer, .clusters, .pools, .counters] s (idleExportTasks s) := by
  unfold idleExportTasks
  exact .ite (.foldl (fun _ _ => (exportTasks_touches ..).within) .update) .refl

theorem rowIdleExportTask_touches (s : State) :
    Touches [.clock, .buffer, .clusters, .pools, .counters] s (rowIdleExportTask s) := by
  unfold rowIdleExportTask
  exact .whenRun .refl (idleExportTasks_touches ..).within

/-! ### Ports and lanes -/

theorem modLanes_touches (s : State) (ls : List Nat) (f : Lane → Lane) :
    Touches [.lanes] s (modLanes s ls f) := by
  unfold modLanes
  exact .foldl (fun _ _ => (modLane_touches ..).within) .refl

theorem enterLock_touches (s : State) (n : Nat) :
    Touches [.ports] s (enterLock s n) := by
  unfold enterLock
  extract_lets t
  exact (modPort_touches ..).within

theorem enterStep_touches (s : State) (n mode fec : Nat) :
    Touches [.ports, .lanes] s (enterStep s n mode fec) := by
  unfold enterStep
  extract_lets s₁ s₂
  exact (modPort_touches ..).after ((modLanes_touches ..).after (modLanes_touches ..).within)

theorem endStep_touches (s : State) (n : Nat) :
    Touches [.ports] s (endStep s n) := by
  unfold endStep
  extract_lets p b
  exact .ite .refl (.ite (modPort_touches ..).within (enterLock_touches ..).within)

theorem stepDue_touches (s : State) (n : Nat) :
    Touches [.ports] s (stepDue s n) := by
  unfold stepDue
  split
  · exact .ite (endStep_touches ..).within .refl
  · exact .refl

theorem askedPowers_touches (s : State) (n : Nat) :
    Touches [.lanes] s (askedPowers s n) := by
  unfold askedPowers
  exact .foldl (fun _ _ => (modLane_touches ..).within) .refl

theorem startBringUp_touches (s : State) (n : Nat) :
    Touches [.ports, .lanes] s (startBringUp s n) := by
  unfold startBringUp
  extract_lets s₁ s₂ m
  refine .trans (t := s₂) ((askedPowers_touches ..).after (modPort_touches ..).within) ?_
  exact .ite .refl (.ite (modPort_touches ..).within (enterStep_touches ..).within)

theorem lineBeat_touches (s : State) (n : Nat) :
    Touches [.packets, .counters] s (lineBeat s n) := by
  unfold lineBeat
  extract_lets p s₁
  refine .foldl (fun _ _ => .foldl (fun _ _ => (countLine_touches ..).within) .refl) ?_
  unfold s₁
  split
  · exact (modPkt_touches ..).within
  · exact .refl

theorem lanesBack_touches (s : State) (n : Nat) :
    Touches [.lanes] s (lanesBack s n) := by
  unfold lanesBack
  extract_lets used spare
  exact (modLanes_touches ..).within

theorem leaveUp_touches (s : State) (n state : Nat) :
    Touches [.system, .packets, .ports, .lanes, .buffer, .pipes, .rings, .arbiters, .sessions, .counters, .out] s
      (leaveUp s n state) := by
  unfold leaveUp
  split
  · extract_lets s₁ s₂
    exact (raiseEv_touches ..).after ((modPort_touches ..).after
      ((linkLost_touches ..).after ((cutReceive_touches ..).after (lanesBack_touches ..).within)))
  · exact (modPort_touches ..).within

theorem portDown_touches (s : State) (n : Nat) (t : PortTimer) :
    Touches [.system, .packets, .ports, .lanes, .buffer, .pipes, .rings, .arbiters, .sessions, .counters, .out] s
      (portDown s n t) := by
  unfold portDown
  extract_lets s₁
  exact (modPort_touches ..).after ((modLanes_touches ..).after (leaveUp_touches ..).within)

theorem failBringUp_touches (s : State) (n cause : Nat) :
    Touches [.system, .packets, .ports, .lanes, .buffer, .pipes, .rings, .arbiters, .sessions, .counters, .out] s
      (failBringUp s n cause) := by
  unfold failBringUp
  extract_lets s₁
  exact (portDown_touches ..).after ((raiseEv_touches ..).after (modPort_touches ..).within)

theorem lockLanes_touches (s : State) (ls : List Nat) :
    Touches [.system, .lanes] s (lockLanes s ls) := by
  unfold lockLanes
  exact .foldl (fun _ _ => (modLane_touches ..).after (useFresh_touches ..).within) .refl

theorem enterUp_touches (s : State) (n : Nat) :
    Touches [.system, .ports, .lanes, .sessions, .counters] s (enterUp s n) := by
  unfold enterUp
  extract_lets s₁ s₂
  exact (linkBack_touches ..).after ((raiseEv_touches ..).after
    ((modPort_touches ..).after (lockLanes_touches ..).within))

theorem portEnableEff_touches (n : Nat) (s : State) :
    OptTouches [.objects, .ports, .lanes] s (portEnableEff n s) := by
  unfold portEnableEff
  extract_lets s₁
  exact .ite (.ite (.some (setRw_touches ..).within) .none)
    (.ite .none (.some ((startBringUp_touches ..).after (setRw_touches ..).within)))

theorem portDisableEff_touches (n : Nat) (s : State) :
    OptTouches [.system, .objects, .packets, .ports, .lanes, .buffer, .pipes, .rings, .arbiters, .sessions,
      .counters, .out] s (portDisableEff n s) := by
  unfold portDisableEff
  extract_lets was ls s₁
  refine .some (.trans (t := s₁) ((setRw_touches ..).after (.ite (portDown_touches ..).within .refl))
    (.ite ?_ (enterFlush_touches ..).within))
  exact (modPort_touches ..).after ((enterFlush_touches ..).after (modLanes_touches ..).within)

theorem rowPortEnable_touches (src : Origin) (node : Nat) (s : State) :
    Touches [.objects, .ports, .lanes, .reject, .lock, .counters] s (rowPortEnable src node s) := by
  unfold rowPortEnable
  exact .writeCmd .refl (fun _ => (portEnableEff_touches ..).within)

theorem rowPortDisable_touches (src : Origin) (node : Nat) (s : State) :
    Touches [.system, .objects, .packets, .ports, .lanes, .buffer, .pipes, .rings, .arbiters, .reject, .sessions,
      .lock, .counters, .out] s (rowPortDisable src node s) := by
  unfold rowPortDisable
  exact .writeCmd .refl (fun _ => (portDisableEff_touches ..).within)

theorem rowAnComplete_touches (node mode fec : Nat) (s : State) :
    Touches [.ports, .lanes] s (rowAnComplete node mode fec s) := by
  unfold rowAnComplete
  exact .whenRun .refl (.guardS .refl (enterStep_touches ..).within)

theorem rowTrainingDone_touches (node : Nat) (coeffs : List Nat) (s : State) :
    Touches [.ports, .lanes] s (rowTrainingDone node coeffs s) := by
  unfold rowTrainingDone
  refine .whenRun .refl (.guardS .refl ?_)
  extract_lets s₁ s₂
  exact (enterLock_touches ..).after ((modPort_touches ..).after
    (.foldl (fun _ _ => (modLane_touches ..).within) (endStep_touches ..).within))

theorem rowTrainingTimeout_touches (node : Nat) (s : State) :
    Touches [.system, .packets, .ports, .lanes, .buffer, .pipes, .rings, .arbiters, .sessions, .counters, .out] s
      (rowTrainingTimeout node s) := by
  unfold rowTrainingTimeout
  refine .whenRun .refl ?_
  split
  · exact .guardS .refl (failBringUp_touches ..).within
  · exact .refl

theorem rowLinkUp_touches (node skew : Nat) (s : State) :
    Touches [.system, .ports, .lanes, .sessions, .counters] s (rowLinkUp node skew s) := by
  unfold rowLinkUp
  refine .whenRun .refl ?_
  extract_lets s₁
  exact .guardS .refl ((enterUp_touches ..).after ((modPort_touches ..).after (endStep_touches ..).within))

theorem rowLockTimeout_touches (node skew : Nat) (s : State) :
    Touches [.system, .packets, .ports, .lanes, .buffer, .pipes, .rings, .arbiters, .sessions, .counters, .out] s
      (rowLockTimeout node skew s) := by
  unfold rowLockTimeout
  refine .whenRun .refl ?_
  extract_lets s₁ wide
  split
  · exact .ite ((failBringUp_touches ..).after ((modPort_touches ..).after (endStep_touches ..).within))
      (.ite ((failBringUp_touches ..).after (endStep_touches ..).within) .refl)
  · exact .ite ((failBringUp_touches ..).after ((modPort_touches ..).after (endStep_touches ..).within)) .refl
  · exact .refl

theorem rowKeptCoefficientsLockTimeout_touches (node : Nat) (s : State) :
    Touches [.system, .packets, .ports, .lanes, .buffer, .pipes, .rings, .arbiters, .sessions, .counters, .out] s
      (rowKeptCoefficientsLockTimeout node s) := by
  unfold rowKeptCoefficientsLockTimeout
  refine .whenRun .refl ?_
  split
  · exact .guardS .refl (.ite (modPort_touches ..).within (failBringUp_touches ..).within)
  · exact .refl

theorem rowRestartDelayExpiry_touches (node : Nat) (s : State) :
    Touches [.ports, .lanes] s (rowRestartDelayExpiry node s) := by
  unfold rowRestartDelayExpiry
  refine .whenRun .refl ?_
  split
  · exact .guardS .refl (startBringUp_touches ..).within
  · exact .refl

theorem rowLinkDown_touches (node : Nat) (s : State) :
    Touches [.system, .packets, .ports, .lanes, .buffer, .pipes, .rings, .arbiters, .sessions, .counters, .out] s
      (rowLinkDown node s) := by
  unfold rowLinkDown
  exact .whenRun .refl (.guardS .refl (portDown_touches ..).within)

theorem lockedByFault_touches (s : State) (n cause : Nat) :
    Touches [.system, .ports, .lanes] s (lockedByFault s n cause) := by
  unfold lockedByFault
  exact .ite .refl ((modPort_touches ..).after (lockLanes_touches ..).within)

theorem rowLinkHiBer_touches (node cause : Nat) (s : State) :
    Touches [.system, .packets, .ports, .lanes, .buffer, .pipes, .rings, .arbiters, .sessions, .counters, .out] s
      (rowLinkHiBer node cause s) := by
  unfold rowLinkHiBer
  refine .whenRun .refl ?_
  extract_lets s₁ new s₂ s₃
  have hs₁ : Touches [.ports, .lanes] s s₁ := (endStep_touches ..).within
  refine .guardS .refl ((modPort_touches ..).after (.trans (t := s₂)
    (.ite ((raiseEv_touches ..).after hs₁.within) hs₁.within) ?_))
  exact .ite (leaveUp_touches ..).within (lockedByFault_touches ..).within

theorem rowLinkFaultClear_touches (node : Nat) (s : State) :
    Touches [.system, .ports, .lanes, .sessions, .counters] s (rowLinkFaultClear node s) := by
  unfold rowLinkFaultClear
  refine .whenRun .refl (.guardS .refl ?_)
  extract_lets s₁
  exact .ite ((enterUp_touches ..).after (modPort_touches ..).within) (modPort_touches ..).within

theorem rowSerRefclkLost_touches (pipe : Nat) (s : State) :
    Touches [.system, .packets, .ports, .lanes, .buffer, .pipes, .rings, .arbiters, .sessions, .counters, .out] s
      (rowSerRefclkLost pipe s) := by
  unfold rowSerRefclkLost
  refine .whenRun .refl (.guardS .refl ?_)
  extract_lets s₁ s₂
  exact .foldl (fun _ _ => .ite ((modPort_touches ..).after (portDown_touches ..).within) .refl)
    ((raiseEv_touches ..).after (modPipe_touches ..).within)

theorem rowSerRefclkRestored_touches (pipe : Nat) (s : State) :
    Touches [.ports, .lanes, .pipes] s (rowSerRefclkRestored pipe s) := by
  unfold rowSerRefclkRestored
  exact .whenRun .refl (.guardS .refl (.foldl (fun _ _ => .ite (startBringUp_touches ..).within .refl)
    (modPipe_touches ..).within))

theorem searchEnter_touches (l : Nat) (s : State) :
    OptTouches [.system, .objects, .packets, .ports, .lanes, .buffer, .pipes, .rings, .arbiters, .sessions,
      .counters, .out] s (searchEnter l s) := by
  unfold searchEnter
  split
  · exact .none
  · split
    · exact .none
    · split
      · exact .some .refl
      · extract_lets s₁ s₂
        refine .trans (t := s₂) ((modLane_touches ..).after (setRw_touches ..).within) ?_
        exact .ite (.some ((modPort_touches ..).after (leaveUp_touches ..).within))
          (.some (modPort_touches ..).within)

theorem searchExit_touches (l : Nat) (s : State) :
    OptTouches [.objects, .ports] s (searchExit l s) := by
  unfold searchExit
  extract_lets s₁
  refine .trans (t := s₁) (setRw_touches ..).within ?_
  split
  · exact .some .refl
  · extract_lets timer
    exact .some (.ite .refl (modPort_touches ..).within)

theorem searchSlip_touches (l ui : Nat) (s : State) :
    OptTouches [.lanes] s (searchSlip l ui s) := by
  unfold searchSlip
  extract_lets w m
  exact .ite .none (.some (modLane_touches ..).within)

theorem rowLaneSearchEnter_touches (src : Origin) (lane : Nat) (s : State) :
    Touches [.system, .objects, .packets, .ports, .lanes, .buffer, .pipes, .rings, .arbiters, .reject, .sessions,
      .lock, .counters, .out] s (rowLaneSearchEnter src lane s) := by
  unfold rowLaneSearchEnter
  exact .writeCmd .refl (fun _ => (searchEnter_touches ..).within)

theorem rowLaneSearchSlip_touches (src : Origin) (lane ui : Nat) (s : State) :
    Touches [.lanes, .reject, .lock, .counters] s (rowLaneSearchSlip src lane ui s) := by
  unfold rowLaneSearchSlip
  exact .writeCmd .refl (fun _ => (searchSlip_touches ..).within)

theorem rowLaneSearchWindowEnd_touches (lane errors : Nat) (s : State) :
    Touches [.system, .lanes] s (rowLaneSearchWindowEnd lane errors s) := by
  unfold rowLaneSearchWindowEnd
  refine .whenRun .refl (.guardS .refl ?_)
  extract_lets s₁
  exact (modLane_touches ..).after (.ite .refl (lockLanes_touches ..).within)

theorem rowLaneSearchExit_touches (src : Origin) (lane : Nat) (s : State) :
    Touches [.objects, .ports, .reject, .lock, .counters] s (rowLaneSearchExit src lane s) := by
  unfold rowLaneSearchExit
  exact .writeCmd .refl (fun _ => (searchExit_touches ..).within)

theorem putPower_touches (s : State) (ls : List Nat) (v : Nat) :
    Touches [.objects] s (putPower s ls v) := by
  unfold putPower
  exact .foldl (fun _ _ => (setRw_touches ..).within) .refl

theorem powerDown_touches (s : State) (n v : Nat) :
    Touches [.system, .packets, .ports, .lanes, .buffer, .pipes, .rings, .arbiters, .sessions, .counters, .out] s
      (powerDown s n v) := by
  unfold powerDown
  extract_lets ls keep p trained s₁ s₂
  exact (modPort_touches ..).after (.foldl (fun _ _ => (modLane_touches ..).within) (portDown_touches ..).within)

theorem powerUp_touches (s : State) (n deep : Nat) :
    Touches [.ports, .lanes] s (powerUp s n deep) := by
  unfold powerUp
  extract_lets p
  exact .ite (startBringUp_touches ..).within ((modPort_touches ..).after (enterStep_touches ..).within)

theorem lanePower_touches (l v : Nat) (s : State) :
    OptTouches [.system, .objects, .packets, .ports, .lanes, .buffer, .pipes, .rings, .arbiters, .sessions,
      .counters, .out] s (lanePower l v s) := by
  unfold lanePower
  split
  · exact .none
  · extract_lets all s₁
    refine .trans (t := s₁) (putPower_touches ..).within ?_
    split
    · exact .some .refl
    · exact .ite (.some .refl) (.ite (.some (powerUp_touches ..).within) (.some (powerDown_touches ..).within))

theorem rowLanePowerDeep_touches (src : Origin) (lane : Nat) (s : State) :
    Touches [.system, .objects, .packets, .ports, .lanes, .buffer, .pipes, .rings, .arbiters, .reject, .sessions,
      .lock, .counters, .out] s (rowLanePowerDeep src lane s) := by
  unfold rowLanePowerDeep
  exact .writeCmd .refl (fun _ => (lanePower_touches ..).within)

theorem rowLanePowerOff_touches (src : Origin) (lane : Nat) (s : State) :
    Touches [.system, .objects, .packets, .ports, .lanes, .buffer, .pipes, .rings, .arbiters, .reject, .sessions,
      .lock, .counters, .out] s (rowLanePowerOff src lane s) := by
  unfold rowLanePowerOff
  exact .writeCmd .refl (fun _ => (lanePower_touches ..).within)

theorem rowLanePowerActive_touches (src : Origin) (lane : Nat) (s : State) :
    Touches [.system, .objects, .packets, .ports, .lanes, .buffer, .pipes, .rings, .arbiters, .reject, .sessions,
      .lock, .counters, .out] s (rowLanePowerActive src lane s) := by
  unfold rowLanePowerActive
  exact .writeCmd .refl (fun _ => (lanePower_touches ..).within)

theorem rowLpiEnter_touches (node : Nat) (s : State) :
    Touches [.ports, .lanes] s (rowLpiEnter node s) := by
  unfold rowLpiEnter
  exact .whenRun .refl (.guardS .refl ((modPort_touches ..).after (modLanes_touches ..).within))

theorem rowLpiWake_touches (node : Nat) (s : State) :
    Touches [.ports, .lanes] s (rowLpiWake node s) := by
  unfold rowLpiWake
  exact .whenRun .refl (.guardS .refl ((modPort_touches ..).after (modLanes_touches ..).within))

theorem portReset_touches (s : State) (n : Nat) :
    Touches [.system, .packets, .ports, .lanes, .buffer, .pipes, .rings, .arbiters, .sessions, .counters, .out] s
      (portReset s n) := by
  unfold portReset
  extract_lets others ls s₁ s₂ s₃ s₄
  refine .trans (t := s₁) ((enterFlush_touches ..).after (.ite (portDown_touches ..).within .refl)) ?_
  refine .trans (t := s₄) ((gateCommit_touches ..).after ((modPort_touches ..).after (modLanes_touches ..).within))
    ?_
  exact .ite (startBringUp_touches ..).within .refl

/-! ### Reset classes, the boot and the supplies -/

theorem cleared_touches (s : State) (y : Sys) : Touches Part.all s (cleared s y) := by
  refine ⟨rfl, List.prefix_rfl, fun p hp => ?_⟩
  cases p <;> cases hp

theorem powerReset_touches (s : State) (cause : Nat) :
    Touches Part.all s (powerReset s cause) := by
  unfold powerReset
  exact (cleared_touches ..).within

theorem chipReset_touches (s : State) (cause : Nat) (run : RunState) :
    Touches Part.all s (chipReset s cause run) := by
  unfold chipReset
  exact (cleared_touches ..).within

theorem rowPorNAssert_touches (internal : Bool) (s : State) :
    Touches Part.all s (rowPorNAssert internal s) := by
  unfold rowPorNAssert
  exact (powerReset_touches ..).within

theorem rowResetNAssert_touches (s : State) :
    Touches Part.all s (rowResetNAssert s) := by
  unfold rowResetNAssert
  exact .ite .refl (chipReset_touches ..).within

theorem bootStop_touches (s : State) (status : Nat) :
    Touches [.system] s (bootStop s status) := by
  unfold bootStop
  exact .update

theorem bootDone_touches (s : State) :
    Touches [.system, .sessions, .counters] s (bootDone s) := by
  unfold bootDone
  exact (raiseEv_touches ..).after .update

theorem bootTrain_touches (s : State) (firmware : Bytes) (hbmOk sramOk : Bool) :
    Touches [.system, .sessions, .counters] s (bootTrain s firmware hbmOk sramOk) := by
  unfold bootTrain
  extract_lets _ s₁
  exact .ite ((bootStop_touches ..).after .update) (.ite ((bootStop_touches ..).after .update)
    ((bootDone_touches ..).after .update))

theorem bootLoad_touches (s : State) (bootsel : Nat) (flash : Option Bytes) (flashSig hbmOk sramOk : Bool) :
    Touches [.system, .sessions, .counters] s (bootLoad s bootsel flash flashSig hbmOk sramOk) := by
  unfold bootLoad
  split
  · exact (bootStop_touches ..).within
  · split
    · exact (bootStop_touches ..).within
    · split
      · exact .ite (bootTrain_touches ..).within (bootStop_touches ..).within
      · exact (bootStop_touches ..).within

theorem rowBoot_touches (bootsel : Nat) (flash : Option Bytes) (flashSig pcieSig hbmOk sramOk : Bool) (s : State) :
    Touches [.system, .sessions, .counters] s (rowBoot bootsel flash flashSig pcieSig hbmOk sramOk s) := by
  unfold rowBoot
  exact .ite (bootLoad_touches ..).within (.ite (.ite (bootTrain_touches ..).within (bootStop_touches ..).within)
    .refl)

theorem rowResetBootImageWrite_touches (image : Bytes) (s : State) :
    Touches [.system] s (rowResetBootImageWrite image s) := by
  unfold rowResetBootImageWrite
  exact .ite .update .refl

theorem resetCmd_touches (w : Nat) (s : State) :
    OptTouches [.system] s (resetCmd w s) := by
  unfold resetCmd
  extract_lets num cls _
  exact .ite (.some .update) (.ite (.some .update) (.ite (.some .update) (.ite (.some .update) .none)))

theorem resetWrite_touches (src : Origin) (cls num : Nat) (s : State) :
    Touches [.system, .reject, .lock, .counters] s (resetWrite src cls num s) := by
  unfold resetWrite
  exact .writeCmd .refl (fun _ => (resetCmd_touches ..).within)

theorem rowResetCmdChip_touches (src : Origin) (s : State) :
    Touches [.system, .reject, .lock, .counters] s (rowResetCmdChip src s) := by
  unfold rowResetCmdChip
  exact (resetWrite_touches ..).within

theorem rowResetCmdSoft_touches (src : Origin) (s : State) :
    Touches [.system, .reject, .lock, .counters] s (rowResetCmdSoft src s) := by
  unfold rowResetCmdSoft
  exact (resetWrite_touches ..).within

theorem rowResetCmdPipe_touches (src : Origin) (pipe : Nat) (s : State) :
    Touches [.system, .reject, .lock, .counters] s (rowResetCmdPipe src pipe s) := by
  unfold rowResetCmdPipe
  exact (resetWrite_touches ..).within

theorem rowResetCmdPort_touches (src : Origin) (node : Nat) (s : State) :
    Touches [.system, .reject, .lock, .counters] s (rowResetCmdPort src node s) := by
  unfold rowResetCmdPort
  exact (resetWrite_touches ..).within

theorem portResetAll_touches (s : State) (n : Nat) :
    Touches [.system, .packets, .ports, .lanes, .buffer, .pipes, .rings, .arbiters, .sessions, .counters, .out] s
      (portResetAll s n) := by
  unfold portResetAll
  exact (portReset_touches ..).after (clearPortCounters_touches ..).within

theorem clearShard_touches (s : State) (p : Nat) :
    Touches [.flow] s (clearShard s p) := by
  unfold clearShard
  extract_lets lo hi _
  exact .update

theorem clearPipe_touches (s : State) (p : Nat) :
    Touches [.pipes] s (clearPipe s p) := by
  unfold clearPipe
  exact (modPipe_touches ..).within

theorem emptyClusters_touches (s : State) (p : Nat) :
    Touches [.clusters] s (emptyClusters s p) := by
  unfold emptyClusters
  exact .foldl (fun _ _ => (modCluster_touches ..).within) .refl

theorem fillPolicers_touches (s : State) (p : Nat) :
    Touches [.buffer] s (fillPolicers s p) := by
  unfold fillPolicers
  extract_lets lo rows
  exact .foldl (fun _ _ => (fillPolicer_touches ..).within) .refl

theorem dropRequests_touches (s : State) (a : Nat) :
    Touches [.arbiters] s (dropRequests s a) := by
  unfold dropRequests
  exact .update

theorem discardAll_touches (s : State) (l : List Pkt) :
    Touches [.system, .packets, .buffer, .rings, .sessions, .counters, .out] s (discardAll s l) := by
  unfold discardAll
  refine .foldl (fun t a => ?_) .refl
  extract_lets s₁
  exact (discardPkt_touches ..).after (.ite .refl (modPkt_touches ..).within)

theorem pipeResetStart_touches (s : State) (p : Nat) :
    Touches [.system, .objects, .packets, .ports, .buffer, .flow, .pipes, .clusters, .rings, .arbiters, .pools,
      .sessions, .counters, .out] s (pipeResetStart s p) := by
  unfold pipeResetStart
  extract_lets _ s₁ s₂ s₃ s₄ lost s₅ s₆ s₇ s₈ s₉
  refine .trans (t := s₄) ((modPools_touches ..).after ((dropWaiting_touches ..).after
    ((forget_touches ..).after .update))) ?_
  refine .ite .refl ((modPipe_touches ..).after (.set (t := s₈) ?_))
  refine .trans (t := s₆) ((discardAll_touches ..).after (.foldl (fun _ _ => (modPort_touches ..).within) .refl)) ?_
  refine (dropRequests_touches ..).after ((fillPolicers_touches ..).after ((clearPipeCounters_touches ..).after ?_))
  exact (clearShard_touches ..).after ((emptyClusters_touches ..).after (clearPipe_touches ..).within)

theorem rowPipeResetStart_touches (pipe : Nat) (s : State) :
    Touches [.system, .objects, .packets, .ports, .buffer, .flow, .pipes, .clusters, .rings, .arbiters, .pools,
      .sessions, .counters, .out] s (rowPipeResetStart pipe s) := by
  unfold rowPipeResetStart
  refine .whenRun .refl ?_
  split
  · exact .guardS .refl (pipeResetStart_touches ..).within
  · exact .refl

theorem rowPipeReset_touches (pipe : Nat) (s : State) :
    Touches [.system, .ports, .pipes, .sessions, .counters] s (rowPipeReset pipe s) := by
  unfold rowPipeReset
  refine .whenRun .refl (.guardS .refl ?_)
  extract_lets s₁ s₂
  exact (raiseEv_touches ..).after (.foldl (fun _ _ => (modPort_touches ..).within) (modPipe_touches ..).within)

/-- Only the objects' values change. -/
theorem objs_touches (s : State) (o : Tbl Bytes) : Touches [.objects] s { s with objs := o } := .update

theorem activate_touches (s : State) : Touches [.objects] s (activate s) := by
  unfold activate
  extract_lets one s₁ seeds s₂ s₃ s₄
  have hone (idx a b row : Nat) (t : State) : Touches [.objects] t (one idx a b row t) := objs_touches ..
  have hs₁ : Touches [.objects] s s₁ := (hone ..).after (hone ..)
  have hs₃ : Touches [.objects] s s₃ := .foldl (fun _ _ => hone ..) ((objs_touches ..).after hs₁)
  exact .foldl (fun _ _ => hone ..) ((hone ..).after ((hone ..).after hs₃))

theorem softDiscard_touches (s : State) :
    Touches [.system, .packets, .ports, .buffer, .rings, .sessions, .counters, .out] s (softDiscard s) := by
  unfold softDiscard
  extract_lets s₁ s₂ nodes _
  exact .set (t := s₂) (.foldl (fun _ _ => (applySched_touches ..).within)
    (.foldl (fun _ _ => (txFinish_touches ..).within) .refl))

theorem softVersions_touches (s : State) :
    Touches [.clock, .system, .digest, .version, .clusters, .sessions, .lock] s (softVersions s) := by
  unfold softVersions
  extract_lets s₁ _ _ _
  exact .set (t := s₁) (clearStaging_touches ..).within

/-- Only the memories but the utility memory change. -/
theorem mem_touches (s : State) (m : Mem) (h : m.util = s.mem.util) :
    Touches [.search, .flow, .rewrites] s { s with mem := m } := by
  obtain ⟨⟩ := m
  subst h
  exact .update

theorem softPipes_touches (s : State) :
    Touches [.buffer, .search, .flow, .rewrites, .pipes, .arbiters] s (softPipes s) := by
  unfold softPipes
  extract_lets _ s₁
  have hs₁ : Touches [.search, .flow, .rewrites] s s₁ := mem_touches s _ rfl
  refine .foldl (fun t p => ?_) hs₁.within
  exact (modPipe_touches ..).after ((dropRequests_touches ..).after ((fillPolicers_touches ..).after
    (clearPipe_touches ..).within))

/-- Only values of objects change, those that wait and those that the digest names among them. -/
theorem values_touches (s : State) (o d : Tbl Bytes) (w : List Deferred) :
    Touches [.objects, .digest] s { s with objs := o, digObjs := d, deferred := w } := .update

/-- The host's part changes in the templates that are due, the pools, and the rings, and the system's part but for
  the fuses. -/
theorem softState_touches (s : State) (h : Hst) (y : Sys) (hl : h.link = s.host.link) (hv : h.vfs = s.host.vfs)
    (hr : h.lastReject = s.host.lastReject) (hm : h.msix = s.host.msix) (ha : h.arbs = s.host.arbs)
    (hy : y.fuses = s.sys.fuses) :
    Touches [.system, .rings, .pools, .templates] s { s with host := h, sys := y } := by
  obtain ⟨⟩ := h
  obtain ⟨⟩ := y
  subst hl hv hr hm ha hy
  exact .update

theorem softReset_touches (s : State) :
    Touches softParts s
      (softReset s) := by
  unfold softReset
  extract_lets s₁ s₂ s₃ s₄ s₅
  have hs₁ : Touches [.system, .objects, .digest] s s₁ := (activate_touches ..).after (values_touches ..).within
  have hs₅ : Touches softParts s s₅ :=
    .foldl (fun _ _ => (modPort_touches ..).within) (.foldl (fun _ _ => (startTests_touches ..).within)
      ((clearSoftCounters_touches ..).after ((forget_touches ..).after ((softPipes_touches ..).after
        ((softVersions_touches ..).after ((softDiscard_touches ..).after hs₁.within))))))
  clear_value s₅
  refine hs₅.trans (Touches.within (Q := [.system, .rings, .pools, .templates]) ?_)
  apply softState_touches <;> rfl

theorem rowSoftReset_touches (s : State) :
    Touches softParts s (rowSoftReset s) := by
  unfold rowSoftReset
  refine .whenRun .refl ?_
  split
  · exact .guardS .refl (softReset_touches ..).within
  · exact .refl

theorem clearRequesters_touches (s : State) (r : Nat) :
    Touches [.objects] s (clearRequesters s r) := by
  unfold clearRequesters
  exact .ite .refl .update

theorem clearRing_touches (s : State) (r : Nat) :
    Touches [.objects, .rings] s (clearRing s r) := by
  unfold clearRing
  split
  · extract_lets s₁ _ rings _
    exact .set (t := s₁) (clearRequesters_touches ..).within

theorem dropWaits_touches (s : State) (rings : List Nat) :
    Touches [.arbiters] s (dropWaits s rings) := by
  unfold dropWaits
  extract_lets gone
  exact .foldl (fun _ _ => (modArb_touches ..).within) .refl

theorem resetFn_touches (s : State) (f : Nat) :
    Touches [.system, .objects, .packets, .buffer, .cipher, .rings, .arbiters, .pools, .sessions, .counters, .out] s
      (resetFn s f) := by
  unfold resetFn
  extract_lets rings waiting s₁ _ s₂ s₃ s₄ regions lost s₅ s₆
  refine (clearFnCounters_touches ..).after ((modPools_touches ..).after
    (.foldl (fun _ _ => .update) ((dropWaiting_touches ..).after
    ((forget_touches ..).after (.foldl (fun t a => ?_) (.foldl (fun _ _ => (clearRing_touches ..).within)
    (.set (t := s₁) (dropWaits_touches ..).within)))))))
  split
  · exact (discardPkt_touches ..).after (hostDiscard_touches ..).within
  · exact .refl

theorem endLocalLock_touches (s : State) :
    Touches [.system, .sessions, .lock, .counters] s (endLocalLock s) := by
  unfold endLocalLock
  split
  · extract_lets s₁ _
    exact (raiseEv_touches ..).after (.set (t := s₁) (clearStaging_touches ..).within)
  · exact .refl

/-- The mailbox and the collected words are empty. -/
theorem noMailbox_touches (s : State) :
    Touches [.link, .sessions, .lock] s { s with
      host := { s.host with vfs := 0 },
      mabin := { s.mabin with mboxOut := [], localResult := 0, collect := [] } } := .update

theorem resetPf_touches (s : State) :
    Touches [.system, .objects, .packets, .buffer, .pipes, .cipher, .rings, .arbiters, .pools, .link, .sessions,
      .lock, .counters, .out] s (resetPf s) :=
  (endLocalLock_touches ..).after ((noMailbox_touches ..).after
    (.foldl (fun _ _ => (modPipe_touches ..).within) (.foldl (fun _ _ => (resetFn_touches ..).within) .refl)))

theorem rowFunctionReset_touches (fn : Nat) (s : State) :
    Touches [.system, .objects, .packets, .buffer, .pipes, .cipher, .rings, .arbiters, .pools, .link, .sessions,
      .lock, .counters, .out] s (rowFunctionReset fn s) := by
  unfold rowFunctionReset
  exact .whenRun .refl (.guardS .refl (.ite (resetPf_touches ..).within (resetFn_touches ..).within))

theorem modSupply_touches (s : State) (m : Nat) (f : Supply → Supply) :
    Touches [.system] s (modSupply s m f) := by
  unfold modSupply
  exact .update

theorem supplyFalls_touches (s : State) (m mv dips : Nat) :
    Touches [.system] s (supplyFalls s m mv dips) := by
  unfold supplyFalls
  extract_lets s₁ _
  exact .set (t := s₁) (modSupply_touches ..).within

theorem rowSupplyWarn_touches (mon mv : Nat) (s : State) :
    Touches [.system, .sessions, .counters] s (rowSupplyWarn mon mv s) := by
  unfold rowSupplyWarn
  refine .guardS .refl ?_
  extract_lets s₁ _ s₂
  exact .ite ((raiseEv_touches ..).after (.set (t := s₁) (supplyFalls_touches ..).within))
    (.set (t := s₁) (supplyFalls_touches ..).within)

theorem rowSupplyDip_touches (mon mv : Nat) (s : State) :
    Touches [.system] s (rowSupplyDip mon mv s) := by
  unfold rowSupplyDip
  exact .guardS .refl (supplyFalls_touches ..).within

theorem supplyOk_touches (s : State) (since : Nat) :
    Touches [.system, .fuses, .sessions, .counters] s (supplyOk s since) := by
  unfold supplyOk
  extract_lets _ s₁
  exact .ite ((startFuses_touches ..).after ((raiseEv_touches ..).after .update)) .update

theorem rowSupplyOk_touches (s : State) :
    Touches [.system, .fuses, .sessions, .counters] s (rowSupplyOk s) := by
  unfold rowSupplyOk
  split
  · exact .guardS .refl (supplyOk_touches ..).within
  · exact .refl

theorem rowSupplyReset_touches (mon mv : Nat) (s : State) :
    Touches Part.all s (rowSupplyReset mon mv s) := by
  unfold rowSupplyReset
  refine .guardS .refl ?_
  extract_lets s₁ s₂
  exact (chipReset_touches ..).after ((postEvent_touches ..).after (supplyFalls_touches ..).within)

theorem rowSupplyResetRelease_touches (s : State) :
    Touches [.system] s (rowSupplyResetRelease s) := by
  unfold rowSupplyResetRelease
  exact .ite .update .refl

theorem rowFreeze_touches (s : State) :
    Touches [.system, .sessions, .counters] s (rowFreeze s) := by
  unfold rowFreeze
  exact (startFreeze_touches ..).within

theorem rowDebugFreeze_touches (src : Origin) (s : State) :
    Touches [.system, .reject, .sessions, .lock, .counters] s (rowDebugFreeze src s) := by
  unfold rowDebugFreeze
  exact .writeCmd .refl (fun _ => .some (startFreeze_touches ..).within)

/-! ### Releases and power -/

theorem releaseAll_touches (s : State) (type cls num : Nat) :
    Touches [.system, .sessions, .counters] s (releaseAll s type cls num) := by
  unfold releaseAll
  extract_lets gone _
  exact (raiseEv_touches ..).after .update

theorem freePort_touches (s : State) (n cls : Nat) :
    Touches [.system, .ports, .sessions, .counters] s (freePort s n cls) := by
  unfold freePort
  extract_lets p
  exact .ite (.ite ((releaseAll_touches ..).after (modPort_touches ..).within) .refl)
    (.ite ((releaseAll_touches ..).after (modPort_touches ..).within) .refl)

theorem freeFn_touches (s : State) (f : Nat) :
    Touches [.system, .rings, .sessions, .counters] s (freeFn s f) := by
  unfold freeFn
  exact .ite ((releaseAll_touches ..).after (modFn_touches ..).within) .refl

theorem freeRing_touches (s : State) (r : Nat) :
    Touches [.system, .rings, .sessions, .counters] s (freeRing s r) := by
  unfold freeRing
  exact .ite ((releaseAll_touches ..).after (modRing_touches ..).within) .refl

theorem freeSession_touches (s : State) (n : Nat) :
    Touches [.system, .sessions, .counters] s (freeSession s n) := by
  unfold freeSession
  split
  · exact .ite ((releaseAll_touches ..).after .update) .refl
  · exact .refl

theorem freeOwner_touches (s : State) (o : Nat) :
    Touches [.system, .pools, .sessions, .counters] s (freeOwner s o) := by
  unfold freeOwner
  exact .ite ((releaseAll_touches ..).after (modPools_touches ..).within) .refl

theorem release_touches (s : State) (w : Nat) :
    Touches [.system, .ports, .rings, .pools, .sessions, .counters] s (release s w) := by
  unfold release
  extract_lets type cls num
  exact .ite (freePort_touches ..).within (.ite (freeFn_touches ..).within
    (.ite (freeRing_touches ..).within (.ite (freeSession_touches ..).within
    (.ite (freeOwner_touches ..).within .refl))))

theorem askRelease_touches (w : Nat) (s : State) :
    OptTouches [.system] s (askRelease w s) := by
  unfold askRelease
  exact .ite .none (.some .update)

theorem releaseWrite_touches (src : Origin) (type cls num : Nat) (s : State) :
    Touches [.system, .reject, .lock, .counters] s (releaseWrite src type cls num s) := by
  unfold releaseWrite
  extract_lets w
  exact .writeCmd .refl (fun _ => (askRelease_touches ..).within)

theorem rowReleasePort_touches (src : Origin) (node cls : Nat) (s : State) :
    Touches [.system, .reject, .lock, .counters] s (rowReleasePort src node cls s) := by
  unfold rowReleasePort
  exact (releaseWrite_touches ..).within

theorem rowReleaseFunction_touches (src : Origin) (fn : Nat) (s : State) :
    Touches [.system, .reject, .lock, .counters] s (rowReleaseFunction src fn s) := by
  unfold rowReleaseFunction
  exact (releaseWrite_touches ..).within

theorem rowReleaseRing_touches (src : Origin) (ring : Nat) (s : State) :
    Touches [.system, .reject, .lock, .counters] s (rowReleaseRing src ring s) := by
  unfold rowReleaseRing
  exact (releaseWrite_touches ..).within

theorem rowReleaseSession_touches (src : Origin) (sess : Nat) (s : State) :
    Touches [.system, .reject, .lock, .counters] s (rowReleaseSession src sess s) := by
  unfold rowReleaseSession
  exact (releaseWrite_touches ..).within

theorem rowReleasePoolOwner_touches (src : Origin) (owner : Nat) (s : State) :
    Touches [.system, .reject, .lock, .counters] s (rowReleasePoolOwner src owner s) := by
  unfold rowReleasePoolOwner
  exact (releaseWrite_touches ..).within

theorem runSoon_touches (s : State) :
    Touches [.clock, .system, .packets, .ports, .lanes, .buffer, .pipes, .timeBases, .pins, .cipher, .rings,
      .arbiters, .pools, .sessions, .counters, .out] s (runSoon s) := by
  unfold runSoon
  refine .foldl (fun t a => ?_) .update
  split
  · exact (portResetAll_touches ..).within
  · exact (release_touches ..).within
  · exact (tickLost_touches ..).within
  · exact (tbStops_touches ..).within
  · exact (unitOut_touches ..).within
  · exact (clearPairs_touches ..).within
  · exact (tinDrop_touches ..).within
  · exact .refl

theorem pipeOffWrite_touches (v : Nat) (s : State) :
    OptTouches [.objects] s (pipeOffWrite v s) := by
  unfold pipeOffWrite
  extract_lets old
  exact .ite (.some (setRw_touches ..).within) .none

theorem rowPowerPipeOff_touches (src : Origin) (pipe : Nat) (s : State) :
    Touches [.objects, .reject, .lock, .counters] s (rowPowerPipeOff src pipe s) := by
  unfold rowPowerPipeOff
  extract_lets v
  exact .writeCmd .refl (fun _ => (pipeOffWrite_touches ..).within)

theorem rowPowerPipeWake_touches (src : Origin) (pipe : Nat) (s : State) :
    Touches [.objects, .reject, .lock, .counters] s (rowPowerPipeWake src pipe s) := by
  unfold rowPowerPipeWake
  extract_lets v
  exact .writeCmd .refl (fun _ => (pipeOffWrite_touches ..).within)

theorem clearSearch_touches (s : State) (p : Nat) :
    Touches [.search] s (clearSearch s p) := by
  unfold clearSearch
  extract_lets lo _
  exact .update

theorem pipeStops_touches (s : State) (p : Nat) :
    Touches [.search, .flow, .pipes, .clusters, .counters] s (pipeStops s p) := by
  unfold pipeStops
  extract_lets s₁ _ s₂
  exact (modPipe_touches ..).after ((clearPipeCounters_touches ..).after
    (.foldl (fun _ _ => (modCluster_touches ..).within) ((clearSearch_touches ..).after
    ((clearShard_touches ..).after (clearPipe_touches ..).within))))

theorem wakeEntry_touches (s : State) (sl p b e : Nat) (v : VerCfg) :
    Touches [.search] s (wakeEntry s sl p b e v) := by
  unfold wakeEntry
  extract_lets w n u
  exact .ite (putUnit_touches ..).within (.foldl (fun _ _ => (writeUnit_touches ..).within) .refl)

theorem wakeExact_touches (s : State) (sl p r : Nat) (v : VerCfg) :
    Touches [.search] s (wakeExact s sl p r v) := by
  unfold wakeExact
  extract_lets n e row
  exact .ite .refl (.ite (putExact_touches ..).within (putExact_touches ..).within)

theorem wakeSlot_touches (s : State) (p sl : Nat) :
    Touches [.search] s (wakeSlot s p sl) := by
  unfold wakeSlot
  split
  · exact .refl
  · extract_lets v s₁
    exact .foldl (fun _ _ => (wakeExact_touches ..).within) (.foldl (fun _ _ => .ite .refl
      (.foldl (fun _ _ => .ite (wakeEntry_touches ..).within .refl) .refl)) .refl)

theorem wakeSides_touches (s : State) (c : Nat) :
    Touches [.clusters] s (wakeSides s c) := by
  unfold wakeSides
  extract_lets ks late
  refine .foldl (fun t a => ?_) .refl
  extract_lets v
  split
  · exact .refl
  · exact .ite .refl (modCluster_touches ..).within

/-- Only the versions change. -/
theorem ver_touches (s : State) (v : Versions) : Touches [.version] s { s with ver := v } := .update

theorem pipeWakes_touches (s : State) (p : Nat) :
    Touches [.version, .search, .pipes, .clusters] s (pipeWakes s p) :=
  (modPipe_touches ..).after ((ver_touches ..).after (.foldl (fun _ _ => (wakeSides_touches ..).within)
    (.foldl (fun _ _ => (wakeSlot_touches ..).within) (clearSearch_touches ..).within)))

theorem powerBoundary_touches (s : State) :
    Touches [.version, .search, .flow, .pipes, .clusters, .counters] s (powerBoundary s) := by
  unfold powerBoundary
  exact .ite .refl (.foldl (fun _ _ => .ite (pipeStops_touches ..).within
    (.ite (pipeWakes_touches ..).within .refl)) .refl)

theorem rowPipePower_touches (pipe : Nat) (s : State) :
    Touches [.system, .pipes, .sessions, .counters] s (rowPipePower pipe s) := by
  unfold rowPipePower
  exact .whenRun .refl (.guardS .refl ((raiseEv_touches ..).after (modPipe_touches ..).within))

theorem logAckWrite_touches (v : Nat) (s : State) :
    OptTouches [.system] s (logAckWrite v s) := by
  unfold logAckWrite
  exact .some .update

theorem rowEventLogAck_touches (src : Origin) (seq : Nat) (s : State) :
    Touches [.system, .reject, .lock, .counters] s (rowEventLogAck src seq s) := by
  unfold rowEventLogAck
  exact .writeCmd .refl (fun _ => (logAckWrite_touches ..).within)

/-- Only the system's part changes, and not its fuses. -/
theorem sys_touches (s : State) (y : Sys) (h : y.fuses = s.sys.fuses) : Touches [.system] s { s with sys := y
    } := by
  obtain ⟨⟩ := y
  subst h
  exact .update

theorem i2cByte_touches (s : State) : Touches [.system] s (i2cByte s).1 := by
  have hmod (t : State) (f : Sys → Sys) (h : (f t.sys).fuses = t.sys.fuses) : Touches [.system] t (modSys t f) :=
    sys_touches _ _ h
  unfold i2cByte
  extract_lets r
  split
  extract_lets s₁ v s₂
  have hs₁ : Touches [.system] s s₁ := .ite (hmod _ _ rfl) .refl
  have hs₂ : Touches [.system] s s₂ := .ite ((hmod _ _ rfl).after hs₁) hs₁
  exact .pair ((hmod _ _ rfl).after hs₂)

theorem i2cBytes_touches (n : Nat) (s : State) : Touches [.system] s (i2cBytes n s).1 := by
  induction n generalizing s with
  | zero => exact .refl
  | succ n ih =>
    unfold i2cBytes
    split
    next u _ e =>
    split
    next v _ e' => exact .trans ((i2cByte_touches ..).fst e) ((ih u).fst e')

theorem rowI2cPointerWrite_touches (pointer : Nat) (s : State) : Touches [.system] s
    (rowI2cPointerWrite pointer s) :=
  sys_touches s _ rfl

theorem rowI2cRead_touches (count : Nat) (s : State) :
    Touches [.system, .out] s (rowI2cRead count s) := by
  unfold rowI2cRead
  split
  next u _ e =>
    exact (emit_touches ..).after (((i2cBytes_touches ..).fst e).within)

/-! ### Messages to controllers, events and dumps -/

theorem postMbox_touches (s : State) (msg : Bytes) :
    Touches [.sessions, .counters, .out] s (postMbox s msg) := by
  unfold postMbox
  exact .ite ((emit_touches ..).after .update) (count_touches ..).within

theorem askCode_touches (s : State) (n : Nat) :
    Touches [.sessions] s (askCode s n) := by
  unfold askCode
  exact (modSession_touches ..).within

theorem finishCode_touches (s : State) :
    Touches [.arbiters, .sessions] s (finishCode s) := by
  unfold finishCode
  split
  · exact .ite ((endGrant_touches ..).after (modSession_touches ..).within) .refl
  · exact .refl

theorem deliverMsg_touches (s : State) (n : Nat) (path : MabinPath) (msg : Bytes) :
    Touches [.sessions, .counters, .out] s (deliverMsg s n path msg) := by
  unfold deliverMsg
  split
  · exact (count_touches ..).within
  · split
    · exact (postMbox_touches ..).within
    · exact (emit_touches ..).within

theorem sendMsg_touches (s : State) (n type flags reqid : Nat) (body : Bytes) :
    Touches [.sessions, .counters, .out] s (sendMsg s n type flags reqid body) := by
  unfold sendMsg
  split
  · exact .refl
  · exact .ite (modSession_touches ..).within ((deliverMsg_touches ..).after
      ((askCode_touches ..).after (modSession_touches ..).within))

theorem sendHeld_touches (s : State) (n : Nat) :
    Touches [.sessions, .counters, .out] s (sendHeld s n) := by
  unfold sendHeld
  split
  · exact .refl
  · exact .foldl (fun _ _ => (sendMsg_touches ..).within) (modSession_touches ..).within

theorem sendNotify_touches (s : State) (n : Nat) :
    Touches [.sessions, .counters, .out] s (sendNotify s n) := by
  unfold sendNotify
  split
  · exact .refl
  · split
    · exact .refl
    · exact .ite .refl ((sendMsg_touches ..).after (modSession_touches ..).within)

theorem sendNotifies_touches (s : State) :
    Touches [.sessions, .counters, .out] s (sendNotifies s) := by
  unfold sendNotifies
  exact .foldl (fun _ _ => (sendNotify_touches ..).within) .refl

theorem tellObject_touches (s : State) (n : Nat) (b : Sub) :
    Touches [.sessions, .counters] s (tellObject s n b) := by
  unfold tellObject
  split
  · exact .ite (notify_touches ..).within .refl
  · exact .refl

theorem objectNotifies_touches (s : State) (n : Nat) :
    Touches [.sessions, .counters] s (objectNotifies s n) := by
  unfold objectNotifies
  split
  · exact .refl
  · exact .foldl (fun _ _ => (tellObject_touches ..).within) .refl

theorem doneTodo_touches (s : State) (w : Nat) :
    Touches [.clock] s (doneTodo s w) := by
  unfold doneTodo
  exact .update

theorem notifyWork_touches (s : State) (n : Nat) :
    Touches [.clock, .sessions, .counters] s (notifyWork s n) := by
  unfold notifyWork
  exact .ite ((objectNotifies_touches ..).after (doneTodo_touches ..).within) .refl

theorem rowObjectNotify_touches (sess : Nat) (s : State) :
    Touches [.clock, .sessions, .counters] s (rowObjectNotify sess s) := by
  unfold rowObjectNotify
  exact .whenRun .refl (notifyWork_touches ..).within

theorem ringRecord_touches {P : List Part} (s : State) (e : Event) {f : State → State}
    (k : Touches P s (f s)) (hP : inside [.system, .rings, .arbiters, .sessions, .counters, .out] P = true := by
      rfl) :
    Touches P s (ringRecord s e f) := by
  unfold ringRecord
  split
  · exact .refl
  · exact .trans k (.trans ((writeRecord_touches ..).within (inside_trans rfl hP))
      ((endGrant_touches ..).within (inside_trans rfl hP)))

theorem writeEvent_touches (s : State) :
    Touches [.system, .rings, .arbiters, .sessions, .counters, .out] s (writeEvent s) := by
  unfold writeEvent
  split
  · exact ringRecord_touches _ _ ((tellSessions_touches ..).after (.set (t := s) .refl))
  split
  · exact .refl
  · exact ringRecord_touches _ _ .update

theorem rowEventRecordWrite_touches (s : State) :
    Touches [.system, .rings, .arbiters, .sessions, .counters, .out] s (rowEventRecordWrite s) := by
  unfold rowEventRecordWrite
  exact .whenRun .refl (.guardS .refl (writeEvent_touches ..).within)

theorem replaceBeacon_touches (s : State) (n : Nat) :
    Touches [.system, .packets, .buffer, .rings, .sessions, .counters, .out] s (replaceBeacon s n) := by
  unfold replaceBeacon
  extract_lets waits queued s₁ s₂ _
  exact .set (t := s₂) ((count_touches ..).after (.foldl (fun _ _ => (discardPkt_touches ..).within) .refl))

theorem buildBeacon_touches (s : State) (b : Nat × Nat) :
    Touches [.packets, .buffer] s (buildBeacon s b) := by
  unfold buildBeacon
  split
  · exact .refl
  · extract_lets n
    split
    · exact .refl
    next u e =>
      exact .set (t := u) (((originate_touches ..).get e).within)

theorem buildBeacons_touches (s : State) :
    Touches [.packets, .buffer] s (buildBeacons s) := by
  unfold buildBeacons
  exact .foldl (fun _ _ => (buildBeacon_touches ..).within) .refl

theorem tellBeacon_touches (s : State) :
    Touches [.sessions, .counters] s (tellBeacon s) := by
  unfold tellBeacon
  exact .foldl (fun _ _ => .ite (notify_touches ..).within .refl) .refl

theorem sendBeacon_touches (s : State) :
    Touches [.system, .packets, .buffer, .rings, .sessions, .counters, .beacon, .out] s (sendBeacon s) := by
  unfold sendBeacon
  extract_lets s₁ s₂
  refine .trans (t := s₂) (.trans (t := s₁) .update (.ite ((buildBeacons_touches ..).after ?_) .refl)) ?_
  · exact .foldl (fun _ _ => (replaceBeacon_touches ..).within) .refl
  · exact .ite (tellBeacon_touches ..).within .refl

theorem beaconWork_touches (s : State) :
    Touches [.clock, .system, .packets, .buffer, .rings, .sessions, .counters, .beacon, .out] s (beaconWork s) := by
  unfold beaconWork
  exact .ite ((sendBeacon_touches ..).after (doneTodo_touches ..).within) .refl

theorem rowEtwenBeacon_touches (s : State) :
    Touches [.clock, .system, .packets, .buffer, .rings, .sessions, .counters, .beacon, .out] s
      (rowEtwenBeacon s) := by
  unfold rowEtwenBeacon
  exact .whenRun .refl (beaconWork_touches ..).within

theorem lowReset_touches (s : State) :
    Touches [.buffer] s (lowReset s) := by
  unfold lowReset
  exact .update

theorem rowBufCellsFreeLowRead_touches (s : State) :
    Touches [.buffer, .counters, .out] s (rowBufCellsFreeLowRead s) := by
  unfold rowBufCellsFreeLowRead
  exact .whenRun .refl ((lowReset_touches ..).after ((emit_touches ..).after (countAccess_touches ..).within))

/-! ### The effect of a write -/

theorem takeLock_touches (s : State) (who : Nat) :
    Touches [.lock] s (takeLock s who) := by
  unfold takeLock
  exact .update

theorem lockBy_touches (s : State) (who : Nat) :
    Touches [.system, .sessions, .lock, .counters] s (lockBy s who).1 := by
  unfold lockBy
  extract_lets s₁
  refine .trans (t := s₁) (lockExpiry_touches ..).within ?_
  split
  · exact .pair (takeLock_touches ..).within
  · split
    · exact .pair (takeLock_touches ..).within
    · exact .pair .refl

theorem unlockBy_touches (s : State) (who : Nat) :
    Touches [.system, .sessions, .lock, .counters] s (unlockBy s who).1 := by
  unfold unlockBy
  extract_lets s₁
  refine .trans (t := s₁) (lockExpiry_touches ..).within ?_
  split
  · exact .pair (freeLock_touches ..).within
  · exact .pair .refl

theorem commitBy_touches (s : State) (who target : Nat) (unlock : Bool) :
    Touches [.system, .version, .sessions, .lock, .counters] s (commitBy s who target unlock).1 := by
  unfold commitBy
  extract_lets s₁
  refine .trans (t := s₁) (lockExpiry_touches ..).within ?_
  split
  · exact .pair .refl
  · split
    · exact .pair .refl
    · split
      next u _ e =>
        exact .pair (.ite ((freeLock_touches ..).after (((sealVersion_touches ..).fst e).within))
          (((sealVersion_touches ..).fst e).within))
      next u₁ _ e₁ =>
        exact .pair (((sealVersion_touches ..).fst e₁).within)

theorem localAnswer_touches (op : Nat) (unlock : Bool) (r : State × Nat × Nat) :
    Touches [.lock] r.1 (localAnswer op unlock r) := by
  unfold localAnswer
  exact .update

theorem localCmd_touches (w : Nat) (s : State) :
    OptTouches [.system, .version, .sessions, .lock, .counters] s (localCmd w s) := by
  unfold localCmd
  extract_lets op unlock
  exact .ite (.some ((localAnswer_touches ..).after (lockBy_touches ..).within))
    (.ite (.some ((localAnswer_touches ..).after (unlockBy_touches ..).within))
    (.ite (.some ((localAnswer_touches ..).after (commitBy_touches ..).within)) .none))

theorem localWrite_touches (w : Nat) (s : State) :
    Touches [.system, .version, .reject, .sessions, .lock, .counters] s (localWrite w s) := by
  unfold localWrite
  exact .writeCmd .refl (fun _ => (localCmd_touches ..).within)

theorem rowLocalLock_touches (s : State) :
    Touches [.system, .version, .reject, .sessions, .lock, .counters] s (rowLocalLock s) := by
  unfold rowLocalLock
  exact (localWrite_touches ..).within

theorem rowLocalUnlock_touches (s : State) :
    Touches [.system, .version, .reject, .sessions, .lock, .counters] s (rowLocalUnlock s) := by
  unfold rowLocalUnlock
  exact (localWrite_touches ..).within

theorem rowLocalCommit_touches (target : Nat) (unlock : Bool) (s : State) :
    Touches [.system, .version, .reject, .sessions, .lock, .counters] s (rowLocalCommit target unlock s) := by
  unfold rowLocalCommit
  exact (localWrite_touches ..).within

theorem rowLockExpired_touches (s : State) :
    Touches [.system, .sessions, .lock, .counters] s (rowLockExpired s) := by
  unfold rowLockExpired
  exact .whenRun .refl (lockExpiry_touches ..).within

theorem credWrite_touches (v : Bytes) (s : State) :
    OptTouches [.sessions] s (credWrite v s) := by
  unfold credWrite
  extract_lets k key _
  exact .ite .none (.some .update)

theorem rowMabinCredWrite_touches (src : Origin) (value : Bytes) (s : State) :
    Touches [.reject, .sessions, .lock, .counters] s (rowMabinCredWrite src value s) := by
  unfold rowMabinCredWrite
  exact .writeCmd .refl (fun _ => (credWrite_touches ..).within)

theorem setIf_touches (idx sub row : Nat) (v : Bytes) (ok : State → Bool) (s : State) :
    OptTouches [.objects] s (setIf idx sub row v ok s) := by
  unfold setIf
  extract_lets s₁
  exact .ite (.some (setRw_touches ..).within) .none

theorem setWhen_touches (c : Bool) (idx sub row : Nat) (v : Bytes) (s : State) :
    OptTouches [.objects] s (setWhen c idx sub row v s) := by
  unfold setWhen
  exact .ite (.some (setRw_touches ..).within) .none

theorem OptTouches.onOne {P : List Part} {v : Bytes} {f : State → Option State} {s : State}
    (k : OptTouches P s (f s)) : OptTouches P s (onOne v f s) := by
  unfold Machine.onOne
  exact .ite k (.some .refl)

theorem writeIdent_touches (idx sub row : Nat) (v : Bytes) (s : State) :
    OptTouches [.system, .objects, .version, .search, .clusters, .sessions, .lock, .counters] s
      (writeIdent idx sub row v s) := by
  unfold writeIdent
  extract_lets n
  exact .ite (credWrite_touches ..).within (.ite (localCmd_touches ..).within
    (.ite (cancelVersion_touches ..).within (.ite (setWhen_touches ..).within (.some (setRw_touches ..).within))))

theorem writeTb_touches (t sub : Nat) (v : Bytes) (s : State) :
    OptTouches [.system, .objects, .timeBases] s (writeTb t sub v s) := by
  unfold writeTb
  extract_lets n
  exact .ite (.ite (tbEnable_touches ..).within (tbDisable_touches ..).within)
    (.ite (tbSetRate_touches ..).within (.ite (tbStep_touches ..).within
    (.ite (tbSlew_touches ..).within (tbSetSlewPpm_touches ..).within)))

theorem writeTime_touches (idx sub row : Nat) (v : Bytes) (s : State) :
    OptTouches [.system, .objects, .ports, .timeBases] s (writeTime idx sub row v s) := by
  unfold writeTime
  extract_lets n
  exact .ite (writeTb_touches ..).within (.ite (toutWrite_touches ..).within
    (.ite (.ite (tinAck_touches ..).within (.some (setRw_touches ..).within))
    (.ite (ptpWrite_touches ..).within (.ite (.some ((soonDo_touches ..).after (setRw_touches ..).within))
    (.ite (setWhen_touches ..).within (.some (setRw_touches ..).within))))))

theorem writeLane_touches (l sub : Nat) (v : Bytes) (s : State) :
    OptTouches [.system, .objects, .packets, .ports, .lanes, .buffer, .pipes, .rings, .arbiters, .sessions,
      .counters, .out] s (writeLane l sub v s) := by
  unfold writeLane
  extract_lets n
  exact .ite (lanePower_touches ..).within (.ite (setWhen_touches ..).within
    (.ite (.ite (searchEnter_touches ..).within (searchExit_touches ..).within)
    (.ite (searchSlip_touches ..).within (.some (setRw_touches ..).within))))

theorem writePort_touches (n sub : Nat) (v : Bytes) (s : State) :
    OptTouches [.system, .objects, .packets, .ports, .lanes, .buffer, .pipes, .rings, .arbiters, .sessions,
      .counters, .out] s (writePort n sub v s) := by
  unfold writePort
  extract_lets _ off
  exact .ite (.ite (setIf_touches ..).within .none) (.ite (.ite (portEnableEff_touches ..).within
    (portDisableEff_touches ..).within) (.ite (setWhen_touches ..).within
    (.ite (setWhen_touches ..).within (.ite (setWhen_touches ..).within
    (.ite (setIf_touches ..).within (.some (setRw_touches ..).within))))))

theorem writeSearch_touches (idx sub row : Nat) (v : Bytes) (s : State) :
    OptTouches [.objects, .version, .search, .pipes] s (writeSearch idx sub row v s) := by
  unfold writeSearch
  exact .ite (setBankMode_touches ..).within (.ite (legacyPush_touches ..).within (.some (setRw_touches ..).within))

theorem writeFlow_touches (idx sub row : Nat) (v : Bytes) (s : State) :
    OptTouches [.objects, .pipes] s (writeFlow idx sub row v s) := by
  unfold writeFlow
  extract_lets n
  exact .ite (setWhen_touches ..).within (.ite (.ite (.some (pushCmd_touches ..).within) (.some .refl))
    (.ite (.some (pushCmd_touches ..).within) (.ite (setIf_touches ..).within (.some (setRw_touches ..).within))))

theorem enrolWrite_touches (v : Bytes) (s : State) :
    OptTouches [.system, .fuses, .sessions, .counters] s (enrolWrite v s) := by
  unfold enrolWrite
  extract_lets k
  exact .ite .none (.some (queueFuse_touches ..).within)

theorem revokeWrite_touches (k : Nat) (s : State) :
    OptTouches [.system, .fuses, .sessions, .counters] s (revokeWrite k s) := by
  unfold revokeWrite
  exact .ite .none (.some (queueFuse_touches ..).within)

theorem writeEngine_touches (idx sub row : Nat) (v : Bytes) (s : State) :
    OptTouches [.system, .fuses, .objects, .sessions, .lock, .counters] s (writeEngine idx sub row v s) := by
  unfold writeEngine
  exact .ite (.ite (stageImage_touches ..).within (.ite (.some .update)
    (.ite (enrolWrite_touches ..).within (.ite (revokeWrite_touches ..).within (.some (setRw_touches ..).within)))))
    (.onOne (.some (deferWrite_touches ..).within))

theorem writeBuffer_touches (idx sub row : Nat) (v : Bytes) (s : State) :
    OptTouches [.objects] s (writeBuffer idx sub row v s) := by
  unfold writeBuffer
  extract_lets n
  exact .ite (.ite (.some (setRw_touches ..).within) (.ite (setWhen_touches ..).within (setIf_touches ..).within))
    (.ite .none (.ite (setWhen_touches ..).within (.ite (setIf_touches ..).within
    (.some (setRw_touches ..).within))))

theorem poolWord_touches (f w : Nat) (s : State) :
    OptTouches [.pools] s (poolWord f w s) := by
  unfold poolWord
  exact .some (takeReq_touches ..).within

theorem writePool_touches (idx sub row : Nat) (v : Bytes) (s : State) :
    OptTouches [.objects, .pools] s (writePool idx sub row v s) := by
  unfold writePool
  exact .ite (.ite (setIf_touches ..).within (.ite (setIf_touches ..).within .none))
    (.ite (.ite (reclaim_touches ..).within (.ite (setIf_touches ..).within (setIf_touches ..).within))
    (poolWord_touches ..).within)

theorem writeArb_touches (idx sub row : Nat) (v : Bytes) (s : State) :
    OptTouches [.objects] s (writeArb idx sub row v s) := by
  unfold writeArb
  exact .ite (.some (setRw_touches ..).within) (setWhen_touches ..).within

theorem writeSched_touches (idx sub row : Nat) (v : Bytes) (s : State) :
    OptTouches [.objects, .buffer] s (writeSched idx sub row v s) := by
  unfold writeSched
  exact .ite (.ite (schedRow_touches ..).within (.ite (schedClear_touches ..).within
    (.some (setRw_touches ..).within))) (.ite (setWhen_touches ..).within (setWhen_touches ..).within)

theorem writeCipher_touches (idx sub row : Nat) (v : Bytes) (s : State) :
    OptTouches [.objects, .cipher] s (writeCipher idx sub row v s) := by
  unfold writeCipher
  extract_lets n
  exact .ite (.ite (keyWrite_touches ..).within (.ite (.some (startTests_touches ..).within)
    (.some (setRw_touches ..).within))) (.ite (setWhen_touches ..).within
    (.ite (setWhen_touches ..).within (.ite (setWhen_touches ..).within
    (.ite (setWhen_touches ..).within (.some (setRw_touches ..).within)))))

theorem writeHost_touches (idx sub row : Nat) (v : Bytes) (s : State) :
    OptTouches [.objects, .pipes, .rings] s (writeHost idx sub row v s) := by
  unfold writeHost
  exact .ite (.ite (ringRowWrite_touches ..).within .none) (.ite (setWhen_touches ..).within
    (setWhen_touches ..).within)

theorem writeCounter_touches (idx sub row : Nat) (v : Bytes) (s : State) :
    OptTouches [.system, .objects, .counters] s (writeCounter idx sub row v s) := by
  unfold writeCounter
  exact .ite (overflowClear_touches ..).within (.ite (.ite (filterSelect_touches ..).within
    (filterChain_touches ..).within) (.some (setRw_touches ..).within))

theorem writeSys_touches (idx sub row : Nat) (v : Bytes) (s : State) :
    OptTouches [.system, .objects, .sessions, .counters] s (writeSys idx sub row v s) := by
  unfold writeSys
  extract_lets n
  exact .ite (.ite (resetCmd_touches ..).within (.some .refl))
    (.ite (.ite (pipeOffWrite_touches ..).within (setWhen_touches ..).within)
    (.ite (.ite (.onOne (.some (startFreeze_touches ..).within)) (.some (setRw_touches ..).within))
    (.ite (logAckWrite_touches ..).within (askRelease_touches ..).within)))

theorem writeValue_touches (idx sub row : Nat) (v : Bytes) (s : State) :
    OptTouches written s (writeValue idx sub row v s) := by
  unfold writeValue
  exact .ite (writeIdent_touches ..).within (.ite (writeTime_touches ..).within
    (.ite (writeLane_touches ..).within (.ite (writePort_touches ..).within
    (.ite (writeSearch_touches ..).within (.ite (writeFlow_touches ..).within
    (.ite (writeEngine_touches ..).within (.ite (writeBuffer_touches ..).within
    (.ite (writePool_touches ..).within (.ite (writeArb_touches ..).within
    (.ite (writeSched_touches ..).within (.ite (writeCipher_touches ..).within
    (.ite (writeHost_touches ..).within (.ite (writeCounter_touches ..).within
    (writeSys_touches ..).within)))))))))))))

theorem emptyRows_touches (idx sub : Nat) (r : ObjRow) (s : State) :
    OptTouches written s (emptyRows idx sub r s) :=
  .foldlBind (fun _ _ => writeValue_touches ..) (.some .refl)

theorem writeAny_touches {mbox : Bytes → State → State} (hm : ∀ b t, Touches written t (mbox b t))
    (idx sub row : Nat) (v : Bytes) (s : State) : OptTouches written s (writeAny mbox idx sub row v s) := by
  unfold writeAny
  split
  · exact .none
  · exact .ite (.some (hm v s)) (.ite (emptyRows_touches ..) (writeValue_touches ..))

/-- What joins the staging is the engine image or the commit's target; the rest is a row of its table. -/
theorem stageValue_touches (idx sub row : Nat) (v : Bytes) (s : State) :
    OptTouches [.lock] s (stageValue idx sub row v s) := by
  unfold stageValue
  split
  next joins =>
    simp only [joinsStaging, Bool.and_eq_true, Bool.or_eq_true, beq_iff_eq] at joins
    obtain ⟨rfl, rfl | rfl⟩ := joins
    · exact stageImage_touches ..
    · exact .some .update
  split
  · exact .none
  · exact .ite (.some (stageEmpty_touches ..)) (.ite (.some (stageRow_touches ..)) .none)

theorem stageBy_touches (s : State) (src : Origin) (idx sub row : Nat) (v : Bytes) :
    Touches [.system, .reject, .sessions, .lock, .counters] s (stageBy s src idx sub row v) := by
  unfold stageBy
  split
  · exact .refl
  extract_lets s₁ e
  have hs₁ : Touches [.system, .reject, .sessions, .lock, .counters] s s₁ :=
    (renewLease_touches ..).after (lockExpiry_touches ..).within
  split
  · exact (rejectWrite_touches ..).after hs₁
  split
  next u e => exact (filtered_touches ..).after (((stageValue_touches ..).get e).after hs₁)
  · exact (rejectWrite_touches ..).after hs₁

theorem anyWrite_touches {mbox : Bytes → State → State} (hm : ∀ b t, Touches written t (mbox b t)) (s : State)
    (src : Origin) (idx sub row : Nat) (v : Bytes) :
    Touches (.reject :: written) s (anyWrite mbox s src idx sub row v) := by
  unfold anyWrite
  split
  · split
    · exact (stageBy_touches ..).within
    · exact .ite (stageBy_touches ..).within (rejectWrite_touches ..).within
  · exact .writeBy .refl fun t => (writeAny_touches hm idx sub row v t).within

/-- The state that a reply leaves, if it is no error. -/
def Reply.state : Reply → Option State
  | .good t _ => some t
  | .bad .. => none

/-! ### The Mabin protocol -/

theorem answer_touches {P : List Part} {s t : State} (n : Nat) (m : Bytes) {r : Reply} (h : Touches P s t)
    (hr : OptTouches P s r.state) (hP : inside [.sessions, .counters, .out] P = true := by rfl) :
    Touches P s (answer t n m r) := by
  cases r with
  | good u b => exact (hr.get rfl).trans ((sendMsg_touches ..).within hP)
  | bad => exact h.trans ((sendMsg_touches ..).within hP)

theorem mboxTaken_touches (s : State) :
    Touches [.sessions] s (mboxTaken s) := by
  unfold mboxTaken
  exact .update

theorem readEffect_touches (s : State) (idx sub : Nat) :
    Touches [.buffer, .sessions] s (readEffect s idx sub) := by
  unfold readEffect
  exact .ite (lowReset_touches ..).within (.ite (mboxTaken_touches ..).within .refl)

theorem readItem_touches (s : State) (i : Item) :
    Touches [.buffer, .sessions] s (readItem s i).1 := by
  unfold readItem
  split
  · exact .pair .refl
  · extract_lets v
    exact .pair (readEffect_touches ..).within

theorem countItem_touches (s : State) (n source : Nat) (i : Item) :
    Touches [.counters] s (countItem s n source i) := by
  unfold countItem
  exact filtered_touches ..

theorem readItems_touches (n : Nat) (l : List Item) (k : Nat) (s : State) (b : Bytes) :
    OptTouches [.buffer, .sessions, .counters] s (readItems n l k s b).state := by
  induction l generalizing k s b with
  | nil => exact .some .refl
  | cons i l ih =>
    unfold readItems
    extract_lets e
    split
    · exact .none
    split
    next u v read =>
      exact (ih ..).trans (((readItem_touches ..).fst read).after (countItem_touches ..).within)

theorem runItems_touches {P : List Part} {n : Nat} {err : State → Item → Nat} {eff : Item → State → Option State}
    (h : ∀ i t, OptTouches P t (eff i t)) (l : List Item) (k : Nat) (s : State)
    (hP : inside [.counters] P = true := by rfl) : OptTouches P s (runItems n err eff l k s).state := by
  induction l generalizing k s with
  | nil => exact .some .refl
  | cons i l ih =>
    unfold runItems
    extract_lets e
    split
    · exact .none
    split
    · exact .none
    next u done => exact .trans (((h i s).get done).trans ((countItem_touches ..).within hP)) (ih ..)

theorem writeItems_touches {mbox : Bytes → State → State} (hm : ∀ b t, Touches written t (mbox b t)) (s : State)
    (n : Nat) (l : List Item) : OptTouches written s (writeItems mbox s n l).state := by
  refine runItems_touches (fun i t => ?_) ..
  split
  · exact (stageValue_touches ..).within
  · exact writeAny_touches hm ..

theorem stageItems_touches (s : State) (n : Nat) (l : List Item) :
    OptTouches [.lock, .counters] s (stageItems s n l).state :=
  runItems_touches (fun _ _ => (stageValue_touches ..).within) ..

theorem countBad_touches (s : State) (n : Nat) (items : List Item) (x : Reply) :
    Touches [.counters] s (countBad s n items x) := by
  unfold countBad
  split
  next u _ =>
    exact .refl
  · split
    · exact .ite .refl (countItem_touches ..).within
    · exact .refl

theorem codeReply_touches {P : List Part} {s : State} {r : State × Nat × Nat} (h : Touches P s r.1) :
    OptTouches P s (codeReply r).state := by
  unfold codeReply
  split
  · exact .some h
  · exact .none

/-- What a request leaves touches P alone, be it answered or refused. -/
def ReplyTouches (P : List Part) (s : State) (r : State × Reply) : Prop :=
  Touches P s r.1 ∧ OptTouches P s r.2.state

theorem ReplyTouches.within {P Q : List Part} {s : State} {r : State × Reply} (h : ReplyTouches Q s r)
    (hQ : inside Q P = true := by rfl) : ReplyTouches P s r :=
  ⟨h.1.within hQ, h.2.within hQ⟩

/-- A reply that leaves no change when it is an error. -/
theorem ReplyTouches.of {P : List Part} {s : State} {r : Reply} (h : OptTouches P s r.state) :
    ReplyTouches P s (s, r) :=
  ⟨.refl, h⟩

/-- The parts of COMMIT. -/
theorem commitReply_touches (s : State) (n minor : Nat) (body : Bytes) :
    ReplyTouches [.system, .version, .sessions, .lock, .counters] s (commitReply s n minor body) := by
  unfold commitReply
  extract_lets unlock r
  have hr : Touches [.system, .version, .sessions, .lock, .counters] s r.1 := commitBy_touches ..
  split
  · exact .of .none
  split
  · exact .of .none
  · exact ⟨hr, codeReply_touches hr⟩

theorem unlockReply_touches (s : State) (n : Nat) :
    OptTouches [.system, .sessions, .lock, .counters] s (unlockReply s n).state := by
  unfold unlockReply
  extract_lets r
  split
  · exact .some (unlockBy_touches ..)
  · exact .none

theorem subscribe_touches (s : State) (n : Nat) (b : Sub) : OptTouches [.sessions] s (subscribe s n b).state := by
  unfold subscribe
  split
  · exact .none
  split
  · exact .some .refl
  split
  · exact .none
  · exact .some (modSession_touches ..)

theorem subscribeObject_touches (s : State) (n minor : Nat) (body : Bytes) :
    OptTouches [.sessions] s (subscribeObject s n minor body).state := by
  unfold subscribeObject
  extract_lets idx sub period
  split
  · exact .none
  split
  · exact .none
  split
  · exact .none
  split
  · exact .none
  split
  · exact .none
  split
  · exact .none
  · exact subscribe_touches ..

theorem subscribeReply_touches (s : State) (n minor : Nat) (body : Bytes) :
    OptTouches [.sessions] s (subscribeReply s n minor body).state := by
  unfold subscribeReply
  extract_lets op
  split
  · exact subscribe_touches ..
  split
  · exact subscribeObject_touches ..
  split
  · exact .some (modSession_touches ..)
  · exact .none

theorem blockRead_touches (s : State) (n : Nat) (path : MabinPath) (body : Bytes) :
    OptTouches [.buffer, .sessions, .counters] s (blockRead s n path body).state := by
  unfold blockRead
  extract_lets idx sub row i
  split
  · exact .none
  extract_lets e
  split
  · exact .none
  split
  · exact .none
  · exact .some ((readEffect_touches ..).after (countItem_touches ..).within)

theorem blockApply_touches {mbox : Bytes → State → State} (hm : ∀ b t, Touches written t (mbox b t)) (s : State)
    (n : Nat) (head data : Bytes) : OptTouches written s (blockApply mbox s n head data).state := by
  unfold blockApply
  extract_lets idx sub
  split
  · exact .none
  split
  · exact .none
  extract_lets items rep
  have hrep : OptTouches written s rep.state := by
    unfold rep
    split
    · exact (stageItems_touches ..).within
    · exact writeItems_touches hm ..
  clear_value rep
  split
  · exact .some (hrep.get rfl)
  · exact .none

theorem putBlock_touches (s : State) (n : Nat) (b : Option Block) :
    Touches [.sessions] s (putBlock s n b) := by
  unfold putBlock
  exact (modSession_touches ..).within

theorem blockWrite_touches {mbox : Bytes → State → State} (hm : ∀ b t, Touches written t (mbox b t)) (s : State)
    (n : Nat) (more : Bool) (body : Bytes) : ReplyTouches written s (blockWrite mbox s n more body) := by
  unfold blockWrite
  extract_lets chunk idx sub data old want gone head b
  have hgone : Touches written s gone := (putBlock_touches ..).within
  split
  · exact ⟨hgone, .none⟩
  split
  · exact ⟨hgone, .none⟩
  split
  · exact ⟨hgone, .some (putBlock_touches ..).within⟩
  · exact ⟨hgone, .trans hgone (blockApply_touches hm ..)⟩

theorem drawNonce_touches (s : State) :
    Touches [.sessions] s (drawNonce s).1 := by
  unfold drawNonce
  exact .pair .update

theorem authFail_touches (s : State) :
    Touches [.system, .sessions, .counters] s (authFail s) := by
  unfold authFail
  extract_lets s₁ _
  exact .ite (count_touches ..).within ((raiseEv_touches ..).after (.set (t := s₁) (count_touches ..).within))

theorem refuseHello_touches (s : State) (path : MabinPath) (m : Bytes) (code detail : Nat) :
    Touches [.system, .sessions, .counters, .out] s (refuseHello s path m code detail) := by
  unfold refuseHello
  extract_lets body head
  split
  next u _ e =>
    exact (deliverMsg_touches ..).after (((freshBytes_touches ..).fst e).within)

theorem openSession_touches (s : State) (path : MabinPath) (m : Bytes) :
    Touches [.system, .sessions, .counters, .out] s (openSession s path m) := by
  unfold openSession
  extract_lets b cn
  split
  · exact (authFail_touches ..).within
  · split
    · exact (authFail_touches ..).within
    · split
      · exact (refuseHello_touches ..).within
      · split
        · exact (refuseHello_touches ..).within
        · split
          next u _ e =>
            extract_lets key _ _ s₁
            exact (deliverMsg_touches ..).after (.set (t := u) (((drawNonce_touches ..).fst e).within))

theorem rekeySession_touches (s : State) (n : Nat) (x : Session) (m : Bytes) :
    Touches [.sessions, .counters, .out] s (rekeySession s n x m) := by
  have hbad (code item detail : Nat) :
      Touches [.sessions, .counters, .out] s (answer s n m (.bad code item detail)) := answer_touches n m .refl
        .none
  unfold rekeySession
  extract_lets b cn
  split
  · exact hbad ..
  split
  · exact hbad ..
  split
  · exact hbad ..
  split
  · exact hbad ..
  split
  next u nonce drawn =>
    extract_lets key u₁
    have hu₁ : Touches [.sessions, .counters, .out] s u₁ :=
      (modSession_touches ..).after ((drawNonce_touches ..).fst drawn).within
    exact (sendHeld_touches ..).after ((deliverMsg_touches ..).after hu₁)

theorem endSession_touches (s : State) (n : Nat) :
    Touches [.sessions] s (endSession s n) := by
  unfold endSession
  exact .update

theorem closeSession_touches (s : State) (n : Nat) (m : Bytes) :
    Touches [.sessions, .lock, .counters, .out] s (closeSession s n m) := by
  unfold closeSession
  extract_lets s₁
  exact (endSession_touches ..).after ((sendMsg_touches ..).after (.ite (freeLock_touches ..).within .refl))

theorem freezeSession_touches (s : State) (n : Nat) :
    Touches [.system, .sessions, .counters] s (freezeSession s n) := by
  unfold freezeSession
  exact (freezeMaster_touches ..).after (modSession_touches ..).within

/-- The parts of a request, by its message's type. -/
def requestParts (m : Bytes) : List Part :=
  if msgType m = 3 || (msgType m = 10 && byteAt (msgBody m) 0 == 2) then written
  else if msgType m = 2 || msgType m = 10 then [.buffer, .sessions, .counters]
  else if msgType m = 5 then [.system, .version, .sessions, .lock, .counters]
  else [.system, .sessions, .lock, .counters]

theorem requestParts_inside_written (m : Bytes) : inside (requestParts m) written = true := by
  unfold requestParts
  split
  · rfl
  split
  · rfl
  split
  · rfl
  · rfl

theorem itemRequest_touches {P : List Part} {mbox : Bytes → State → State} {s : State} {n type : Nat}
    {items : List Item} (hr : OptTouches P s (itemRequest mbox s n type items).2.state)
    (hP : inside [.counters] P = true := by rfl) : ReplyTouches P s (itemRequest mbox s n type items) :=
  ⟨(countBad_touches ..).within hP, hr⟩

theorem request_touches {mbox : Bytes → State → State} (hm : ∀ b t, Touches written t (mbox b t)) (s : State)
    (n : Nat) (x : Session) (m : Bytes) : ReplyTouches (requestParts m) s (request mbox s n x m) := by
  unfold request
  extract_lets type body
  split
  next items =>
    by_cases isRead : type = 2
    · have hP : requestParts m = [.buffer, .sessions, .counters] := by simp_all [requestParts, type]
      rw [hP, isRead]
      exact itemRequest_touches (readItems_touches ..)
    by_cases isWrite : type = 3
    · have hP : requestParts m = written := by simp_all [requestParts, type]
      rw [hP, isWrite]
      exact itemRequest_touches (writeItems_touches hm ..)
    · have isStage : type = 4 := by simp_all
      have hP : requestParts m = [.system, .sessions, .lock, .counters] := by simp_all [requestParts, type]
      rw [hP, isStage]
      exact itemRequest_touches (stageItems_touches ..).within
  next other =>
  simp only [Bool.or_eq_true, decide_eq_true_eq, not_or] at other
  obtain ⟨⟨notRead, notWrite⟩, -⟩ := other
  split
  next isCommit =>
    have hP : requestParts m = [.system, .version, .sessions, .lock, .counters] := by simp_all [requestParts, type]
    rw [hP]
    exact commitReply_touches ..
  next notCommit =>
  have plain (h : type ≠ 10) : requestParts m = [.system, .sessions, .lock, .counters] := by
    simp_all [requestParts, type]
  split
  next h =>
    rw [plain (by omega)]
    exact .of (codeReply_touches (lockBy_touches ..))
  split
  next h =>
    rw [plain (by omega)]
    exact .of (unlockReply_touches ..)
  split
  next h =>
    rw [plain (by omega)]
    exact .of (subscribeReply_touches ..).within
  split
  next isBlock =>
    split
    · exact .of .none
    split
    · exact .of .none
    by_cases writes : byteAt (msgBody m) 0 = 2
    · have hP : requestParts m = written := by simp_all [requestParts, type]
      have notRead : ¬ byteAt body 0 = 1 := fun h => absurd (writes.symm.trans h) (by decide)
      rw [hP, if_neg notRead, if_pos writes]
      exact blockWrite_touches hm ..
    · have hP : requestParts m = [.buffer, .sessions, .counters] := by simp_all [requestParts, type]
      rw [hP]
      split
      · exact .of (blockRead_touches ..)
      · exact .of .none
  split
  · exact .of .none
  · exact .of .none

theorem serve_touches {P : List Part} {mbox : Bytes → State → State} (hm : ∀ b t, Touches written t (mbox b t))
    (s : State) (n : Nat) (x : Session) (m : Bytes) (hm' : inside (requestParts m) P = true)
    (hP : inside [.sessions, .lock, .counters, .out] P = true) : Touches P s (serve mbox s n x m) := by
  unfold serve
  extract_lets s₁
  have hs₁ : Touches P s s₁ :=
    .trans ((modSession_touches ..).within (inside_trans rfl hP))
      ((renewLease_touches ..).within (inside_trans rfl hP))
  split
  · exact hs₁.trans ((closeSession_touches ..).within hP)
  split
  · exact hs₁.trans ((rekeySession_touches ..).within (inside_trans rfl hP))
  split
  next t r asked =>
    have hr : ReplyTouches P s₁ (t, r) := asked ▸ (request_touches hm s₁ n x m).within hm'
    exact hs₁.trans (answer_touches n m hr.1 hr.2 (inside_trans rfl hP))

theorem endIdle_touches (s : State) (n : Nat) :
    Touches [.sessions] s (endIdle s n) := by
  unfold endIdle
  exact .ite (endSession_touches ..).within .refl

theorem sessionMsg_touches {P : List Part} {mbox : Bytes → State → State}
    (hm : ∀ b t, Touches written t (mbox b t)) (s : State) (n : Nat) (m : Bytes)
    (hm' : inside (requestParts m) P = true)
    (hP : inside [.system, .sessions, .lock, .counters, .out] P = true) :
    Touches P s (sessionMsg mbox s n m) := by
  unfold sessionMsg
  extract_lets s₁ s₂ s₃
  have hs₁ : Touches P s s₁ :=
    .trans ((lockExpiry_touches ..).within (inside_trans rfl hP))
      ((endIdle_touches ..).within (inside_trans rfl hP))
  split
  · exact hs₁.trans ((count_touches ..).within (inside_trans rfl hP))
  next x _ =>
  split
  · exact hs₁
  have hs₂ : Touches P s s₂ := hs₁.trans ((askCode_touches ..).within (inside_trans rfl hP))
  have hs₃ : Touches P s s₃ := hs₂.trans ((modSession_touches ..).within (inside_trans rfl hP))
  have frozen (t : State) : Touches P t (freezeSession t n) := (freezeSession_touches ..).within
    (inside_trans rfl hP)
  split
  · exact hs₂.trans (frozen _)
  split
  · exact hs₂.trans ((count_touches ..).within (inside_trans rfl hP))
  split
  · exact hs₃.trans (frozen _)
  · exact hs₃.trans (serve_touches hm _ n x m hm' (inside_trans rfl hP))

/-- A message within a write of the mailbox may write any object, so it may touch what a write may. -/
theorem receive_touches {P : List Part} (fuel : Nat) (path : MabinPath) (m : Bytes) (s : State)
    (hm : inside (requestParts m) P = true)
    (hP : inside [.system, .sessions, .lock, .counters, .out] P = true) : Touches P s (receive fuel path m s) := by
  induction fuel generalizing path m s P with
  | zero => exact .refl
  | succ fuel ih =>
    unfold receive
    split
    · exact (count_touches ..).within (inside_trans rfl hP)
    split
    · exact (count_touches ..).within (inside_trans rfl hP)
    split
    · exact (openSession_touches ..).within (inside_trans rfl hP)
    · exact sessionMsg_touches (fun b t => ih .mailbox b t (requestParts_inside_written b) rfl) s _ m hm hP

theorem deliver_touches (path : MabinPath) (m : Bytes) (s : State) : Touches written s (deliver path m s) :=
  receive_touches _ _ _ _ (requestParts_inside_written m) rfl

/-- A row's message is of the kind that the row names. -/
theorem mabinRow_touches {P : List Part} {c : Bool} {path : MabinPath} {m : Bytes} {s : State}
    (h : c = true → inside (requestParts m) P = true)
    (hP : inside [.system, .sessions, .lock, .counters, .out] P = true := by rfl) :
    Touches P s (mabinRow c path m s) := by
  refine .whenRun .refl ?_
  unfold guardS
  split
  next hc => exact receive_touches _ _ _ _ (h hc) hP
  · exact .refl

/-- The parts of a message that is neither written, read nor committed. -/
theorem requestParts_of_plain {m : Bytes} (h2 : msgType m ≠ 2) (h3 : msgType m ≠ 3) (h5 : msgType m ≠ 5)
    (h10 : msgType m ≠ 10) : requestParts m = [.system, .sessions, .lock, .counters] := by
  simp [requestParts, h2, h3, h5, h10]

theorem mabinRow_touches_of_type {c : Bool} {path : MabinPath} {m : Bytes} {s : State} (type : Nat)
    (h : c = true → msgType m = type) (plain : type ≠ 2 ∧ type ≠ 3 ∧ type ≠ 5 ∧ type ≠ 10 := by decide) :
    Touches [.system, .sessions, .lock, .counters, .out] s (mabinRow c path m s) := by
  refine mabinRow_touches fun hc => ?_
  obtain ⟨h2, h3, h5, h10⟩ := h hc ▸ plain
  rw [requestParts_of_plain h2 h3 h5 h10]
  rfl

theorem rowMabinHello_touches (path : MabinPath) (msg : Bytes) (s : State) :
    Touches [.system, .sessions, .lock, .counters, .out] s (rowMabinHello path msg s) :=
  mabinRow_touches_of_type 1 fun h => by simp_all

theorem rowMabinHelloRekey_touches (path : MabinPath) (msg : Bytes) (s : State) :
    Touches [.system, .sessions, .lock, .counters, .out] s (rowMabinHelloRekey path msg s) :=
  mabinRow_touches_of_type 1 fun h => by simp_all

theorem rowMabinHelloClose_touches (path : MabinPath) (msg : Bytes) (s : State) :
    Touches [.system, .sessions, .lock, .counters, .out] s (rowMabinHelloClose path msg s) :=
  mabinRow_touches_of_type 1 fun h => by simp_all

theorem rowMabinRead_touches (path : MabinPath) (msg : Bytes) (s : State) :
    Touches [.system, .buffer, .sessions, .lock, .counters, .out] s (rowMabinRead path msg s) := by
  refine mabinRow_touches fun h => ?_
  by_cases isRead : msgType msg = 2
  · have hP : requestParts msg = [.buffer, .sessions, .counters] := by simp [requestParts, isRead]
    rw [hP]
    rfl
  · simp only [Bool.or_eq_true, beq_iff_eq, decide_eq_true_eq] at h
    rw [requestParts_of_plain isRead (by omega) (by omega) (by omega)]
    rfl

theorem rowMabinWrite_touches (path : MabinPath) (msg : Bytes) (s : State) :
    Touches written s (rowMabinWrite path msg s) :=
  mabinRow_touches fun _ => requestParts_inside_written msg

theorem rowMabinStage_touches (path : MabinPath) (msg : Bytes) (s : State) :
    Touches [.system, .sessions, .lock, .counters, .out] s (rowMabinStage path msg s) :=
  mabinRow_touches_of_type 4 fun h => by simp_all

theorem rowMabinCommit_touches (path : MabinPath) (msg : Bytes) (s : State) :
    Touches [.system, .version, .sessions, .lock, .counters, .out] s (rowMabinCommit path msg s) := by
  refine mabinRow_touches fun h => ?_
  have hP : requestParts msg = [.system, .version, .sessions, .lock, .counters] := by
    simp only [beq_iff_eq] at h
    simp [requestParts, h]
  rw [hP]
  rfl

theorem rowMabinLock_touches (path : MabinPath) (msg : Bytes) (s : State) :
    Touches [.system, .sessions, .lock, .counters, .out] s (rowMabinLock path msg s) :=
  mabinRow_touches_of_type 6 fun h => by simp_all

theorem rowMabinUnlock_touches (path : MabinPath) (msg : Bytes) (s : State) :
    Touches [.system, .sessions, .lock, .counters, .out] s (rowMabinUnlock path msg s) :=
  mabinRow_touches_of_type 7 fun h => by simp_all

theorem rowSubscribeAddEvents_touches (path : MabinPath) (msg : Bytes) (s : State) :
    Touches [.system, .sessions, .lock, .counters, .out] s (rowSubscribeAddEvents path msg s) :=
  mabinRow_touches_of_type 8 fun h => by simp_all

theorem rowSubscribeAddObject_touches (path : MabinPath) (msg : Bytes) (s : State) :
    Touches [.system, .sessions, .lock, .counters, .out] s (rowSubscribeAddObject path msg s) :=
  mabinRow_touches_of_type 8 fun h => by simp_all

theorem rowSubscribeRemoveAll_touches (path : MabinPath) (msg : Bytes) (s : State) :
    Touches [.system, .sessions, .lock, .counters, .out] s (rowSubscribeRemoveAll path msg s) :=
  mabinRow_touches_of_type 8 fun h => by simp_all

theorem rowBlockRead_touches (path : MabinPath) (msg : Bytes) (s : State) :
    Touches [.system, .buffer, .sessions, .lock, .counters, .out] s (rowBlockRead path msg s) := by
  refine mabinRow_touches fun h => ?_
  have hP : requestParts msg = [.buffer, .sessions, .counters] := by
    simp only [Bool.and_eq_true, beq_iff_eq, bne_iff_ne] at h
    simp [requestParts, h]
  rw [hP]
  rfl

theorem rowBlockWrite_touches (path : MabinPath) (msg : Bytes) (s : State) :
    Touches written s (rowBlockWrite path msg s) :=
  mabinRow_touches fun _ => requestParts_inside_written msg

theorem mboxWrite_touches (m : Bytes) (s : State) :
    Touches (.reject :: written) s (mboxWrite m s) := by
  unfold mboxWrite
  exact .ite (count_touches ..).within (.writeBy .refl (fun _ => .some (deliver_touches ..).within))

theorem rowMboxInWrite_touches (msg : Bytes) (s : State) :
    Touches (.reject :: written) s (rowMboxInWrite msg s) := by
  unfold rowMboxInWrite
  exact .whenRun .refl (mboxWrite_touches ..).within

theorem rowMboxOutRead_touches (s : State) :
    Touches [.sessions, .counters, .out] s (rowMboxOutRead s) := by
  unfold rowMboxOutRead
  exact .whenRun .refl ((emit_touches ..).after ((mboxTaken_touches ..).after (countAccess_touches ..).within))

theorem rowSessionIdleExpiry_touches (sess : Nat) (s : State) :
    Touches [.sessions] s (rowSessionIdleExpiry sess s) := by
  unfold rowSessionIdleExpiry
  exact .whenRun .refl (.guardS .refl (endSession_touches ..).within)

theorem writeObject_touches (s : State) (src : Origin) (idx sub row : Nat) (v : Bytes) :
    Touches (.reject :: written) s (writeObject s src idx sub row v) := by
  unfold writeObject
  exact .ite (freezeFn_touches ..).within (anyWrite_touches (deliver_touches .mailbox) ..)

theorem rowObjectWrite_touches (src : Origin) (index sub row : Nat) (value : Bytes) (s : State) :
    Touches (.reject :: written) s (rowObjectWrite src index sub row value s) := by
  unfold rowObjectWrite
  exact .whenRun .refl (writeObject_touches ..).within

theorem barTable_touches (s : State) (off value : Nat) :
    Touches (.reject :: written) s (barTable s off value) := by
  unfold barTable
  split
  · exact .refl
  · extract_lets _ s₁ v k _ s₂
    exact .ite .update ((writeObject_touches ..).after (.set (t := s₁) .update))

theorem barWord_touches (s : State) (off value : Nat) :
    Touches (.reject :: written) s (barWord s off value) := by
  unfold barWord
  extract_lets idx sub
  split
  · exact .refl
  · exact .ite .refl (.ite (freezeFn_touches ..).within (writeObject_touches ..).within)

theorem barVirtual_touches (s : State) (fn off value : Nat) :
    Touches [.system, .rings, .pools, .sessions, .counters] s (barVirtual s fn off value) := by
  unfold barVirtual
  exact .ite .refl (.ite (.getD (poolWord_touches ..).within .refl) (.ite .refl (freezeFn_touches ..).within))

theorem barVector_touches (s : State) (fn off value : Nat) :
    Touches [.system, .rings, .sessions, .counters, .vectors] s (barVector s fn off value) := by
  unfold barVector
  split
  · exact .refl
  · split
    · exact .update
    · exact (freezeFn_touches ..).within

theorem barWriteWord_touches (s : State) (fn bar off value : Nat) :
    Touches (.vectors :: .reject :: written) s (barWriteWord s fn bar off value) := by
  unfold barWriteWord
  split
  · extract_lets s₁
    exact .ite ((barWord_touches ..).after (renewLease_touches ..).within)
      (.ite ((barTable_touches ..).after (renewLease_touches ..).within)
      (.ite ((barVector_touches ..).after (renewLease_touches ..).within) (renewLease_touches ..).within))
  · exact .ite (barVirtual_touches ..).within (.ite (barVector_touches ..).within .refl)

theorem rowBarWrite_touches (fn bar offset value : Nat) (s : State) :
    Touches (.vectors :: .reject :: written) s (rowBarWrite fn bar offset value s) := by
  unfold rowBarWrite
  exact .whenRun .refl (barWriteWord_touches ..).within

theorem Touches.forEach {P : List Part} {s t : State} {keys : List Nat} {f : Nat → State → State}
    (k : ∀ i u, Touches P u (f i u)) (h : Touches P s t) : Touches P s (forEach keys f t) :=
  .foldl (fun u i => k i u) h

/-! ### What a beat owes -/

theorem portOwes_touches (n : Nat) (s : State) :
    Touches [.system, .packets, .ports, .lanes, .buffer, .pipes, .rings, .arbiters, .sessions, .counters, .out] s
      (portOwes n s) := by
  unfold portOwes
  extract_lets s₁ s₂ s₃ s₄
  refine .trans (t := s₁) (.whenRun .refl (stepDue_touches ..).within) ?_
  refine .trans (t := s₂) ((rowRestartDelayExpiry_touches ..).after ((rowTrainingTimeout_touches ..).after
    ((rowKeptCoefficientsLockTimeout_touches ..).after (rowLockTimeout_touches ..).within))) ?_
  refine .trans (t := s₃) (.forEach (fun _ _ => (rowPauseExpiry_touches ..).within) .refl) ?_
  refine .trans (t := s₄) (.whenRun .refl (ownFrameTail_touches ..).within) ?_
  exact (rowMacsecRxDeliver_touches ..).after ((rowGateInstant_touches ..).after
    ((rowGateListStarted_touches ..).after ((rowLinkFlushed_touches ..).after
      (rowLinkHoldExpiry_touches ..).within)))

theorem pinsOwe_touches (s : State) :
    Touches [.system, .objects, .ports, .timeBases, .pins, .sessions, .counters, .out] s (pinsOwe s) := by
  unfold pinsOwe
  exact .forEach (fun _ _ => (rowTimeOutPulse_touches ..).after (rowTimeOutPulseEnd_touches ..).within)
    (.forEach (fun _ _ => (rowTbValid_touches ..).within) .refl)

theorem homeOwes_touches (p : Nat) (s : State) :
    Touches [.system, .packets, .buffer, .flow, .pipes, .clusters, .rings, .sessions, .counters, .out] s
      (homeOwes p s) := by
  unfold homeOwes
  exact .ite (rowHomeBeat_touches ..).within .refl

theorem engineOwes_touches (c e : Nat) (s : State) :
    Touches [.system, .packets, .buffer, .flow, .util, .pipes, .clusters, .pools, .sessions, .counters] s
      (engineOwes c e s) := by
  unfold engineOwes
  extract_lets s₁
  refine .trans (t := s₁) ((rowIdleOverrun_touches ..).after
    ((rowEngineBudgetTrap_touches ..).after (rowMicrowordIssue_touches ..).within)) ?_
  exact .ite .refl (rowIdleStepPublish_touches ..).within

theorem clusterOwes_touches (c : Nat) (s : State) :
    Touches [.system, .packets, .buffer, .flow, .util, .pipes, .clusters, .pools, .sessions, .counters] s
      (clusterOwes c s) := by
  unfold clusterOwes
  extract_lets s₁
  exact (rowResequencerRelease_touches ..).after (.forEach (fun _ _ => (engineOwes_touches ..).within)
    (rowIdleStepStart_touches ..).within)

theorem carouselOwes_touches (p : Nat) (s : State) :
    Touches [.system, .version, .buffer, .search, .rewrites, .pipes, .sessions, .counters] s
      (carouselOwes p s) := by
  unfold carouselOwes
  exact (rowEwrite_touches ..).after ((rowTscrub_touches ..).after (rowTwrite_touches ..).within)

theorem macOwes_touches (n : Nat) (s : State) :
    Touches [.system, .packets, .ports, .buffer, .cipher, .rings, .sessions, .counters, .out] s (macOwes n s) := by
  unfold macOwes
  exact (rowFrameTransmitStart_touches ..).after ((rowFlowControlRepeat_touches ..).after
    ((rowFlowControlFrameSend_touches ..).after (rowFrameTransmitEnd_touches ..).within))

theorem judgePipes_touches (s : State) :
    Touches [.packets, .buffer, .counters] s (judgePipes s) := by
  unfold judgePipes
  exact .foldl (fun _ _ => (judgeAll_touches ..).within) .refl

theorem framesOwe_touches (s : State) :
    Touches [.system, .packets, .buffer, .pipes, .cipher, .rings, .sessions, .counters, .out] s (framesOwe s) := by
  unfold framesOwe
  extract_lets s₁ s₂
  exact .forEach (fun _ _ => (rowEgressEntry_touches ..).within)
    ((judgePipes_touches ..).after ((passOneBeat_touches ..).after
    (.forEach (fun _ _ => (rowVerifyResult_touches ..).within) .refl)))

theorem ringOwes_touches (r : Nat) (s : State) :
    Touches [.rings, .out] s (ringOwes r s) := by
  unfold ringOwes
  exact (rowRingStopped_touches ..).after (rowMsixTimerExpiry_touches ..).within

theorem pipeOwes_touches (p : Nat) (s : State) :
    Touches [.system, .ports, .pipes, .sessions, .counters] s (pipeOwes p s) := by
  unfold pipeOwes
  extract_lets s₁
  exact .ite ((rowPipeReset_touches ..).after (.ite (rowPipePower_touches ..).within .refl))
    (.ite (rowPipePower_touches ..).within .refl)

theorem versionsOwe_touches (s : State) :
    Touches [.system, .version, .search, .clusters, .sessions, .counters] s (versionsOwe s) := by
  unfold versionsOwe
  exact .forEach (fun _ _ => (rowSlotReserve_touches ..).within)
    (.forEach (fun _ _ => (rowSlotRetire_touches ..).within) .refl)

theorem owedWork_touches (s : State) :
    Touches [.system, .objects, .version, .packets, .ports, .lanes, .buffer, .search, .flow, .util, .rewrites,
      .pipes, .clusters, .timeBases, .pins, .cipher, .rings, .arbiters, .pools, .sessions, .counters, .out] s
      (owedWork s) := by
  unfold owedWork
  extract_lets pipes s₁ s₂ s₃ s₄ s₅ s₆ s₇ s₈ s₉
  exact (versionsOwe_touches ..).after ((rekeyAll_touches ..).after
    (.forEach (fun _ _ => (ringOwes_touches ..).within) (.forEach (fun _ _ => (rowArbiterRound_touches ..).within)
    (.forEach (fun _ _ => (rowArbiterGrantCut_touches ..).within)
    ((finishCode_touches ..).after ((hostAccesses_touches ..).after
    ((fetchCmd_touches ..).after ((dropClosed_touches ..).after
    (.forEach (fun _ _ => (rowSampleFormatTimeout_touches ..).within)
    ((makeSamples_touches ..).after (.forEach (fun _ _ => (macOwes_touches ..).within)
    (.forEach (fun _ _ => (carouselOwes_touches ..).within) ((framesOwe_touches ..).after
    (.forEach (fun _ _ => (enterVerifies_touches ..).within)
    (.forEach (fun _ _ => (clusterOwes_touches ..).within) (.forEach (fun _ _ => (homeOwes_touches ..).after
    ((rowHoldingQueueRelease_touches ..).after (pipeOwes_touches ..).within))
    ((pinsOwe_touches ..).after (.forEach (fun _ _ => (portOwes_touches ..).within) .refl))))))))))))))))))

/-! ### Beats and boundaries -/

theorem freezeCluster_touches (s : State) (c : Nat) :
    Touches [.system, .packets, .buffer, .clusters, .sessions, .counters] s (freezeCluster s c) := by
  unfold freezeCluster
  split
  · exact (trapCluster_touches ..).within

theorem putDig_touches (s : State) (d : Deferred) :
    Touches [.digest] s (putDig s d) := by
  unfold putDig
  exact .update

theorem applyDeferred_touches (s : State) (d : Deferred) :
    Touches [.system, .digest, .packets, .buffer, .clusters, .cipher, .sessions, .counters] s
      (applyDeferred s d) := by
  unfold applyDeferred
  extract_lets idx sub row
  exact .ite (applyKey_touches ..).within (.ite (.ite (freezeCluster_touches ..).within
    (releaseCluster_touches ..).within) (.ite ((applySaRow_touches ..).after (putDig_touches ..).within)
    (.ite ((applyIecRow_touches ..).after (putDig_touches ..).within)
    (.ite ((fillPolicer_touches ..).after (putDig_touches ..).within) (putDig_touches ..).within))))

theorem applyWrites_touches (s : State) (old : Nat) :
    Touches [.system, .objects, .digest, .packets, .buffer, .clusters, .cipher, .sessions, .counters] s
      (applyWrites s old) := by
  unfold applyWrites
  extract_lets now later
  exact .foldl (fun _ _ => (applyDeferred_touches ..).within) .update

theorem windowCmds_touches (s : State) :
    Touches [.pipes] s (windowCmds s) := by
  unfold windowCmds
  extract_lets next join
  exact .foldl (fun _ _ => (modPipe_touches ..).within) .refl

theorem returnUnits_touches (s : State) (old : Nat) :
    Touches [.cipher] s (returnUnits s old) := by
  unfold returnUnits
  exact .foldl (fun _ _ => .ite .update .refl) .refl

theorem pushBound_touches (s : State) (j : Nat) :
    Touches [.clock] s (pushBound s j) := by
  unfold pushBound
  extract_lets behind bs _
  exact .update

theorem settleTbs_touches (s : State) :
    Touches [.timeBases] s (settleTbs s) := by
  unfold settleTbs
  exact .foldl (fun _ _ => .ite (modTb_touches ..).within .refl) .refl

theorem tickWork_touches (s : State) :
    Touches [.clock, .templates, .counters] s (tickWork s) := by
  unfold tickWork
  extract_lets told todo s₁ _ _
  exact .set (t := s₁) (.ite (copyCounters_touches ..).within .refl)

theorem markDone_touches (s : State) :
    Touches [.version] s (markDone s) := by
  unfold markDone
  exact .update

theorem deferOnce_touches (s : State) (q : Sealed) (cause : Nat) :
    Touches [.system, .version, .sessions, .counters] s (deferOnce s q cause) := by
  unfold deferOnce
  exact .ite .refl ((raiseEv_touches ..).after .update)

theorem deferVersions_touches (s : State) (taken : Option Sealed) :
    Touches [.system, .version, .sessions, .counters] s (deferVersions s taken) := by
  unfold deferVersions
  exact .foldl (fun _ _ => .foldl (fun _ _ => (deferOnce_touches ..).within) .refl) .refl

theorem takeVersion_touches (s : State) :
    Touches [.system, .version, .sessions, .counters] s (takeVersion s) := by
  unfold takeVersion
  split
  · exact (deferVersions_touches ..).after .update
  · exact (compareDigest_touches ..).after (deferVersions_touches ..).within

theorem nextTick_touches (s : State) (number : Nat) :
    Touches [.clock] s (nextTick s number) := by
  unfold nextTick
  exact .update

/-- Only the version that the digest names changes. -/
theorem digVer_touches (s : State) (v : VerCfg) : Touches [.digest] s { s with digVer := v } := .update

theorem boundaryAs_touches (s : State) (number : Nat) :
    Touches [.clock, .system, .fuses, .objects, .digest, .version, .packets, .buffer, .search, .flow, .pipes,
      .clusters, .timeBases, .cipher, .templates, .sessions, .counters] s (boundaryAs s number) := by
  unfold boundaryAs
  extract_lets old j s₁ s₂ s₃
  have hs₁ : Touches [.clock, .system, .version, .packets, .buffer, .timeBases, .sessions, .counters] s s₁ :=
    (passBoundary_touches ..).after ((settleTbs_touches ..).after ((nextTick_touches ..).after
      ((markDone_touches ..).after (judgePipes_touches ..).within)))
  have hs₂ : Touches [.clock, .system, .objects, .digest, .version, .packets, .buffer, .pipes, .clusters,
    .timeBases,
      .cipher, .sessions, .counters] s s₂ :=
    (countLegacy_touches ..).after ((returnUnits_touches ..).after ((applyWrites_touches ..).after
      ((windowCmds_touches ..).after hs₁.within)))
  have hs₃ : Touches [.clock, .system, .objects, .digest, .version, .packets, .buffer, .pipes, .clusters,
    .timeBases,
      .cipher, .sessions, .counters] s s₃ := (pushBound_touches ..).after ((digVer_touches ..).after hs₂)
  exact (takeVersion_touches ..).after ((tickWork_touches ..).after ((startFuses_touches ..).after
    ((powerBoundary_touches ..).after hs₃.within)))

theorem tickBoundary_touches (s : State) :
    Touches [.clock, .system, .fuses, .objects, .digest, .version, .packets, .buffer, .search, .flow, .pipes,
      .clusters, .timeBases, .cipher, .templates, .sessions, .counters] s (tickBoundary s) := by
  unfold tickBoundary
  exact (boundaryAs_touches ..).within

theorem acceptAgain_touches (s : State) :
    Touches [.ports] s (acceptAgain s) := by
  unfold acceptAgain
  exact .foldl (fun _ _ => (modPort_touches ..).within) .refl

/-- What waits for a tick outside the pipes. -/
theorem renumbered_touches (s : State) (pins : Tbl PinIn) (ver : Versions) :
    Touches [.version, .pins, .sessions] s
      { s with pinsIn := pins, mabin := { s.mabin with authFailTick := none }, ver := ver } := .update

theorem renumber_touches (s : State) (first : Nat) :
    Touches [.version, .pipes, .pins, .sessions] s (renumber s first) := by
  unfold renumber
  extract_lets s₁
  have hs₁ : Touches [.version, .pipes, .pins, .sessions] s s₁ := .foldl (fun _ _ => (modPipe_touches ..).within)
    .refl
  exact (renumbered_touches ..).after hs₁

/-- Only the ringmaster and the counters change. -/
theorem rmCnt_touches (s : State) (r : Ringmaster) (c : Counters) :
    Touches [.clock, .counters] s { s with rm := r, cnt := c } := .update

theorem zeroBoundary_touches (s : State) :
    Touches boundaryParts s (zeroBoundary s) := by
  unfold zeroBoundary
  extract_lets y s₁ s₂
  have hy : Touches [.system] s { s with sys := { y with soft := false } } := sys_touches s _ rfl
  have hs₁ : Touches [.system, .version, .ports, .pipes, .pins, .sessions] s s₁ :=
    (renumber_touches ..).after ((acceptAgain_touches ..).after hy.within)
  exact (raiseEv_touches ..).after ((rmCnt_touches ..).after ((boundaryAs_touches ..).after hs₁.within))

theorem rowSoftResetDone_touches (s : State) :
    Touches boundaryParts s (rowSoftResetDone s) := by
  unfold rowSoftResetDone
  exact .whenRun .refl (.guardS .refl (zeroBoundary_touches ..).within)

theorem boundaryFirst_touches (s : State) :
    Touches boundaryParts s (boundaryFirst s) := by
  unfold boundaryFirst
  exact .ite (zeroBoundary_touches ..).within (.ite (tickBoundary_touches ..).within .refl)

theorem rowTickBoundary_touches (s : State) :
    Touches boundaryParts s (rowTickBoundary s) := by
  unfold rowTickBoundary
  exact .whenRun .refl (boundaryFirst_touches ..).within

theorem dueSoft_touches (s : State) :
    Touches softParts s (dueSoft s) := by
  unfold dueSoft
  split
  · exact .ite (softReset_touches ..).within .refl
  · exact .refl

theorem duePipes_touches (s : State) :
    Touches [.system, .objects, .packets, .ports, .buffer, .flow, .pipes, .clusters, .rings, .arbiters, .pools,
      .sessions, .counters, .out] s (duePipes s) := by
  unfold duePipes
  exact .foldl (fun _ _ => .ite (pipeResetStart_touches ..).within .refl) .refl

theorem pastBoundary_touches (s : State) :
    Touches boundaryParts s (pastBoundary s) := by
  unfold pastBoundary
  exact .whenRun .refl (boundaryFirst_touches ..).within

theorem pastCommit_touches (s : State) :
    Touches boundaryParts s (pastCommit s) := by
  unfold pastCommit
  exact .whenRun (pastBoundary_touches ..).within ((commitDueVersion_touches ..).after
    (pastBoundary_touches ..).within)

theorem pastSoft_touches (s : State) :
    Touches settledParts s (pastSoft s) := by
  unfold pastSoft
  exact .whenRun (pastCommit_touches ..).within ((dueSoft_touches ..).after (pastCommit_touches ..).within)

theorem settled_touches (s : State) :
    Touches settledParts s (settled s) := by
  unfold settled
  exact .whenRun (pastSoft_touches ..).within ((duePipes_touches ..).after (pastSoft_touches ..).within)

theorem engineBeats_touches (s : State) (c : Nat) :
    Touches [.counters] s (engineBeats s c) := by
  unfold engineBeats
  exact .ite .refl ((count_touches ..).after ((count_touches ..).after (count_touches ..).within))

theorem blockedBeat_touches (s : State) (n : Nat) :
    Touches [.counters] s (blockedBeat s n) := by
  unfold blockedBeat
  split
  · exact .refl
  · split
    · exact (count_touches ..).within
    · exact .refl

theorem beatCounts_touches (s : State) :
    Touches [.packets, .counters] s (beatCounts s) := by
  unfold beatCounts
  extract_lets s₁ s₂ s₃ s₄
  exact .foldl (fun _ _ => (count_touches ..).within) (.foldl (fun _ _ => (lineBeat_touches ..).within)
    (.foldl (fun _ _ => (blockedBeat_touches ..).within) (.foldl (fun _ _ => (count_touches ..).within)
    (.foldl (fun _ _ => (engineBeats_touches ..).within) .refl))))

theorem endOfBeat_touches (s : State) :
    Touches [.clock, .system, .fuses, .objects, .digest, .version, .packets, .ports, .lanes, .buffer, .search,
      .flow, .util, .rewrites, .pipes, .clusters, .timeBases, .pins, .cipher, .rings, .arbiters, .pools, .templates,
      .sessions, .lock, .counters, .beacon, .out] s (endOfBeat s) := by
  unfold endOfBeat
  extract_lets s₁ sessions
  exact .forEach (fun _ _ => (rowSessionIdleExpiry_touches ..).within)
    ((rowLockExpired_touches ..).after (.forEach (fun _ _ => (rowObjectNotify_touches ..).within)
    ((rowIdleExportTask_touches ..).after ((rowCounterDump_touches ..).after
    ((rowEtwenBeacon_touches ..).after (.whenRun (settled_touches ..).within
    ((servePools_touches ..).after ((owedWork_touches ..).after (settled_touches ..).within))))))))

theorem flushAll_touches (s : State) :
    Touches [.system, .packets, .ports, .buffer, .rings, .sessions, .counters, .out] s (flushAll s) := by
  unfold flushAll
  exact .foldl (fun _ _ => (flushOne_touches ..).within) .refl

theorem stopIdle_touches (s : State) (c : Nat) :
    Touches [.buffer, .clusters, .counters] s (stopIdle s c) := by
  unfold stopIdle
  exact .foldl (fun _ _ => .ite (cancelIdle_touches ..).within .refl) .refl

theorem clustersBegin_touches (s : State) :
    Touches [.packets, .buffer, .clusters, .pools, .counters] s (clustersBegin s) := by
  unfold clustersBegin
  extract_lets s₁
  exact .foldl (fun _ _ => (loadBeat_touches ..).within) ((reachEntries_touches ..).after
    (.ite .refl (.foldl (fun _ _ => (stopIdle_touches ..).within) .refl)))

theorem issueWaiting_touches (s : State) :
    Touches [.pipes, .counters] s (issueWaiting s) := by
  unfold issueWaiting
  exact .foldl (fun _ _ => (issueReads_touches ..).within) .refl

theorem startOfBeat_touches (s : State) :
    Touches [.clock, .system, .objects, .packets, .ports, .lanes, .buffer, .search, .pipes, .clusters, .timeBases,
      .pins, .cipher, .rings, .arbiters, .pools, .sessions, .counters, .out] s (startOfBeat s) := by
  unfold startOfBeat
  extract_lets pins _ s₁ s₂
  exact (scanArbs_touches ..).after ((sendNotifies_touches ..).after
    ((buildBeacons_touches ..).after ((issueWaiting_touches ..).after
    ((clustersBegin_touches ..).after ((passEarly_touches ..).after
    ((gainAll_touches ..).after (.foldl (fun _ _ => (realignWritten_touches ..).within)
    ((advanceAll_touches ..).after ((cellsSent_touches ..).after
    ((cellsArrive_touches ..).after ((giveReturned_touches ..).after ((runSoon_touches ..).after .update))))))))))))

theorem passBeat_touches (s : State) :
    Touches Part.all s (passBeat s) := by
  unfold passBeat
  refine .whenRun (endOfBeat_touches ..).within ?_
  extract_lets s₁
  refine .trans (t := s₁) ((startOfBeat_touches ..).after ((beatCounts_touches ..).after ?_)) ?_
  · exact (flushAll_touches ..).after ((queueFlows_touches ..).after
      ((evalAllX_touches ..).after (endOfBeat_touches ..).within))
  · exact .ite (chipReset_touches ..).within .refl

theorem rowBeat_touches (s : State) :
    Touches Part.all s (rowBeat s) := by
  unfold rowBeat
  exact .whenRun .refl (passBeat_touches ..).within

/-- Every frame is one of all the parts. -/
theorem inside_all (P : List Part) : inside P Part.all = true := by
  rw [inside, List.all_eq_true]
  intro p _
  cases p <;> rfl

/-! ## Every command -/

/-- What comes before a command in its beat keeps the queue and what has left the part. -/
theorem actsOn_touches (c : Instr) (s : State) : Touches Part.all s (actsOn c s) := by
  unfold actsOn
  split
  case h_9 => exact (pastBoundary_touches ..).within
  case h_10 => exact (pastCommit_touches ..).within
  case h_11 => exact (pastSoft_touches ..).within
  case h_12 => exact (settled_touches ..).within
  all_goals exact .refl

/-- A command answers a next state, and touches the parts that the table names for it. -/
theorem exec_touches (c : Instr) (s : State) : ∃ t, exec c s = .next t ∧ Touches (mayTouch c) (actsOn c s) t := by
  cases c with
  | porNAssert _ => exact ⟨_, rfl, (rowPorNAssert_touches ..).within⟩
  | resetNAssert => exact ⟨_, rfl, (rowResetNAssert_touches ..).within⟩
  | boot _ _ _ _ _ _ => exact ⟨_, rfl, (rowBoot_touches ..).within⟩
  | resetBootImageWrite _ => exact ⟨_, rfl, (rowResetBootImageWrite_touches ..).within⟩
  | resetCmdChip _ => exact ⟨_, rfl, (rowResetCmdChip_touches ..).within⟩
  | resetCmdSoft _ => exact ⟨_, rfl, (rowResetCmdSoft_touches ..).within⟩
  | resetCmdPipe _ _ => exact ⟨_, rfl, (rowResetCmdPipe_touches ..).within⟩
  | resetCmdPort _ _ => exact ⟨_, rfl, (rowResetCmdPort_touches ..).within⟩
  | softReset => exact ⟨_, rfl, (rowSoftReset_touches ..).within⟩
  | softResetDone => exact ⟨_, rfl, (rowSoftResetDone_touches ..).within⟩
  | pipeResetStart _ => exact ⟨_, rfl, (rowPipeResetStart_touches ..).within⟩
  | pipeReset _ => exact ⟨_, rfl, (rowPipeReset_touches ..).within⟩
  | functionReset _ => exact ⟨_, rfl, (rowFunctionReset_touches ..).within⟩
  | supplyWarn _ _ => exact ⟨_, rfl, (rowSupplyWarn_touches ..).within⟩
  | supplyDip _ _ => exact ⟨_, rfl, (rowSupplyDip_touches ..).within⟩
  | supplyOk => exact ⟨_, rfl, (rowSupplyOk_touches ..).within⟩
  | supplyReset _ _ => exact ⟨_, rfl, (rowSupplyReset_touches ..).within⟩
  | supplyResetRelease => exact ⟨_, rfl, (rowSupplyResetRelease_touches ..).within⟩
  | freeze => exact ⟨_, rfl, (rowFreeze_touches ..).within⟩
  | debugFreeze _ => exact ⟨_, rfl, (rowDebugFreeze_touches ..).within⟩
  | beat => exact ⟨_, rfl, (rowBeat_touches ..).within⟩
  | tickBoundary => exact ⟨_, rfl, (rowTickBoundary_touches ..).within⟩
  | versionCommit => exact ⟨_, rfl, (rowVersionCommit_touches ..).within⟩
  | slotReserve => exact ⟨_, rfl, (rowSlotReserve_touches ..).within⟩
  | slotRetire _ => exact ⟨_, rfl, (rowSlotRetire_touches ..).within⟩
  | etwenBeacon => exact ⟨_, rfl, (rowEtwenBeacon_touches ..).within⟩
  | counterDump => exact ⟨_, rfl, (rowCounterDump_touches ..).within⟩
  | dumpRecordWrite => exact ⟨_, rfl, (rowDumpRecordWrite_touches ..).within⟩
  | objectNotify _ => exact ⟨_, rfl, (rowObjectNotify_touches ..).within⟩
  | templateSetSend _ _ => exact ⟨_, rfl, (rowTemplateSetSend_touches ..).within⟩
  | idleExportTask => exact ⟨_, rfl, (rowIdleExportTask_touches ..).within⟩
  | homeBeat _ _ => exact ⟨_, rfl, (rowHomeBeat_touches ..).within⟩
  | hbmReadLand _ _ _ => exact ⟨_, rfl, (rowHbmReadLand_touches ..).within⟩
  | hbmWriteLand _ _ => exact ⟨_, rfl, (rowHbmWriteLand_touches ..).within⟩
  | holdingQueueRelease _ => exact ⟨_, rfl, (rowHoldingQueueRelease_touches ..).within⟩
  | microwordIssue _ _ _ => exact ⟨_, rfl, (rowMicrowordIssue_touches ..).within⟩
  | engineBudgetTrap _ _ => exact ⟨_, rfl, (rowEngineBudgetTrap_touches ..).within⟩
  | resequencerRelease _ => exact ⟨_, rfl, (rowResequencerRelease_touches ..).within⟩
  | verifyResult _ _ => exact ⟨_, rfl, (rowVerifyResult_touches ..).within⟩
  | idleStepStart _ => exact ⟨_, rfl, (rowIdleStepStart_touches ..).within⟩
  | idleStepPublish _ _ _ => exact ⟨_, rfl, (rowIdleStepPublish_touches ..).within⟩
  | idleOverrun _ _ => exact ⟨_, rfl, (rowIdleOverrun_touches ..).within⟩
  | packetCommit _ => exact ⟨_, rfl, (rowPacketCommit_touches ..).within⟩
  | ageCommit _ => exact ⟨_, rfl, (rowAgeCommit_touches ..).within⟩
  | relocMoveCommit _ => exact ⟨_, rfl, (rowRelocMoveCommit_touches ..).within⟩
  | dscrubCommit _ => exact ⟨_, rfl, (rowDscrubCommit_touches ..).within⟩
  | hcmdInsert _ => exact ⟨_, rfl, (rowHcmdInsert_touches ..).within⟩
  | hcmdDelete _ => exact ⟨_, rfl, (rowHcmdDelete_touches ..).within⟩
  | hcmdModify _ => exact ⟨_, rfl, (rowHcmdModify_touches ..).within⟩
  | hcmdRead _ => exact ⟨_, rfl, (rowHcmdRead_touches ..).within⟩
  | hcmdRejected _ => exact ⟨_, rfl, (rowHcmdRejected_touches ..).within⟩
  | flowQuarantineRelease _ _ => exact ⟨_, rfl, (rowFlowQuarantineRelease_touches ..).within⟩
  | natRelease _ _ => exact ⟨_, rfl, (rowNatRelease_touches ..).within⟩
  | twrite _ => exact ⟨_, rfl, (rowTwrite_touches ..).within⟩
  | tscrub _ _ _ => exact ⟨_, rfl, (rowTscrub_touches ..).within⟩
  | ewrite _ => exact ⟨_, rfl, (rowEwrite_touches ..).within⟩
  | frameIngress _ _ _ _ => exact ⟨_, rfl, (rowFrameIngress_touches ..).within⟩
  | frameTail _ => exact ⟨_, rfl, (rowFrameTail_touches ..).within⟩
  | policerJudge _ => exact ⟨_, rfl, (rowPolicerJudge_touches ..).within⟩
  | egressEntry _ => exact ⟨_, rfl, (rowEgressEntry_touches ..).within⟩
  | frameTransmitStart _ _ _ => exact ⟨_, rfl, (rowFrameTransmitStart_touches ..).within⟩
  | frameTransmitEnd _ => exact ⟨_, rfl, (rowFrameTransmitEnd_touches ..).within⟩
  | copyDeliver _ _ => exact ⟨_, rfl, (rowCopyDeliver_touches ..).within⟩
  | sampleFormatTimeout _ => exact ⟨_, rfl, (rowSampleFormatTimeout_touches ..).within⟩
  | exportMessageSend _ _ _ => exact ⟨_, rfl, (rowExportMessageSend_touches ..).within⟩
  | flowControlFrameSend _ => exact ⟨_, rfl, (rowFlowControlFrameSend_touches ..).within⟩
  | flowControlRepeat _ => exact ⟨_, rfl, (rowFlowControlRepeat_touches ..).within⟩
  | pauseFrameReceive _ _ => exact ⟨_, rfl, (rowPauseFrameReceive_touches ..).within⟩
  | pauseExpiry _ _ => exact ⟨_, rfl, (rowPauseExpiry_touches ..).within⟩
  | linkHoldExpiry _ => exact ⟨_, rfl, (rowLinkHoldExpiry_touches ..).within⟩
  | linkFlushed _ => exact ⟨_, rfl, (rowLinkFlushed_touches ..).within⟩
  | gateListStarted _ => exact ⟨_, rfl, (rowGateListStarted_touches ..).within⟩
  | gateInstant _ => exact ⟨_, rfl, (rowGateInstant_touches ..).within⟩
  | portEnable _ _ => exact ⟨_, rfl, (rowPortEnable_touches ..).within⟩
  | portDisable _ _ => exact ⟨_, rfl, (rowPortDisable_touches ..).within⟩
  | anComplete _ _ _ => exact ⟨_, rfl, (rowAnComplete_touches ..).within⟩
  | trainingDone _ _ => exact ⟨_, rfl, (rowTrainingDone_touches ..).within⟩
  | trainingTimeout _ => exact ⟨_, rfl, (rowTrainingTimeout_touches ..).within⟩
  | linkUp _ _ => exact ⟨_, rfl, (rowLinkUp_touches ..).within⟩
  | lockTimeout _ _ => exact ⟨_, rfl, (rowLockTimeout_touches ..).within⟩
  | restartDelayExpiry _ => exact ⟨_, rfl, (rowRestartDelayExpiry_touches ..).within⟩
  | linkDown _ => exact ⟨_, rfl, (rowLinkDown_touches ..).within⟩
  | linkHiBer _ _ => exact ⟨_, rfl, (rowLinkHiBer_touches ..).within⟩
  | linkFaultClear _ => exact ⟨_, rfl, (rowLinkFaultClear_touches ..).within⟩
  | serRefclkLost _ => exact ⟨_, rfl, (rowSerRefclkLost_touches ..).within⟩
  | serRefclkRestored _ => exact ⟨_, rfl, (rowSerRefclkRestored_touches ..).within⟩
  | laneSearchEnter _ _ => exact ⟨_, rfl, (rowLaneSearchEnter_touches ..).within⟩
  | laneSearchSlip _ _ _ => exact ⟨_, rfl, (rowLaneSearchSlip_touches ..).within⟩
  | laneSearchWindowEnd _ _ => exact ⟨_, rfl, (rowLaneSearchWindowEnd_touches ..).within⟩
  | laneSearchExit _ _ => exact ⟨_, rfl, (rowLaneSearchExit_touches ..).within⟩
  | lanePowerDeep _ _ => exact ⟨_, rfl, (rowLanePowerDeep_touches ..).within⟩
  | lanePowerOff _ _ => exact ⟨_, rfl, (rowLanePowerOff_touches ..).within⟩
  | lanePowerActive _ _ => exact ⟨_, rfl, (rowLanePowerActive_touches ..).within⟩
  | lpiEnter _ => exact ⟨_, rfl, (rowLpiEnter_touches ..).within⟩
  | lpiWake _ => exact ⟨_, rfl, (rowLpiWake_touches ..).within⟩
  | macsecRxFrame _ _ _ _ => exact ⟨_, rfl, (rowMacsecRxFrame_touches ..).within⟩
  | macsecRxDeliver _ _ => exact ⟨_, rfl, (rowMacsecRxDeliver_touches ..).within⟩
  | entropyHealthFail => exact ⟨_, rfl, (rowEntropyHealthFail_touches ..).within⟩
  | cipherUnitRestore _ _ => exact ⟨_, rfl, (rowCipherUnitRestore_touches ..).within⟩
  | cipherKatDone _ _ => exact ⟨_, rfl, (rowCipherKatDone_touches ..).within⟩
  | lookasideJob _ _ _ _ _ _ => exact ⟨_, rfl, (rowLookasideJob_touches ..).within⟩
  | lookasideJobComplete _ => exact ⟨_, rfl, (rowLookasideJobComplete_touches ..).within⟩
  | tbEnable _ _ => exact ⟨_, rfl, (rowTbEnable_touches ..).within⟩
  | tbValid _ => exact ⟨_, rfl, (rowTbValid_touches ..).within⟩
  | tbDisable _ _ => exact ⟨_, rfl, (rowTbDisable_touches ..).within⟩
  | tbStep _ _ _ => exact ⟨_, rfl, (rowTbStep_touches ..).within⟩
  | tbRateWrite _ _ _ => exact ⟨_, rfl, (rowTbRateWrite_touches ..).within⟩
  | tbSlew _ _ _ => exact ⟨_, rfl, (rowTbSlew_touches ..).within⟩
  | toutConfigWrite _ _ _ _ => exact ⟨_, rfl, (rowToutConfigWrite_touches ..).within⟩
  | timeOutPulse _ => exact ⟨_, rfl, (rowTimeOutPulse_touches ..).within⟩
  | timeOutPulseEnd _ => exact ⟨_, rfl, (rowTimeOutPulseEnd_touches ..).within⟩
  | timeCapture _ _ _ => exact ⟨_, rfl, (rowTimeCapture_touches ..).within⟩
  | tinAck _ _ _ => exact ⟨_, rfl, (rowTinAck_touches ..).within⟩
  | arbiterRound _ => exact ⟨_, rfl, (rowArbiterRound_touches ..).within⟩
  | arbiterGrantCut _ => exact ⟨_, rfl, (rowArbiterGrantCut_touches ..).within⟩
  | rxRingDoorbell _ _ _ => exact ⟨_, rfl, (rowRxRingDoorbell_touches ..).within⟩
  | txRingDoorbell _ _ _ => exact ⟨_, rfl, (rowTxRingDoorbell_touches ..).within⟩
  | cmdRingDoorbell _ _ _ _ => exact ⟨_, rfl, (rowCmdRingDoorbell_touches ..).within⟩
  | completionRingDoorbell _ _ _ => exact ⟨_, rfl, (rowCompletionRingDoorbell_touches ..).within⟩
  | byteRingDoorbell _ _ _ => exact ⟨_, rfl, (rowByteRingDoorbell_touches ..).within⟩
  | txDescriptorFetch _ _ => exact ⟨_, rfl, (rowTxDescriptorFetch_touches ..).within⟩
  | txFrameEnter _ _ => exact ⟨_, rfl, (rowTxFrameEnter_touches ..).within⟩
  | rxWriteback _ _ => exact ⟨_, rfl, (rowRxWriteback_touches ..).within⟩
  | completionWrite _ => exact ⟨_, rfl, (rowCompletionWrite_touches ..).within⟩
  | eventRecordWrite => exact ⟨_, rfl, (rowEventRecordWrite_touches ..).within⟩
  | msixTimerExpiry _ => exact ⟨_, rfl, (rowMsixTimerExpiry_touches ..).within⟩
  | ringEnable _ _ _ => exact ⟨_, rfl, (rowRingEnable_touches ..).within⟩
  | ringDisable _ _ => exact ⟨_, rfl, (rowRingDisable_touches ..).within⟩
  | ringStopped _ => exact ⟨_, rfl, (rowRingStopped_touches ..).within⟩
  | dmaReadError _ _ => exact ⟨_, rfl, (rowDmaReadError_touches ..).within⟩
  | barWrite _ _ _ _ => exact ⟨_, rfl, (rowBarWrite_touches ..).within⟩
  | poolAllocate _ _ _ => exact ⟨_, rfl, (rowPoolAllocate_touches ..).within⟩
  | poolFree _ _ _ => exact ⟨_, rfl, (rowPoolFree_touches ..).within⟩
  | poolReqInvalid _ _ _ => exact ⟨_, rfl, (rowPoolReqInvalid_touches ..).within⟩
  | poolOwnerReclaim _ _ => exact ⟨_, rfl, (rowPoolOwnerReclaim_touches ..).within⟩
  | schedRowWrite _ _ _ _ => exact ⟨_, rfl, (rowSchedRowWrite_touches ..).within⟩
  | schedClearDebt _ _ => exact ⟨_, rfl, (rowSchedClearDebt_touches ..).within⟩
  | versionCancel _ _ => exact ⟨_, rfl, (rowVersionCancel_touches ..).within⟩
  | legacyWrite _ _ _ => exact ⟨_, rfl, (rowLegacyWrite_touches ..).within⟩
  | bankModeWrite _ _ _ => exact ⟨_, rfl, (rowBankModeWrite_touches ..).within⟩
  | engineImageStage _ _ _ => exact ⟨_, rfl, (rowEngineImageStage_touches ..).within⟩
  | imageVerify => exact ⟨_, rfl, (rowImageVerify_touches ..).within⟩
  | engineKeyEnrol _ _ _ _ => exact ⟨_, rfl, (rowEngineKeyEnrol_touches ..).within⟩
  | engineKeyRevoke _ _ _ => exact ⟨_, rfl, (rowEngineKeyRevoke_touches ..).within⟩
  | engineClusterFreeze _ _ => exact ⟨_, rfl, (rowEngineClusterFreeze_touches ..).within⟩
  | engineClusterRelease _ _ => exact ⟨_, rfl, (rowEngineClusterRelease_touches ..).within⟩
  | mabinHello _ _ => exact ⟨_, rfl, (rowMabinHello_touches ..).within⟩
  | mabinHelloRekey _ _ => exact ⟨_, rfl, (rowMabinHelloRekey_touches ..).within⟩
  | mabinHelloClose _ _ => exact ⟨_, rfl, (rowMabinHelloClose_touches ..).within⟩
  | mabinRead _ _ => exact ⟨_, rfl, (rowMabinRead_touches ..).within⟩
  | mabinWrite _ _ => exact ⟨_, rfl, (rowMabinWrite_touches ..).within⟩
  | mabinStage _ _ => exact ⟨_, rfl, (rowMabinStage_touches ..).within⟩
  | mabinCommit _ _ => exact ⟨_, rfl, (rowMabinCommit_touches ..).within⟩
  | mabinLock _ _ => exact ⟨_, rfl, (rowMabinLock_touches ..).within⟩
  | mabinUnlock _ _ => exact ⟨_, rfl, (rowMabinUnlock_touches ..).within⟩
  | subscribeAddEvents _ _ => exact ⟨_, rfl, (rowSubscribeAddEvents_touches ..).within⟩
  | subscribeAddObject _ _ => exact ⟨_, rfl, (rowSubscribeAddObject_touches ..).within⟩
  | subscribeRemoveAll _ _ => exact ⟨_, rfl, (rowSubscribeRemoveAll_touches ..).within⟩
  | blockRead _ _ => exact ⟨_, rfl, (rowBlockRead_touches ..).within⟩
  | blockWrite _ _ => exact ⟨_, rfl, (rowBlockWrite_touches ..).within⟩
  | mboxInWrite _ => exact ⟨_, rfl, (rowMboxInWrite_touches ..).within⟩
  | mboxOutRead => exact ⟨_, rfl, (rowMboxOutRead_touches ..).within⟩
  | sessionIdleExpiry _ => exact ⟨_, rfl, (rowSessionIdleExpiry_touches ..).within⟩
  | lockExpired => exact ⟨_, rfl, (rowLockExpired_touches ..).within⟩
  | localLock => exact ⟨_, rfl, (rowLocalLock_touches ..).within⟩
  | localUnlock => exact ⟨_, rfl, (rowLocalUnlock_touches ..).within⟩
  | localCommit _ _ => exact ⟨_, rfl, (rowLocalCommit_touches ..).within⟩
  | mabinCredWrite _ _ => exact ⟨_, rfl, (rowMabinCredWrite_touches ..).within⟩
  | cipherKeyWrite _ _ => exact ⟨_, rfl, (rowCipherKeyWrite_touches ..).within⟩
  | cntOverflowClear _ _ => exact ⟨_, rfl, (rowCntOverflowClear_touches ..).within⟩
  | cntFilterSelect _ _ _ => exact ⟨_, rfl, (rowCntFilterSelect_touches ..).within⟩
  | cntFilterChain _ _ => exact ⟨_, rfl, (rowCntFilterChain_touches ..).within⟩
  | releasePort _ _ _ => exact ⟨_, rfl, (rowReleasePort_touches ..).within⟩
  | releaseFunction _ _ => exact ⟨_, rfl, (rowReleaseFunction_touches ..).within⟩
  | releaseRing _ _ => exact ⟨_, rfl, (rowReleaseRing_touches ..).within⟩
  | releaseSession _ _ => exact ⟨_, rfl, (rowReleaseSession_touches ..).within⟩
  | releasePoolOwner _ _ => exact ⟨_, rfl, (rowReleasePoolOwner_touches ..).within⟩
  | powerPipeOff _ _ => exact ⟨_, rfl, (rowPowerPipeOff_touches ..).within⟩
  | powerPipeWake _ _ => exact ⟨_, rfl, (rowPowerPipeWake_touches ..).within⟩
  | pipePower _ => exact ⟨_, rfl, (rowPipePower_touches ..).within⟩
  | eventLogAck _ _ => exact ⟨_, rfl, (rowEventLogAck_touches ..).within⟩
  | i2cPointerWrite _ => exact ⟨_, rfl, (rowI2cPointerWrite_touches ..).within⟩
  | i2cRead _ => exact ⟨_, rfl, (rowI2cRead_touches ..).within⟩
  | objectWrite _ _ _ _ _ => exact ⟨_, rfl, (rowObjectWrite_touches ..).within⟩
  | keptCoefficientsLockTimeout _ => exact ⟨_, rfl, (rowKeptCoefficientsLockTimeout_touches ..).within⟩
  | sriovVfEnable _ => exact ⟨_, rfl, (rowSriovVfEnable_touches ..).within⟩
  | pcieLinkTrained _ _ => exact ⟨_, rfl, (rowPcieLinkTrained_touches ..).within⟩
  | bufCellsFreeLowRead => exact ⟨_, rfl, (rowBufCellsFreeLowRead_touches ..).within⟩

/-- Settles O54: what a command touches, after what comes before it in its beat. -/
theorem everyCommandAnswers : Obligations.EveryCommandAnswers := by
  intro c s
  obtain ⟨t, ht, touched⟩ := exec_touches c s
  have both := (actsOn_touches c s).trans (touched.within (inside_all _))
  exact ⟨t, ht, both.queue, both.left⟩

theorem not_among_of_not_mem {P : List Part} {p : Part} (h : p ∉ P) : among P p = false := by
  induction P with
  | nil => rfl
  | cons q P ih =>
    simp only [List.mem_cons, not_or] at h
    obtain ⟨ne, h⟩ := h
    rw [among, ih h, Bool.or_false, Bool.eq_false_iff]
    intro e
    replace e := Nat.eq_of_beq_eq_true e
    exact ne (by rw [← Part.ofNat_ctorIdx p, ← e, Part.ofNat_ctorIdx])

/-- The parts that the table does not name for a command are as the boundary has left them. -/
theorem same_of_not_mem_mayTouch {c : Instr} {s t : State} {p : Part} (h : exec c s = .next t)
    (hp : p ∉ mayTouch c) : same p (actsOn c s) t := by
  obtain ⟨u, hu, touched⟩ := exec_touches c s
  obtain rfl : u = t := Host.Outcome.next.inj (hu.symm.trans h)
  exact touched.rest p (not_among_of_not_mem hp)

/-- Settles O58: by the table of what each command touches. -/
theorem framesOfResetsBeatsAndHome : Obligations.FramesOfResetsBeatsAndHome :=
  fun _ _ _ _ _ h hp => same_of_not_mem_mayTouch h hp

/-- Settles O60: by the table of what each command touches. -/
theorem framesOfHostTablesAndMabin : Obligations.FramesOfHostTablesAndMabin :=
  fun _ _ _ _ _ h hp => same_of_not_mem_mayTouch h hp

/-! ## What a write keeps -/

/-- A write keeps what the lease, the reject record, the counters and its effect keep. -/
theorem writeCmd_keeps {α : Type} (f : State → α) {s : State} {src : Origin} {idx sub row : Nat} {v : Bytes}
    {eff : State → Option State} (lease : ∀ t n, f (renewLease t n) = f t)
    (rest : ∀ t u, Touches [.reject, .counters] t u → f u = f t) (h : ∀ t u, eff t = some u → f u = f t) :
    f (writeCmd s src idx sub row v eff) = f s := by
  have reject (t : State) (e : Nat) : f (rejectWrite t src idx sub e) = f t := rest _ _ (rejectWrite_touches ..)
  unfold writeCmd whenRun
  split
  case isFalse => rfl
  beta_reduce
  unfold writeBy
  split
  · rfl
  extract_lets s₁ err
  have hs₁ : f s₁ = f s := lease ..
  split
  · split
    next u done => exact ((rest _ _ (filtered_touches ..).within).trans (h _ _ done)).trans hs₁
    · exact (reject ..).trans hs₁
  · exact (reject ..).trans hs₁

theorem renewLease_staged (s : State) (n : Nat) : (renewLease s n).mabin.staged = s.mabin.staged := by
  have renewed (e : Nat) : { s with mabin := { s.mabin with expires := e } }.mabin.staged = s.mabin.staged := rfl
  unfold renewLease
  split
  · exact renewed _
  · rfl

theorem Touches.staged {P : List Part} {s t : State} (h : Touches P s t) (hP : among P .lock = false := by rfl) :
    t.mabin.staged = s.mabin.staged := by
  obtain ⟨-, -, staged, -⟩ := h.rest .lock hP
  exact staged

/-- A write stages nothing where its effect leaves the lock. -/
theorem writeCmd_staged {P : List Part} {s : State} {src : Origin} {idx sub row : Nat} {v : Bytes}
    {eff : State → Option State} (h : ∀ t, OptTouches P t (eff t)) (hP : among P .lock = false := by rfl) :
    (writeCmd s src idx sub row v eff).mabin.staged = s.mabin.staged :=
  writeCmd_keeps (fun t => t.mabin.staged) renewLease_staged (fun _ _ k => k.staged)
    fun t _ done => ((h t).get done).staged hP

/-- The families of O59. -/
abbrev trafficFamilies : List Family := [.frames, .ports, .cipher, .timing, .arbiters]

theorem memories_not_mem_mayTouch {c : Instr} (h : family c ∈ trafficFamilies) :
    Part.search ∉ mayTouch c ∧ Part.flow ∉ mayTouch c ∧ Part.util ∉ mayTouch c ∧ Part.rewrites ∉ mayTouch c := by
  cases c <;> simp_all [family, mayTouch]

theorem mem_eq_of_same {s t : State} (search : same .search s t) (flow : same .flow s t) (util : same .util s t)
    (rewrites : same .rewrites s t) : t.mem = s.mem := by
  obtain ⟨h1, h2, h3, h4, h5, h6⟩ := search
  obtain ⟨h7, h8, h9, h10, h11⟩ := flow
  obtain ⟨h12, h13, h14⟩ := rewrites
  simp only [same] at util
  revert h1 h2 h3 h4 h5 h6 h7 h8 h9 h10 h11 h12 h13 h14 util
  generalize t.mem = m
  generalize s.mem = m'
  cases m
  cases m'
  simp_all

/-- The commands of these families that write an object: they renew the writer's lease. -/
def writesObject : Instr → Bool
  | .portEnable .. | .portDisable .. | .laneSearchEnter .. | .laneSearchSlip .. | .laneSearchExit .. |
    .lanePowerDeep .. | .lanePowerOff .. | .lanePowerActive .. | .cipherUnitRestore .. | .tbEnable .. |
    .tbDisable .. | .tbStep .. | .tbRateWrite .. | .tbSlew .. | .toutConfigWrite .. | .tinAck .. => true
  | _ => false

theorem lock_not_mem_mayTouch {c : Instr} (hf : family c ∈ trafficFamilies) (h : writesObject c = false) :
    Part.lock ∉ mayTouch c := by
  cases c <;> simp_all [family, mayTouch, writesObject]

theorem rowPortEnable_staged (src : Origin) (node : Nat) (s : State) :
    (rowPortEnable src node s).mabin.staged = s.mabin.staged := by
  unfold rowPortEnable
  exact writeCmd_staged fun _ => portEnableEff_touches ..

theorem rowPortDisable_staged (src : Origin) (node : Nat) (s : State) :
    (rowPortDisable src node s).mabin.staged = s.mabin.staged := by
  unfold rowPortDisable
  exact writeCmd_staged fun _ => portDisableEff_touches ..

theorem rowLaneSearchEnter_staged (src : Origin) (lane : Nat) (s : State) :
    (rowLaneSearchEnter src lane s).mabin.staged = s.mabin.staged := by
  unfold rowLaneSearchEnter
  exact writeCmd_staged fun _ => searchEnter_touches ..

theorem rowLaneSearchSlip_staged (src : Origin) (lane ui : Nat) (s : State) :
    (rowLaneSearchSlip src lane ui s).mabin.staged = s.mabin.staged := by
  unfold rowLaneSearchSlip
  exact writeCmd_staged fun _ => searchSlip_touches ..

theorem rowLaneSearchExit_staged (src : Origin) (lane : Nat) (s : State) :
    (rowLaneSearchExit src lane s).mabin.staged = s.mabin.staged := by
  unfold rowLaneSearchExit
  exact writeCmd_staged fun _ => searchExit_touches ..

theorem rowLanePowerDeep_staged (src : Origin) (lane : Nat) (s : State) :
    (rowLanePowerDeep src lane s).mabin.staged = s.mabin.staged := by
  unfold rowLanePowerDeep
  exact writeCmd_staged fun _ => lanePower_touches ..

theorem rowLanePowerOff_staged (src : Origin) (lane : Nat) (s : State) :
    (rowLanePowerOff src lane s).mabin.staged = s.mabin.staged := by
  unfold rowLanePowerOff
  exact writeCmd_staged fun _ => lanePower_touches ..

theorem rowLanePowerActive_staged (src : Origin) (lane : Nat) (s : State) :
    (rowLanePowerActive src lane s).mabin.staged = s.mabin.staged := by
  unfold rowLanePowerActive
  exact writeCmd_staged fun _ => lanePower_touches ..

theorem rowCipherUnitRestore_staged (src : Origin) (unit : Nat) (s : State) :
    (rowCipherUnitRestore src unit s).mabin.staged = s.mabin.staged := by
  unfold rowCipherUnitRestore
  exact writeCmd_staged fun _ => .some (startTests_touches ..)

theorem rowTbEnable_staged (src : Origin) (tb : Nat) (s : State) :
    (rowTbEnable src tb s).mabin.staged = s.mabin.staged := by
  unfold rowTbEnable
  exact writeCmd_staged fun _ => tbEnable_touches ..

theorem rowTbDisable_staged (src : Origin) (tb : Nat) (s : State) :
    (rowTbDisable src tb s).mabin.staged = s.mabin.staged := by
  unfold rowTbDisable
  exact writeCmd_staged fun _ => tbDisable_touches ..

theorem rowTbStep_staged (src : Origin) (tb offset : Nat) (s : State) :
    (rowTbStep src tb offset s).mabin.staged = s.mabin.staged := by
  unfold rowTbStep
  exact writeCmd_staged fun _ => tbStep_touches ..

theorem rowTbRateWrite_staged (src : Origin) (tb rate : Nat) (s : State) :
    (rowTbRateWrite src tb rate s).mabin.staged = s.mabin.staged := by
  unfold rowTbRateWrite
  exact writeCmd_staged fun _ => tbSetRate_touches ..

theorem rowTbSlew_staged (src : Origin) (tb offset : Nat) (s : State) :
    (rowTbSlew src tb offset s).mabin.staged = s.mabin.staged := by
  unfold rowTbSlew
  exact writeCmd_staged fun _ => tbSlew_touches ..

theorem rowToutConfigWrite_staged (src : Origin) (pin sub value : Nat) (s : State) :
    (rowToutConfigWrite src pin sub value s).mabin.staged = s.mabin.staged := by
  unfold rowToutConfigWrite
  exact writeCmd_staged fun _ => toutWrite_touches ..

theorem rowTinAck_staged (src : Origin) (pin rows : Nat) (s : State) :
    (rowTinAck src pin rows s).mabin.staged = s.mabin.staged := by
  unfold rowTinAck
  exact writeCmd_staged fun _ => tinAck_touches ..

theorem staged_of_writesObject {c : Instr} (h : writesObject c = true) (s : State) :
    ∃ t, exec c s = .next t ∧ t.mabin.staged = (actsOn c s).mabin.staged := by
  cases c
  case portEnable => exact ⟨_, rfl, rowPortEnable_staged ..⟩
  case portDisable => exact ⟨_, rfl, rowPortDisable_staged ..⟩
  case laneSearchEnter => exact ⟨_, rfl, rowLaneSearchEnter_staged ..⟩
  case laneSearchSlip => exact ⟨_, rfl, rowLaneSearchSlip_staged ..⟩
  case laneSearchExit => exact ⟨_, rfl, rowLaneSearchExit_staged ..⟩
  case lanePowerDeep => exact ⟨_, rfl, rowLanePowerDeep_staged ..⟩
  case lanePowerOff => exact ⟨_, rfl, rowLanePowerOff_staged ..⟩
  case lanePowerActive => exact ⟨_, rfl, rowLanePowerActive_staged ..⟩
  case cipherUnitRestore => exact ⟨_, rfl, rowCipherUnitRestore_staged ..⟩
  case tbEnable => exact ⟨_, rfl, rowTbEnable_staged ..⟩
  case tbDisable => exact ⟨_, rfl, rowTbDisable_staged ..⟩
  case tbStep => exact ⟨_, rfl, rowTbStep_staged ..⟩
  case tbRateWrite => exact ⟨_, rfl, rowTbRateWrite_staged ..⟩
  case tbSlew => exact ⟨_, rfl, rowTbSlew_staged ..⟩
  case toutConfigWrite => exact ⟨_, rfl, rowToutConfigWrite_staged ..⟩
  case tinAck => exact ⟨_, rfl, rowTinAck_staged ..⟩
  all_goals cases h

/-- The commands of these families stage nothing: those that touch the lock are writes, which renew its lease. -/
theorem staged_of_traffic {c : Instr} {s t : State} (hf : family c ∈ trafficFamilies) (h : exec c s = .next t) :
    t.mabin.staged = (actsOn c s).mabin.staged := by
  cases hw : writesObject c with
  | false =>
    obtain ⟨-, -, staged, -⟩ := same_of_not_mem_mayTouch h (lock_not_mem_mayTouch hf hw)
    exact staged
  | true =>
    obtain ⟨u, hu, staged⟩ := staged_of_writesObject hw s
    obtain rfl := Host.Outcome.next.inj (hu.symm.trans h)
    exact staged

/-- Settles O59: by the table of what each command touches, and the writes' effects leave what is staged. -/
theorem framesOfTrafficPortsAndTime : Obligations.FramesOfTrafficPortsAndTime := by
  refine ⟨fun _ _ _ _ _ h hp => same_of_not_mem_mayTouch h hp, fun c s t hf h => ⟨?_, staged_of_traffic hf h⟩⟩
  obtain ⟨search, flow, util, rewrites⟩ := memories_not_mem_mayTouch hf
  exact mem_eq_of_same (same_of_not_mem_mayTouch h search) (same_of_not_mem_mayTouch h flow)
    (same_of_not_mem_mayTouch h util) (same_of_not_mem_mayTouch h rewrites)

/-! ## Units of the same kind (O57) -/

/-- The state that a command leaves when its boundary has passed. -/
theorem eq_row {s t : State} (row : State → State) (hs : settled s = s)
    (h : (Host.Outcome.next (row (settled s)) : Host.Outcome State Fault Refusal) = .next t) : t = row s := by
  rw [hs] at h
  exact (Host.Outcome.next.inj h).symm

theorem whenRun_keeps {α : Type} (f : State → α) {s : State} {g : State → State} (h : f (g s) = f s) :
    f (whenRun s g) = f s := by
  unfold whenRun
  split
  · exact h
  · rfl

theorem guardS_keeps {α : Type} (f : State → α) {s t : State} {c : Bool} {g : State → State} (h : f t = f s)
    (k : f (g t) = f s) : f (guardS c t g) = f s := by
  unfold guardS
  split
  · exact k
  · exact h

namespace Touches

variable {P : List Part} {s t : State}

theorem tbAt (h : Touches P s t) (k : Nat) (hP : among P .timeBases = false := by rfl) :
    tbAt t k = tbAt s k := by
  have e : t.tbs = s.tbs := h.rest .timeBases hP
  rw [Machine.tbAt, Machine.tbAt, e]

theorem toutAt (h : Touches P s t) (k : Nat) (hP : among P .pins = false := by rfl) :
    toutAt t k = toutAt s k := by
  obtain ⟨e, -⟩ := h.rest .pins hP
  rw [Machine.toutAt, Machine.toutAt, e]

theorem tinAt (h : Touches P s t) (k : Nat) (hP : among P .pins = false := by rfl) :
    tinAt t k = tinAt s k := by
  obtain ⟨-, e⟩ := h.rest .pins hP
  rw [Machine.tinAt, Machine.tinAt, e]

theorem ringAt (h : Touches P s t) (k : Nat) (hP : among P .rings = false := by rfl) :
    ringAt t k = ringAt s k := by
  obtain ⟨e, -⟩ := h.rest .rings hP
  rw [Machine.ringAt, Machine.ringAt, e]

theorem laneAt (h : Touches P s t) (k : Nat) (hP : among P .lanes = false := by rfl) :
    laneAt t k = laneAt s k := by
  have e : t.lanes = s.lanes := h.rest .lanes hP
  rw [Machine.laneAt, Machine.laneAt, e]

theorem portAt (h : Touches P s t) (k : Nat) (hP : among P .ports = false := by rfl) :
    portAt t k = portAt s k := by
  have e : t.ports = s.ports := h.rest .ports hP
  rw [Machine.portAt, Machine.portAt, e]

end Touches

/-! ### Time bases -/

section

variable {s : State} {b k : Nat} (h : k ≠ b)

theorem tbAt_writeCmd {src : Origin} {idx sub row : Nat} {v : Bytes} {eff : State → Option State}
    (keeps : ∀ t u, eff t = some u → tbAt u k = tbAt t k) : tbAt (writeCmd s src idx sub row v eff) k = tbAt s k :=
  writeCmd_keeps (fun t => tbAt t k) (fun _ _ => (renewLease_touches ..).tbAt k) (fun _ _ e => e.tbAt k) keeps

include h

theorem tbAt_rowTbEnable_ne (src : Origin) : tbAt (rowTbEnable src b s) k = tbAt s k := by
  refine tbAt_writeCmd fun t u e => ?_
  unfold tbEnable at e
  split at e
  · obtain rfl := Option.some.inj e
    exact (tbAt_modTb_ne _ _ h).trans ((setRw_touches ..).tbAt k)
  · obtain rfl := Option.some.inj e
    rfl

theorem tbAt_rowTbStep_ne (src : Origin) (o : Nat) : tbAt (rowTbStep src b o s) k = tbAt s k := by
  refine tbAt_writeCmd fun t u e => ?_
  unfold tbStep at e
  extract_lets at e
  split at e
  · cases e
  · obtain rfl := Option.some.inj e
    exact tbAt_modTb_ne _ _ h

theorem tbAt_rowTbSlew_ne (src : Origin) (o : Nat) : tbAt (rowTbSlew src b o s) k = tbAt s k := by
  refine tbAt_writeCmd fun t u e => ?_
  unfold tbSlew at e
  split at e
  · obtain rfl := Option.some.inj e
    exact tbAt_modTb_ne _ _ h
  · cases e

theorem tbAt_rowTbValid_ne : tbAt (rowTbValid b s) k = tbAt s k := by
  refine whenRun_keeps (fun t => tbAt t k) (guardS_keeps (fun t => tbAt t k) rfl ?_)
  have valid : tbAt (tbBecomeValid s b) k = tbAt s k :=
    calc tbAt (tbBecomeValid s b) k
      _ = tbAt (markTb (raiseEv (modTb s b _) evTbValid b []) b) k := (realignAll_touches ..).tbAt k
      _ = tbAt (raiseEv (modTb s b _) evTbValid b []) k := tbAt_modTb_ne _ _ h
      _ = tbAt (modTb s b _) k := (raiseEv_touches ..).tbAt k
      _ = tbAt s k := tbAt_modTb_ne _ _ h
  exact ((gatesRegain_touches ..).tbAt k).trans valid

end

theorem tbAt_of_other {s t : State} {c : Instr} {src : Origin} {b k o : Nat} (h : k ≠ b)
    (hc : c ∈ [Instr.tbEnable src b, .tbValid b, .tbDisable src b, .tbStep src b o, .tbRateWrite src b o,
      .tbSlew src b o]) (hs : settled s = s) (ht : exec c s = .next t) : tbAt t k = tbAt s k := by
  simp only [List.mem_cons, List.not_mem_nil, or_false] at hc
  obtain rfl | rfl | rfl | rfl | rfl | rfl := hc
  · rw [eq_row (rowTbEnable src b) hs ht, tbAt_rowTbEnable_ne h]
  · rw [eq_row (rowTbValid b) hs ht, tbAt_rowTbValid_ne h]
  · rw [eq_row (rowTbDisable src b) hs ht, (rowTbDisable_touches ..).tbAt k]
  · rw [eq_row (rowTbStep src b o) hs ht, tbAt_rowTbStep_ne h]
  · rw [eq_row (rowTbRateWrite src b o) hs ht, (rowTbRateWrite_touches ..).tbAt k]
  · rw [eq_row (rowTbSlew src b o) hs ht, tbAt_rowTbSlew_ne h]

/-! ### Pins -/

section

variable {s : State} {p k : Nat} (h : k ≠ p)

include h

theorem toutAt_modTout_ne (f : PinOut → PinOut) : toutAt (modTout s p f) k = toutAt s k := by
  simp [toutAt, modTout, tget_tmod_ne _ _ _ h]

theorem tinAt_modTin_ne (f : PinIn → PinIn) : tinAt (modTin s p f) k = tinAt s k := by
  simp [tinAt, modTin, tget_tmod_ne _ _ _ h]

theorem toutAt_missOneShot_ne : toutAt (missOneShot s p) k = toutAt s k := by
  unfold missOneShot
  extract_lets s₁
  have hs₁ : toutAt s₁ k = toutAt s k := ((setRw_touches ..).toutAt k).trans (toutAt_modTout_ne h _)
  exact ((raiseEv_touches ..).toutAt k).trans hs₁

theorem toutAt_pulse_ne : toutAt (pulse s p) k = toutAt s k := by
  unfold pulse
  extract_lets o t mode
  split
  · rfl
  split
  · split
    · exact toutAt_missOneShot_ne h
    · rfl
  · exact ((emit_touches ..).toutAt k).trans (toutAt_modTout_ne h _)

theorem toutAt_pulseEnd_ne : toutAt (pulseEnd s p) k = toutAt s k := by
  unfold pulseEnd
  extract_lets o
  split
  · exact ((emit_touches ..).toutAt k).trans (toutAt_modTout_ne h _)
  · rfl

theorem tinAt_capture_ne (up : Bool) (n : Nat) : tinAt (capture s p up n) k = tinAt s k := by
  unfold capture
  extract_lets edge o row again s₁
  generalize (if up then 0 else 1 : Nat) = sense
  split
  · rfl
  split
  · exact ((raiseEv_touches ..).tinAt k).trans (tinAt_modTin_ne h _)
  · have hs₁ : tinAt s₁ k = tinAt s k := tinAt_modTin_ne h _
    split
    · exact hs₁
    · exact ((raiseEv_touches ..).tinAt k).trans hs₁

end

theorem toutAt_of_other {s t : State} {c : Instr} {src : Origin} {p k x v : Nat} (h : k ≠ p)
    (hc : c ∈ [Instr.toutConfigWrite src p x v, .timeOutPulse p, .timeOutPulseEnd p]) (hs : settled s = s)
    (ht : exec c s = .next t) : toutAt t k = toutAt s k := by
  simp only [List.mem_cons, List.not_mem_nil, or_false] at hc
  obtain rfl | rfl | rfl := hc
  · rw [eq_row (rowToutConfigWrite src p x v) hs ht, (rowToutConfigWrite_touches ..).toutAt k]
  · rw [eq_row (rowTimeOutPulse p) hs ht]
    exact whenRun_keeps (fun t => toutAt t k) (toutAt_pulse_ne h)
  · rw [eq_row (rowTimeOutPulseEnd p) hs ht]
    exact whenRun_keeps (fun t => toutAt t k) (toutAt_pulseEnd_ne h)

theorem tinAt_of_other {s t : State} {c : Instr} {src : Origin} {p k n : Nat} {up : Bool} (h : k ≠ p)
    (hc : c ∈ [Instr.timeCapture p up n, .tinAck src p n]) (hs : settled s = s) (ht : exec c s = .next t) :
    tinAt t k = tinAt s k := by
  simp only [List.mem_cons, List.not_mem_nil, or_false] at hc
  obtain rfl | rfl := hc
  · rw [eq_row (rowTimeCapture p up n) hs ht]
    exact whenRun_keeps (fun t => tinAt t k) (tinAt_capture_ne h up n)
  · rw [eq_row (rowTinAck src p n) hs ht, (rowTinAck_touches ..).tinAt k]

/-! ### Rings -/

section

variable {s : State} {r k : Nat}

theorem ringAt_freezeFn (f cause detail : Nat) : ringAt (freezeFn s f cause detail) k = ringAt s k := by
  unfold freezeFn
  split
  · rfl
  · exact (freezeMaster_touches ..).ringAt k

theorem ringAt_writeCmd {src : Origin} {idx sub row : Nat} {v : Bytes} {eff : State → Option State}
    (keeps : ∀ t u, eff t = some u → ringAt u k = ringAt t k) :
    ringAt (writeCmd s src idx sub row v eff) k = ringAt s k :=
  writeCmd_keeps (fun t => ringAt t k) (fun _ _ => (renewLease_touches ..).ringAt k) (fun _ _ e => e.ringAt k) keeps

variable (h : k ≠ r)

include h

theorem ringAt_doorbell_ne (fn offset count : Nat) : ringAt (doorbell s fn r offset count) k = ringAt s k := by
  unfold doorbell
  split
  · rfl
  split
  · exact ringAt_freezeFn ..
  split
  · split
    · exact ringAt_modRing_ne _ _ h
    · exact ((freezeMaster_touches ..).ringAt k).trans (ringAt_modRing_ne _ _ h)
  · rfl

theorem ringAt_rowMsixTimerExpiry_ne : ringAt (rowMsixTimerExpiry r s) k = ringAt s k := by
  refine whenRun_keeps (fun t => ringAt t k) ?_
  have signalled : ringAt (signalRing s r) k = ringAt s k :=
    ((emit_touches ..).ringAt k).trans (ringAt_modRing_ne _ _ h)
  dsimp only
  split
  · split
    · exact signalled
    · rfl
  · rfl

theorem ringAt_ringWrite_ne {row : Bytes} {t : State} (e : ringWrite r row s = some t) :
    ringAt t k = ringAt s k := by
  have put (row : Bytes) : ringAt (putRingRow s r row) k = ringAt s k := (putRingRow_touches ..).ringAt k
  unfold ringWrite at e
  extract_lets place row' old s₁ at e
  split at e
  · cases e
  split at e
  · obtain rfl := Option.some.inj e
    exact (ringAt_modRing_ne _ _ h).trans (put _)
  split at e
  · obtain rfl := Option.some.inj e
    exact (ringAt_modRing_ne _ _ h).trans (put _)
  · obtain rfl := Option.some.inj e
    exact put _

theorem ringAt_ringRowWrite_ne {row : Bytes} {t : State} (e : ringRowWrite r row s = some t) :
    ringAt t k = ringAt s k := by
  obtain ⟨u, hu, rfl⟩ := Option.map_eq_some_iff.mp e
  exact ((dropUnfetched_touches ..).ringAt k).trans (ringAt_ringWrite_ne h hu)

theorem ringAt_stopDone_ne : ringAt (stopDone s r) k = ringAt s k := by
  unfold stopDone
  split
  · exact ringAt_modRing_ne _ _ h
  · rfl

end

theorem ringAt_of_other {s t : State} {c : Instr} {src : Origin} {f r k n : Nat} {w : Bytes} (h : k ≠ r)
    (hc : c ∈ [Instr.rxRingDoorbell f r n, .msixTimerExpiry r, .ringEnable src r w, .ringDisable src r,
      .ringStopped r, .dmaReadError f r])
    (hs : settled s = s) (ht : exec c s = .next t) : ringAt t k = ringAt s k := by
  simp only [List.mem_cons, List.not_mem_nil, or_false] at hc
  obtain rfl | rfl | rfl | rfl | rfl | rfl := hc
  · rw [eq_row (rowRxRingDoorbell f r n) hs ht]
    exact whenRun_keeps (fun t => ringAt t k) (ringAt_doorbell_ne h ..)
  · rw [eq_row (rowMsixTimerExpiry r) hs ht, ringAt_rowMsixTimerExpiry_ne h]
  · rw [eq_row (rowRingEnable src r w) hs ht]
    exact ringAt_writeCmd fun _ _ e => ringAt_ringWrite_ne h e
  · rw [eq_row (rowRingDisable src r) hs ht]
    exact ringAt_writeCmd fun _ _ e => ringAt_ringRowWrite_ne h e
  · rw [eq_row (rowRingStopped r) hs ht]
    exact whenRun_keeps (fun t => ringAt t k) (ringAt_stopDone_ne h)
  · rw [eq_row (rowDmaReadError f r) hs ht]
    exact whenRun_keeps (fun t => ringAt t k) ((ringAt_freezeFn ..).trans ((count_touches ..).ringAt k))

theorem ringAt_of_other_txRing {s t : State} {f r k n : Nat} (h : k ≠ txRing r) (hs : settled s = s)
    (ht : exec (.txRingDoorbell f r n) s = .next t) : ringAt t k = ringAt s k := by
  rw [eq_row (rowTxRingDoorbell f r n) hs ht]
  exact whenRun_keeps (fun t => ringAt t k) (ringAt_doorbell_ne h ..)

/-! ### Lanes -/

theorem laneAt_lockLanes_ne {s : State} {l k : Nat} (h : k ≠ l) : laneAt (lockLanes s [l]) k = laneAt s k :=
  (laneAt_modLane_ne _ _ h).trans ((useFresh_touches s).laneAt k)

theorem laneAt_of_other {s t : State} {l k e : Nat} (h : k ≠ l) (hs : settled s = s)
    (ht : exec (.laneSearchWindowEnd l e) s = .next t) : laneAt t k = laneAt s k := by
  rw [eq_row (rowLaneSearchWindowEnd l e) hs ht]
  refine whenRun_keeps (fun t => laneAt t k) (guardS_keeps (fun t => laneAt t k) rfl ?_)
  dsimp only
  rw [laneAt_modLane_ne _ _ h]
  split
  · rfl
  · exact laneAt_lockLanes_ne h

/-! ### Ports -/

section

variable {s : State} {n k : Nat} (h : k ≠ n)

include h

theorem portAt_enterStep_ne (mode fec : Nat) : portAt (enterStep s n mode fec) k = portAt s k := by
  unfold enterStep
  extract_lets s₁ s₂
  have hs₂ : portAt s₂ k = portAt s k := ((modLanes_touches ..).portAt k).trans ((modLanes_touches ..).portAt k)
  exact (portAt_modPort_ne _ _ h).trans hs₂

theorem portAt_enterLock_ne : portAt (enterLock s n) k = portAt s k := portAt_modPort_ne _ _ h

theorem portAt_endStep_ne : portAt (endStep s n) k = portAt s k := by
  unfold endStep
  extract_lets p b
  split
  · rfl
  split
  · exact portAt_modPort_ne _ _ h
  · exact portAt_enterLock_ne h

theorem portAt_enterUp_ne : portAt (enterUp s n) k = portAt s k := by
  unfold enterUp
  extract_lets s₁ s₂
  have hs₂ : portAt s₂ k = portAt s k := (portAt_modPort_ne _ _ h).trans ((lockLanes_touches ..).portAt k)
  exact (portAt_modPort_ne _ _ h).trans (((raiseEv_touches ..).portAt k).trans hs₂)

theorem portAt_startBringUp_ne : portAt (startBringUp s n) k = portAt s k := by
  unfold startBringUp
  extract_lets s₁ s₂ m
  have hs₂ : portAt s₂ k = portAt s k := ((askedPowers_touches ..).portAt k).trans (portAt_modPort_ne _ _ h)
  split
  · exact hs₂
  split
  · exact (portAt_modPort_ne _ _ h).trans hs₂
  · exact (portAt_enterStep_ne h ..).trans hs₂

theorem portAt_portEnableEff_ne {t : State} (e : portEnableEff n s = some t) : portAt t k = portAt s k := by
  have put : portAt (setRw s (0x3100 + n) 2 noRow [1]) k = portAt s k := (setRw_touches ..).portAt k
  unfold portEnableEff at e
  extract_lets t' at e
  split at e
  · split at e
    · obtain rfl := Option.some.inj e
      exact put
    · cases e
  split at e
  · cases e
  · obtain rfl := Option.some.inj e
    exact (portAt_startBringUp_ne h).trans put

end

theorem portAt_of_other {s t : State} {c : Instr} {src : Origin} {n k m f : Nat} {cs : List Nat} (h : k ≠ n)
    (hc : c ∈ [Instr.portEnable src n, .anComplete n m f, .trainingDone n cs, .linkUp n m]) (hs : settled s = s)
    (ht : exec c s = .next t) : portAt t k = portAt s k := by
  simp only [List.mem_cons, List.not_mem_nil, or_false] at hc
  obtain rfl | rfl | rfl | rfl := hc
  · rw [eq_row (rowPortEnable src n) hs ht]
    exact writeCmd_keeps (fun t => portAt t k) (fun _ _ => (renewLease_touches ..).portAt k)
      (fun _ _ e => e.portAt k) fun _ _ e => portAt_portEnableEff_ne h e
  · rw [eq_row (rowAnComplete n m f) hs ht]
    exact whenRun_keeps (fun t => portAt t k) (guardS_keeps (fun t => portAt t k) rfl (portAt_enterStep_ne h ..))
  · rw [eq_row (rowTrainingDone n cs) hs ht]
    refine whenRun_keeps (fun t => portAt t k) (guardS_keeps (fun t => portAt t k) rfl ?_)
    extract_lets s₁ s₂
    have lanes : Touches [.lanes] s₁ s₂ := .foldl (fun _ _ => modLane_touches ..) .refl
    have hs₂ : portAt s₂ k = portAt s k := (lanes.portAt k).trans (portAt_endStep_ne h)
    exact (portAt_enterLock_ne h).trans ((portAt_modPort_ne _ _ h).trans hs₂)
  · rw [eq_row (rowLinkUp n m) hs ht]
    refine whenRun_keeps (fun t => portAt t k) (guardS_keeps (fun t => portAt t k) rfl ?_)
    exact (portAt_enterUp_ne h).trans ((portAt_modPort_ne _ _ h).trans (portAt_endStep_ne h))

/-- Settles O57: each of the groups. -/
theorem commandsLeaveTheRestOfTheirGroup : Obligations.CommandsLeaveTheRestOfTheirGroup :=
  ⟨fun _ _ _ _ _ _ _ h hc hs ht => tbAt_of_other h hc hs ht,
   fun _ _ _ _ _ _ _ _ h hc hs ht => toutAt_of_other h hc hs ht,
   fun _ _ _ _ _ _ _ _ h hc hs ht => tinAt_of_other h hc hs ht,
   fun _ _ _ _ _ _ _ _ _ h hc hs ht => ringAt_of_other h hc hs ht,
   fun _ _ _ _ _ _ h hs ht => ringAt_of_other_txRing h hs ht,
   fun _ _ _ _ _ h hs ht => laneAt_of_other h hs ht,
   fun _ _ _ _ _ _ _ _ _ h hc hs ht => congrArg Port.state (portAt_of_other h hc hs ht)⟩

/-! ## Packets by their numbers -/

theorem find?_lmod_self {α : Type} {p : α → Bool} {f : α → α} (h : ∀ a, p a = true → p (f a) = true) (l : List α) :
    (lmod p f l).find? p = (l.find? p).map f := by
  induction l with
  | nil => rfl
  | cons a l ih =>
    cases ha : p a with
    | true => simp [lmod, ha, h a ha]
    | false => simp [lmod, ha, ih]

theorem find?_lmod_other {α : Type} {p q : α → Bool} {f : α → α}
    (h : ∀ a, p a = true → q a = false ∧ q (f a) = false) (l : List α) : (lmod p f l).find? q = l.find? q := by
  induction l with
  | nil => rfl
  | cons a l ih =>
    cases ha : p a with
    | true => simp [lmod, ha, h a ha]
    | false => simp [lmod, ha, List.find?_cons, ih]

theorem mem_lmod_of_mem {α : Type} {p : α → Bool} {f : α → α} {a : α} {l : List α} (h : a ∈ l) :
    a ∈ lmod p f l ∨ f a ∈ lmod p f l := by
  induction l with
  | nil => cases h
  | cons b l ih =>
    unfold lmod
    obtain rfl | h := List.mem_cons.mp h
    · split <;> simp
    · split
      · exact .inl (List.mem_cons_of_mem _ h)
      · exact (ih h).imp (List.mem_cons_of_mem _) (List.mem_cons_of_mem _)

theorem pktAt_modPkt {s : State} {id : Nat} {f : Pkt → Pkt} (hf : ∀ k, k.id = id → (f k).id = id) :
    pktAt (modPkt s id f) id = (pktAt s id).map f :=
  find?_lmod_self (fun k h => by simpa using hf k (by simpa using h)) s.pkts

theorem pktAt_modPkt_ne {s : State} {id j : Nat} {f : Pkt → Pkt} (hf : ∀ k, k.id = id → (f k).id = id)
    (hj : j ≠ id) : pktAt (modPkt s id f) j = pktAt s j := by
  refine find?_lmod_other (fun k h => ?_) s.pkts
  have hk : k.id = id := by simpa using h
  simp [hk, hf k hk, hj.symm]

namespace Touches

variable {P : List Part} {s t : State}

theorem pktAt (h : Touches P s t) (k : Nat) (hP : among P .packets = false := by rfl) :
    pktAt t k = pktAt s k := by
  obtain ⟨e, -⟩ := h.rest .packets hP
  rw [Machine.pktAt, Machine.pktAt, e]

end Touches

/-- A command acts on the state itself when no boundary is due. -/
theorem next_row {s : State} (hs : settled s = s) (row : State → State) :
    (Host.Outcome.next (row (settled s)) : Host.Outcome State Fault Refusal) = .next (row s) := by
  rw [hs]

/-! ## A frame begins a packet (O22) -/

/-- k is the packet that the frame f begins at the node n. -/
structure Begun (s : State) (n : Nat) (f : Bytes) (k : Pkt) : Prop where
  id : k.id = s.nextPkt
  node : k.node = n
  bytes : k.bytes = f
  inBeat : k.inBeat = s.beat
  tick : k.tick = s.rm.tick
  vslot : k.vslot = s.ver.current

theorem newPkt_begun {s u : State} (h : Touches [.buffer] s u) (a : Arrival) (cls cells : Nat) :
    Begun s a.node a.frame (newPkt u a cls cells) := by
  obtain ⟨beat, rm⟩ := h.rest .clock rfl
  obtain ⟨-, nextPkt⟩ := h.rest .packets rfl
  have ver : u.ver = s.ver := h.rest .version rfl
  exact ⟨nextPkt, rfl, rfl, beat, congrArg Ringmaster.tick rm, congrArg Versions.current ver⟩

theorem arrive_begins {s : State} {a : Arrival} (refusing : (portAt s a.node).refusing = false)
    (frozen : (portAt s a.node).frozen = false) (cls : (portAt s a.node).frozenCls = 0)
    (diverted : isDiverted s a.node a.frame = false)
    (cell : (takeCells s a.node (ingressClass s a (parseFrame (parseCtx s (curVer s) a.frame))) 1).isSome = true) :
    (portAt (arrive s a) a.node).rx = some s.nextPkt ∧ (arrive s a).nextPkt = s.nextPkt + 1 ∧
      ∃ k ∈ (arrive s a).pkts, Begun s a.node a.frame k := by
  obtain ⟨u, hu⟩ := Option.isSome_iff_exists.mp cell
  have taken : Touches [.buffer] s u := (takeCells_touches ..).get hu
  obtain ⟨-, nextPkt⟩ := taken.rest .packets rfl
  have begun := newPkt_begun taken a
    (ingressClass s a (parseFrame (parseCtx s (curVer s) a.frame))) 1
  unfold arrive
  simp only [refusing, frozen, cls, diverted, bit, Nat.zero_testBit, hu, Bool.false_eq_true, Bool.or_self, if_false]
  refine ⟨?_, congrArg (· + 1) nextPkt, _, List.mem_append_right _ (List.mem_singleton_self _), ?_⟩
  · have port := portAt_modPort { u with nextPkt := u.nextPkt + 1 } a.node fun x =>
      { x with rx := some u.nextPkt, rxWhole := a.staged }
    exact (congrArg Port.rx port).trans (congrArg some nextPkt)
  · split
    · exact { begun with }
    · exact { begun with }

/-- The late start of a frame leaves what its packet begins with. -/
theorem modPkt_begins {s u : State} {n : Nat} {f : Bytes} (h : ∃ k ∈ u.pkts, Begun s n f k) (id : Nat) (b : Bool) :
    ∃ k ∈ (modPkt u id fun x => { x with lateStart := b }).pkts, Begun s n f k := by
  obtain ⟨k, mem, begun⟩ := h
  obtain same | late := mem_lmod_of_mem (p := fun x => x.id == id) (f := fun x => { x with lateStart := b }) mem
  · exact ⟨k, same, begun⟩
  · exact ⟨_, late, { begun with }⟩

/-- The arrival of a frame that the MAC has received. -/
def received (s : State) (n : Nat) (f : Bytes) (ph : Nat) (e : Ecc) : Arrival :=
  { node := n, frame := f, stamp := rxStamp s n ph, macsec := false, staged := false,
    exactEcc := e, cls := none, direct := none, tx := none }

theorem rowFrameIngress_arrives {s : State} {n ph : Nat} {f : Bytes} {e : Ecc} (run : s.sys.run = .running)
    (hn : n < 130) (up : (portAt s n).state = 5) (idle : (portAt s n).rx = none) (plain : macRxOn s n = false)
    (data : isControl f = false) :
    rowFrameIngress n f ph e s = modPkt (arrive s (received s n f ph e)) s.nextPkt
        fun k => { k with lateStart := Config.startsLate ph } := by
  have ready : (decide (n < 130) && isUp s n && (portAt s n).rx.isNone && !macRxOn s n && !isControl f) = true := by
    simp [isUp, hn, up, idle, plain, data]
  rw [rowFrameIngress, whenRun_running run, guardS, if_pos ready, received]

/-- Settles O22: the arrival takes its first cell and begins the packet. -/
theorem frameIngressAccepts : Obligations.FrameIngressAccepts := by
  intro s n f ph e ⟨run, hs⟩ hn up idle plain data refusing frozen cls diverted cell
  refine ⟨_, next_row hs (rowFrameIngress n f ph e), ?_⟩
  rw [rowFrameIngress_arrives run hn up idle plain data]
  obtain ⟨rx, nextPkt, begins⟩ := arrive_begins (a := received s n f ph e) refusing frozen cls diverted (cell _ rfl)
  obtain ⟨k, mem, begun⟩ := modPkt_begins begins s.nextPkt (Config.startsLate ph)
  exact ⟨rx, nextPkt, k, mem, begun.id, begun.node, begun.bytes, begun.inBeat, begun.tick, begun.vslot⟩

/-! ## The tail of a frame (O23) -/

theorem rx_modPort (s : State) (n j : Nat) {f : Port → Port} (h : ∀ p, (f p).rx = p.rx) :
    (portAt (modPort s n f) j).rx = (portAt s j).rx := by
  by_cases hj : j = n
  · subst hj
    rw [portAt_modPort, h]
  · rw [portAt_modPort_ne _ _ hj]

theorem portAt_freezeMaster (s : State) (type cls num n : Nat) :
    portAt (freezeMaster s type cls num) n = portAt s n :=
  (freezeMaster_touches ..).portAt n

theorem portAt_count (s : State) (c k n : Nat) : portAt (count s c k) n = portAt s n :=
  (count_touches ..).portAt n

theorem rx_headroomOverflow (s : State) (m k n : Nat) :
    (portAt (headroomOverflow s m k) n).rx = (portAt s n).rx := by
  unfold headroomOverflow
  extract_lets s₁
  split
  · rw [portAt_freezeMaster, rx_modPort, portAt_count]
    exact fun _ => rfl
  · rw [portAt_freezeMaster, rx_modPort, portAt_count]
    exact fun _ => rfl

/-- A frame whose cells overflow frees the receiver of its port. -/
theorem rx_overflowWithin (s : State) (k : Pkt) : (portAt (overflowWithin s k) k.node).rx = none := by
  obtain ⟨u, hu, e⟩ := overflowWithin_stops s k
  rw [e, rx_headroomOverflow, hu.portAt, portAt_modPort]

theorem rx_goodTail (s : State) (k : Pkt) (cells : List (Nat × Ecc)) (n : Nat) :
    (portAt (goodTail s k cells) n).rx = (portAt s n).rx := by
  have counted : portAt (countExcs s k) n = portAt s n := (countExcs_touches ..).portAt n
  calc (portAt (goodTail s k cells) n).rx
    _ = (portAt (exceptionsTold s k) n).rx := congrArg Port.rx ((goodTail_told s k cells).portAt n)
    _ = (portAt (countExcs s k) n).rx := by
      unfold exceptionsTold
      split
      · rfl
      · exact rx_modPort _ _ _ fun _ => rfl
    _ = (portAt s n).rx := congrArg Port.rx counted

theorem rx_tailEffects (s : State) (k : Pkt) (cut : Bool) (cells : List (Nat × Ecc)) :
    (portAt (tailEffects s k cut cells) k.node).rx = none := by
  unfold tailEffects
  extract_lets s₁ flow tick bad k₀ k₁ k₂ s₂ s₃ s₄ s₅
  have hs₁ : (portAt s₁ k.node).rx = none := congrArg Port.rx (portAt_modPort ..)
  have hs₃ : Touches [.packets, .counters] s₁ s₃ := (countAccepted_touches ..).after (modPkt_touches ..).within
  have hs₄ : Touches [.packets, .counters] s₁ s₄ := .ite ((countHits_touches ..).after hs₃) hs₃
  have hs₅ : (portAt s₅ k.node).rx = none :=
    (congrArg Port.rx (((enterWriteback_touches ..).portAt _).trans (hs₄.portAt _))).trans hs₁
  split
  · exact (rx_goodTail ..).trans hs₅
  · exact (congrArg Port.rx ((badTail_touches ..).portAt _)).trans hs₅

/-! ### The search before the tail leaves a packet at its node -/

/-- The node at which a packet arrived. -/
def nodeOf (s : State) (id : Nat) : Option Nat := (pktAt s id).map Pkt.node

theorem nodeOf_modPkt {s : State} {id j : Nat} {f : Pkt → Pkt} (hid : ∀ x, x.id = id → (f x).id = id)
    (hnode : ∀ x, pktAt s id = some x → (f x).node = x.node) : nodeOf (modPkt s id f) j = nodeOf s j := by
  by_cases hj : j = id
  · subst hj
    rw [nodeOf, pktAt_modPkt hid, nodeOf, Option.map_map]
    cases h : pktAt s j with
    | none => rfl
    | some x => exact congrArg some (hnode x h)
  · rw [nodeOf, pktAt_modPkt_ne hid hj, nodeOf]

theorem Touches.nodeOf {P : List Part} {s t : State} (h : Touches P s t) (id : Nat)
    (hP : among P .packets = false := by rfl) : nodeOf t id = nodeOf s id :=
  congrArg (Option.map Pkt.node) (h.pktAt id hP)

theorem nodeOf_passOne (s : State) (k : Pkt) (a : Search) (id : Nat) : nodeOf (passOne s k a) id = nodeOf s id := by
  obtain ⟨u, f, hu, hid, hnode, e⟩ := passOne_writes s k a
  rw [e, nodeOf_modPkt (fun x h => (hid x).trans h) fun x _ => hnode x, hu.nodeOf]

theorem nodeOf_searchThrough (p beat n : Nat) (s : State) (id : Nat) :
    nodeOf (searchThrough p beat n s) id = nodeOf s id := by
  induction n generalizing s with
  | zero => rfl
  | succ n ih =>
    unfold searchThrough
    split
    · rfl
    · rw [ih, nodeOf_passOne]

theorem nodeOf_searchBeforeTail {s : State} {k : Pkt} (h : pktAt s k.id = some k) (id : Nat) :
    nodeOf (searchBeforeTail s k) id = nodeOf s id := by
  unfold searchBeforeTail
  split
  · rfl
  · split
    · rw [nodeOf_searchThrough]
      refine nodeOf_modPkt (fun _ _ => rfl) fun x hx => ?_
      rw [Option.some.inj (h.symm.trans hx)]
    · exact nodeOf_modPkt (fun _ h => h) fun _ _ => rfl

/-- FRAME_TAIL frees the receiver of its port. -/
theorem rx_frameEnd {s : State} {k : Pkt} (h : pktAt s k.id = some k) (cut : Bool) (cells : List (Nat × Ecc)) :
    (portAt (frameEnd s k cut cells) k.node).rx = none := by
  unfold frameEnd
  extract_lets s₁ found k₁
  have node : k₁.node = k.node := by
    unfold k₁
    split
    · have same : nodeOf s₁ k.id = some k.node := (nodeOf_searchBeforeTail h k.id).trans (congrArg _ h)
      obtain ⟨x, hx, e⟩ := Option.map_eq_some_iff.mp same
      have hf : found = x := by
        unfold found
        rw [hx, Option.getD_some]
      exact (congrArg Pkt.node hf).trans e
    · rfl
  clear_value k₁
  rw [← node]
  split
  · exact rx_overflowWithin ..
  · exact rx_tailEffects ..

/-! ### A good tail sends a flow packet home -/

theorem isSome_pktAt_modPkt {s : State} {id : Nat} {f : Pkt → Pkt} (hf : ∀ k, k.id = id → (f k).id = id) (j : Nat) :
    (pktAt (modPkt s id f) j).isSome = (pktAt s j).isSome := by
  by_cases hj : j = id
  · subst hj
    rw [pktAt_modPkt hf, Option.isSome_map]
  · rw [pktAt_modPkt_ne hf hj]

/-- x is on its way home since the beat of its tail: crossing, or held for its place. -/
structure Homeward (profile tail : Nat) (x : Pkt) : Prop where
  stage : x.stage = .crossing ∨ x.stage = .holding
  due : x.due = tail + 40
  profile : x.flow.profile = profile

theorem crossHome_homeward {s : State} {k : Pkt} (h : (pktAt s k.id).isSome = true) :
    ∃ x, pktAt (crossHome s k) k.id = some x ∧ Homeward k.dec.profile k.tailBeat x := by
  unfold crossHome
  extract_lets v key home
  split
  next now out e =>
    extract_lets waits s₁
    have there : (pktAt s₁ k.id).isSome = true := by
      unfold s₁
      split
      · refine (isSome_pktAt_modPkt ?_ _).trans h
        exact fun _ e => e
      · exact h
    obtain ⟨y, hy⟩ := Option.isSome_iff_exists.mp there
    refine ⟨_, (pktAt_modPkt ?_).trans (congrArg _ hy), ?_, rfl, rfl⟩
    · exact fun _ e => e
    cases waits
    · exact .inl rfl
    · exact .inr rfl

/-- A flow packet without exceptions, copies and policy crosses when its tail is good. -/
structure Crosses (k : Pkt) : Prop where
  policy : k.policy = 0
  kind : k.dec.kind = 2
  stage : k.stage = .receiving
  mirror : k.mirror = none
  exc : k.exc = []
  tx : k.tx = none

theorem goodTail_of_crosses (s : State) {k : Pkt} (h : Crosses k) (cells : List (Nat × Ecc)) :
    goodTail s k cells = crossHome s k := by
  obtain ⟨policy, kind, stage, mirror, exc, -⟩ := h
  simp [goodTail, countExcs, mirrorCopy, policy, kind, stage, mirror, exc]

theorem Touches.rw {P : List Part} {s t : State} (h : Touches P s t) (idx sub : Nat)
    (hP : among P .objects = false := by rfl) : Machine.rw t idx sub = Machine.rw s idx sub := by
  obtain ⟨objs, held, -⟩ := h.rest .objects hP
  simp only [Machine.rw, rwRow, stored, objs, held]

theorem Touches.macRxOn {P : List Part} {s t : State} (h : Touches P s t) (n : Nat)
    (hP : among P .digest = false := by rfl) : macRxOn t n = macRxOn s n := by
  obtain ⟨objs, -⟩ := h.rest .digest hP
  simp only [Machine.macRxOn, macObj, dig, digRow, objs]

theorem judgeTail_congr {P : List Part} {s t : State} (h : Touches P s t) (k : Pkt) (cut : Bool)
    (objects : among P .objects = false := by rfl) (digest : among P .digest = false := by rfl) :
    judgeTail t k cut = judgeTail s k cut := by
  have limit : frameLimit t k.node = frameLimit s k.node := by
    simp only [frameLimit, h.macRxOn _ digest, h.rw _ _ objects]
  have mtu : cutMtu t k.node (decNode k.dec) = cutMtu s k.node (decNode k.dec) := by
    simp only [cutMtu, h.rw _ _ objects]
  rw [judgeTail, limit, mtu, judgeTail]

theorem tailEffects_homeward {s : State} {k : Pkt} {cells : List (Nat × Ecc)} (h : Crosses k)
    (good : judgeTail (modPort s k.node fun p => { p with rx := none, rxWhole := false }) k false = 0)
    (there : (pktAt s k.id).isSome = true) :
    ∃ x, pktAt (tailEffects s k false cells) k.id = some x ∧ Homeward k.dec.profile s.beat x := by
  unfold tailEffects
  extract_lets s₁ flow tick bad k₀ k₁ k₂ s₂ s₃ s₄ s₅
  have hbad : bad = 0 := good
  have crosses : Crosses k₂ := ⟨h.policy, h.kind, h.stage, h.mirror, by simp [k₂, k₁, k₀, hbad, h.exc], h.tx⟩
  have hs₂ : (pktAt s₂ k.id).isSome = true := (isSome_pktAt_modPkt (fun _ _ => rfl) _).trans there
  have hs₃ : Touches [.counters] s₂ s₃ := countAccepted_touches ..
  have hs₄ : Touches [.counters] s₂ s₄ := .ite ((countHits_touches ..).after hs₃) hs₃
  have hs₅ : s₅ = s₄ := by simp [s₅, enterWriteback, crosses.tx]
  rw [if_pos hbad, goodTail_of_crosses _ crosses, hs₅]
  exact crossHome_homeward (k := k₂) ((congrArg Option.isSome (hs₄.pktAt k.id)).trans hs₂)

theorem takeUpTo_takes {s u : State} {k : Pkt} {bytes : Nat} (h : takeUpTo s k bytes = some u) :
    Touches [.packets, .buffer] s u ∧ (pktAt u k.id).isSome = (pktAt s k.id).isSome := by
  refine ⟨(takeUpTo_touches ..).get h, ?_⟩
  obtain ⟨v, hv, rfl⟩ := Option.map_eq_some_iff.mp h
  rw [isSome_pktAt_modPkt, ((takeCells_touches ..).get hv).pktAt]
  exact fun _ e => e

/-- A frame that pass 1 has searched ends with the cells that its bytes need. -/
theorem frameEnd_of_cells {s u : State} {k : Pkt} (searched : k.search = none)
    (h : takeUpTo s k k.bytes.length = some u) (cut : Bool) (cells : List (Nat × Ecc)) :
    frameEnd s k cut cells
      = tailEffects u { k with cells := max k.cells (cellsNeeded u k k.bytes.length) } cut cells := by
  simp [frameEnd, searchBeforeTail, searched, h]

theorem Crosses.withCells {k : Pkt} (h : Crosses k) (n : Nat) : Crosses { k with cells := n } :=
  ⟨h.policy, h.kind, h.stage, h.mirror, h.exc, h.tx⟩

theorem frameEnd_homeward {s : State} {k : Pkt} {cells : List (Nat × Ecc)} (h : Crosses k)
    (searched : k.search = none)
    (there : pktAt s k.id = some k) (good : judgeTail s k false = 0)
    (cell : (takeUpTo s k k.bytes.length).isSome = true) :
    ∃ x, pktAt (frameEnd s k false cells) k.id = some x ∧ Homeward k.dec.profile s.beat x := by
  obtain ⟨u, hu⟩ := Option.isSome_iff_exists.mp cell
  obtain ⟨taken, same⟩ := takeUpTo_takes hu
  obtain ⟨beat, -⟩ := taken.rest .clock rfl
  have ended : Touches [.packets, .ports, .buffer] s
      (modPort u k.node fun p => { p with rx := none, rxWhole := false }) :=
    (modPort_touches ..).after taken.within
  have judged := (judgeTail_congr ended k false).trans good
  have here : (pktAt u k.id).isSome = true := by rw [same, there, Option.isSome_some]
  rw [frameEnd_of_cells searched hu, ← beat]
  exact tailEffects_homeward (h.withCells _) judged here

theorem rowFrameTail_ends {s : State} {n : Nat} {k : Pkt} {cells : List (Nat × Ecc)} (run : s.sys.run = .running)
    (rx : (portAt s n).rx = some k.id) (there : pktAt s k.id = some k) (ready : tailReady s k = true) :
    rowFrameTail n cells s = frameEnd s k false cells := by
  rw [rowFrameTail, whenRun_running run, frameTail, rx, Option.bind_some, there]
  exact if_pos ready

/-! ### A policer gives a colour -/

/-- A policer's colour is green, yellow or red. -/
theorem police_colour (r : Bytes) (p : Policer) (t n : Nat) (yellow : Bool) :
    (police r p t n yellow).2 = 1 ∨ (police r p t n yellow).2 = 2 ∨ (police r p t n yellow).2 = 3 := by
  unfold police
  extract_lets el x cir cbs pir xbs tc spill tc' te
  split
  · split
    · exact .inl rfl
    · split
      · exact .inr (.inl rfl)
      · exact .inr (.inr rfl)
  split
  · split
    · exact .inr (.inr rfl)
    · split
      · exact .inr (.inl rfl)
      · exact .inl rfl
  · exact .inl rfl

theorem judgeFrame_colours {s : State} {k : Pkt} {i : Nat} (there : pktAt s k.id = some k)
    (policed : k.policer = some i) (here : k.stage ≠ .gone) :
    ∃ x, pktAt (judgeFrame s k) k.id = some x ∧ (x.colour = 1 ∨ x.colour = 2 ∨ x.colour = 3) := by
  unfold judgeFrame
  simp only [policed, if_neg here]
  refine ⟨_, (pktAt_modPkt ?_).trans (congrArg _ (a₂ := some k) ?_), ?_⟩
  · exact fun _ e => e
  · exact ((countPolice_touches ..).pktAt k.id).trans there
  · exact police_colour ..

theorem rowPolicerJudge_judges {s : State} {k : Pkt} {i : Nat} (run : s.sys.run = .running)
    (there : pktAt s k.id = some k) (policed : k.policer = some i)
    (first : (nextJudged s (policerPipe i) s.beat).map Pkt.id = some k.id) :
    rowPolicerJudge k.id s = judgeFrame s k := by
  rw [rowPolicerJudge, whenRun_running run, there]
  simp [guardS, policed, first]

/-! ### A packet enters its queue -/

/-- The packet k in the queue q, to start at a beat. -/
def putQueued (s : State) (k : Pkt) (q : Nat) (cut : Bool) (start : Nat) : State :=
  modQueue (modPkt s k.id fun _ =>
    { k with stage := .queued, holds := false, due := start, out := { k.out with qid := q, cut := cut } }) q
    fun l => l ++ [k.id]

theorem enqueue_queues {s : State} {k : Pkt} {q : Nat} (there : (pktAt s k.id).isSome = true) :
    ∃ x, pktAt (enqueue s k q) k.id = some x ∧ x.stage = .queued ∧ k.id ∈ queueAt (enqueue s k q) x.out.qid := by
  obtain ⟨y, hy⟩ := Option.isSome_iff_exists.mp there
  have put (cut : Bool) (start : Nat) :
      ∃ x, pktAt (putQueued s k q cut start) k.id = some x ∧ x.stage = .queued ∧
        k.id ∈ queueAt (putQueued s k q cut start) x.out.qid := by
    refine ⟨_, (pktAt_modPkt ?_).trans (congrArg _ hy), rfl, ?_⟩
    · exact fun _ _ => rfl
    · simp [putQueued]
  unfold enqueue
  split
  · extract_lets
    split
    · exact put ..
    · exact put ..
  · exact put ..

/-- A packet that may enter egress leaves without rewrites and within its gate's limit, to a port that takes it. -/
structure Leaves (s : State) (k : Pkt) : Prop where
  policer : k.policer = none
  edits : editsOf s k = []
  plain : vecMacsec k.vec = false
  gate : ∀ q b, gateOversize s (slotVer s k.vslot) (decNode k.dec) q b = false
  link : (portAt s (decNode k.dec)).link < 2

theorem gateOversize_congr {P : List Part} {s t : State} (h : Touches P s t) (v : VerCfg) (port k n : Nat)
    (ports : among P .ports = false := by rfl) (objects : among P .objects = false := by rfl) :
    gateOversize t v port k n = gateOversize s v port k n := by
  have rate : portRate t port = portRate s port := by
    simp only [portRate, portMode, h.portAt _ ports, h.rw _ _ objects]
  rw [gateOversize, rate, gateOversize]

theorem enterEgress_queues {s : State} {k : Pkt} (h : Leaves s k) (there : pktAt s k.id = some k) :
    ∃ x, pktAt (enterEgress s k) k.id = some x ∧ x.stage = .queued ∧ k.id ∈ queueAt (enterEgress s k)
      x.out.qid := by
  unfold enterEgress
  extract_lets v n action s₁ tagged _
  have hs₁ : Touches [.pipes] s s₁ := modPipe_touches ..
  have passes : action = 0 := by simp [action, h.policer]
  rw [if_neg (by simp [passes])]
  split
  next sub miss _ =>
    extract_lets s₂ q e body vec body₁ k₁ s₃ s₄
    have hs₂ : Touches [.pipes, .counters] s s₂ := .ite ((countR_touches ..).after hs₁.within) hs₁.within
    have ver : s₂.ver = s.ver := hs₂.rest .version rfl
    have rewrites : editsOf s₂ k = [] := by
      rw [← h.edits]
      simp only [editsOf, slotVer, slotAt, ver]
    have he : e = { body := k.bytes.take (k.bytes.length - 4), skips := 0, expired := false } := by
      simp [e, rewrites, applyRewrites]
    have hs₃ : s₃ = s₂ := by simp [s₃, he]
    have gate (i b : Nat) : gateOversize s₂ v n i b = false := (gateOversize_congr hs₂ ..).trans (h.gate i b)
    have open_ : (decide (n < 130) && decide (2 ≤ (portAt s₂ n).link)) = false := by
      have link : (portAt s₂ n).link < 2 := (congrArg Port.link (hs₂.portAt n)).trans_lt h.link
      simp [Nat.not_le.mpr link]
    rw [gate, hs₃, open_, he]
    exact enqueue_queues (k := k₁) ((congrArg Option.isSome ((hs₂.pktAt k.id).trans there)))

theorem rowEgressEntry_enters {s : State} {k : Pkt} (run : s.sys.run = .running) (there : pktAt s k.id = some k)
    (ready : entryReady s k = true) : rowEgressEntry k.id s = enterEgress s k := by
  rw [rowEgressEntry, whenRun_running run, there]
  exact if_pos ready

/-- Settles O23, by the last step of each row: the end of the frame, the policer's judgement, the queue. -/
theorem tailsJudgementsAndEgress : Obligations.TailsJudgementsAndEgress := by
  refine ⟨?_, ?_, ?_⟩
  · rintro s n k ⟨run, hs⟩ rx there rfl ready
    refine ⟨_, next_row hs (rowFrameTail k.node []), ?_⟩
    rw [rowFrameTail_ends run rx there ready]
    refine ⟨rx_frameEnd there .., fun good policy kind stage mirror searched exc tx cell => ?_⟩
    obtain ⟨x, hx, home⟩ := frameEnd_homeward ⟨policy, kind, stage, mirror, exc, tx⟩ searched there good cell
    exact ⟨x, hx, home.stage, home.due, home.profile⟩
  · intro s k i ⟨run, hs⟩ there policed first here
    refine ⟨_, next_row hs (rowPolicerJudge k.id), ?_⟩
    rw [rowPolicerJudge_judges run there policed first]
    exact judgeFrame_colours there policed here
  · intro s k ⟨run, hs⟩ there ready policer edits plain gate link
    refine ⟨_, next_row hs (rowEgressEntry k.id), ?_⟩
    rw [rowEgressEntry_enters run there ready]
    exact enterEgress_queues ⟨policer, edits, plain, gate, link⟩ there

end Sys2Proof.Machine

namespace Sys2Proof.Machine

set_option Elab.async false

/-! ## What every command's work keeps

The bounds of `Good` and the clock depend on a small core of the state. `Steady s t` says that t keeps that core in
bounds; like `Touches` it is reflexive and transitive, so it is composed along the calls of the model's functions. A
function that does not touch the core's parts is steady by its frame. -/

/-- The fields of which the bounds and the clock speak. -/
structure Core where
  slots : List Slot
  log : List LogRow
  events : List Event
  hbm : Tbl Bytes
  companion : Tbl Bytes
  bulk : Tbl Byte
  util : Tbl Byte
  dir : Tbl Nat
  beat : Nat
  tick : Nat
  boundaryBeat : Nat
  beatsLast : Nat
  soft : Bool
  chipAt : Option Nat

def coreOf (s : State) : Core :=
  ⟨s.ver.slots, s.sys.log, s.sys.evq, s.mem.hbm, s.mem.companion, s.mem.bulk, s.mem.util, s.mem.dir, s.beat,
    s.rm.tick, s.rm.boundaryBeat, s.rm.beatsLast, s.sys.soft, s.sys.chipAt⟩

/-- From s to t the lists keep their bounds and the memories their form, the clock and a SOFT reset under way stay, and
a CHIP reset that waits is the one that waited or is asked for in this beat. -/
structure Steady (s t : State) : Prop where
  slots : t.ver.slots.length = s.ver.slots.length
  log : s.sys.log.length ≤ 64 → t.sys.log.length ≤ 64
  events : s.sys.evq.length ≤ 1024 → t.sys.evq.length ≤ 1024
  memory : Memory.wf s.mem = true → Memory.wf t.mem = true
  beat : t.beat = s.beat
  tick : t.rm.tick = s.rm.tick
  boundaryBeat : t.rm.boundaryBeat = s.rm.boundaryBeat
  beatsLast : t.rm.beatsLast = s.rm.beatsLast
  soft : t.sys.soft = s.sys.soft
  chipAt : t.sys.chipAt = s.sys.chipAt ∨ s.sys.chipAt = none ∧ t.sys.chipAt = some s.beat

/-- Whatever state o answers is steady. -/
structure OptSteady (s : State) (o : Option State) : Prop where
  get : ∀ {t}, o = some t → Steady s t

/-- The canonical form depends on the core alone. -/
theorem memory_wf_congr {m n : Mem} (hbm : n.hbm = m.hbm) (companion : n.companion = m.companion)
    (bulk : n.bulk = m.bulk) (util : n.util = m.util) (dir : n.dir = m.dir) : Memory.wf n = Memory.wf m := by
  simp only [Memory.wf, hbm, companion, bulk, util, dir]

theorem steady_of_coreOf_eq {s t : State} (h : coreOf t = coreOf s) : Steady s t := by
  obtain ⟨slots, log, events, hbm, companion, bulk, util, dir, beat, tick, boundaryBeat, beatsLast, soft, chipAt⟩ :=
    Core.mk.inj h
  exact {
    slots := by rw [slots]
    log := by rw [log]; exact id
    events := by rw [events]; exact id
    memory := by rw [memory_wf_congr hbm companion bulk util dir]; exact id
    beat, tick, boundaryBeat, beatsLast, soft
    chipAt := .inl chipAt }

/-- None of P holds a field of the core. -/
def sparesCore (P : List Part) : Bool :=
  !(among P .clock || among P .system || among P .version || among P .flow || among P .util)

theorem Touches.steady {P : List Part} {s t : State} (h : Touches P s t) (hP : sparesCore P = true := by rfl) :
    Steady s t := by
  simp only [sparesCore, Bool.not_eq_true', Bool.or_eq_false_iff] at hP
  obtain ⟨⟨⟨⟨clock, system⟩, version⟩, flow⟩, util⟩ := hP
  obtain ⟨beat, rm⟩ := h.rest .clock clock
  have sys : t.sys = s.sys := h.rest .system system
  have ver : t.ver = s.ver := h.rest .version version
  obtain ⟨dir, hbm, companion, bulk, -⟩ := h.rest .flow flow
  have util : t.mem.util = s.mem.util := h.rest .util util
  apply steady_of_coreOf_eq
  simp only [coreOf, beat, rm, sys, ver, dir, hbm, companion, bulk, util]

theorem OptTouches.steady {P : List Part} {s : State} {o : Option State} (h : OptTouches P s o)
    (hP : sparesCore P = true := by rfl) : OptSteady s o :=
  ⟨fun e => (h.get e).steady hP⟩

namespace Steady

variable {s t u : State}

theorem refl : Steady s s := steady_of_coreOf_eq rfl

theorem trans (h : Steady s t) (k : Steady t u) : Steady s u where
  slots := k.slots.trans h.slots
  log := fun e => k.log (h.log e)
  events := fun e => k.events (h.events e)
  memory := fun e => k.memory (h.memory e)
  beat := k.beat.trans h.beat
  tick := k.tick.trans h.tick
  boundaryBeat := k.boundaryBeat.trans h.boundaryBeat
  beatsLast := k.beatsLast.trans h.beatsLast
  soft := k.soft.trans h.soft
  chipAt := by
    have := h.beat
    rcases k.chipAt with e | ⟨e, e'⟩ <;> rcases h.chipAt with f | ⟨f, f'⟩ <;> simp_all

/-- A step from t, after what led from s to t. -/
theorem after (k : Steady t u) (h : Steady s t) : Steady s u := h.trans k

/-- An update of fields outside the core. -/
theorem update (h : coreOf t = coreOf s := by rfl) : Steady s t := steady_of_coreOf_eq h

/-- An update of fields outside the core, after what led to t. -/
theorem set (h : Steady s t) (e : coreOf u = coreOf t := by rfl) : Steady s u := h.trans (update e)

/-- An update of the memories that keeps their form. -/
theorem setMemory {m : Mem} (h : Memory.wf s.mem = true → Memory.wf m = true) : Steady s { s with mem := m } :=
  { (refl : Steady s s) with memory := h }

theorem ite {c : Prop} [Decidable c] (h : Steady s t) (k : Steady s u) : Steady s (if c then t else u) := by
  split
  · exact h
  · exact k

theorem foldl {α : Type} {f : State → α → State} {l : List α} (k : ∀ t a, Steady t (f t a))
    (h : Steady s t) : Steady s (l.foldl f t) := by
  induction l generalizing t with
  | nil => exact h
  | cons a l ih => exact ih (h.trans (k t a))

theorem forEach {keys : List Nat} {f : Nat → State → State} (k : ∀ i u, Steady u (f i u)) (h : Steady s t) :
    Steady s (forEach keys f t) :=
  .foldl (fun u i => k i u) h

theorem foldlFst {α β : Type} {f : State × β → α → State × β} {l : List α} {x : State × β}
    (k : ∀ a i, Steady a.1 (f a i).1) (h : Steady s x.1) : Steady s (l.foldl f x).1 := by
  induction l generalizing x with
  | nil => exact h
  | cons i l ih => exact ih (h.trans (k x i))

theorem times {f : State → State} {n : Nat} (k : ∀ t, Steady t (f t)) (h : Steady s t) :
    Steady s (times f n t) := by
  induction n generalizing t with
  | zero => exact h
  | succ n ih => exact ih (h.trans (k t))

theorem whenRun {f : State → State} (h : Steady s t) (k : Steady s (f t)) : Steady s (whenRun t f) := by
  unfold Machine.whenRun
  exact .ite k h

theorem guardS {c : Bool} {f : State → State} (h : Steady s t) (k : Steady s (f t)) :
    Steady s (guardS c t f) := by
  unfold Machine.guardS
  exact .ite k h

/-- The state of a pair that a function has answered. -/
theorem fst {β : Type} {x : State × β} {y : β} (h : Steady s x.1) (e : x = (t, y)) : Steady s t := by
  rw [e] at h
  exact h

/-- The state of a pair that is written out. -/
theorem pair {β : Type} {y : β} (h : Steady s t) : Steady s (t, y).1 := h

theorem getD {o : Option State} (k : OptSteady s o) (h : Steady s t) : Steady s (o.getD t) := by
  cases o with
  | none => exact h
  | some u => exact k.get rfl

end Steady

namespace OptSteady

variable {s t : State} {o : Option State}

theorem none : OptSteady s Option.none :=
  ⟨fun {t} e => absurd e.symm (Option.some_ne_none t)⟩

theorem some (h : Steady s t) : OptSteady s (Option.some t) :=
  ⟨fun e => Option.some.inj e ▸ h⟩

theorem trans (h : Steady s t) (k : OptSteady t o) : OptSteady s o :=
  ⟨fun e => h.trans (k.get e)⟩

theorem after (k : OptSteady t o) (h : Steady s t) : OptSteady s o := .trans h k

theorem ite {c : Prop} [Decidable c] {o' : Option State} (h : OptSteady s o) (k : OptSteady s o') :
    OptSteady s (if c then o else o') := by
  split
  · exact h
  · exact k

theorem someFst {β : Type} {y : β} (h : Steady s t) : OptSteady s ((Option.some (t, y)).map Prod.fst) :=
  .some h

theorem okFst {ε β : Type} {y : β} (h : Steady s t) :
    OptSteady s ((Except.ok (t, y) : Except ε _).toOption.map Prod.fst) :=
  .some h

/-! The state that a function has answered. -/

theorem getFst {β : Type} {x : Option (State × β)} {y : β} (h : OptSteady s (x.map Prod.fst))
    (e : x = .some (t, y)) : Steady s t := h.get (by rw [e]; rfl)

theorem getOk {ε : Type} {x : Except ε State} (h : OptSteady s x.toOption) (e : x = .ok t) : Steady s t :=
  h.get (by rw [e]; rfl)

theorem getOkFst {ε β : Type} {x : Except ε (State × β)} {y : β} (h : OptSteady s (x.toOption.map Prod.fst))
    (e : x = .ok (t, y)) : Steady s t := h.get (by rw [e]; rfl)

theorem bind {f : State → Option State} (h : OptSteady s o) (k : ∀ t, OptSteady t (f t)) :
    OptSteady s (o.bind f) := by
  cases o with
  | none => exact .none
  | some t => exact .trans (h.get rfl) (k t)

theorem map {f : State → State} (h : OptSteady s o) (k : ∀ t, Steady t (f t)) :
    OptSteady s (o.map f) := by
  cases o with
  | none => exact .none
  | some t => exact .some ((h.get rfl).trans (k t))

theorem mapFst {β : Type} {f : State → State × β} (h : OptSteady s o) (k : ∀ t, Steady t (f t).1) :
    OptSteady s ((o.map f).map Prod.fst) := by
  cases o with
  | none => exact .none
  | some t => exact .some ((h.get rfl).trans (k t))

theorem mapOther {α : Type} {x : Option α} {f : α → State} (k : ∀ a, Steady s (f a)) :
    OptSteady s (x.map f) := by
  cases x with
  | none => exact .none
  | some a => exact .some (k a)

theorem mapOtherFst {α β : Type} {x : Option α} {f : α → State × β} (k : ∀ a, Steady s (f a).1) :
    OptSteady s ((x.map f).map Prod.fst) := by
  cases x with
  | none => exact .none
  | some a => exact .some (k a)

theorem bindOther {α : Type} {x : Option α} {f : α → Option State} (k : ∀ a, OptSteady s (f a)) :
    OptSteady s (x.bind f) := by
  cases x with
  | none => exact .none
  | some a => exact k a

theorem mapOk {ε : Type} {x : Except ε State} {f : State → State} (h : OptSteady s x.toOption)
    (k : ∀ t, Steady t (f t)) : OptSteady s (x.map f).toOption := by
  cases x with
  | error => exact .none
  | ok t => exact .some ((h.get rfl).trans (k t))

theorem mapOkFst {ε β : Type} {x : Except ε State} {f : State → State × β} (h : OptSteady s x.toOption)
    (k : ∀ t, Steady t (f t).1) : OptSteady s ((x.map f).toOption.map Prod.fst) := by
  cases x with
  | error => exact .none
  | ok t => exact .some ((h.get rfl).trans (k t))

theorem bindOk {ε : Type} {x : Except ε State} {f : State → Except ε State} (h : OptSteady s x.toOption)
    (k : ∀ t, OptSteady t (f t).toOption) : OptSteady s (x >>= f).toOption := by
  cases x with
  | error => exact .none
  | ok t => exact .trans (h.get rfl) (k t)

theorem bindOkFst {ε β : Type} {x : Except ε State} {f : State → Except ε (State × β)}
    (h : OptSteady s x.toOption) (k : ∀ t, OptSteady t ((f t).toOption.map Prod.fst)) :
    OptSteady s ((x >>= f).toOption.map Prod.fst) := by
  cases x with
  | error => exact .none
  | ok t => exact .trans (h.get rfl) (k t)

theorem bindOkOf {ε β : Type} {x : Except ε (State × β)} {f : State × β → Except ε State}
    (h : OptSteady s (x.toOption.map Prod.fst)) (k : ∀ r, OptSteady r.1 (f r).toOption) :
    OptSteady s (x >>= f).toOption := by
  cases x with
  | error => exact .none
  | ok r => exact .trans (h.get rfl) (k r)

theorem bindOkFstOf {ε β γ : Type} {x : Except ε (State × β)} {f : State × β → Except ε (State × γ)}
    (h : OptSteady s (x.toOption.map Prod.fst)) (k : ∀ r, OptSteady r.1 ((f r).toOption.map Prod.fst)) :
    OptSteady s ((x >>= f).toOption.map Prod.fst) := by
  cases x with
  | error => exact .none
  | ok r => exact .trans (h.get rfl) (k r)

theorem mapFstOk {ε β : Type} {x : Except ε (State × β)} {f : State × β → State}
    (h : OptSteady s (x.toOption.map Prod.fst)) (k : ∀ r, Steady r.1 (f r)) :
    OptSteady s (x.map f).toOption := by
  cases x with
  | error => exact .none
  | ok r => exact .some ((h.get rfl).trans (k r))

theorem mapOkOf {ε β γ : Type} {x : Except ε (State × β)} {f : State × β → State × γ}
    (h : OptSteady s (x.toOption.map Prod.fst)) (k : ∀ r, Steady r.1 (f r).1) :
    OptSteady s ((x.map f).toOption.map Prod.fst) := by
  cases x with
  | error => exact .none
  | ok r => exact .some ((h.get rfl).trans (k r))

theorem mapFstOf {β γ : Type} {x : Option (State × β)} {f : State × β → State × γ}
    (h : OptSteady s (x.map Prod.fst)) (k : ∀ r, Steady r.1 (f r).1) :
    OptSteady s ((x.map f).map Prod.fst) := by
  cases x with
  | none => exact .none
  | some r => exact .some ((h.get rfl).trans (k r))

theorem foldlMOk {ε α : Type} {f : State → α → Except ε State} {l : List α}
    (k : ∀ t a, OptSteady t (f t a).toOption) (h : Steady s t) :
    OptSteady s (l.foldlM f t).toOption := by
  induction l generalizing s t with
  | nil => exact .some h
  | cons a l ih => exact .trans h (bindOk (k t a) fun _ => ih .refl)

theorem bindSome {ε : Type} {x : Option (Except ε State)} {r : Except ε State}
    (h : OptSteady s (x.bind Except.toOption)) (e : x = .some r) : OptSteady s r.toOption := by
  rw [e] at h
  exact h

theorem mapSome {ε : Type} {r : Except ε State} {f : State → State} (h : OptSteady s r.toOption)
    (k : ∀ t, Steady t (f t)) : OptSteady s (r.map fun t => Option.some (f t)).toOption.join := by
  cases r with
  | error => exact .none
  | ok t => exact .some ((h.get rfl).trans (k t))

theorem foldlBind {α : Type} {f : α → State → Option State} {l : List α} (k : ∀ a t, OptSteady t (f a t))
    (h : OptSteady s o) : OptSteady s (l.foldl (fun o a => o.bind (f a)) o) := by
  induction l generalizing o with
  | nil => exact h
  | cons a l ih => exact ih (h.bind (k a))

/-- The state that a job has left, if it ran. -/
theorem joinOk {ε β : Type} {r : Except ε (Option State)} {f : Option State → State × β}
    (h : OptSteady s r.toOption.join) (k : ∀ o, OptSteady s o → Steady s (f o).1) :
    OptSteady s ((r.map f).toOption.map Prod.fst) := by
  cases r with
  | error => exact .none
  | ok o => exact .some (k o h)

end OptSteady

/-! ### The functions of the model -/



theorem logEvent_steady (s : State) (e : Event) : Steady s (logEvent s e) :=
  { (Steady.refl : Steady s s) with log := fun _ => List.length_take_le .. }

theorem queueEvent_steady (s : State) (e : Event) : Steady s (queueEvent s e) := by
  unfold queueEvent
  split
  · exact { (Steady.refl : Steady s s) with
      events := fun _ => by simp only [List.length_append, List.length_singleton]; omega }
  · exact (count_touches ..).steady.after .update

theorem postEvent_steady (s : State) (e : Event) : Steady s (postEvent s e) :=
  (tellSessions_touches ..).steady.after ((queueEvent_steady ..).after (.ite (logEvent_steady ..) .refl))

theorem startFreeze_steady (s : State) (trigger code : Nat) : Steady s (startFreeze s trigger code) := by
  unfold startFreeze
  split
  · extract_lets s₁ _
    exact .set (t := s₁) (postEvent_steady ..)
  · exact .refl

theorem raiseAt_steady (s : State) (code source tick : Nat) (values : List Nat) :
    Steady s (raiseAt s code source tick values) :=
  .ite ((startFreeze_steady ..).after (postEvent_steady ..)) (postEvent_steady ..)

theorem raiseEv_steady (s : State) (code source : Nat) (values : List Nat) :
    Steady s (raiseEv s code source values) :=
  (raiseAt_steady ..)

theorem soonDo_steady (s : State) (x : Soon) : Steady s (soonDo s x) :=
  .update

theorem freezeMaster_steady (s : State) (type cls num : Nat) : Steady s (freezeMaster s type cls num) :=
  .ite .refl ((raiseEv_steady ..).after .update)

theorem releaseMaster_steady (s : State) (type cls num : Nat) : Steady s (releaseMaster s type cls num) :=
  (raiseEv_steady ..).after .update

theorem useFresh_steady (s : State) : Steady s (useFresh s) :=
  .update

theorem freshBytes_steady (n : Nat) (s : State) : Steady s (freshBytes n s).1 := by
  induction n generalizing s with
  | zero => exact .refl
  | succ n ih => exact (ih _).after (useFresh_steady ..)

theorem Steady.writeBy {s t : State} {src : Origin} {idx sub row : Nat} {v : Bytes} {eff : State → Option State}
    (h : Steady s t) (k : ∀ t, OptSteady t (eff t)) : Steady s (writeBy t src idx sub row v eff) := by
  have lease : Steady s (renewLease t (originNum src)) := (renewLease_touches ..).steady.after h
  unfold Machine.writeBy
  refine .ite h ?_
  extract_lets
  refine .ite ?_ ((rejectWrite_touches ..).steady.after lease)
  split
  next u e => exact (filtered_touches ..).steady.after (lease.trans ((k _).get e))
  · exact (rejectWrite_touches ..).steady.after lease

theorem Steady.writeCmd {s t : State} {src : Origin} {idx sub row : Nat} {v : Bytes} {eff : State → Option State}
    (h : Steady s t) (k : ∀ t, OptSteady t (eff t)) : Steady s (writeCmd t src idx sub row v eff) :=
  h.whenRun (h.writeBy k)

theorem freezeFn_steady (s : State) (f cause detail : Nat) : Steady s (freezeFn s f cause detail) := by
  unfold freezeFn
  split
  · exact .refl
  · extract_lets s₁
    exact (freezeMaster_steady ..).after (modFn_touches ..).steady

theorem freezeRing_steady (s : State) (r : Nat) : Steady s (freezeRing s r) :=
  (freezeMaster_steady ..).after (modRing_touches ..).steady

theorem dmaWrite_steady (s : State) (r addr : Nat) (b : Bytes) : Steady s (dmaWrite s r addr b) :=
  .ite ((filtered_touches ..).steady.after (emit_touches ..).steady) (freezeFn_steady ..)

theorem headWrite_steady (s : State) (r : Nat) : Steady s (headWrite s r) :=
  .ite .refl (dmaWrite_steady ..)

theorem writeBack_steady (s : State) (r : Nat) (words : List Nat) : Steady s (writeBack s r words) :=
  (notSignalled_touches ..).steady.after ((headWrite_steady ..).after
    ((modRing_touches ..).steady.after ((dmaWrite_steady ..).after (dmaWrite_steady ..))))

theorem drainBegun_steady (r n : Nat) (s : State) : Steady s (drainBegun r n s) := by
  induction n generalizing s with
  | zero => exact .refl
  | succ n ih =>
    unfold drainBegun
    split
    · exact (ih _).after ((writeBack_steady ..).after (modRing_touches ..).steady)
    · exact .refl

theorem completeCount_steady (s : State) (r c : Nat) (words : List Nat) : Steady s (completeCount s r c words) :=
  (drainBegun_steady ..).after (modRing_touches ..).steady

theorem doorbell_steady (s : State) (fn r offset count : Nat) : Steady s (doorbell s fn r offset count) :=
  .ite .refl (.ite (freezeFn_steady ..) (.ite (.ite (modRing_touches ..).steady
    (freezeRing_steady ..)) .refl))

theorem byteDoorbell_steady (s : State) (fn r offset value : Nat) : Steady s (byteDoorbell s fn r offset value) :=
  .ite .refl (.ite (freezeFn_steady ..) (.ite (modRing_touches ..).steady .refl))

theorem writeRecord_steady (s : State) (r : Nat) (b : Bytes) (start fin : Nat) :
    Steady s (writeRecord s r b start fin) :=
  (notSignalled_touches ..).steady.after ((dmaWrite_steady ..).after
    ((modRing_touches ..).steady.after (dmaWrite_steady ..)))

theorem rowRxRingDoorbell_steady (fn ring count : Nat) (s : State) :
    Steady s (rowRxRingDoorbell fn ring count s) :=
  .whenRun .refl (doorbell_steady ..)

theorem rowTxRingDoorbell_steady (fn ring count : Nat) (s : State) :
    Steady s (rowTxRingDoorbell fn ring count s) :=
  .whenRun .refl (doorbell_steady ..)

theorem rowCompletionRingDoorbell_steady (fn pipe count : Nat) (s : State) :
    Steady s (rowCompletionRingDoorbell fn pipe count s) :=
  .whenRun .refl (doorbell_steady ..)

theorem rowByteRingDoorbell_steady (fn : Nat) (isEvent : Bool) (offset : Nat) (s : State) :
    Steady s (rowByteRingDoorbell fn isEvent offset s) :=
  .whenRun .refl (byteDoorbell_steady ..)

theorem rowCmdRingDoorbell_steady (fn pipe count : Nat) (bodies : List Bytes) (s : State) :
    Steady s (rowCmdRingDoorbell fn pipe count bodies s) := by
  unfold rowCmdRingDoorbell
  refine .whenRun .refl ?_
  extract_lets r before s₁ n
  exact .ite ((submitCmds_touches ..).steady.after (doorbell_steady ..)) (doorbell_steady ..)

theorem rowDmaReadError_steady (fn ring : Nat) (s : State) : Steady s (rowDmaReadError fn ring s) :=
  .whenRun .refl ((freezeFn_steady ..).after (count_touches ..).steady)

theorem missOneShot_steady (s : State) (k : Nat) : Steady s (missOneShot s k) := by
  unfold missOneShot
  extract_lets s₁
  exact (raiseEv_steady ..).after (.set (t := s₁) ((setRw_touches ..).steady.after (modTout_touches ..).steady))

theorem realignPin_steady (s : State) (k mode tb start period : Nat) (fromStart : Bool) :
    Steady s (realignPin s k mode tb start period fromStart) :=
  .ite (modTout_touches ..).steady (.ite (.ite ((missOneShot_steady ..).after (modTout_touches ..).steady)
    (modTout_touches ..).steady) .refl)

theorem realignAll_steady (s : State) (t : Nat) : Steady s (realignAll s t) :=
  .foldl (fun _ _ => .ite (realignPin_steady ..) .refl) .refl

theorem tickLost_steady (s : State) : Steady s (tickLost s) :=
  .ite .refl .update

theorem applyStep_steady (s : State) (t : Nat) : Steady s (applyStep s t) := by
  unfold applyStep
  extract_lets b
  split
  · exact .refl
  · extract_lets b₁ s₁ s₂ s₃
    exact (realignAll_steady ..).after (.ite ((tickLost_steady ..).after
      ((raiseEv_steady ..).after (modTb_touches ..).steady))
      ((raiseEv_steady ..).after (modTb_touches ..).steady))

theorem advanceTb_steady (s : State) (t : Nat) : Steady s (advanceTb s t) := by
  unfold advanceTb
  extract_lets changed s₁ b
  refine .trans (t := s₁) ((startSlew_touches ..).steady.after (applyStep_steady ..)) ?_
  split
  · split
    · extract_lets s₂ s₃
      refine .trans (t := s₃) (.trans (t := s₂) (modTb_touches ..).steady (.ite (markTb_touches ..).steady .refl))
        ?_
      exact .ite (raiseEv_steady ..) .refl

theorem advanceAll_steady (s : State) : Steady s (advanceAll s) :=
  .foldl (fun _ _ => (advanceTb_steady ..)) .refl

theorem tbDisable_steady (t : Nat) (s : State) : OptSteady s (tbDisable t s) :=
  .ite (.some .refl) (.some ((soonDo_steady ..).after (setRw_touches ..).steady))

theorem tbStop_steady (t : Nat) (s : State) : Steady s (tbStop t s) := by
  unfold tbStop
  extract_lets s₁ s₂
  exact .ite ((tickLost_steady ..).after ((raiseEv_steady ..).after (modTb_touches ..).steady))
    ((raiseEv_steady ..).after (modTb_touches ..).steady)

theorem tbBecomeValid_steady (s : State) (t : Nat) : Steady s (tbBecomeValid s t) :=
  (realignAll_steady ..).after ((markTb_touches ..).steady.after
    ((raiseEv_steady ..).after (modTb_touches ..).steady))

theorem realignWritten_steady (s : State) (k : Nat) : Steady s (realignWritten s k) :=
  (realignPin_steady ..)

theorem toutWrite_steady (k sub value : Nat) (s : State) : OptSteady s (toutWrite k sub value s) :=
  .ite .none (.some (.ite ((soonDo_steady ..).after (setRw_touches ..).steady) (setRw_touches ..).steady))

theorem pulse_steady (s : State) (k : Nat) : Steady s (pulse s k) :=
  .ite .refl (.ite (.ite (missOneShot_steady ..) .refl)
    ((emit_touches ..).steady.after (modTout_touches ..).steady))

theorem capture_steady (s : State) (i : Nat) (rise : Bool) (back : Nat) : Steady s (capture s i rise back) :=
  .ite .refl (.ite ((raiseEv_steady ..).after (modTin_touches ..).steady)
    (.ite (modTin_touches ..).steady ((raiseEv_steady ..).after (modTin_touches ..).steady)))

theorem tinAck_steady (i rows : Nat) (s : State) : OptSteady s (tinAck i rows s) :=
  .some (soonDo_steady ..)

theorem rowToutConfigWrite_steady (src : Origin) (pin sub value : Nat) (s : State) :
    Steady s (rowToutConfigWrite src pin sub value s) :=
  .writeCmd .refl (fun _ => (toutWrite_steady ..))

theorem rowTimeOutPulse_steady (pin : Nat) (s : State) : Steady s (rowTimeOutPulse pin s) :=
  .whenRun .refl (pulse_steady ..)

theorem rowTimeCapture_steady (pin : Nat) (rise : Bool) (back : Nat) (s : State) :
    Steady s (rowTimeCapture pin rise back s) :=
  .whenRun .refl (capture_steady ..)

theorem rowTinAck_steady (src : Origin) (pin rows : Nat) (s : State) : Steady s (rowTinAck src pin rows s) :=
  .writeCmd .refl (fun _ => (tinAck_steady ..))

theorem txFinish_steady (s : State) (k : Pkt) (status : Nat) : Steady s (txFinish s k status) := by
  unfold txFinish
  split
  · exact .ite (completeCount_steady ..) .refl
  · exact .refl

theorem readCells_steady (n : Nat) (l : List (Nat × Ecc)) (s : State) : Steady s (readCells n l s).1 := by
  induction l generalizing s with
  | nil => exact .refl
  | cons c l ih =>
    obtain ⟨i, e⟩ := c
    cases e with
    | ok => exact ih s
    | single => exact (ih _).after (count_touches ..).steady
    | double =>
      exact (ih _).after ((raiseEv_steady ..).after ((count_touches ..).steady.after (useFresh_steady ..)))

theorem discardPkt_steady (s : State) (id : Nat) : Steady s (discardPkt s id) := by
  unfold discardPkt
  split
  · exact .refl
  · extract_lets s₁ s₂
    refine .trans (t := s₂) ((txFinish_steady ..).after (.ite (leaveQueue_touches ..).steady .refl)) ?_
    exact .ite (freePkt_touches ..).steady (modPkt_touches ..).steady

theorem flushOne_steady (s : State) (n : Nat) : Steady s (flushOne s n) := by
  unfold flushOne
  split
  · split
    · exact .refl
    · exact (modPort_touches ..).steady.after ((discardPkt_steady ..).after (count_touches ..).steady)
  · exact .refl

theorem flushEnd_steady (s : State) (n : Nat) : Steady s (flushEnd s n) := by
  unfold flushEnd
  split
  · extract_lets s₁
    exact (modPort_touches ..).steady.after (raiseEv_steady ..)
  · exact .refl

theorem cutTransmit_steady (s : State) (n : Nat) : Steady s (cutTransmit s n) := by
  unfold cutTransmit
  split
  · exact .refl
  · extract_lets s₁
    exact (discardPkt_steady ..).after ((count_touches ..).steady.after (modPort_touches ..).steady)

theorem linkLost_steady (s : State) (n : Nat) : Steady s (linkLost s n) :=
  .ite ((enterFlush_touches ..).steady.after (cutTransmit_steady ..))
    ((modPort_touches ..).steady.after (cutTransmit_steady ..))

theorem modSealed_steady (s : State) (num : Nat) (f : Sealed → Sealed) : Steady s (modSealed s num f) :=
  .update

theorem modPrep_steady (s : State) (num p : Nat) (f : Prep → Prep) : Steady s (modPrep s num p f) :=
  (modSealed_steady ..)

theorem passAt_steady (s : State) (num p at_ i : Nat) : Steady s (passAt s num p at_ i) :=
  (modPrep_steady ..)

theorem prepTcam_steady (s : State) (q : Sealed) (sl p b e : Nat) : Steady s (prepTcam s q sl p b e) :=
  .ite (.ite ((passAt_steady ..).after (writeUnit_touches ..).steady)
    ((passAt_steady ..).after (writeUnit_touches ..).steady))
    (.ite ((putUnit_touches ..).steady.after (passAt_steady ..))
    ((putUnit_touches ..).steady.after (passAt_steady ..)))

theorem prepExact_steady (s : State) (q : Sealed) (sl p r : Nat) : Steady s (prepExact s q sl p r) :=
  .ite ((putExact_touches ..).steady.after (passAt_steady ..))
    (.ite ((putExact_touches ..).steady.after (passAt_steady ..))
    ((putExact_touches ..).steady.after (passAt_steady ..)))

theorem prepStep_steady (s : State) (q : Sealed) (p : Nat) : OptSteady s (prepStep s q p) := by
  unfold prepStep
  split
  · exact .none
  · split
    · exact .none
    · extract_lets k b
      split
      · extract_lets s₁
        exact .some ((modPrep_steady ..).after (.foldl (fun _ _ => (rewiden_touches ..).steady) .refl))
      · split
        · exact .some (prepTcam_steady ..)
        · split
          · exact .some (prepTcam_steady ..)
          · exact .mapOther (fun _ => (prepExact_steady ..))

theorem passOver_steady (p : Nat) (s : State) (l : List Sealed) : Steady s (passOver p s l) := by
  induction l generalizing s with
  | nil => exact .refl
  | cons q l ih =>
    unfold passOver
    split
    · exact .refl
    · exact .ite ((ih _).after (passAt_steady ..)) .refl

theorem prepAny_steady (s : State) (p : Nat) : OptSteady s (prepAny s p) :=
  .bindOther (fun _ => (prepStep_steady ..))

theorem dropWrites_steady (s : State) (g : Nat) : Steady s (dropWrites s g) := by
  unfold dropWrites
  extract_lets s₁ _
  exact .set (t := s₁) (modPipe_touches ..).steady

theorem setBankMode_steady (g mode : Nat) (s : State) : OptSteady s (setBankMode g mode s) :=
  .ite (.some ((wipeBank_touches ..).steady.after ((setRw_touches ..).steady.after
    (.ite .refl (dropWrites_steady ..))))) .none

theorem twriteBeat_steady (s : State) (p : Nat) : Steady s (twriteBeat s p) := by
  unfold twriteBeat
  extract_lets s₁ s₂
  split
  · split
    · exact (ranIngress_touches ..).steady.after ((legacyBeat_touches ..).steady.after (modPipe_touches ..).steady)
    · unfold s₂
      refine .trans (t := s₁) (modPipe_touches ..).steady ?_
      split
      next u e =>
        exact (ranIngress_touches ..).steady.after (((prepAny_steady ..).get e).after (passOver_steady ..))
      · exact (ranIngress_touches ..).steady.after (passOver_steady ..)
  · unfold s₂
    refine .trans (t := s₁) (modPipe_touches ..).steady ?_
    split
    next u₁ e₁ =>
      exact (ranIngress_touches ..).steady.after (((prepAny_steady ..).get e₁).after (passOver_steady ..))
    · exact (ranIngress_touches ..).steady.after (passOver_steady ..)

theorem scrubBeat_steady (s : State) (p : Nat) (found : Option TcamUnit) (sh : Ecc) :
    Steady s (scrubBeat s p found sh) := by
  unfold scrubBeat
  extract_lets pos b u n s₁ _ s₂ n0 clear _ s₃ s₄
  split
  · refine (raiseEv_steady ..).after ((count_touches ..).steady.after (.set (t := s₂) ?_))
    unfold s₂
    refine .trans (t := s₁) (modPipe_touches ..).steady ?_
    split
    · exact .update
    · exact .refl
  · split
    · refine (raiseEv_steady ..).after ((count_touches ..).steady.after (.set (t := s₂) ?_))
      unfold s₂
      refine .trans (t := s₁) (modPipe_touches ..).steady ?_
      split
      · exact .update
      · exact .refl
    · unfold s₂
      refine .trans (t := s₁) (modPipe_touches ..).steady ?_
      split
      · exact .update
      · exact .refl

theorem rowTwrite_steady (pipe : Nat) (s : State) : Steady s (rowTwrite pipe s) :=
  .whenRun .refl (.guardS .refl (.ite (twriteBeat_steady ..)
    (.ite (ranIngress_touches ..).steady .refl)))

theorem rowTscrub_steady (pipe : Nat) (found : Option TcamUnit) (shadow : Ecc) (s : State) :
    Steady s (rowTscrub pipe found shadow s) :=
  .whenRun .refl (.guardS .refl (.ite ((ranIngress_touches ..).steady.after (scrubBeat_steady ..))
    (.ite (ranIngress_touches ..).steady .refl)))

theorem rowBankModeWrite_steady (src : Origin) (bank mode : Nat) (s : State) :
    Steady s
      (rowBankModeWrite src bank mode s) :=
  .writeCmd .refl (fun _ => (setBankMode_steady ..))

theorem putDir_steady (s : State) (a v : Nat) : Steady s (putDir s a v) :=
  { (Steady.refl : Steady s s) with memory := fun h => putDir_wf h .. }

theorem putSlot_steady (s : State) (a : Nat) (b : Bytes) : Steady s (putSlot s a b) :=
  { (Steady.refl : Steady s s) with memory := fun h => putSlot_wf h .. }

theorem writeRaw_steady (s : State) (a : Nat) (dbl : Bool) (r : Bytes) : Steady s (writeRaw s a dbl r) :=
  .ite ((putSlot_steady ..).after (putSlot_steady ..)) (putSlot_steady ..)

theorem writeRecordAt_steady (s : State) (a : Nat) (dbl : Bool) (r : Bytes) : Steady s (writeRecordAt s a dbl r) :=
  (writeRaw_steady ..)

theorem putCompanion_steady (s : State) (a : Nat) (b : Bytes) : Steady s (putCompanion s a b) :=
  { (Steady.refl : Steady s s) with memory := fun h => putCompanion_wf h .. }

theorem occupy_steady (s : State) (a f : Nat) (dbl : Bool) : Steady s (occupy s a f dbl) :=
  .ite ((putDir_steady ..).after (putDir_steady ..)) (putDir_steady ..)

theorem vacate_steady (s : State) (a : Nat) (dbl : Bool) : Steady s (vacate s a dbl) :=
  .ite ((putDir_steady ..).after (putDir_steady ..)) (putDir_steady ..)

theorem takePlace_steady (s : State) (p profile : Nat) (key : Bytes) :
    OptSteady s ((takePlace s p profile key).map Prod.fst) := by
  unfold takePlace
  extract_lets
  split
  split
  · exact .some (occupy_steady ..)
  · exact .mapOtherFst fun _ => (modPipe_touches ..).steady

theorem makeClaim_steady (s : State) (p h profile : Nat) (key : Bytes) :
    OptSteady s ((makeClaim s p h profile key).map Prod.fst) := by
  unfold makeClaim
  split
  · exact .someFst .refl
  next u _ e =>
    exact .mapFst ((pinPlace_touches ..).steady.after (((takePlace_steady ..).getFst e)))
      (fun _ => .pair (modPipe_touches ..).steady)

theorem storeRecord_steady (s : State) (p h : Nat) (dbl : Bool) (r : Bytes) (x : Place) :
    OptSteady s (storeRecord s p h dbl r x) := by
  unfold storeRecord
  split
  · extract_lets s₁
    exact .ite (.some ((askWrite_touches ..).steady.after (writeRecordAt_steady ..)))
      ((putCache_touches ..).steady.after ((askWrite_touches ..).steady.after (writeRecordAt_steady ..)))
  · exact .some (modPipe_touches ..).steady
  · exact (putCache_touches ..).steady.after (modPipe_touches ..).steady

theorem releasePlace_steady (s : State) (p : Nat) (pl : Place) (dbl : Bool) (h tick : Nat) :
    Steady s (releasePlace s p pl dbl h tick) := by
  unfold releasePlace
  split
  · exact (modPipe_touches ..).steady
  · split
    · exact (modPipe_touches ..).steady.after (.ite .refl (vacate_steady ..))
    · exact (modPipe_touches ..).steady.after (.ite .refl (vacate_steady ..))
    · exact (freeStashEntry_touches ..).steady

theorem leaveClaim_steady (s : State) (p : Nat) (c : Claim) (h tick : Nat) : Steady s (leaveClaim s p c h tick) :=
  .ite ((countR_touches ..).steady.after ((releasePlace_steady ..).after (dropClaim_touches ..).steady))
    (modPipe_touches ..).steady

theorem endRecord_steady (s : State) (p h tick : Nat) (pl : Place) (dbl : Bool) :
    OptSteady s (endRecord s p h tick pl dbl) := by
  unfold endRecord
  extract_lets r profile key holders
  refine .map (storeRecord_steady ..) (fun t => ?_)
  extract_lets s₁ s₂
  refine .trans (t := s₂) ?_ ?_
  · unfold s₂
    refine .trans (t := s₁) (natEndRecord_touches ..).steady ?_
    split
    · exact .ite ((countR_touches ..).steady.after (modPipe_touches ..).steady) .refl
    · exact .refl
  · split
    · exact releasePlace_steady ..
    · split
      · exact (modPipe_touches ..).steady
      · exact (modPipe_touches ..).steady

theorem quarantine_steady (s : State) (p a cause tick : Nat) : Steady s (quarantine s p a cause tick) := by
  unfold quarantine
  split
  · exact .refl
  · extract_lets slots s₁ _ s₂ s₃
    exact (raiseAt_steady ..).after ((countR_touches ..).steady.after
      ((modPipe_touches ..).steady.after (.set (t := s₁) (.foldl (fun _ _ => (putDir_steady ..)) .refl))))

theorem quarantineBad_steady (s : State) (p : Nat) (q : Pos) : Steady s (quarantineBad s p q) :=
  .foldl (fun _ _ => .ite .refl (quarantine_steady ..)) .refl

theorem alarms_steady (s : State) (p tick : Nat) : Steady s (alarms s p tick) := by
  unfold alarms
  extract_lets oa sa o t k s₁ s₂
  refine .trans (t := s₂) (.trans (t := s₁) (modPipe_touches ..).steady (.ite (raiseAt_steady ..) .refl)) ?_
  exact .ite (raiseAt_steady ..) .refl

theorem dirDouble_steady (s : State) (p h c b tick requester : Nat) :
    Steady s (dirDouble s p h c b tick requester) :=
  (raiseAt_steady ..).after ((count_touches ..).steady.after
    (.foldl (fun _ _ => (askRead_touches ..).steady) ((modPos_touches ..).steady.after
    (.foldl (fun _ _ => (putDir_steady ..)) .refl))))

theorem readWords_steady (s : State) (p h c tick requester : Nat) (bs : List Nat) (upset : Option (Nat × Ecc)) :
    Steady s (readWords s p h c tick requester bs upset) := by
  unfold readWords
  split
  · exact .ite (count_touches ..).steady .refl
  · exact .ite (dirDouble_steady ..) .refl
  · exact .refl

theorem readDirectory_steady (s : State) (p h tick requester : Nat) (bs : List Nat) (upset : Option (Nat × Ecc)) :
    Steady s (readDirectory s p h tick requester bs upset) :=
  (readWords_steady ..)

theorem rebuildBucket_steady (s : State) (p : Nat) (q : Pos) (b : Nat) : Steady s (rebuildBucket s p q b) := by
  unfold rebuildBucket
  extract_lets bad one
  refine .foldl (fun t a => ?_) .refl
  unfold one
  extract_lets a here fpOf _ s₁
  split
  · split
    · exact occupy_steady ..
  · exact .ite .refl (.ite .update (.ite ((occupy_steady ..).after .update)
      (.ite ((putDir_steady ..).after .update) ((putDir_steady ..).after .update))))

theorem frozenList_steady (s : State) (l : List Nat) :
    Steady s { s with sys := { s.sys with frozenList := l } } := .update

theorem trapCluster_steady (s : State) (c cause info : Nat) (vector : Bytes) :
    Steady s
      (trapCluster s c cause info vector) := by
  unfold trapCluster
  refine .ite .refl ?_
  extract_lets s₁ s₂ s₃ s₄ w
  have h₂ : Steady s s₂ :=
    .foldl (fun _ _ => (unformat_touches ..).steady) (cancelAllIdle_touches ..).steady
  have h₄ : Steady s s₄ :=
    (count_touches ..).steady.after ((markTrapped_touches ..).steady.after ((modCluster_touches ..).steady.after h₂))
  exact (raiseEv_steady ..).after ((frozenList_steady s₄ _).after h₄)

theorem trapEngine_steady (s : State) (c e cause : Nat) : Steady s (trapEngine s c e cause) :=
  (trapCluster_steady ..)

theorem issueWord_steady (s : State) (c e : Nat) (ecc : Ecc) : Steady s (issueWord s c e ecc) := by
  unfold issueWord
  extract_lets _ g s₁ img w s₂ s₃ t s₄ rd g' s₅
  refine .trans (t := s₂) (.trans (t := s₁) (modEngine_touches ..).steady (.ite (count_touches ..).steady .refl)) ?_
  refine .trans (t := s₃) (.ite .refl (count_touches ..).steady) ?_
  split
  · exact trapEngine_steady ..
  split
  · exact trapEngine_steady ..
  · refine .trans (t := s₅) ((modEngine_touches ..).steady.after (.ite (filtered_touches ..).steady .refl)) ?_
    exact .ite (finishPacket_touches ..).steady .refl

theorem rowMicrowordIssue_steady (cluster engine : Nat) (ecc : Ecc) (s : State) :
    Steady s
      (rowMicrowordIssue cluster engine ecc s) :=
  .whenRun .refl (.guardS .refl (issueWord_steady ..))

theorem rowEngineBudgetTrap_steady (cluster engine : Nat) (s : State) :
    Steady s
      (rowEngineBudgetTrap cluster engine s) :=
  .whenRun .refl (.guardS .refl (trapEngine_steady ..))

theorem rowIdleOverrun_steady (cluster engine : Nat) (s : State) : Steady s (rowIdleOverrun cluster engine s) :=
  .whenRun .refl (.guardS .refl ((raiseEv_steady ..).after
    ((count_touches ..).steady.after (cancelIdle_touches ..).steady)))

theorem steady_ite_s {s : State} {c : Prop} [Decidable c] {t u : CommitSt}
    (h : Steady s t.s) (k : Steady s u.s) : Steady s (if c then t else u).s := by
  split
  · exact h
  · exact k

theorem natAlloc_steady (c : CommitCtx) (t : CommitSt) (a b first cnt : Nat) (paired : Bool) :
    Steady t.s (natAlloc c t a b first cnt paired).1.s := by
  unfold natAlloc
  split
  · exact .refl
  · extract_lets old
    split
    · exact .refl
    · split
      · exact (modPipe_touches ..).steady
      · split
        · exact .refl
        · exact (raiseAt_steady ..).after (modPipe_touches ..).steady

theorem opEffect_steady (c : CommitCtx) (t : CommitSt) (w : Nat) : Steady t.s (opEffect c t w).s := by
  have hcount (o : Nat) : Steady t.s (pipeCount c t.s o) :=
    (pipeCount_touches ..).steady
  have same {u : CommitSt} (h : u.s = t.s) : Steady t.s u.s := h ▸ .refl
  unfold opEffect
  extract_lets op imm a b0 m b f d fin _ _ _ _ _ _ _ _ _ exported _ _ _ _ sampled
  have hfin (u : CommitSt) (nf q : Nat) (p : Bool) : (fin u nf q p).s = u.s := by simp [fin]
  clear_value fin
  -- the arithmetic operations
  iterate 6 refine steady_ite_s (same (by simp [hfin])) ?_
  refine steady_ite_s (same (by simp)) ?_
  refine steady_ite_s (same (by simp [hfin])) ?_
  refine steady_ite_s (same (by simp [apply_ite CommitSt.s])) ?_
  -- NAT
  refine steady_ite_s ?_ ?_
  · split
    next u q ok e =>
      have := natAlloc_steady c t a b0 (imm % 16) (bits imm 7 4 + 1) (bit imm 8)
      rw [e] at this
      simpa using this
  -- LB
  refine steady_ite_s ?_ ?_
  · split
    · exact same (by simp)
    · exact same (by simp [hfin])
  refine steady_ite_s .refl ?_
  -- EXPORT
  refine steady_ite_s ?_ ?_
  · refine steady_ite_s (hcount 19) (steady_ite_s .refl (steady_ite_s (hcount 16) .refl))
  -- SAMPLE
  refine steady_ite_s ?_ ?_
  · have hs : sampled.s = t.s := hfin ..
    refine steady_ite_s (same hs) (steady_ite_s (same hs) (steady_ite_s (same hs) ?_))
    show Steady _ (pipeCount c sampled.s 21)
    exact hs ▸ hcount 21
  iterate 4 refine steady_ite_s (same (by simp [hfin])) ?_
  refine steady_ite_s ?_ .refl
  split
  next u q ok e =>
    have := (natRev_touches c t a).steady
    rw [e] at this
    simpa using this

theorem runOp_steady (c : CommitCtx) (t : CommitSt) (w : Nat) : Steady t.s (runOp c t w).s := by
  unfold runOp
  extract_lets g
  refine steady_ite_s .refl ?_
  split
  · exact (pipeCount_touches ..).steady
  · exact opEffect_steady ..

theorem runOps_steady (c : CommitCtx) (t : CommitSt) (ws : List Nat) : Steady t.s (runOps c t ws).s := by
  unfold runOps
  induction ws generalizing t with
  | nil => exact .refl
  | cons w ws ih => exact (ih _).after (runOp_steady c t w)

theorem OptSteady.orPin {s : State} {o : Option State} (h : OptSteady s o) : OptSteady s (orPin o).toOption := by
  cases o with
  | none => exact .none
  | some t => exact h

theorem OptSteady.orExport {s : State} {o : Option State} (h : OptSteady s o) :
    OptSteady s (orExport o).toOption := by
  cases o with
  | none => exact .none
  | some t => exact h

theorem beforeCommit_steady (s : State) (p : Nat) (q : Pos) : OptSteady s (beforeCommit s p q).toOption :=
  (enterReads_touches ..).steady.after (.foldl (fun _ _ => (rebuildBucket_steady ..))
    (quarantineBad_steady ..))

theorem learnOverflow_steady (s : State) (p tick : Nat) : Steady s (learnOverflow s p tick) :=
  .ite (countR_touches ..).steady ((raiseAt_steady ..).after
    ((modPipe_touches ..).steady.after (countR_touches ..).steady))

theorem placeLate_steady (s : State) (p c tick profile : Nat) (key : Bytes) :
    Steady s (placeLate s p c tick profile key).1 := by
  unfold placeLate
  split
  · exact .pair (learnOverflow_steady ..)
  next u _ e =>
    extract_lets pl s₁
    exact .pair ((countR_touches ..).steady.after ((modPipe_touches ..).steady.after (((takePlace_steady ..).getFst e))))

theorem openMiss_steady (s : State) (p h c tick profile : Nat) (key : Bytes) (upset : Option (Nat × Ecc)) :
    Steady s (openMiss s p h c tick profile key upset).1 := by
  unfold openMiss
  split
  · extract_lets s₁ k
    refine .trans (t := s₁) (readWords_steady ..) ?_
    split
    · exact placeLate_steady ..
    · split
      · split
        · exact .pair (dropClaim_touches ..).steady
        · split
          · exact .pair .refl
          · exact placeLate_steady ..

theorem leaveClaims_steady (s : State) (p h tick : Nat) : Steady s (leaveClaims s p h tick) :=
  .foldl (fun _ _ => (leaveClaim_steady ..)) .refl

theorem findRecord_steady (s : State) (p c : Nat) (q : Pos) (profile : Nat) (key : Bytes) (learns : Bool)
    (upset : Option (Nat × Ecc)) :
    Steady s (findRecord s p c q profile key learns upset).1 := by
  unfold findRecord
  extract_lets learns missed
  split
  · split
    · exact .pair .refl
    · unfold missed
      split
      · exact .pair .refl
      · split
        · exact .pair (learnOverflow_steady ..)
        · split
          · exact openMiss_steady ..
          · exact .pair .refl
  · split
    · exact .pair .refl
    · split
      · split
        · exact .pair (dropClaim_touches ..).steady
        · exact .pair (leaveClaim_steady ..)
      · split
        · exact .pair .refl
        · unfold missed
          split
          · exact .pair .refl
          · split
            · exact .pair (learnOverflow_steady ..)
            · split
              · exact openMiss_steady ..
              · exact .pair .refl

theorem sendOn_steady (s : State) (k : Pkt) (d : Decision) (edits : List Nat) (hint : Nat) :
    Steady s (sendOn s k d edits hint) :=
  .ite ((discardPkt_steady ..).after (countR_touches ..).steady) (modPkt_touches ..).steady

theorem commitTrapped_steady (s : State) (p : Nat) (q : Pos) (k : Pkt) (c : Nat) :
    Steady s
      (commitTrapped s p q k c) := by
  unfold commitTrapped
  split
  next u _ e =>
    extract_lets hit s₁ hint
    exact (sendOn_steady ..).after ((leaveClaims_steady ..).after
      ((countR_touches ..).steady.after ((countR_touches ..).steady.after (((findRecord_steady ..).fst e)))))

theorem commitProgram_steady (s : State) (p : Nat) (q : Pos) (k : Pkt) (c : Nat) (raw : Bytes)
    (upset : Option (Nat × Ecc)) :
    OptSteady s
      ((commitProgram s p q k c raw upset).toOption.map Prod.fst) := by
  unfold commitProgram
  extract_lets v profile dbl n prog learns
  split
  next u f found =>
  extract_lets u₁ place created rcd s₁ ctx st t t₁ sent
  have hran : Steady s t₁.s := by
    have hs₁ : Steady s s₁ :=
      (countR_touches ..).steady.after ((leaveClaims_steady ..).after ((findRecord_steady ..).fst found))
    have ht : Steady s t.s :=
      (runOps_steady ctx st _).after hs₁
    exact steady_ite_s ht ht
  have hsent (x : State) :
      OptSteady x
        ((sent x).toOption.map Prod.fst) := by
    unfold sent
    extract_lets t₂
    clear_value t₂
    refine .bindOkFst (.orExport (emitExport_touches ctx { t₂ with s := x }).steady) fun y => ?_
    extract_lets y₁
    have hy₁ : Steady y y₁ :=
      (emitSample_touches ..).steady
    split
    next w d tpl verdict =>
      have hw := (packetVerdict_touches ctx { t₂ with s := y₁ } n prog.isSome).steady.fst verdict
      split
      next z edits bound =>
        have hz : Steady w z := by
          by_cases dropped : d.kind = 3
          · rw [if_pos dropped] at bound
            exact Steady.refl.fst (x := (w, [])) bound
          · rw [if_neg dropped] at bound
            exact (bindTemplates_touches ctx { t₂ with s := w } _ _ _).steady.fst bound
        exact .okFst ((sendOn_steady ..).after (hz.after (hw.after hy₁)))
  clear_value place
  split
  · exact .bindOkFst (.orPin ((storeRecord_steady ..).after hran)) hsent
  · exact .bindOkFst (.some hran) hsent

theorem commitPacket_steady (s : State) (p : Nat) (q : Pos) (id c : Nat) (upset : Option (Nat × Ecc)) :
    OptSteady s
      ((commitPacket s p q id c upset).toOption.map Prod.fst) := by
  unfold commitPacket
  split
  · exact .okFst (leaveClaims_steady ..)
  · split
    · exact .okFst (commitTrapped_steady ..)
    · extract_lets raw
      exact commitProgram_steady ..

theorem ageRecord_steady (s : State) (p : Nat) (q : Pos) (pl : Place) (dbl : Bool) :
    OptSteady s (ageRecord s p q pl dbl).toOption := by
  unfold ageRecord
  extract_lets r fl b profile a l ended
  have hended (t : State) : OptSteady t (ended t).toOption :=
    .bindOk (.orPin (endRecord_steady ..)) fun _ => .some (countR_touches ..).steady
  split
  · exact .some .refl
  · split
    · exact .bindOk (.orExport (expiryExport_touches ..).steady) hended
    · exact .bindOk (.some .refl) hended

theorem commitAge_steady (s : State) (p : Nat) (q : Pos) (item : Nat) (slots : List Nat) :
    OptSteady s (commitAge s p q item slots).toOption := by
  unfold commitAge
  split
  · refine .foldlMOk (fun t a => ?_) .refl
    extract_lets
    split
    · exact .some .refl
    · exact ageRecord_steady ..
  · split
    · exact ageRecord_steady ..
    · exact .some .refl

theorem abandonMove_steady (s : State) (p : Nat) (q : Pos) (src : Place) (dst : Nat) (dbl : Bool) (entry : Nat) :
    Steady s (abandonMove s p q src dst dbl entry) := by
  unfold abandonMove
  extract_lets s₁ s₂ s₃
  refine (countR_touches ..).steady.after ?_
  unfold s₃
  refine .trans (t := s₂) ((modPipe_touches ..).steady.after (vacate_steady ..)) ?_
  split
  · exact (dropStash_touches ..).steady
  · exact .refl

theorem commitMove_steady (s : State) (p : Nat) (q : Pos) (src : Place) (dst : Nat) (dbl : Bool) (entry : Nat) :
    OptSteady s (commitMove s p q src dst dbl entry).toOption := by
  unfold commitMove
  extract_lets r claim bad follow followed emptied
  have hfollowed (t : State) : OptSteady t (followed t).toOption :=
    .some ((countR_touches ..).steady.after (modPipe_touches ..).steady)
  have hemptied (t : State) : OptSteady t (emptied t).toOption := by
    have hbody (t : State) (b : Bytes) :
        Steady t (askWrite (putCompanion t dst b) p dst 1) :=
      (askWrite_touches ..).steady.after (putCompanion_steady ..)
    unfold emptied
    split
    · exact .bindOk (.orPin ((storeRecord_steady ..).after (hbody ..))) hfollowed
    · exact .bindOk (.orPin ((storeRecord_steady ..).after (hbody ..))) hfollowed
    · exact .bindOk (.some ((dropStash_touches ..).steady.after (hbody ..))) hfollowed
  clear_value claim
  split
  · exact .some (abandonMove_steady ..)
  · split
    · exact .bindOk (.some ((modPipe_touches ..).steady.after ((askWrite_touches ..).steady.after
        (writeRecordAt_steady ..))))
        hemptied
    · exact .bindOk (.orPin (storeRecord_steady ..)) hemptied

theorem releaseSlot_steady (s : State) (p a tick : Nat) : Steady s (releaseSlot s p a tick) := by
  unfold releaseSlot
  extract_lets s₁ _ s₂
  exact (raiseAt_steady ..).after (.set (t := s₁) ((putDir_steady ..).after
    ((askWrite_touches ..).steady.after (putSlot_steady ..))))

theorem commitDscrub_steady (s : State) (p : Nat) (q : Pos) (test : Option Nat) :
    Steady s (commitDscrub s p q test) := by
  unfold commitDscrub
  split
  · exact .refl
  · exact .ite .refl (.ite (countR_touches ..).steady (releaseSlot_steady ..))

theorem commitInsert_steady (s : State) (p c : Nat) (q : Pos) (m : Cmd) (upset : Option (Nat × Ecc)) :
    OptSteady s
      (commitInsert s p c q m upset).toOption := by
  unfold commitInsert
  extract_lets key dbl profile
  split
  · exact .some (complete_touches ..).steady
  split
  · exact .some (complete_touches ..).steady
  split
  next u f found =>
  have hu : Steady s u := by
    refine Steady.fst ?_ found
    split
    · split
      · exact .pair (dropClaim_touches ..).steady
      · split
        · exact .pair .refl
        · exact openMiss_steady ..
    · split
      · exact .pair .refl
      · exact openMiss_steady ..
  extract_lets u₁
  have hu₁ : Steady s u₁ := (leaveClaims_steady ..).after
    hu
  split
  · exact .some ((complete_touches ..).steady.after hu₁)
  · exact .some ((complete_touches ..).steady.after hu₁)
  · exact .bindOk (.orPin ((storeRecord_steady ..).after hu₁)) fun _ => .some (complete_touches ..).steady

theorem actOnRecord_steady (s : State) (p : Nat) (q : Pos) (m : Cmd) (pl : Place) (dbl : Bool) :
    OptSteady s (actOnRecord s p q m pl dbl).toOption := by
  unfold actOnRecord
  extract_lets r
  split
  · exact .bindOk (.orPin (endRecord_steady ..)) (fun _ => .some
      ((complete_touches ..).steady.after (countR_touches ..).steady))
  · split
    · exact .bindOk (.orPin (storeRecord_steady ..)) (fun _ => .some (complete_touches ..).steady)
    · exact .some (complete_touches ..).steady

theorem commitBySlot_steady (s : State) (p : Nat) (q : Pos) (m : Cmd) :
    OptSteady s (commitBySlot s p q m).toOption := by
  unfold commitBySlot
  extract_lets a pl d dbl read r
  split
  · exact .some (complete_touches ..).steady
  · split
    · exact .some (complete_touches ..).steady
    · split
      · exact .some (complete_touches ..).steady
      · split
        · exact .some (complete_touches ..).steady
        · exact actOnRecord_steady ..

theorem commitCmd_steady (s : State) (p c : Nat) (q : Pos) (m : Cmd) (upset : Option (Nat × Ecc)) :
    OptSteady s
      (commitCmd s p c q m upset).toOption := by
  unfold commitCmd
  split
  · exact .some (.ite (releaseSlot_steady ..) .refl)
  split
  · exact .some (natRelease_touches ..).steady
  split
  · exact .some (complete_touches ..).steady
  split
  · exact commitBySlot_steady ..
  split
  · exact commitInsert_steady ..
  split
  · exact actOnRecord_steady ..
  · exact .some (complete_touches ..).steady

theorem settleEarly_steady (s : State) (p : Nat) : Steady s (settleEarly s p) := by
  unfold settleEarly
  extract_lets k free
  refine .foldl (fun t a => ?_) .refl
  extract_lets s₁
  exact .getD ((putCache_touches ..).steady.after ((askWrite_touches ..).steady.after
    ((writeRecordAt_steady ..).after (modPipe_touches ..).steady)))
    ((askWrite_touches ..).steady.after ((writeRecordAt_steady ..).after (modPipe_touches ..).steady))

theorem commitStep_steady (s : State) (p : Nat) (q : Pos) (c : Nat) (upset : Option (Nat × Ecc)) :
    OptSteady s
      ((commitStep s p q c upset).toOption.map Prod.fst) := by
  unfold commitStep
  refine .bindOkFst (beforeCommit_steady ..) fun t => ?_
  extract_lets done
  have hdone (r : State × Bool) :
      OptSteady r.1
        ((done r).toOption.map Prod.fst) :=
    .okFst ((alarms_steady ..).after ((count_touches ..).steady.after
      ((settleEarly_steady ..).after (modPos_touches ..).steady)))
  split
  · exact .bindOkFstOf (commitPacket_steady ..) hdone
  · exact .bindOkFstOf (.mapOkFst (commitAge_steady ..) fun _ => .pair .refl) hdone
  · exact .bindOkFstOf (.mapOkFst (commitMove_steady ..) fun _ => .pair .refl) hdone
  · exact .bindOkFstOf (.okFst (commitDscrub_steady ..)) hdone
  · exact .bindOkFstOf (.mapOkFst (commitCmd_steady ..) fun _ => .pair .refl) hdone
  · exact .bindOkFstOf (.okFst .refl) hdone

theorem lookupStep_steady (s : State) (p h profile : Nat) (key : Bytes) (learn hold : Bool) (requester : Nat) :
    OptSteady s (lookupStep s p h profile key learn hold requester).toOption := by
  unfold lookupStep
  split
  extract_lets r blocked r₁ s₁
  refine .trans (t := s₁) (modPos_touches ..).steady ?_
  split
  · extract_lets s₂
    have hs₂ : Steady s₁ s₂ := .ite (holdClaim_touches ..).steady .refl
    split
    · exact .some ((modPipe_touches ..).steady.after hs₂)
    · exact .some ((modPipe_touches ..).steady.after hs₂)
    · exact .some hs₂
  split
  · exact .some (askCandidates_touches ..).steady
  split
  · split
    · exact .none
    next u pl e => exact .some ((modPos_touches ..).steady.after ((makeClaim_steady ..).getFst e))
    next u e => exact .some ((modPos_touches ..).steady.after ((makeClaim_steady ..).getFst e))
  · exact .some .refl

theorem admitPacket_steady (s : State) (p h : Nat) (k : Pkt) (upset : Option (Nat × Ecc)) :
    OptSteady s
      (admitPacket s p h k upset).toOption := by
  unfold admitPacket
  split
  · extract_lets s₁ s₂
    exact .bindOk ((lookupStep_steady ..).after ((readDirectory_steady ..).after (addPos_touches ..).steady))
      (fun _ => .some ((issueReads_touches ..).steady.after ((dispatch_touches ..).steady.after (modPkt_touches ..).steady)))

theorem jobAge1_steady (s : State) (p h tick : Nat) (upset : Option (Nat × Ecc)) :
    OptSteady s (jobAge1 s p h tick upset) := by
  unfold jobAge1
  split
  · exact .none
  · extract_lets item s₁ s₂ s₃ slots s₄
    exact .ite (.some (.foldl (fun _ _ => .ite .refl (askRead_touches ..).steady)
      ((modPos_touches ..).steady.after ((readDirectory_steady ..).after
      ((addPos_touches ..).steady.after (modPipe_touches ..).steady)))))
      (.some ((addPos_touches ..).steady.after (modPipe_touches ..).steady))

theorem admitMove_steady (s : State) (p h : Nat) (m : Place × Nat × Nat) (dbl : Bool) (entry : Nat) :
    OptSteady s ((admitMove s p h m dbl entry).bind Except.toOption) := by
  unfold admitMove
  split
  extract_lets srcOk s₁ s₂ s₃
  split
  · exact .none
  · have h₂ : Steady s s₂ := (occupy_steady ..).after (modPos_touches ..).steady
    have h₃ : Steady s₂ s₃ := by
      unfold s₃
      split
      · exact (askRead_touches ..).steady.after (.ite (putDir_steady ..)
          ((askRead_touches ..).steady.after (putDir_steady ..)))
      · exact (askRead_touches ..).steady.after (.ite (putDir_steady ..)
          ((askRead_touches ..).steady.after (putDir_steady ..)))
      · exact (modPipe_touches ..).steady
    exact (OptSteady.orPin (putCache_touches ..).steady).after (h₂.trans h₃)

theorem jobReloc1_steady (s : State) (p h tick : Nat) (upset : Option (Nat × Ecc)) :
    OptSteady s (jobReloc1 s p h tick upset).toOption.join := by
  unfold jobReloc1
  split
  · split
    · exact .some (modPipe_touches ..).steady
    · extract_lets s₁
      refine .trans (t := s₁) ((readDirectory_steady ..).after (workDone_touches ..).steady) ?_
      split
      · exact .some ((countR_touches ..).steady.after (modPipe_touches ..).steady)
      next r e =>
        exact .mapSome ((admitMove_steady ..).bindSome e) fun _ => (modPipe_touches ..).steady
  · split
    · exact .none
    · extract_lets plan s₁
      refine .trans (t := s₁) ((readDirectory_steady ..).after (workDone_touches ..).steady) ?_
      split
      · exact .some (modPipe_touches ..).steady
      · exact .some ((countR_touches ..).steady.after (modPipe_touches ..).steady)

theorem jobStash1_steady (s : State) (p h tick : Nat) (upset : Option (Nat × Ecc)) :
    OptSteady s (jobStash1 s p h tick upset).toOption.join := by
  unfold jobStash1
  extract_lets k busy
  split
  · exact .none
  · extract_lets s₁ last back
    refine .trans (t := s₁) ((readDirectory_steady ..).after (addPos_touches ..).steady) ?_
    have hback : Steady s₁ back := (modPipe_touches ..).steady
    split
    · exact .some hback
    · split
      · exact .some hback
      next r e => exact .mapSome (f := id) ((admitMove_steady ..).bindSome e) fun _ => .refl

theorem jobDscrub1_steady (s : State) (p h tick : Nat) (upset : Option (Nat × Ecc)) :
    Steady s (jobDscrub1 s p h tick upset) := by
  unfold jobDscrub1
  extract_lets b s₁ s₂ s₃ bad
  refine .trans (t := s₃) ((readDirectory_steady ..).after ((addPos_touches ..).steady.after (modPipe_touches ..).steady))
    ?_
  clear_value bad
  split
  · split
    · exact .refl
    · split
      next u _ e =>
        exact (askRead_touches ..).steady.after ((modPos_touches ..).steady.after
          ((putSlot_steady ..).after (((freshBytes_steady ..).fst e))))
  · exact .refl

theorem admitCmd_steady (s : State) (p h tick : Nat) (m : Cmd) (upset : Option (Nat × Ecc)) :
    OptSteady s (admitCmd s p h tick m upset).toOption := by
  unfold admitCmd
  extract_lets s₁ st a s₂ d dbl s₃ key insert
  split
  · exact .some ((readDirectory_steady ..).after (addPos_touches ..).steady)
  · split
    · exact .some (addPos_touches ..).steady
    · split
      · exact .some ((modPos_touches ..).steady.after (addPos_touches ..).steady)
      · split
        · exact .some (.ite ((modPos_touches ..).steady.after ((readDirectory_steady ..).after
            (addPos_touches ..).steady)) ((askRead_touches ..).steady.after
            ((modPos_touches ..).steady.after ((readDirectory_steady ..).after (addPos_touches ..).steady))))
        · split
          · extract_lets s₄
            exact .mapOk ((lookupStep_steady ..).after ((readDirectory_steady ..).after
              (addPos_touches ..).steady)) (fun _ => (modPos_touches ..).steady)

theorem jobComp1_steady (s : State) (p h tick : Nat) : OptSteady s (jobComp1 s p h tick) := by
  unfold jobComp1
  split
  · exact .none
  · split
    · exact .none
    · extract_lets id take s₁ s₂
      refine .some ((workDone_touches ..).steady.after ((askRead_touches ..).steady.after ?_))
      unfold s₂
      refine .trans (t := s₁) (modPipe_touches ..).steady ?_
      split
      · exact putCompanion_steady ..
      · exact .refl

/-- A job that did work without a position of its own gets an idle one. -/
theorem ensurePos_steady {s : State} (p h tick : Nat) {r : State × Nat} (k : Steady s r.1) :
    Steady s (if (posAt r.1 p h).isSome then r else (workDone r.1 p h tick, r.2)).1 := by
  split
  · exact k
  · exact (workDone_touches ..).steady.after k

theorem carouselBeat_steady (s : State) (p h : Nat) (upset : Option (Nat × Ecc)) :
    OptSteady s
      ((carouselBeat s p h upset).toOption.map Prod.fst) := by
  unfold carouselBeat
  extract_lets tick j idle ensure
  have hidle {o : Option State} (ho : OptSteady s o) :
      Steady s (idle o).1 := by
    cases o with
    | none => exact .pair (addPos_touches ..).steady
    | some t => exact .pair (ho.get rfl)
  have hensure {r : State × Nat} (hr : Steady s r.1) :
      Steady s (ensure r).1 := ensurePos_steady p h tick hr
  split
  · exact .some (hensure (hidle (jobAge1_steady ..)))
  split
  · exact .joinOk (jobReloc1_steady ..) fun _ ho => hensure (hidle ho)
  split
  · exact .joinOk (jobStash1_steady ..) fun _ ho => hensure (hidle ho)
  split
  · exact .okFst (jobDscrub1_steady ..)
  split
  · exact .some (hensure (hidle (jobComp1_steady ..)))
  split
  · split
    · exact .okFst (hidle .none)
    · split
      · split
        · exact .some (hidle .none)
        · split
          · exact .okFst (hidle .none)
          · exact .mapOkFst ((admitCmd_steady ..).after (modPipe_touches ..).steady) fun _ => .pair .refl
      · exact .some (hidle .none)
  · exact .some (hidle .none)

theorem homeTry_steady (s : State) (p h : Nat) (upset : Option (Nat × Ecc)) :
    OptSteady s
      (homeTry s p h upset).toOption := by
  unfold homeTry
  split
  · exact .none
  split
  · exact .none
  split
  · exact .none
  extract_lets ended admitted
  have hended (t : State) :
      OptSteady t
        (ended t).toOption := .some (alarms_steady ..)
  have hadmitted (r : State × List Nat) :
      OptSteady r.1
        (admitted r).toOption := by
    unfold admitted
    split
    next t damage =>
    extract_lets t₁ t₂
    have ht₂ : Steady         t t₂ := (rebuildLater_touches ..).steady.after (modPipe_touches ..).steady
    split
    · exact .bindOk (.mapFstOk ((carouselBeat_steady ..).after ht₂) fun _ => (countCarousel_touches ..).steady)
        hended
    · split
      · exact .bindOk ((admitPacket_steady ..).after ht₂) hended
      · exact .bindOk (.some ht₂) hended
  split
  · exact .bindOkOf (.okFst (count_touches ..).steady) hadmitted
  · refine .bindOkOf ?_ hadmitted
    split
    · exact .okFst .refl
    · exact .mapOkOf (commitStep_steady ..) fun _ => .pair .refl

theorem homeBeat_steady (s : State) (p : Nat) (upset : Option (Nat × Ecc)) : Steady s (homeBeat s p upset) := by
  unfold homeBeat
  extract_lets h n quiet
  split
  · exact (holdBeat_touches ..).steady
  next u e =>
    exact (modPipe_touches ..).steady.after ((issueReads_touches ..).steady.after (((homeTry_steady ..).getOk e)))

theorem commitDue_steady (s : State) (p : Nat) (isKind : Pos → Bool) : Steady s (commitDue s p isKind) := by
  unfold commitDue
  extract_lets h
  split
  · exact .refl
  · split
    · exact .refl
    · split
      next u u₁ _ e e₁ =>
        exact ((commitStep_steady ..).getOkFst e₁)
      · exact .refl

theorem endSlip_steady (s : State) (p : Nat) : Steady s (endSlip s p) :=
  .ite .refl (.ite ((raiseEv_steady ..).after ((modPipe_touches ..).steady.after
    (.ite .refl (holdBeat_touches ..).steady))) ((modPipe_touches ..).steady.after
    (.ite .refl (holdBeat_touches ..).steady)))

theorem rowHomeBeat_steady (pipe : Nat) (upset : Option (Nat × Ecc)) (s : State) :
    Steady s
      (rowHomeBeat pipe upset s) :=
  .whenRun .refl (.guardS .refl (homeBeat_steady ..))

theorem landIdle_steady (s : State) (p id : Nat) (ecc : Ecc) : Steady s (landIdle s p id ecc) := by
  unfold landIdle
  extract_lets s₁ c s₂
  refine .trans (t := s₂) ((modPipe_touches ..).steady.after (.ite (count_touches ..).steady .refl)) ?_
  split
  · exact .refl
  · split
    · split
      next u _ e =>
        exact (offerTask_touches ..).steady.after (((freshBytes_steady ..).fst e))
    · exact (offerTask_touches ..).steady

theorem landAccess_steady (s : State) (p id : Nat) (ecc : Ecc) : Steady s (landAccess s p id ecc) := by
  unfold landAccess
  split
  · exact landIdle_steady ..
  · exact (landRead_touches ..).steady

theorem rowHbmReadLand_steady (pipe read : Nat) (ecc : Ecc) (s : State) :
    Steady s
      (rowHbmReadLand pipe read ecc s) :=
  .whenRun .refl (.guardS .refl ((endSlip_steady ..).after
    ((issueReads_touches ..).steady.after (landAccess_steady ..))))

theorem rowPacketCommit_steady (pipe : Nat) (s : State) : Steady s (rowPacketCommit pipe s) :=
  .whenRun .refl (commitDue_steady ..)

theorem rowAgeCommit_steady (pipe : Nat) (s : State) : Steady s (rowAgeCommit pipe s) :=
  .whenRun .refl (commitDue_steady ..)

theorem rowRelocMoveCommit_steady (pipe : Nat) (s : State) : Steady s (rowRelocMoveCommit pipe s) :=
  .whenRun .refl (commitDue_steady ..)

theorem rowDscrubCommit_steady (pipe : Nat) (s : State) : Steady s (rowDscrubCommit pipe s) :=
  .whenRun .refl (commitDue_steady ..)

theorem rowHcmdInsert_steady (pipe : Nat) (s : State) : Steady s (rowHcmdInsert pipe s) :=
  .whenRun .refl (commitDue_steady ..)

theorem rowHcmdDelete_steady (pipe : Nat) (s : State) : Steady s (rowHcmdDelete pipe s) :=
  .whenRun .refl (commitDue_steady ..)

theorem rowHcmdModify_steady (pipe : Nat) (s : State) : Steady s (rowHcmdModify pipe s) :=
  .whenRun .refl (commitDue_steady ..)

theorem rowHcmdRead_steady (pipe : Nat) (s : State) : Steady s (rowHcmdRead pipe s) :=
  .whenRun .refl (commitDue_steady ..)

theorem rowHcmdRejected_steady (pipe : Nat) (s : State) : Steady s (rowHcmdRejected pipe s) :=
  .whenRun .refl (commitDue_steady ..)

theorem releaseCluster_steady (s : State) (c : Nat) : Steady s (releaseCluster s c) := by
  unfold releaseCluster
  split
  · exact .refl
  · extract_lets s₁
    exact (releaseMaster_steady ..).after (modCluster_touches ..).steady

theorem noteFault_steady (s : State) (u path : Nat) : Steady s (noteFault s u path) :=
  (raiseEv_steady ..).after .update

theorem faultUnit_steady (s : State) (u path : Nat) : Steady s (faultUnit s u path) :=
  (soonDo_steady ..).after (noteFault_steady ..)

theorem rekeyCheck_steady (s : State) (unit item next limit : Nat) :
    Steady s (rekeyCheck s unit item next limit) :=
  .ite ((raiseEv_steady ..).after .update) .refl

theorem rekeyAll_steady (s : State) : Steady s (rekeyAll s) :=
  .foldl (fun _ _ => .ite (rekeyCheck_steady ..) .refl)
    (.foldl (fun _ _ => .ite (rekeyCheck_steady ..) .refl) .refl)

theorem exhaust_steady (s : State) (unit item : Nat) : Steady s (exhaust s unit item) :=
  .ite .refl ((raiseEv_steady ..).after .update)

theorem protect_steady (s : State) (n : Nat) (body : Bytes) : Steady s (protect s n body).1 := by
  unfold protect
  split
  · exact .pair .refl
  · extract_lets i r e pn data es tci tag head off iv aad c icv s₁ s₂ s₃
    exact .pair (.ite ((exhaust_steady ..).after ((rekeyCheck_steady ..).after (putPn_touches ..).steady))
      ((rekeyCheck_steady ..).after (putPn_touches ..).steady))

theorem lockExpiry_steady (s : State) : Steady s (lockExpiry s) := by
  unfold lockExpiry
  split
  · exact .refl
  · exact .ite ((raiseEv_steady ..).after (freeLock_touches ..).steady) .refl

theorem verifyImage_steady (s : State) : Steady s (verifyImage s) :=
  .ite (.ite ((stagePlans_touches ..).steady.after .update) ((raiseEv_steady ..).after .update)) .refl

theorem stagingWrite_steady (s : State) (src : Origin) (idx sub : Nat) {eff : State → Option State}
    (k : ∀ t, OptSteady t (eff t)) : Steady s (stagingWrite s src idx sub eff) := by
  unfold stagingWrite
  extract_lets s₁
  have hs₁ : Steady s s₁ := lockExpiry_steady ..
  have lease : Steady s (renewLease s₁ (originNum src)) := (renewLease_touches ..).steady.after hs₁
  have rejected (e : Nat) : Steady s (rejectWrite s₁ src idx sub e) := (rejectWrite_touches ..).steady.after hs₁
  refine .ite hs₁ (.ite (rejected _) (.ite (rejected _) ?_))
  split
  next u e => exact (filtered_touches ..).steady.after (lease.trans ((k _).get e))
  · exact rejected _

theorem rowEngineImageStage_steady (src : Origin) (image : Bytes) (last : Bool) (s : State) :
    Steady s (rowEngineImageStage src image last s) :=
  .whenRun .refl (stagingWrite_steady _ _ _ _ fun _ => (stageImage_touches ..).steady)

theorem rowImageVerify_steady (s : State) : Steady s (rowImageVerify s) :=
  .whenRun .refl (verifyImage_steady ..)

theorem putFuse_steady (s : State) (j : FuseJob) (revoked : Bool) (hash : Bytes) :
    Steady s (putFuse s j revoked hash) :=
  .update

theorem burnFuse_steady (s : State) (j : FuseJob) : Steady s (burnFuse s j) := by
  unfold burnFuse
  split
  · split
    next u _ e =>
      exact (raiseEv_steady ..).after ((putFuse_steady ..).after (((freshBytes_steady ..).fst e)))
  · exact putFuse_steady ..

theorem startFuses_steady (s : State) : Steady s (startFuses s) :=
  .ite .refl (.foldl (fun _ _ => (burnFuse_steady ..)) .update)

theorem queueFuse_steady (s : State) (j : FuseJob) : Steady s (queueFuse s j) :=
  (startFuses_steady ..).after .update

theorem rowEngineKeyEnrol_steady (src : Origin) (slot : Nat) (hash : Bytes) (badRead : Option Nat) (s : State) :
    Steady s
      (rowEngineKeyEnrol src slot hash badRead s) :=
  .writeCmd .refl (fun _ => .ite .none (.some (queueFuse_steady ..)))

theorem rowEngineKeyRevoke_steady (src : Origin) (slot : Nat) (badRead : Option Nat) (s : State) :
    Steady s (rowEngineKeyRevoke src slot badRead s) :=
  .writeCmd .refl (fun _ => .ite .none (.some (queueFuse_steady ..)))

theorem reject_steady (s : State) (num reason : Nat) : Steady s (reject s num reason) :=
  (raiseEv_steady ..).after .update

theorem sealVersion_steady (s : State) (target : Nat) : Steady s (sealVersion s target).1 := by
  unfold sealVersion
  extract_lets r v q s₁ _
  split
  · exact .pair (.set (t := s₁) (clearStaging_touches ..).steady)
  · exact .pair (reject_steady ..)

theorem modSlot_steady (s : State) (k : Nat) (f : Slot → Slot) : Steady s (modSlot s k f) :=
  { (Steady.refl : Steady s s) with slots := List.length_modify .. }

theorem freeSlot_steady (s : State) (k : Option Nat) : Steady s (freeSlot s k) := by
  unfold freeSlot
  split
  · exact modSlot_steady ..
  · exact .refl

theorem rejectFrom_steady (s : State) (num reason : Nat) : Steady s (rejectFrom s num reason) := by
  unfold rejectFrom
  extract_lets keep drop newest s₁ _ s₂
  exact .foldl (fun _ _ => (reject_steady ..)) (.set (t := s₁)
    (.foldl (fun _ _ => (freeSlot_steady ..)) (forgetVersions_touches ..).steady))

theorem reserve_steady (s : State) : Steady s (reserve s) := by
  unfold reserve
  split
  · split
    · exact rejectFrom_steady ..
    · extract_lets base _ v _ prep s₁
      exact (modSealed_steady ..).after (modSlot_steady ..)
  · exact .refl

theorem rowSlotReserve_steady (s : State) : Steady s (rowSlotReserve s) :=
  .whenRun .refl (reserve_steady ..)

theorem rowSlotRetire_steady (slot : Nat) (s : State) : Steady s (rowSlotRetire slot s) :=
  .whenRun .refl (.guardS .refl (modSlot_steady ..))

theorem cancelVersion_steady (num : Nat) (s : State) : OptSteady s (cancelVersion num s) := by
  unfold cancelVersion
  split
  · exact .ite (.some (rejectFrom_steady ..)) .none
  · exact .none

theorem rowVersionCancel_steady (src : Origin) (version : Nat) (s : State) :
    Steady s
      (rowVersionCancel src version s) :=
  .writeCmd .refl (fun _ => (cancelVersion_steady ..))

theorem gateTbLost_steady (s : State) (n : Nat) (f : Gate → Gate) : Steady s (gateTbLost s n f) :=
  .ite (modGate_touches ..).steady ((raiseEv_steady ..).after (modGate_touches ..).steady)

theorem gateCommit_steady (s : State) (n : Nat) : Steady s (gateCommit s n) :=
  .ite (modGate_touches ..).steady (.ite (modGate_touches ..).steady (gateTbLost_steady ..))

theorem gatesCommit_steady (s : State) (old : VerCfg) : Steady s (gatesCommit s old) :=
  .foldl (fun _ _ => .ite (gateCommit_steady ..) .refl) .refl

theorem gateStart_steady (s : State) (n : Nat) : Steady s (gateStart s n) := by
  unfold gateStart
  split
  · exact .refl
  · split
    · extract_lets s₁
      exact (raiseEv_steady ..).after (modGate_touches ..).steady
    · exact .refl

theorem gatesLose_steady (s : State) (t : Nat) : Steady s (gatesLose s t) :=
  .foldl (fun _ _ => .ite (gateTbLost_steady ..) .refl) .refl

theorem gatesRegain_steady (s : State) (t : Nat) : Steady s (gatesRegain s t) :=
  .foldl (fun _ _ => .ite (gateCommit_steady ..) .refl) .refl

theorem rowGateListStarted_steady (node : Nat) (s : State) : Steady s (rowGateListStarted node s) :=
  .whenRun .refl (gateStart_steady ..)

theorem rowTbValid_steady (tb : Nat) (s : State) : Steady s (rowTbValid tb s) :=
  .whenRun .refl (.guardS .refl ((gatesRegain_steady ..).after (tbBecomeValid_steady ..)))

theorem tbStops_steady (s : State) (tb : Nat) : Steady s (tbStops s tb) := by
  unfold tbStops
  exact .ite .refl ((gatesLose_steady ..).after (tbStop_steady ..))

theorem rowTbDisable_steady (src : Origin) (tb : Nat) (s : State) : Steady s (rowTbDisable src tb s) :=
  .writeCmd .refl (fun _ => (tbDisable_steady ..))

theorem passEarly_steady (s : State) : Steady s (passEarly s) := by
  unfold passEarly
  extract_lets r
  split
  · exact .refl
  · split
    · split
      · exact .update
    · exact .refl

theorem joinNext_steady (s : State) : Steady s (joinNext s) := by
  have joined (next : Nat → Nat → Nat → Nat × Nat) (e : Nat) : Steady s
      (match next (e / 1000000000) (e % 1000000000) s.rm.rate with
        | (j, k) => { s with rm := { s.rm with mode := .joining, j := j, kk := k,
                                               notBefore := s.beat + tickBeats s.rm.rate } }) := .update
  unfold joinNext
  split
  · exact .refl
  · exact .ite .refl (joined boundaryAfter _)

theorem passBoundary_steady (s : State) : Steady s (passBoundary s) := by
  unfold passBoundary
  generalize nextLocked = next
  extract_lets r s₁ joined
  split
  · exact (joinNext_steady ..).after .update
  split
  · exact (raiseEv_steady ..).after .update
  split
  extract_lets s₂
  have hs₂ : Steady s s₂ := .update
  exact .ite ((raiseEv_steady ..).after hs₂) hs₂

theorem changeRate_steady (s : State) (rate : Nat) : Steady s (changeRate s rate) := by
  have changed (next : Nat → Nat → Nat → Nat × Nat) (r : Ringmaster) (hr : Steady s { s with rm := r })
      (old : Nat × Nat) (pos : Nat) :
      Steady s
        (match r.mode with
          | .free => { s with rm := { r with b0 := s.beat, k := 1 } }
          | _ => match next old.1 pos rate with
            | (j, k) => { s with rm := { r with j := j, kk := k, notBefore := s.beat + tickBeats rate } }) := by
    split
    · exact hr.set
    · exact hr.set
  unfold changeRate
  exact .ite .refl (changed boundaryAfter _ .update _ _)

theorem compareDigest_steady (s : State) : Steady s (compareDigest s) :=
  .ite .refl (.ite (.ite ((raiseEv_steady ..).after .update) .update)
    (.ite .refl ((raiseEv_steady ..).after .update)))

theorem makeCurrent_steady (s : State) (q : Sealed) (k : Nat) : Steady s (makeCurrent s q k) := by
  unfold makeCurrent
  extract_lets old s₁ s₂ _ _ s₃ row _ s₄ s₅
  exact (raiseEv_steady ..).after ((gatesCommit_steady ..).after
    ((changeRate_steady ..).after (.set (t := s₃) (.set (t := s₂)
    ((modSlot_steady ..).after (modSlot_steady ..))))))

theorem commitDueVersion_steady (s : State) : Steady s (commitDueVersion s) := by
  unfold commitDueVersion
  split
  · exact .refl
  · split
    · split
      · exact (compareDigest_steady ..).after (makeCurrent_steady ..)
      · exact .update
    · exact .update

theorem rowVersionCommit_steady (s : State) : Steady s (rowVersionCommit s) :=
  .whenRun .refl (commitDueVersion_steady ..)

theorem headroomOverflow_steady (s : State) (n k : Nat) : Steady s (headroomOverflow s n k) :=
  .ite ((freezeMaster_steady ..).after ((modPort_touches ..).steady.after (count_touches ..).steady))
    ((freezeMaster_steady ..).after ((modPort_touches ..).steady.after (count_touches ..).steady))

theorem exactError_steady (s : State) (p bucket : Nat) (x : Ecc) : Steady s (exactError s p bucket x) := by
  unfold exactError
  split
  · exact .refl
  · exact (count_touches ..).steady
  · exact (raiseEv_steady ..).after (count_touches ..).steady

theorem passOne_steady (s : State) (k : Pkt) (a : Search) : Steady s (passOne s k a) := by
  unfold passOne
  extract_lets v n pipe c p status vec key s₁ r _ d flow policy dec s₂
  have hs₁ : Steady s s₁ := by
    unfold s₁
    clear_value key
    split
    · exact exactError_steady ..
    · exact .refl
  have hs₂ : Steady s s₂ := .ite hs₁ ((countHits_touches ..).steady.after hs₁)
  split
  next u m e =>
    refine (modPkt_touches ..).steady.after (hs₂.trans (.fst ?_ e))
    split
    · exact (selectMirror_touches ..).steady
    · exact .pair .refl

theorem searchThrough_steady (p beat n : Nat) (s : State) : Steady s (searchThrough p beat n s) := by
  induction n generalizing s with
  | zero => exact .refl
  | succ n ih =>
    unfold searchThrough
    split
    · exact .refl
    · exact .trans (passOne_steady ..) (ih _)

theorem passOneBeat_steady (s : State) : Steady s (passOneBeat s) :=
  (takeEntries_touches ..).steady.after (.foldl (fun _ _ => (searchThrough_steady ..)) .refl)

theorem arrive_steady (s : State) (a : Arrival) : Steady s (arrive s a) := by
  unfold arrive
  extract_lets n cls port
  split
  · exact .refl
  · split
    · exact (count_touches ..).steady
    · split
      · exact (emit_touches ..).steady.after (count_touches ..).steady
      · split
        · exact headroomOverflow_steady ..
        next u e =>
          extract_lets k s₁ k₁
          exact .set (t := s₁) ((modPort_touches ..).steady.after (.set (t := u) (((takeCells_touches ..).steady.get e))))

theorem enterWriteback_steady (s : State) (k : Pkt) (bad : Nat) : Steady s (enterWriteback s k bad) := by
  unfold enterWriteback
  split
  · exact .refl
  · extract_lets done s₁ s₂
    exact .ite ((endGrant_touches ..).steady.after ((modPkt_touches ..).steady.after
      (.ite (completeCount_steady ..) .refl))) ((modPkt_touches ..).steady.after
      (.ite (completeCount_steady ..) .refl))

theorem badTail_steady (s : State) (k : Pkt) (bad : Nat) (cut : Bool) : Steady s (badTail s k bad cut) := by
  unfold badTail
  extract_lets s₁ s₂ s₃ s₄
  refine .trans (t := s₄) ?_ ?_
  · unfold s₄
    refine .trans (t := s₃) ?_ ?_
    · unfold s₃
      refine .trans (t := s₂) ?_ ?_
      · unfold s₂
        refine .trans (t := s₁) (countR_touches ..).steady ?_
        split
        · exact (countEntry_touches ..).steady
        · exact .refl
      · exact .ite (countR_touches ..).steady .refl
    · exact .ite (countExcs_touches ..).steady .refl
  · exact .ite (discardPkt_steady ..) (.ite .refl (stomp_touches ..).steady)

theorem mirrorCopy_steady (s : State) (k : Pkt) (cells : List (Nat × Ecc)) :
    Steady s (mirrorCopy s k cells).1 := by
  unfold mirrorCopy
  split
  · exact .pair .refl
  · extract_lets n c
    split
    next u _ e =>
      split
      · exact .pair (((readCells_steady ..).fst e))
      · exact .pair ((addCopy_touches ..).steady.after (((readCells_steady ..).fst e)))

theorem goodTail_told_steady (s : State) (k : Pkt) (cells : List (Nat × Ecc)) :
    Steady (exceptionsTold s k) (goodTail s k cells) := by
  unfold goodTail
  extract_lets s₁ s₂
  change Steady s₂ _
  split
  next u damaged e =>
    extract_lets s₃ d s₄
    have hu : Steady s₂ u := (mirrorCopy_steady ..).fst e
    have hs₃ : Steady s₂ s₃ := .ite ((countR_touches ..).steady.after hu) hu
    have hs₄ : Steady s₂ s₄ := (modPkt_touches ..).steady.after hs₃
    split
    · exact (discardPkt_steady ..).after hs₃
    split
    · exact (stomp_touches ..).steady.after hs₃
    split
    · exact .ite ((crossHome_touches ..).steady.after hs₃) (.ite ((discardPkt_steady ..).after hs₄) hs₄)
    split
    · exact (creditFrame_touches ..).steady.after hs₃
    · exact .ite ((modPkt_touches ..).steady.after hs₃) hs₃

theorem goodTail_steady (s : State) (k : Pkt) (cells : List (Nat × Ecc)) : Steady s (goodTail s k cells) := by
  refine .trans (t := exceptionsTold s k) ?_ (goodTail_told_steady ..)
  exact .ite (countExcs_touches ..).steady ((modPort_touches ..).steady.after (countExcs_touches ..).steady)

theorem overflowWithin_steady (s : State) (k : Pkt) : Steady s (overflowWithin s k) := by
  unfold overflowWithin
  extract_lets s₁ k s₂ s₃ s₄
  have hs₁ : Steady s s₁ := (modPort_touches ..).steady
  have hs₃ : Steady s₂ s₃ := by
    unfold s₃
    split
    · exact .ite .refl (completeCount_steady ..)
    · exact .refl
  have hs₄ : Steady s₃ s₄ := .ite (stomp_touches ..).steady (discardPkt_steady ..)
  exact (headroomOverflow_steady ..).after (hs₄.after (hs₃.after ((modPkt_touches ..).steady.after hs₁)))

theorem cellsArrive_steady (s : State) : Steady s (cellsArrive s) := by
  unfold cellsArrive
  refine .foldl (fun t a => ?_) .refl
  split
  · exact .refl
  · exact .getD (takeUpTo_touches ..).steady (overflowWithin_steady ..)

theorem tailEffects_steady (s : State) (k : Pkt) (cut : Bool) (cells : List (Nat × Ecc)) :
    Steady s
      (tailEffects s k cut cells) := by
  unfold tailEffects
  extract_lets s₁ flow tick bad k k₁ k₂ s₂ s₃ s₄ s₅
  have hs₃ : Steady s s₃ :=
    (countAccepted_touches ..).steady.after ((modPkt_touches ..).steady.after (modPort_touches ..).steady)
  refine .trans (t := s₄) (.ite ((countHits_touches ..).steady.after hs₃) hs₃) ?_
  refine .trans (t := s₅) (enterWriteback_steady ..) ?_
  exact .ite (goodTail_steady ..) (badTail_steady ..)

theorem searchBeforeTail_steady (s : State) (k : Pkt) : Steady s (searchBeforeTail s k) := by
  unfold searchBeforeTail
  split
  · exact .refl
  · split
    · exact (searchThrough_steady ..).after (modPkt_touches ..).steady
    · exact (modPkt_touches ..).steady

theorem frameEnd_steady (s : State) (k : Pkt) (cut : Bool) (cells : List (Nat × Ecc)) :
    Steady s
      (frameEnd s k cut cells) := by
  unfold frameEnd
  extract_lets s₁ _ k
  refine .trans (t := s₁) (searchBeforeTail_steady ..) ?_
  split
  · exact overflowWithin_steady ..
  next u e =>
    exact (tailEffects_steady ..).after (((takeUpTo_touches ..).steady.get e))

theorem frameTail_steady (s : State) (n : Nat) (cells : List (Nat × Ecc)) : Steady s (frameTail s n cells) := by
  unfold frameTail
  split
  · exact .guardS .refl (frameEnd_steady ..)
  · exact .refl

theorem ownFrameTail_steady (s : State) (n : Nat) : Steady s (ownFrameTail s n) := by
  unfold ownFrameTail
  split
  · exact frameTail_steady ..
  · exact .refl

theorem cutReceive_steady (s : State) (n : Nat) : Steady s (cutReceive s n) := by
  unfold cutReceive
  split
  · exact .refl
  · exact .ite .refl (frameEnd_steady ..)

theorem enterEgress_steady (s : State) (k : Pkt) : Steady s (enterEgress s k) := by
  unfold enterEgress
  extract_lets v n action s₁ tagged _
  refine .trans (t := s₁) (modPipe_touches ..).steady ?_
  split
  · exact discardPkt_steady ..
  split
  extract_lets s₂ q e body vec body₁ k s₃ s₄
  refine .trans (t := s₂) (.ite (countR_touches ..).steady .refl) ?_
  split
  · exact (discardPkt_steady ..).after (countR_touches ..).steady
  refine .trans (t := s₃) (.ite .refl (countR_touches ..).steady) ?_
  split
  · refine (discardPkt_steady ..).after ?_
    unfold s₄
    split
    · exact (countEntry_touches ..).steady
    · exact .refl
  · exact .ite ((discardPkt_steady ..).after (count_touches ..).steady) (enqueue_touches ..).steady

theorem rowFrameIngress_steady (node : Nat) (frame : Bytes) (phase : Nat) (exactEcc : Ecc) (s : State) :
    Steady s
      (rowFrameIngress node frame phase exactEcc s) :=
  .whenRun .refl (.guardS .refl ((modPkt_touches ..).steady.after (arrive_steady ..)))

theorem rowFrameTail_steady (node : Nat) (cells : List (Nat × Ecc)) (s : State) :
    Steady s
      (rowFrameTail node cells s) :=
  .whenRun .refl (frameTail_steady ..)

theorem rowEgressEntry_steady (pkt : Nat) (s : State) : Steady s (rowEgressEntry pkt s) := by
  unfold rowEgressEntry
  refine .whenRun .refl ?_
  split
  · exact .guardS .refl (enterEgress_steady ..)
  · exact .refl

theorem startFrame_steady (s : State) (n : Nat) (kid : Kid) (k : Pkt) (blocks : Option Nat) :
    Steady s
      (startFrame s n kid k blocks) := by
  unfold startFrame
  extract_lets len _ s₁
  split
  next u path charged =>
  split
  split
  next v body stamped =>
  extract_lets _ failed
  split
  next w cipher guarded =>
  have hw : Steady s w :=
    ((protect_steady ..).fst guarded).after (((ptpUpdate_touches ..).steady.fst stamped).after
      (((chargePath_touches ..).steady.fst charged).after (.set (t := s) .refl)))
  extract_lets whole sent s₂ s₃ s₄ s₅
  have hs₃ : Steady s s₃ :=
    (modPort_touches ..).steady.after ((leaveQueue_touches ..).steady.after ((modPkt_touches ..).steady.after hw))
  have hs₄ : Steady s s₄ :=
    .ite ((count_touches ..).steady.after hs₃) hs₃
  have hs₅ : Steady s s₅ := by
    unfold s₅
    split
    · exact (creditFrame_touches ..).steady.after hs₄
    · exact hs₄
  exact .ite ((faultUnit_steady ..).after ((count_touches ..).steady.after ((count_touches ..).steady.after hs₅))) hs₅

theorem readFrame_steady (s : State) (n : Nat) (k : Pkt) (cells : List (Nat × Ecc)) :
    Steady s (readFrame s n k cells) := by
  unfold readFrame
  split
  next u e =>
    exact ((readCells_steady ..).fst e)
  next u₁ e₁ =>
    extract_lets s₁
    exact (discardPkt_steady ..).after ((modPort_touches ..).steady.after
      ((modPkt_touches ..).steady.after (((readCells_steady ..).fst e₁))))
  next u₂ _ _ e₂ =>
    split
    · exact .ite (((readCells_steady ..).fst e₂)) ((stomp_touches ..).steady.after
        (((readCells_steady ..).fst e₂)))
    · exact ((readCells_steady ..).fst e₂)

theorem transmitStart_steady (s : State) (n : Nat) (cells : List (Nat × Ecc)) (blocks : Option Nat) :
    Steady s
      (transmitStart s n cells blocks) := by
  unfold transmitStart
  extract_lets s₁
  refine .trans (t := s₁) (storeCut_touches ..).steady ?_
  split
  · exact .refl
  · split
    · exact .refl
    · exact (readFrame_steady ..).after (startFrame_steady ..)

theorem transmitEnd_steady (s : State) (n : Nat) (k : Pkt) : Steady s (transmitEnd s n k) :=
  (freePkt_touches ..).steady.after ((txFinish_steady ..).after
    ((modPort_touches ..).steady.after (.ite (emit_touches ..).steady
    ((filtered_touches ..).steady.after ((filtered_touches ..).steady.after
    ((count_touches ..).steady.after ((count_touches ..).steady.after (emit_touches ..).steady)))))))

theorem tellPeer_steady (s : State) (n : Nat) (xs : Tbl Nat) : Steady s (tellPeer s n xs) := by
  unfold tellPeer
  extract_lets f
  split
  next u _ e =>
    extract_lets s₁ again
    exact (modPort_touches ..).steady.after ((emit_touches ..).steady.after
      ((count_touches ..).steady.after (((protect_steady ..).fst e))))

theorem tellNext_steady (s : State) (n : Nat) : Steady s (tellNext s n) := by
  unfold tellNext
  split
  · exact .refl
  · exact (tellPeer_steady ..).after (modPort_touches ..).steady

theorem tellAgain_steady (s : State) (n : Nat) : Steady s (tellAgain s n) :=
  (tellPeer_steady ..)

theorem ewriteBeat_steady (s : State) (p : Nat) : Steady s (ewriteBeat s p) := by
  unfold ewriteBeat
  extract_lets _ sched
  have hsched : OptSteady s sched := by
    unfold sched
    split
    · split
      · exact .some ((applySched_touches ..).steady.after (.set (t := s) .refl))
      · exact .none
    · exact .none
  clear_value sched
  split
  next u => exact (ranEgress_touches ..).steady.after (hsched.get rfl)
  · split
    · exact (ranEgress_touches ..).steady.after ((modPrep_steady ..).after (egressWrite_touches ..).steady)
    · exact (ranEgress_touches ..).steady

theorem rowFrameTransmitStart_steady (node : Nat) (cells : List (Nat × Ecc)) (cipherFault : Option Nat) (s : State)
    :
    Steady s
      (rowFrameTransmitStart node cells cipherFault s) :=
  .whenRun .refl (.guardS .refl (transmitStart_steady ..))

theorem rowFrameTransmitEnd_steady (node : Nat) (s : State) : Steady s (rowFrameTransmitEnd node s) := by
  unfold rowFrameTransmitEnd
  refine .whenRun .refl ?_
  split
  · exact .guardS .refl (transmitEnd_steady ..)
  · exact .refl

theorem rowFlowControlFrameSend_steady (node : Nat) (s : State) : Steady s (rowFlowControlFrameSend node s) :=
  .whenRun .refl (.guardS .refl (tellNext_steady ..))

theorem rowFlowControlRepeat_steady (node : Nat) (s : State) : Steady s (rowFlowControlRepeat node s) :=
  .whenRun .refl (.guardS .refl (tellAgain_steady ..))

theorem rowLinkFlushed_steady (node : Nat) (s : State) : Steady s (rowLinkFlushed node s) :=
  .whenRun .refl (flushEnd_steady ..)

theorem rowEwrite_steady (pipe : Nat) (s : State) : Steady s (rowEwrite pipe s) :=
  .whenRun .refl (.guardS .refl (.ite (ewriteBeat_steady ..)
    (.ite (ranEgress_touches ..).steady .refl)))

theorem filterChain_steady (v : Bytes) (s : State) : OptSteady s (filterChain v s) :=
  .ite (.some ((soonDo_steady ..).after (setRw_touches ..).steady)) .none

theorem rowCntFilterChain_steady (src : Origin) (value : Bytes) (s : State) :
    Steady s (rowCntFilterChain src value s) :=
  .writeCmd .refl (fun _ => (filterChain_steady ..))

theorem writeDump_steady (s : State) : Steady s (writeDump s) := by
  unfold writeDump
  split
  · exact .refl
  · split
    · exact .refl
    · split
      · exact (endGrant_touches ..).steady.after ((count_touches ..).steady.after (dropSnapshot_touches ..).steady)
      · split
        · exact .refl
        · exact (endGrant_touches ..).steady.after ((writeRecord_steady ..).after (dropSnapshot_touches ..).steady)

theorem rowDumpRecordWrite_steady (s : State) : Steady s (rowDumpRecordWrite s) :=
  .whenRun .refl (.guardS .refl (writeDump_steady ..))

theorem receiveFrame_steady (s : State) (n : Nat) (frame : Bytes) (phase : Nat) (faulty : Bool) :
    Steady s (receiveFrame s n frame phase faulty) := by
  unfold receiveFrame
  extract_lets body
  split
  · exact (countR_touches ..).steady
  · split
    · exact (countR_touches ..).steady
    · split
      · exact (rxDiscard_touches ..).steady
      · split
        · extract_lets s₁
          exact .ite ((faultUnit_steady ..).after (rxDiscard_touches ..).steady) (rxDiscard_touches ..).steady
        · extract_lets s₂
          refine (stageFrame_touches ..).steady.after ?_
          unfold s₂
          split
          · extract_lets next
            exact (rekeyCheck_steady ..).after (putPn_touches ..).steady
          · exact .refl

theorem deliverFrame_steady (s : State) (n : Nat) (exactEcc : Ecc) : Steady s (deliverFrame s n exactEcc) := by
  unfold deliverFrame
  split
  · exact .refl
  · extract_lets s₁
    exact .ite (modPort_touches ..).steady (.ite ((pauseReceive_touches ..).steady.after (modPort_touches ..).steady)
      ((arrive_steady ..).after (modPort_touches ..).steady))

theorem rowMacsecRxFrame_steady (node : Nat) (frame : Bytes) (phase : Nat) (faulty : Bool) (s : State) :
    Steady s (rowMacsecRxFrame node frame phase faulty s) :=
  .whenRun .refl (.guardS .refl (receiveFrame_steady ..))

theorem rowMacsecRxDeliver_steady (node : Nat) (exactEcc : Ecc) (s : State) :
    Steady s
      (rowMacsecRxDeliver node exactEcc s) :=
  .whenRun .refl (.guardS .refl (deliverFrame_steady ..))

theorem verifyLand_steady (s : State) (k : Pkt) (faulty : Bool) : Steady s (verifyLand s k faulty) := by
  unfold verifyLand
  extract_lets home c raw
  split
  · exact .refl
  · extract_lets r s₁ s₂ s₃
    refine (endSlip_steady ..).after (.trans (t := s₂) ?_ (.ite (faultUnit_steady ..) .refl))
    exact .trans (t := s₁) (modPkt_touches ..).steady (.ite .refl (countR_touches ..).steady)

theorem rowVerifyResult_steady (pkt : Nat) (faulty : Bool) (s : State) :
    Steady s (rowVerifyResult pkt faulty s) := by
  unfold rowVerifyResult
  refine .whenRun .refl ?_
  split
  · exact .guardS .refl (verifyLand_steady ..)
  · exact .refl

theorem endTests_steady (s : State) (u : Nat) (pass : Bool) : Steady s (endTests s u pass) :=
  .ite .update ((raiseEv_steady ..).after .update)

theorem rowCipherKatDone_steady (unit : Nat) (pass : Bool) (s : State) : Steady s (rowCipherKatDone unit pass s) :=
  .whenRun .refl (.guardS .refl (endTests_steady ..))

theorem rowEntropyHealthFail_steady (s : State) : Steady s (rowEntropyHealthFail s) :=
  .whenRun .refl (.foldl (fun _ _ => .ite .refl (faultUnit_steady ..)) .refl)

theorem takeCounter_steady (s : State) (r : Bytes) (addr : Nat) : Steady s (takeCounter s r addr).1 := by
  unfold takeCounter
  extract_lets writes k next _ s₁
  split
  · exact .pair .refl
  · exact .pair ((rekeyCheck_steady ..).after .update)

theorem lookaside_steady (s : State) (ring : Nat) (desc : List Nat) (record aad data tag : Bytes) (faulty : Bool) :
    Steady s
      (lookaside s ring desc record aad data tag faulty) := by
  unfold lookaside
  extract_lets r addr f spans s₁ run
  split
  · exact (endGrant_touches ..).steady.after (freezeFn_steady ..)
  · refine .trans (t := s₁) (.foldl (fun _ _ => .ite .refl (filtered_touches ..).steady) .refl) ?_
    split
    · exact (finishJob_touches ..).steady
    · split
      · exact (finishJob_touches ..).steady
      · split
        · exact (finishJob_touches ..).steady
        · split
          · exact (endGrant_touches ..).steady.after (exhaust_steady ..)
          · split
            next u _ e =>
              extract_lets s₂
              exact (finishJob_touches ..).steady.after (.ite ((faultUnit_steady ..).after
                (((takeCounter_steady ..).fst e))) (((takeCounter_steady ..).fst e)))

theorem rowLookasideJob_steady (ring : Nat) (record aad data tag : Bytes) (faulty : Bool) (s : State) :
    Steady s
      (rowLookasideJob ring record aad data tag faulty s) := by
  unfold rowLookasideJob
  refine .whenRun .refl ?_
  split
  · exact .guardS .refl (lookaside_steady ..)
  · exact .refl

theorem completeJob_steady (s : State) (j : Job) : Steady s (completeJob s j) := by
  unfold completeJob
  extract_lets s₁ _ s₂ s₃
  exact (endGrant_touches ..).steady.after ((completeCount_steady ..).after
    ((count_touches ..).steady.after (.set (t := s₁) (.foldl (fun _ _ => (dmaWrite_steady ..)) .refl))))

theorem rowLookasideJobComplete_steady (ring : Nat) (s : State) : Steady s (rowLookasideJobComplete ring s) := by
  unfold rowLookasideJobComplete
  refine .whenRun .refl ?_
  split
  · exact .guardS .refl (completeJob_steady ..)
  · exact .refl

theorem writeBuf_steady (ring : Nat) (words : List Nat) (first last : Bool) (b : Nat × Bytes) (s : State) :
    Steady s (writeBuf ring words first last b s) :=
  (writeBack_steady ..).after (dmaWrite_steady ..)

theorem rxDeliver_steady (s : State) (ring : Nat) (item : RxItem) (words : List Nat) (body : Bytes)
    (descs : List (Nat × Nat)) :
    OptSteady s
      ((rxDeliver s ring item words body descs).map Prod.fst) := by
  -- The kernel compares rxDeliver with its body as functions: applied, it would count out how many are posted.
  suffices h : ∀ f, f = @rxDeliver → OptSteady s
      ((f s ring item words body descs).map Prod.fst) from h _ rfl
  intro f hf
  delta rxDeliver at hf
  subst hf
  beta_reduce
  generalize posted s ring = n
  split
  · extract_lets f b rest put s₁
    split
    · exact .someFst ((freezeFn_steady ..).after (modRing_touches ..).steady)
    split
    · exact .someFst ((count_touches ..).steady.after ((count_touches ..).steady.after ((modRing_touches ..).steady.after
        (writeBuf_steady ..))))
    · exact .someFst ((modRing_touches ..).steady.after (writeBuf_steady ..))
  · exact .none

theorem dropHead_steady (s : State) (q : Nat) : Steady s (dropHead s q) := by
  unfold dropHead
  split
  · exact .ite ((discardPkt_steady ..).after (hostDiscard_touches ..).steady) .refl
  · exact .refl

theorem dropHeads_steady (qs : List Nat) (s : State) : Steady s (dropHeads qs s) :=
  .foldl (fun _ _ => .foldl (fun _ _ => (dropHead_steady ..)) .refl) .refl

theorem rxFrame_steady (s : State) (ring : Nat) (k : Pkt) (descs : List (Nat × Nat)) (cells : List (Nat × Ecc)) :
    Steady s
      (rxFrame s ring k descs cells) := by
  -- As for rxDeliver: the kernel compares the functions.
  suffices h : ∀ f, f = @rxFrame →
      Steady s
        (f s ring k descs cells) from h _ rfl
  intro f hf
  delta rxFrame at hf
  subst hf
  beta_reduce
  extract_lets -underBinder words body
  split
  · exact .refl
  next t mark delivered =>
  have ht : Steady s t :=
    ((rxDeliver_steady ..).getFst delivered)
  split
  next u read =>
    have hu := ((readCells_steady ..).fst read).after ht
    exact (endGrant_touches ..).steady.after (.ite ((leaveHost_touches ..).steady.after hu) hu)
  · exact (endGrant_touches ..).steady.after ((discardPkt_steady ..).after ((dropPart_touches ..).steady.after
      (readCells_steady ..)))

theorem rxWriteback_steady (s : State) (ring : Nat) (descs : List (Nat × Nat)) (cells : List (Nat × Ecc)) :
    Steady s
      (rxWriteback s ring descs cells) := by
  unfold rxWriteback
  split
  · exact .refl
  · split
    · split
      · split
        · exact rxFrame_steady ..
        · exact (endGrant_touches ..).steady.after (dropPart_touches ..).steady
      · exact .refl
    · split
      · exact .refl
      · split
        · exact .refl
        · exact .ite .refl ((rxFrame_steady ..).after (startHost_touches ..).steady)

theorem rowRxWriteback_steady (ring : Nat) (descs : List (Nat × Nat)) (cells : List (Nat × Ecc)) (s : State) :
    Steady s
      (rowRxWriteback ring descs cells s) :=
  .whenRun .refl (.guardS .refl (.ite (dropHeads_steady ..) (rxWriteback_steady ..)))

theorem deliverCopy_steady (s : State) (c : Copy) (descs : List (Nat × Nat)) (cells : List (Nat × Ecc)) :
    Steady s (deliverCopy s c descs cells) := by
  unfold deliverCopy
  split
  · exact (dropCopy_touches ..).steady
  · split
    · exact .refl
    · split
      · exact .refl
      next u _ e =>
        split
        next u₁ e₁ =>
          refine (endGrant_touches ..).steady.after (.trans (t := u₁) ?_
            (.ite ((endCopy_touches ..).steady.after (emit_touches ..).steady) .refl))
          exact ((readCells_steady ..).fst e₁).after ((rxDeliver_steady ..).getFst e)
        next u₂ _ e₂ =>
          exact (endGrant_touches ..).steady.after ((endCopy_touches ..).steady.after
            ((dropPart_touches ..).steady.after (readCells_steady ..)))

theorem rowCopyDeliver_steady (copy : Nat) (descs : List (Nat × Nat)) (cells : List (Nat × Ecc)) (s : State) :
    Steady s
      (rowCopyDeliver copy descs cells s) := by
  unfold rowCopyDeliver
  refine .whenRun .refl ?_
  split
  · exact .guardS .refl (deliverCopy_steady ..)
  · exact .refl

theorem dropDelivery_steady (s : State) (ring : Nat) : Steady s (dropDelivery s ring) := by
  unfold dropDelivery
  split
  · split
    · exact .refl
    · split
      · extract_lets s₁
        refine .trans (t := s₁) (dropPart_touches ..).steady ?_
        split
        · exact (discardPkt_steady ..).after (hostDiscard_touches ..).steady
        · exact .refl
      · exact .refl
  · exact .refl

theorem dropClosed_steady (s : State) : Steady s (dropClosed s) :=
  .foldl (fun _ _ => .ite (dropCopy_touches ..).steady .refl)
    (.foldl (fun _ _ => (dropDelivery_steady ..)) (dropHeads_steady ..))

theorem txFetch_steady (s : State) (ring : Nat) (words : List Nat) : Steady s (txFetch s ring words) := by
  unfold txFetch
  extract_lets r
  split
  · exact (endGrant_touches ..).steady.after (freezeFn_steady ..)
  next u e =>
    extract_lets d s₁ s₂
    refine .trans (t := s₁) ((count_touches ..).steady.after ((dmaRead_touches ..).steady.get e)) ?_
    refine .ite ((endGrant_touches ..).steady.after (freezeRing_steady ..))
      (.trans (t := s₂) (modRing_touches ..).steady ?_)
    exact .ite (endGrant_touches ..).steady .refl

theorem rowTxDescriptorFetch_steady (ring : Nat) (words : List Nat) (s : State) :
    Steady s (rowTxDescriptorFetch ring words s) :=
  .whenRun .refl (.guardS .refl (txFetch_steady ..))

theorem enterFrame_steady (s : State) (ring : Nat) (d : List Nat) (buffer : Bytes) :
    Steady s
      (enterFrame s ring d buffer) := by
  unfold enterFrame
  extract_lets r n c body frame info s₁ f s₂ id s₃
  refine .trans (t := s₂) ((count_touches ..).steady.after ((count_touches ..).steady.after (modRing_touches ..).steady)) ?_
  refine .trans (t := s₃) (arrive_steady ..) ?_
  exact .ite .refl ((endGrant_touches ..).steady.after (completeCount_steady ..))

theorem txEnter_steady (s : State) (ring : Nat) (d : List Nat) (buffer : Bytes) :
    Steady s
      (txEnter s ring d buffer) := by
  unfold txEnter
  extract_lets r
  split
  · exact (endGrant_touches ..).steady.after (freezeFn_steady ..)
  next u e =>
    exact (enterFrame_steady ..).after (((dmaRead_touches ..).steady.get e))

theorem rowTxFrameEnter_steady (ring : Nat) (buffer : Bytes) (s : State) :
    Steady s
      (rowTxFrameEnter ring buffer s) := by
  unfold rowTxFrameEnter
  refine .whenRun .refl ?_
  extract_lets n
  split
  · exact .guardS .refl (txEnter_steady ..)
  · exact .refl

theorem fetchCmd_steady (s : State) : Steady s (fetchCmd s) := by
  unfold fetchCmd
  split
  · exact .refl
  · split
    · exact .refl
    · split
      · exact (endGrant_touches ..).steady.after (freezeFn_steady ..)
      next u e =>
        exact (endGrant_touches ..).steady.after ((modPipe_touches ..).steady.after (((dmaRead_touches ..).steady.get e)))

theorem writeCompletion_steady (s : State) (p : Nat) (c : Completion) : Steady s (writeCompletion s p c) :=
  (notSignalled_touches ..).steady.after ((headWrite_steady ..).after
    ((modRing_touches ..).steady.after ((dmaWrite_steady ..).after
    ((dmaWrite_steady ..).after (dmaWrite_steady ..)))))

theorem rowCompletionWrite_steady (pipe : Nat) (s : State) : Steady s (rowCompletionWrite pipe s) := by
  unfold rowCompletionWrite
  refine .whenRun .refl ?_
  split
  · exact .guardS .refl ((endGrant_touches ..).steady.after ((writeCompletion_steady ..).after
      (modPipe_touches ..).steady))
  · exact .refl

theorem freezeOwner_steady (s : State) (o status h : Nat) : Steady s (freezeOwner s o status h) := by
  unfold freezeOwner
  extract_lets s₁ w _
  exact (raiseEv_steady ..).after (.set (t := s₁) (modPools_touches ..).steady)

theorem freeBuffer_steady (s : State) (o h : Nat) : Steady s (freeBuffer s o h).1 := by
  unfold freeBuffer
  extract_lets p bad
  split
  · exact .pair (countPool_touches ..).steady
  · split
    · unfold bad
      exact .pair ((freezeOwner_steady ..).after (countPool_touches ..).steady)
    · split
      · unfold bad
        exact .pair ((freezeOwner_steady ..).after (countPool_touches ..).steady)
      · split
        · unfold bad
          exact .pair ((freezeOwner_steady ..).after (countPool_touches ..).steady)
        · split
          · unfold bad
            exact .pair ((freezeOwner_steady ..).after (countPool_touches ..).steady)
          · exact .pair ((countPool_touches ..).steady.after (modPools_touches ..).steady)

theorem decideReq_steady (s : State) (q : PoolReq) : Steady s (decideReq s q).1 := by
  unfold decideReq
  split
  · exact (allocate_touches ..).steady
  · split
    · split
      next u _ e =>
        exact .pair (((freeBuffer_steady ..).fst e))
    · extract_lets st
      exact .pair (countPool_touches ..).steady

theorem hostAccess_steady (s : State) (a : HostAccess) : Steady s (hostAccess s a) := by
  unfold hostAccess
  split
  · exact .ite ((filtered_touches ..).steady.after (emit_touches ..).steady) (freezeFn_steady ..)
  · exact .ite ((offerTask_touches ..).steady.after (filtered_touches ..).steady)
      ((offerTask_touches ..).steady.after (freezeFn_steady ..))

theorem hostAccesses_steady (s : State) : Steady s (hostAccesses s) := by
  unfold hostAccesses
  split
  · exact .refl
  · exact .ite ((endGrant_touches ..).steady.after ((hostAccess_steady ..).after (modPools_touches ..).steady)) .refl

theorem publishWrite_steady (s : State) (c : Nat) (a : IdleAccess) : Steady s (publishWrite s c a) := by
  unfold publishWrite
  extract_lets p off _ b
  split
  · exact .ite (modPipe_touches ..).steady .refl
  split
  · exact .ite ((askBulk_touches ..).steady.after (.setMemory fun h => bulkWrite_wf h ..)) .refl
  split
  · exact .setMemory fun h => utilWrite_wf h ..
  · exact (askHost_touches ..).steady
  · exact .refl

theorem serveReq_steady (s : State) (q : PoolReq) : Steady s (serveReq s q) := by
  unfold serveReq
  split
  next u _ _ e =>
    split
    · exact (answerReq_touches ..).steady.after (((decideReq_steady ..).fst e))
    · exact (publishTask_touches ..).steady.after (((decideReq_steady ..).fst e))

theorem serveOwner_steady (s : State) (o : Nat) : Steady s (serveOwner s o) := by
  unfold serveOwner
  split
  · exact .refl
  · exact (serveReq_steady ..).after (modPools_touches ..).steady

theorem servePools_steady (s : State) : Steady s (servePools s) :=
  (modPools_touches ..).steady.after (.foldl (fun _ _ => (serveOwner_steady ..)) .refl)

theorem publish_steady (s : State) (c e : Nat) (t : Task) (hostData : Bytes) :
    Steady s (publish s c e t hostData) := by
  unfold publish
  extract_lets g out o abi2 s₁ made s₂ s₃ s₄ w
  refine .trans (t := s₂) ((modPipe_touches ..).steady.after ((count_touches ..).steady.after (modEngine_touches ..).steady)) ?_
  refine .trans (t := s₄) (.foldl (fun _ _ => (publishWrite_steady ..)) (publishRecord_touches ..).steady)
    ?_
  exact .ite .refl (publishRequest_touches ..).steady

theorem rowIdleStepPublish_steady (cluster engine : Nat) (hostData : Bytes) (s : State) :
    Steady s
      (rowIdleStepPublish cluster engine hostData s) := by
  unfold rowIdleStepPublish
  refine .whenRun .refl ?_
  extract_lets g
  split
  · exact .guardS .refl (publish_steady ..)
  · exact .refl

theorem sendMessage_steady (s : State) (d n : Nat) (msg : Bytes) (descs : List (Nat × Nat)) :
    OptSteady s
      ((sendMessage s d n msg descs).map Prod.fst) := by
  unfold sendMessage
  split
  · extract_lets ring
    split
    · exact .none
    · exact .mapFstOf (rxDeliver_steady ..) fun _ => (endGrant_touches ..).steady
  · exact .mapFst (originate_touches ..).steady fun _ => .refl

theorem sendRecords_steady (s : State) (d n : Nat) (descs : List (Nat × Nat)) :
    Steady s
      (sendRecords s d n descs) := by
  unfold sendRecords
  extract_lets msg
  split
  · exact .refl
  split
  next u sent e =>
    have hu := (sendMessage_steady ..).getFst e
    exact .ite ((recordsSent_touches ..).steady.after hu) hu
  · exact .refl

theorem rowExportMessageSend_steady (domain count : Nat) (descs : List (Nat × Nat)) (s : State) :
    Steady s
      (rowExportMessageSend domain count descs s) :=
  .whenRun .refl (.guardS .refl (sendRecords_steady ..))

theorem sendTemplates_steady (s : State) (d : Nat) (descs : List (Nat × Nat)) :
    Steady s
      (sendTemplates s d descs) := by
  unfold sendTemplates
  extract_lets body
  split
  · exact (templatesSent_touches ..).steady
  split
  next u sent e =>
    have hu := (sendMessage_steady ..).getFst e
    exact .ite ((templatesSent_touches ..).steady.after hu) hu
  · exact .refl

theorem rowTemplateSetSend_steady (domain : Nat) (descs : List (Nat × Nat)) (s : State) :
    Steady s
      (rowTemplateSetSend domain descs s) :=
  .whenRun .refl (.guardS .refl (sendTemplates_steady ..))

theorem idleExportTasks_steady (s : State) : Steady s (idleExportTasks s) :=
  .ite (.foldl (fun _ _ => (exportTasks_touches ..).steady) .update) .refl

theorem rowIdleExportTask_steady (s : State) : Steady s (rowIdleExportTask s) :=
  .whenRun .refl (idleExportTasks_steady ..)

theorem leaveUp_steady (s : State) (n state : Nat) : Steady s (leaveUp s n state) := by
  unfold leaveUp
  split
  · extract_lets s₁ s₂
    exact (raiseEv_steady ..).after ((modPort_touches ..).steady.after
      ((linkLost_steady ..).after ((cutReceive_steady ..).after (lanesBack_touches ..).steady)))
  · exact (modPort_touches ..).steady

theorem portDown_steady (s : State) (n : Nat) (t : PortTimer) : Steady s (portDown s n t) :=
  (modPort_touches ..).steady.after ((modLanes_touches ..).steady.after (leaveUp_steady ..))

theorem failBringUp_steady (s : State) (n cause : Nat) : Steady s (failBringUp s n cause) :=
  (portDown_steady ..).after ((raiseEv_steady ..).after (modPort_touches ..).steady)

theorem lockLanes_steady (s : State) (ls : List Nat) : Steady s (lockLanes s ls) :=
  .foldl (fun _ _ => (modLane_touches ..).steady.after (useFresh_steady ..)) .refl

theorem enterUp_steady (s : State) (n : Nat) : Steady s (enterUp s n) :=
  (linkBack_touches ..).steady.after ((raiseEv_steady ..).after
    ((modPort_touches ..).steady.after (lockLanes_steady ..)))

theorem portDisableEff_steady (n : Nat) (s : State) : OptSteady s (portDisableEff n s) := by
  unfold portDisableEff
  extract_lets was ls s₁
  refine .some (.trans (t := s₁) ((setRw_touches ..).steady.after (.ite (portDown_steady ..) .refl))
    (.ite ?_ (enterFlush_touches ..).steady))
  exact (modPort_touches ..).steady.after ((enterFlush_touches ..).steady.after (modLanes_touches ..).steady)

theorem rowPortDisable_steady (src : Origin) (node : Nat) (s : State) : Steady s (rowPortDisable src node s) :=
  .writeCmd .refl (fun _ => (portDisableEff_steady ..))

theorem rowTrainingTimeout_steady (node : Nat) (s : State) : Steady s (rowTrainingTimeout node s) := by
  unfold rowTrainingTimeout
  refine .whenRun .refl ?_
  split
  · exact .guardS .refl (failBringUp_steady ..)
  · exact .refl

theorem rowLinkUp_steady (node skew : Nat) (s : State) : Steady s (rowLinkUp node skew s) := by
  unfold rowLinkUp
  refine .whenRun .refl ?_
  extract_lets s₁
  exact .guardS .refl ((enterUp_steady ..).after ((modPort_touches ..).steady.after (endStep_touches ..).steady))

theorem rowLockTimeout_steady (node skew : Nat) (s : State) : Steady s (rowLockTimeout node skew s) := by
  unfold rowLockTimeout
  refine .whenRun .refl ?_
  extract_lets s₁ wide
  split
  · exact .ite ((failBringUp_steady ..).after ((modPort_touches ..).steady.after (endStep_touches ..).steady))
      (.ite ((failBringUp_steady ..).after (endStep_touches ..).steady) .refl)
  · exact .ite ((failBringUp_steady ..).after ((modPort_touches ..).steady.after (endStep_touches ..).steady)) .refl
  · exact .refl

theorem rowKeptCoefficientsLockTimeout_steady (node : Nat) (s : State) :
    Steady s
      (rowKeptCoefficientsLockTimeout node s) := by
  unfold rowKeptCoefficientsLockTimeout
  refine .whenRun .refl ?_
  split
  · exact .guardS .refl (.ite (modPort_touches ..).steady (failBringUp_steady ..))
  · exact .refl

theorem rowLinkDown_steady (node : Nat) (s : State) : Steady s (rowLinkDown node s) :=
  .whenRun .refl (.guardS .refl (portDown_steady ..))

theorem lockedByFault_steady (s : State) (n cause : Nat) : Steady s (lockedByFault s n cause) :=
  .ite .refl ((modPort_touches ..).steady.after (lockLanes_steady ..))

theorem rowLinkHiBer_steady (node cause : Nat) (s : State) : Steady s (rowLinkHiBer node cause s) := by
  unfold rowLinkHiBer
  refine .whenRun .refl ?_
  extract_lets s₁ new s₂ s₃
  have hs₁ : Steady s s₁ := (endStep_touches ..).steady
  refine .guardS .refl ((modPort_touches ..).steady.after (.trans (t := s₂)
    (.ite ((raiseEv_steady ..).after hs₁) hs₁) ?_))
  exact .ite (leaveUp_steady ..) (lockedByFault_steady ..)

theorem rowLinkFaultClear_steady (node : Nat) (s : State) : Steady s (rowLinkFaultClear node s) := by
  unfold rowLinkFaultClear
  refine .whenRun .refl (.guardS .refl ?_)
  extract_lets s₁
  exact .ite ((enterUp_steady ..).after (modPort_touches ..).steady) (modPort_touches ..).steady

theorem rowSerRefclkLost_steady (pipe : Nat) (s : State) : Steady s (rowSerRefclkLost pipe s) := by
  unfold rowSerRefclkLost
  refine .whenRun .refl (.guardS .refl ?_)
  extract_lets s₁ s₂
  exact .foldl (fun _ _ => .ite ((modPort_touches ..).steady.after (portDown_steady ..)) .refl)
    ((raiseEv_steady ..).after (modPipe_touches ..).steady)

theorem searchEnter_steady (l : Nat) (s : State) : OptSteady s (searchEnter l s) := by
  unfold searchEnter
  split
  · exact .none
  · split
    · exact .none
    · split
      · exact .some .refl
      · extract_lets s₁ s₂
        refine .trans (t := s₂) ((modLane_touches ..).steady.after (setRw_touches ..).steady) ?_
        exact .ite (.some ((modPort_touches ..).steady.after (leaveUp_steady ..)))
          (.some (modPort_touches ..).steady)

theorem rowLaneSearchEnter_steady (src : Origin) (lane : Nat) (s : State) :
    Steady s (rowLaneSearchEnter src lane s) :=
  .writeCmd .refl (fun _ => (searchEnter_steady ..))

theorem rowLaneSearchWindowEnd_steady (lane errors : Nat) (s : State) :
    Steady s (rowLaneSearchWindowEnd lane errors s) := by
  unfold rowLaneSearchWindowEnd
  refine .whenRun .refl (.guardS .refl ?_)
  extract_lets s₁
  exact (modLane_touches ..).steady.after (.ite .refl (lockLanes_steady ..))

theorem powerDown_steady (s : State) (n v : Nat) : Steady s (powerDown s n v) :=
  (modPort_touches ..).steady.after (.foldl (fun _ _ => (modLane_touches ..).steady) (portDown_steady ..))

theorem lanePower_steady (l v : Nat) (s : State) : OptSteady s (lanePower l v s) := by
  unfold lanePower
  split
  · exact .none
  · extract_lets all s₁
    refine .trans (t := s₁) (putPower_touches ..).steady ?_
    split
    · exact .some .refl
    · exact .ite (.some .refl) (.ite (.some (powerUp_touches ..).steady) (.some (powerDown_steady ..)))

theorem rowLanePowerDeep_steady (src : Origin) (lane : Nat) (s : State) : Steady s (rowLanePowerDeep src lane s) :=
  .writeCmd .refl (fun _ => (lanePower_steady ..))

theorem rowLanePowerOff_steady (src : Origin) (lane : Nat) (s : State) : Steady s (rowLanePowerOff src lane s) :=
  .writeCmd .refl (fun _ => (lanePower_steady ..))

theorem rowLanePowerActive_steady (src : Origin) (lane : Nat) (s : State) :
    Steady s (rowLanePowerActive src lane s) :=
  .writeCmd .refl (fun _ => (lanePower_steady ..))

theorem portReset_steady (s : State) (n : Nat) : Steady s (portReset s n) := by
  unfold portReset
  extract_lets others ls s₁ s₂ s₃ s₄
  refine .trans (t := s₁) ((enterFlush_touches ..).steady.after (.ite (portDown_steady ..) .refl)) ?_
  refine .trans (t := s₄) ((gateCommit_steady ..).after ((modPort_touches ..).steady.after (modLanes_touches ..).steady))
    ?_
  exact .ite (startBringUp_touches ..).steady .refl

theorem bootStop_steady (s : State) (status : Nat) : Steady s (bootStop s status) :=
  .update

theorem bootDone_steady (s : State) : Steady s (bootDone s) :=
  (raiseEv_steady ..).after .update

theorem bootTrain_steady (s : State) (firmware : Bytes) (hbmOk sramOk : Bool) :
    Steady s (bootTrain s firmware hbmOk sramOk) :=
  .ite ((bootStop_steady ..).after .update) (.ite ((bootStop_steady ..).after .update)
    ((bootDone_steady ..).after .update))

theorem bootLoad_steady (s : State) (bootsel : Nat) (flash : Option Bytes) (flashSig hbmOk sramOk : Bool) :
    Steady s (bootLoad s bootsel flash flashSig hbmOk sramOk) := by
  unfold bootLoad
  split
  · exact bootStop_steady ..
  · split
    · exact bootStop_steady ..
    · split
      · exact .ite (bootTrain_steady ..) (bootStop_steady ..)
      · exact bootStop_steady ..

theorem rowBoot_steady (bootsel : Nat) (flash : Option Bytes) (flashSig pcieSig hbmOk sramOk : Bool) (s : State) :
    Steady s (rowBoot bootsel flash flashSig pcieSig hbmOk sramOk s) :=
  .ite (bootLoad_steady ..) (.ite (.ite (bootTrain_steady ..) (bootStop_steady ..))
    .refl)

theorem rowResetBootImageWrite_steady (image : Bytes) (s : State) : Steady s (rowResetBootImageWrite image s) :=
  .ite .update .refl

/-- The first CHIP reset that is asked for stands (R601). -/
theorem resetCmd_steady (w : Nat) (s : State) : OptSteady s (resetCmd w s) := by
  have chip : Steady s { s with sys := { s.sys with chipAt := orFirst s.sys.chipAt s.beat } } := by
    refine { (Steady.refl : Steady s s) with chipAt := ?_ }
    cases h : s.sys.chipAt <;> simp [orFirst]
  exact .ite (.some chip) (.ite (.some .update) (.ite (.some .update) (.ite (.some .update) .none)))

theorem resetWrite_steady (src : Origin) (cls num : Nat) (s : State) : Steady s (resetWrite src cls num s) :=
  .writeCmd .refl (fun _ => (resetCmd_steady ..))

theorem rowResetCmdChip_steady (src : Origin) (s : State) : Steady s (rowResetCmdChip src s) :=
  (resetWrite_steady ..)

theorem rowResetCmdSoft_steady (src : Origin) (s : State) : Steady s (rowResetCmdSoft src s) :=
  (resetWrite_steady ..)

theorem rowResetCmdPipe_steady (src : Origin) (pipe : Nat) (s : State) : Steady s (rowResetCmdPipe src pipe s) :=
  (resetWrite_steady ..)

theorem rowResetCmdPort_steady (src : Origin) (node : Nat) (s : State) : Steady s (rowResetCmdPort src node s) :=
  (resetWrite_steady ..)

theorem portResetAll_steady (s : State) (n : Nat) : Steady s (portResetAll s n) :=
  (portReset_steady ..).after (clearPortCounters_touches ..).steady

theorem clearShard_steady (s : State) (p : Nat) : Steady s (clearShard s p) :=
  { (Steady.refl : Steady s s) with memory := fun h => clearShard_wf h p }

theorem discardAll_steady (s : State) (l : List Pkt) : Steady s (discardAll s l) := by
  unfold discardAll
  refine .foldl (fun t a => ?_) .refl
  extract_lets s₁
  exact (discardPkt_steady ..).after (.ite .refl (modPkt_touches ..).steady)

theorem pipeResetStart_steady (s : State) (p : Nat) : Steady s (pipeResetStart s p) := by
  unfold pipeResetStart
  extract_lets _ s₁ s₂ s₃ s₄ lost s₅ s₆ s₇ s₈ s₉
  refine .trans (t := s₄) ((modPools_touches ..).steady.after ((dropWaiting_touches ..).steady.after
    ((forget_touches ..).steady.after .update))) ?_
  refine .ite .refl ((modPipe_touches ..).steady.after (.set (t := s₈) ?_))
  refine .trans (t := s₆) ((discardAll_steady ..).after (.foldl (fun _ _ => (modPort_touches ..).steady) .refl)) ?_
  refine (dropRequests_touches ..).steady.after ((fillPolicers_touches ..).steady.after ((clearPipeCounters_touches ..).steady.after ?_))
  exact (clearShard_steady ..).after ((emptyClusters_touches ..).steady.after (clearPipe_touches ..).steady)

theorem rowPipeResetStart_steady (pipe : Nat) (s : State) : Steady s (rowPipeResetStart pipe s) := by
  unfold rowPipeResetStart
  refine .whenRun .refl ?_
  split
  · exact .guardS .refl (pipeResetStart_steady ..)
  · exact .refl

theorem rowPipeReset_steady (pipe : Nat) (s : State) : Steady s (rowPipeReset pipe s) := by
  unfold rowPipeReset
  refine .whenRun .refl (.guardS .refl ?_)
  extract_lets s₁ s₂
  exact (raiseEv_steady ..).after (.foldl (fun _ _ => (modPort_touches ..).steady) (modPipe_touches ..).steady)

theorem softDiscard_steady (s : State) : Steady s (softDiscard s) := by
  unfold softDiscard
  extract_lets s₁ s₂ nodes _
  exact .set (t := s₂) (.foldl (fun _ _ => (applySched_touches ..).steady)
    (.foldl (fun _ _ => (txFinish_steady ..)) .refl))

theorem resetFn_steady (s : State) (f : Nat) : Steady s (resetFn s f) := by
  unfold resetFn
  extract_lets rings waiting s₁ _ s₂ s₃ s₄ regions lost s₅ s₆
  refine (clearFnCounters_touches ..).steady.after ((modPools_touches ..).steady.after
    (.foldl (fun _ _ => .update) ((dropWaiting_touches ..).steady.after
    ((forget_touches ..).steady.after (.foldl (fun t a => ?_) (.foldl (fun _ _ => (clearRing_touches ..).steady)
    (.set (t := s₁) (dropWaits_touches ..).steady)))))))
  split
  · exact (discardPkt_steady ..).after (hostDiscard_touches ..).steady
  · exact .refl

theorem endLocalLock_steady (s : State) : Steady s (endLocalLock s) := by
  unfold endLocalLock
  split
  · extract_lets s₁ _
    exact (raiseEv_steady ..).after (.set (t := s₁) (clearStaging_touches ..).steady)
  · exact .refl

theorem resetPf_steady (s : State) : Steady s (resetPf s) :=
  (endLocalLock_steady ..).after ((noMailbox_touches ..).steady.after
    (.foldl (fun _ _ => (modPipe_touches ..).steady) (.foldl (fun _ _ => (resetFn_steady ..)) .refl)))

theorem rowFunctionReset_steady (fn : Nat) (s : State) : Steady s (rowFunctionReset fn s) :=
  .whenRun .refl (.guardS .refl (.ite (resetPf_steady ..) (resetFn_steady ..)))

theorem modSupply_steady (s : State) (m : Nat) (f : Supply → Supply) : Steady s (modSupply s m f) :=
  .update

theorem supplyFalls_steady (s : State) (m mv dips : Nat) : Steady s (supplyFalls s m mv dips) := by
  unfold supplyFalls
  extract_lets s₁ _
  exact .set (t := s₁) (modSupply_steady ..)

theorem rowSupplyWarn_steady (mon mv : Nat) (s : State) : Steady s (rowSupplyWarn mon mv s) := by
  unfold rowSupplyWarn
  refine .guardS .refl ?_
  extract_lets s₁ _ s₂
  exact .ite ((raiseEv_steady ..).after (.set (t := s₁) (supplyFalls_steady ..)))
    (.set (t := s₁) (supplyFalls_steady ..))

theorem rowSupplyDip_steady (mon mv : Nat) (s : State) : Steady s (rowSupplyDip mon mv s) :=
  .guardS .refl (supplyFalls_steady ..)

theorem supplyOk_steady (s : State) (since : Nat) : Steady s (supplyOk s since) :=
  .ite ((startFuses_steady ..).after ((raiseEv_steady ..).after .update)) .update

theorem rowSupplyOk_steady (s : State) : Steady s (rowSupplyOk s) := by
  unfold rowSupplyOk
  split
  · exact .guardS .refl (supplyOk_steady ..)
  · exact .refl

theorem rowSupplyResetRelease_steady (s : State) : Steady s (rowSupplyResetRelease s) :=
  .ite .update .refl

theorem rowFreeze_steady (s : State) : Steady s (rowFreeze s) :=
  (startFreeze_steady ..)

theorem rowDebugFreeze_steady (src : Origin) (s : State) : Steady s (rowDebugFreeze src s) :=
  .writeCmd .refl (fun _ => .some (startFreeze_steady ..))

theorem releaseAll_steady (s : State) (type cls num : Nat) : Steady s (releaseAll s type cls num) :=
  (raiseEv_steady ..).after .update

theorem freePort_steady (s : State) (n cls : Nat) : Steady s (freePort s n cls) :=
  .ite (.ite ((releaseAll_steady ..).after (modPort_touches ..).steady) .refl)
    (.ite ((releaseAll_steady ..).after (modPort_touches ..).steady) .refl)

theorem freeFn_steady (s : State) (f : Nat) : Steady s (freeFn s f) :=
  .ite ((releaseAll_steady ..).after (modFn_touches ..).steady) .refl

theorem freeRing_steady (s : State) (r : Nat) : Steady s (freeRing s r) :=
  .ite ((releaseAll_steady ..).after (modRing_touches ..).steady) .refl

theorem freeSession_steady (s : State) (n : Nat) : Steady s (freeSession s n) := by
  unfold freeSession
  split
  · exact .ite ((releaseAll_steady ..).after .update) .refl
  · exact .refl

theorem freeOwner_steady (s : State) (o : Nat) : Steady s (freeOwner s o) :=
  .ite ((releaseAll_steady ..).after (modPools_touches ..).steady) .refl

theorem release_steady (s : State) (w : Nat) : Steady s (release s w) :=
  .ite (freePort_steady ..) (.ite (freeFn_steady ..)
    (.ite (freeRing_steady ..) (.ite (freeSession_steady ..)
    (.ite (freeOwner_steady ..) .refl))))

theorem askRelease_steady (w : Nat) (s : State) : OptSteady s (askRelease w s) :=
  .ite .none (.some .update)

theorem releaseWrite_steady (src : Origin) (type cls num : Nat) (s : State) :
    Steady s (releaseWrite src type cls num s) :=
  .writeCmd .refl (fun _ => (askRelease_steady ..))

theorem rowReleasePort_steady (src : Origin) (node cls : Nat) (s : State) :
    Steady s (rowReleasePort src node cls s) :=
  (releaseWrite_steady ..)

theorem rowReleaseFunction_steady (src : Origin) (fn : Nat) (s : State) : Steady s (rowReleaseFunction src fn s) :=
  (releaseWrite_steady ..)

theorem rowReleaseRing_steady (src : Origin) (ring : Nat) (s : State) : Steady s (rowReleaseRing src ring s) :=
  (releaseWrite_steady ..)

theorem rowReleaseSession_steady (src : Origin) (sess : Nat) (s : State) :
    Steady s (rowReleaseSession src sess s) :=
  (releaseWrite_steady ..)

theorem rowReleasePoolOwner_steady (src : Origin) (owner : Nat) (s : State) :
    Steady s (rowReleasePoolOwner src owner s) :=
  (releaseWrite_steady ..)

theorem runSoon_steady (s : State) : Steady s (runSoon s) := by
  unfold runSoon
  refine .foldl (fun t a => ?_) .update
  split
  · exact portResetAll_steady ..
  · exact release_steady ..
  · exact tickLost_steady ..
  · exact tbStops_steady ..
  · exact (unitOut_touches ..).steady
  · exact (clearPairs_touches ..).steady
  · exact (tinDrop_touches ..).steady
  · exact .refl

theorem pipeStops_steady (s : State) (p : Nat) : Steady s (pipeStops s p) :=
  (modPipe_touches ..).steady.after ((clearPipeCounters_touches ..).steady.after
    (.foldl (fun _ _ => (modCluster_touches ..).steady) ((clearSearch_touches ..).steady.after
    ((clearShard_steady ..).after (clearPipe_touches ..).steady))))

theorem pipeWakes_steady (s : State) (p : Nat) : Steady s (pipeWakes s p) := by
  unfold pipeWakes
  extract_lets s₁ s₂ _ s₃
  have hs₂ : Steady s s₂ := .foldl (fun _ _ => (wakeSides_touches ..).steady)
    (.foldl (fun _ _ => (wakeSlot_touches ..).steady) (clearSearch_touches ..).steady)
  clear_value s₂
  exact (modPipe_touches ..).steady.after (hs₂.set (u := s₃))

theorem powerBoundary_steady (s : State) : Steady s (powerBoundary s) :=
  .ite .refl (.foldl (fun _ _ => .ite (pipeStops_steady ..)
    (.ite (pipeWakes_steady ..) .refl)) .refl)

theorem rowPipePower_steady (pipe : Nat) (s : State) : Steady s (rowPipePower pipe s) :=
  .whenRun .refl (.guardS .refl ((raiseEv_steady ..).after (modPipe_touches ..).steady))

theorem logAckWrite_steady (v : Nat) (s : State) : OptSteady s (logAckWrite v s) :=
  .some .update

theorem rowEventLogAck_steady (src : Origin) (seq : Nat) (s : State) : Steady s (rowEventLogAck src seq s) :=
  .writeCmd .refl (fun _ => (logAckWrite_steady ..))

theorem i2cByte_steady (s : State) : Steady s (i2cByte s).1 := by
  have hmod (t : State) (f : Sys → Sys) (h : coreOf { t with sys := f t.sys } = coreOf t) : Steady t (modSys t f) :=
    .update h
  unfold i2cByte
  extract_lets r
  split
  extract_lets s₁ v s₂
  have hs₁ : Steady s s₁ := .ite (hmod _ _ rfl) .refl
  have hs₂ : Steady s s₂ := .ite ((hmod _ _ rfl).after hs₁) hs₁
  exact .pair ((hmod _ _ rfl).after hs₂)

theorem i2cBytes_steady (n : Nat) (s : State) : Steady s (i2cBytes n s).1 := by
  induction n generalizing s with
  | zero => exact .refl
  | succ n ih =>
    unfold i2cBytes
    split
    next u _ e =>
    split
    next v _ e' => exact .trans ((i2cByte_steady ..).fst e) ((ih u).fst e')

theorem rowI2cPointerWrite_steady (pointer : Nat) (s : State) : Steady s (rowI2cPointerWrite pointer s) := .update

theorem rowI2cRead_steady (count : Nat) (s : State) : Steady s (rowI2cRead count s) := by
  unfold rowI2cRead
  split
  next u _ e =>
    exact (emit_touches ..).steady.after (((i2cBytes_steady ..).fst e))

theorem doneTodo_steady (s : State) (w : Nat) : Steady s (doneTodo s w) :=
  .update

theorem notifyWork_steady (s : State) (n : Nat) : Steady s (notifyWork s n) :=
  .ite ((objectNotifies_touches ..).steady.after (doneTodo_steady ..)) .refl

theorem rowObjectNotify_steady (sess : Nat) (s : State) : Steady s (rowObjectNotify sess s) :=
  .whenRun .refl (notifyWork_steady ..)

theorem ringRecord_steady (s : State) (e : Event) {f : State → State} (k : Steady s (f s)) :
    Steady s (ringRecord s e f) := by
  unfold ringRecord
  split
  · exact .refl
  · exact .trans k (.trans (writeRecord_steady ..) (endGrant_touches ..).steady)

theorem writeEvent_steady (s : State) : Steady s (writeEvent s) := by
  unfold writeEvent
  split
  · exact ringRecord_steady _ _ ((tellSessions_touches ..).steady.after .update)
  split
  · exact .refl
  next e rest waiting =>
    refine ringRecord_steady _ _ { (Steady.refl : Steady s s) with events := ?_ }
    rw [waiting, List.length_cons]
    intro h
    exact Nat.le_of_succ_le h

theorem rowEventRecordWrite_steady (s : State) : Steady s (rowEventRecordWrite s) :=
  .whenRun .refl (.guardS .refl (writeEvent_steady ..))

theorem replaceBeacon_steady (s : State) (n : Nat) : Steady s (replaceBeacon s n) := by
  unfold replaceBeacon
  extract_lets waits queued s₁ s₂ _
  exact .set (t := s₂) ((count_touches ..).steady.after (.foldl (fun _ _ => (discardPkt_steady ..)) .refl))

theorem sendBeacon_steady (s : State) : Steady s (sendBeacon s) := by
  unfold sendBeacon
  extract_lets s₁ s₂
  refine .trans (t := s₂) (.trans (t := s₁) .update (.ite ((buildBeacons_touches ..).steady.after ?_) .refl)) ?_
  · exact .foldl (fun _ _ => (replaceBeacon_steady ..)) .refl
  · exact .ite (tellBeacon_touches ..).steady .refl

theorem beaconWork_steady (s : State) : Steady s (beaconWork s) :=
  .ite ((sendBeacon_steady ..).after (doneTodo_steady ..)) .refl

theorem rowEtwenBeacon_steady (s : State) : Steady s (rowEtwenBeacon s) :=
  .whenRun .refl (beaconWork_steady ..)

theorem lockBy_steady (s : State) (who : Nat) : Steady s (lockBy s who).1 := by
  unfold lockBy
  extract_lets s₁
  refine .trans (t := s₁) (lockExpiry_steady ..) ?_
  split
  · exact .pair (takeLock_touches ..).steady
  · split
    · exact .pair (takeLock_touches ..).steady
    · exact .pair .refl

theorem unlockBy_steady (s : State) (who : Nat) : Steady s (unlockBy s who).1 := by
  unfold unlockBy
  extract_lets s₁
  refine .trans (t := s₁) (lockExpiry_steady ..) ?_
  split
  · exact .pair (freeLock_touches ..).steady
  · exact .pair .refl

theorem commitBy_steady (s : State) (who target : Nat) (unlock : Bool) :
    Steady s (commitBy s who target unlock).1 := by
  unfold commitBy
  extract_lets s₁
  refine .trans (t := s₁) (lockExpiry_steady ..) ?_
  split
  · exact .pair .refl
  · split
    · exact .pair .refl
    · split
      next u _ e =>
        exact .pair (.ite ((freeLock_touches ..).steady.after (((sealVersion_steady ..).fst e)))
          (((sealVersion_steady ..).fst e)))
      next u₁ _ e₁ =>
        exact .pair (((sealVersion_steady ..).fst e₁))

theorem localCmd_steady (w : Nat) (s : State) : OptSteady s (localCmd w s) :=
  .ite (.some ((localAnswer_touches ..).steady.after (lockBy_steady ..)))
    (.ite (.some ((localAnswer_touches ..).steady.after (unlockBy_steady ..)))
    (.ite (.some ((localAnswer_touches ..).steady.after (commitBy_steady ..))) .none))

theorem localWrite_steady (w : Nat) (s : State) : Steady s (localWrite w s) :=
  .writeCmd .refl (fun _ => (localCmd_steady ..))

theorem rowLocalLock_steady (s : State) : Steady s (rowLocalLock s) :=
  (localWrite_steady ..)

theorem rowLocalUnlock_steady (s : State) : Steady s (rowLocalUnlock s) :=
  (localWrite_steady ..)

theorem rowLocalCommit_steady (target : Nat) (unlock : Bool) (s : State) :
    Steady s (rowLocalCommit target unlock s) :=
  (localWrite_steady ..)

theorem rowLockExpired_steady (s : State) : Steady s (rowLockExpired s) :=
  .whenRun .refl (lockExpiry_steady ..)

theorem OptSteady.onOne {v : Bytes} {f : State → Option State} {s : State} (k : OptSteady s (f s)) :
    OptSteady s (onOne v f s) :=
  .ite k (.some .refl)

theorem writeIdent_steady (idx sub row : Nat) (v : Bytes) (s : State) : OptSteady s (writeIdent idx sub row v s) :=
  .ite (credWrite_touches ..).steady (.ite (localCmd_steady ..)
    (.ite (cancelVersion_steady ..) (.ite (setWhen_touches ..).steady (.some (setRw_touches ..).steady))))

theorem writeTb_steady (t sub : Nat) (v : Bytes) (s : State) : OptSteady s (writeTb t sub v s) :=
  .ite (.ite (tbEnable_touches ..).steady (tbDisable_steady ..))
    (.ite (tbSetRate_touches ..).steady (.ite (tbStep_touches ..).steady
    (.ite (tbSlew_touches ..).steady (tbSetSlewPpm_touches ..).steady)))

theorem writeTime_steady (idx sub row : Nat) (v : Bytes) (s : State) : OptSteady s (writeTime idx sub row v s) :=
  .ite (writeTb_steady ..) (.ite (toutWrite_steady ..)
    (.ite (.ite (tinAck_steady ..) (.some (setRw_touches ..).steady))
    (.ite (ptpWrite_touches ..).steady (.ite (.some ((soonDo_steady ..).after (setRw_touches ..).steady))
    (.ite (setWhen_touches ..).steady (.some (setRw_touches ..).steady))))))

theorem writeLane_steady (l sub : Nat) (v : Bytes) (s : State) : OptSteady s (writeLane l sub v s) :=
  .ite (lanePower_steady ..) (.ite (setWhen_touches ..).steady
    (.ite (.ite (searchEnter_steady ..) (searchExit_touches ..).steady)
    (.ite (searchSlip_touches ..).steady (.some (setRw_touches ..).steady))))

theorem writePort_steady (n sub : Nat) (v : Bytes) (s : State) : OptSteady s (writePort n sub v s) :=
  .ite (.ite (setIf_touches ..).steady .none) (.ite (.ite (portEnableEff_touches ..).steady
    (portDisableEff_steady ..)) (.ite (setWhen_touches ..).steady
    (.ite (setWhen_touches ..).steady (.ite (setWhen_touches ..).steady
    (.ite (setIf_touches ..).steady (.some (setRw_touches ..).steady))))))

theorem writeSearch_steady (idx sub row : Nat) (v : Bytes) (s : State) :
    OptSteady s (writeSearch idx sub row v s) :=
  .ite (setBankMode_steady ..) (.ite (legacyPush_touches ..).steady (.some (setRw_touches ..).steady))

theorem enrolWrite_steady (v : Bytes) (s : State) : OptSteady s (enrolWrite v s) :=
  .ite .none (.some (queueFuse_steady ..))

theorem revokeWrite_steady (k : Nat) (s : State) : OptSteady s (revokeWrite k s) :=
  .ite .none (.some (queueFuse_steady ..))

theorem writeEngine_steady (idx sub row : Nat) (v : Bytes) (s : State) :
    OptSteady s (writeEngine idx sub row v s) :=
  .ite (.ite (stageImage_touches ..).steady (.ite (.some .update)
    (.ite (enrolWrite_steady ..) (.ite (revokeWrite_steady ..) (.some (setRw_touches ..).steady)))))
    (.onOne (.some (deferWrite_touches ..).steady))

theorem writeCounter_steady (idx sub row : Nat) (v : Bytes) (s : State) :
    OptSteady s (writeCounter idx sub row v s) :=
  .ite (overflowClear_touches ..).steady (.ite (.ite (filterSelect_touches ..).steady
    (filterChain_steady ..)) (.some (setRw_touches ..).steady))

theorem writeSys_steady (idx sub row : Nat) (v : Bytes) (s : State) : OptSteady s (writeSys idx sub row v s) :=
  .ite (.ite (resetCmd_steady ..) (.some .refl))
    (.ite (.ite (pipeOffWrite_touches ..).steady (setWhen_touches ..).steady)
    (.ite (.ite (.onOne (.some (startFreeze_steady ..))) (.some (setRw_touches ..).steady))
    (.ite (logAckWrite_steady ..) (askRelease_steady ..))))

theorem writeValue_steady (idx sub row : Nat) (v : Bytes) (s : State) : OptSteady s (writeValue idx sub row v s) :=
  .ite (writeIdent_steady ..) (.ite (writeTime_steady ..)
    (.ite (writeLane_steady ..) (.ite (writePort_steady ..)
    (.ite (writeSearch_steady ..) (.ite (writeFlow_touches ..).steady
    (.ite (writeEngine_steady ..) (.ite (writeBuffer_touches ..).steady
    (.ite (writePool_touches ..).steady (.ite (writeArb_touches ..).steady
    (.ite (writeSched_touches ..).steady (.ite (writeCipher_touches ..).steady
    (.ite (writeHost_touches ..).steady (.ite (writeCounter_steady ..)
    (writeSys_steady ..))))))))))))))

theorem emptyRows_steady (idx sub : Nat) (r : ObjRow) (s : State) : OptSteady s (emptyRows idx sub r s) :=
  .foldlBind (fun _ _ => writeValue_steady ..) (.some .refl)

theorem writeAny_steady {mbox : Bytes → State → State} (hm : ∀ b t, Steady t (mbox b t))
    (idx sub row : Nat) (v : Bytes) (s : State) : OptSteady s (writeAny mbox idx sub row v s) := by
  unfold writeAny
  split
  · exact .none
  · exact .ite (.some (hm v s)) (.ite (emptyRows_steady ..) (writeValue_steady ..))

theorem stageBy_steady (s : State) (src : Origin) (idx sub row : Nat) (v : Bytes) :
    Steady s (stageBy s src idx sub row v) := by
  unfold stageBy
  split
  · exact .refl
  extract_lets s₁ e
  have hs₁ : Steady s s₁ :=
    (renewLease_touches ..).steady.after (lockExpiry_steady ..)
  split
  · exact (rejectWrite_touches ..).steady.after hs₁
  split
  next u e => exact (filtered_touches ..).steady.after (((stageValue_touches ..).steady.get e).after hs₁)
  · exact (rejectWrite_touches ..).steady.after hs₁

theorem anyWrite_steady {mbox : Bytes → State → State} (hm : ∀ b t, Steady t (mbox b t)) (s : State)
    (src : Origin) (idx sub row : Nat) (v : Bytes) :
    Steady s (anyWrite mbox s src idx sub row v) := by
  unfold anyWrite
  split
  · split
    · exact stageBy_steady ..
    · exact .ite (stageBy_steady ..) (rejectWrite_touches ..).steady
  · exact .writeBy .refl fun t => (writeAny_steady hm idx sub row v t)

theorem answer_steady {s t : State} (n : Nat) (m : Bytes) {r : Reply} (h : Steady s t) (hr : OptSteady s r.state) :
    Steady s (answer t n m r) := by
  cases r with
  | good u b => exact (sendMsg_touches ..).steady.after (hr.get rfl)
  | bad => exact (sendMsg_touches ..).steady.after h

theorem runItems_steady {n : Nat} {err : State → Item → Nat} {eff : Item → State → Option State}
    (h : ∀ i t, OptSteady t (eff i t)) (l : List Item) (k : Nat) (s : State) :
    OptSteady s (runItems n err eff l k s).state := by
  induction l generalizing k s with
  | nil => exact .some .refl
  | cons i l ih =>
    unfold runItems
    extract_lets e
    split
    · exact .none
    split
    · exact .none
    next u done => exact .trans ((countItem_touches ..).steady.after ((h i s).get done)) (ih ..)

theorem writeItems_steady {mbox : Bytes → State → State} (hm : ∀ b t, Steady t (mbox b t)) (s : State)
    (n : Nat) (l : List Item) : OptSteady s (writeItems mbox s n l).state := by
  refine runItems_steady (fun i t => ?_) ..
  split
  · exact (stageValue_touches ..).steady
  · exact writeAny_steady hm ..

theorem codeReply_steady {s : State} {r : State × Nat × Nat} (h : Steady s r.1) : OptSteady s (codeReply r).state := by
  unfold codeReply
  split
  · exact .some h
  · exact .none

/-- The state that an error answer leaves, and the one of a reply. -/
def ReplySteady (s : State) (r : State × Reply) : Prop := Steady s r.1 ∧ OptSteady s r.2.state

theorem ReplySteady.of {s : State} {r : Reply} (h : OptSteady s r.state) : ReplySteady s (s, r) :=
  ⟨.refl, h⟩

theorem commitReply_steady (s : State) (n minor : Nat) (body : Bytes) :
    ReplySteady s (commitReply s n minor body) := by
  unfold commitReply
  extract_lets unlock r
  have hr : Steady s r.1 := commitBy_steady ..
  split
  · exact .of .none
  split
  · exact .of .none
  · exact ⟨hr, codeReply_steady hr⟩

theorem unlockReply_steady (s : State) (n : Nat) : OptSteady s (unlockReply s n).state := by
  unfold unlockReply
  extract_lets r
  split
  · exact .some (unlockBy_steady ..)
  · exact .none

theorem blockApply_steady {mbox : Bytes → State → State} (hm : ∀ b t, Steady t (mbox b t)) (s : State)
    (n : Nat) (head data : Bytes) : OptSteady s (blockApply mbox s n head data).state := by
  unfold blockApply
  extract_lets idx sub
  split
  · exact .none
  split
  · exact .none
  extract_lets items rep
  have hrep : OptSteady s rep.state := by
    unfold rep
    split
    · exact (stageItems_touches ..).steady
    · exact writeItems_steady hm ..
  clear_value rep
  split
  · exact .some (hrep.get rfl)
  · exact .none

theorem blockWrite_steady {mbox : Bytes → State → State} (hm : ∀ b t, Steady t (mbox b t)) (s : State)
    (n : Nat) (more : Bool) (body : Bytes) : ReplySteady s (blockWrite mbox s n more body) := by
  unfold blockWrite
  extract_lets chunk idx sub data old want gone head b
  have hgone : Steady s gone := (putBlock_touches ..).steady
  split
  · exact ⟨hgone, .none⟩
  split
  · exact ⟨hgone, .none⟩
  split
  · exact ⟨hgone, .some (putBlock_touches ..).steady⟩
  · exact ⟨hgone, .trans hgone (blockApply_steady hm ..)⟩

theorem authFail_steady (s : State) : Steady s (authFail s) := by
  unfold authFail
  extract_lets s₁ _
  exact .ite (count_touches ..).steady ((raiseEv_steady ..).after (.set (t := s₁) (count_touches ..).steady))

theorem refuseHello_steady (s : State) (path : MabinPath) (m : Bytes) (code detail : Nat) :
    Steady s (refuseHello s path m code detail) := by
  unfold refuseHello
  extract_lets body head
  split
  next u _ e =>
    exact (deliverMsg_touches ..).steady.after (((freshBytes_steady ..).fst e))

theorem openSession_steady (s : State) (path : MabinPath) (m : Bytes) : Steady s (openSession s path m) := by
  unfold openSession
  extract_lets b cn
  split
  · exact authFail_steady ..
  · split
    · exact authFail_steady ..
    · split
      · exact refuseHello_steady ..
      · split
        · exact refuseHello_steady ..
        · split
          next u _ e =>
            extract_lets key _ _ s₁
            exact (deliverMsg_touches ..).steady.after (.set (t := u) (((drawNonce_touches ..).steady.fst e)))

theorem freezeSession_steady (s : State) (n : Nat) : Steady s (freezeSession s n) :=
  (freezeMaster_steady ..).after (modSession_touches ..).steady

theorem itemRequest_steady {mbox : Bytes → State → State} {s : State} {n type : Nat}
    {items : List Item} (hr : OptSteady s (itemRequest mbox s n type items).2.state) :
    ReplySteady s (itemRequest mbox s n type items) :=
  ⟨(countBad_touches ..).steady, hr⟩

theorem request_steady {mbox : Bytes → State → State} (hm : ∀ b t, Steady t (mbox b t)) (s : State)
    (n : Nat) (x : Session) (m : Bytes) : ReplySteady s (request mbox s n x m) := by
  unfold request
  extract_lets type body
  split
  · apply itemRequest_steady
    by_cases isRead : type = 2
    · rw [isRead]
      exact (readItems_touches ..).steady
    by_cases isWrite : type = 3
    · rw [isWrite]
      exact writeItems_steady hm ..
    · have isStage : type = 4 := by simp_all
      rw [isStage]
      exact (stageItems_touches ..).steady
  split
  · exact commitReply_steady ..
  split
  · exact .of (codeReply_steady (lockBy_steady ..))
  split
  · exact .of (unlockReply_steady ..)
  split
  · exact .of (subscribeReply_touches ..).steady
  split
  · split
    · exact .of .none
    split
    · exact .of .none
    split
    · exact .of (blockRead_touches ..).steady
    split
    · exact blockWrite_steady hm ..
    · exact .of .none
  split
  · exact .of .none
  · exact .of .none

theorem serve_steady {mbox : Bytes → State → State} (hm : ∀ b t, Steady t (mbox b t)) (s : State) (n : Nat)
    (x : Session) (m : Bytes) : Steady s (serve mbox s n x m) := by
  unfold serve
  extract_lets s₁
  have hs₁ : Steady s s₁ := (renewLease_touches ..).steady.after (modSession_touches ..).steady
  split
  · exact (closeSession_touches ..).steady.after hs₁
  split
  · exact (rekeySession_touches ..).steady.after hs₁
  split
  next t r asked =>
    obtain ⟨ht, hr⟩ : ReplySteady s₁ (t, r) := asked ▸ request_steady hm s₁ n x m
    exact (answer_steady n m ht hr).after hs₁

theorem sessionMsg_steady {mbox : Bytes → State → State} (hm : ∀ b t, Steady t (mbox b t)) (s : State) (n : Nat)
    (m : Bytes) : Steady s (sessionMsg mbox s n m) := by
  unfold sessionMsg
  extract_lets s₁ s₂ s₃
  have hs₁ : Steady s s₁ := (endIdle_touches ..).steady.after (lockExpiry_steady ..)
  split
  · exact (count_touches ..).steady.after hs₁
  split
  · exact hs₁
  have hs₂ : Steady s s₂ := (askCode_touches ..).steady.after hs₁
  have hs₃ : Steady s s₃ := (modSession_touches ..).steady.after hs₂
  split
  · exact (freezeSession_steady ..).after hs₂
  split
  · exact (count_touches ..).steady.after hs₂
  split
  · exact (freezeSession_steady ..).after hs₃
  · exact (serve_steady hm ..).after hs₃

theorem receive_steady (fuel : Nat) (path : MabinPath) (m : Bytes) (s : State) :
    Steady s (receive fuel path m s) := by
  induction fuel generalizing path m s with
  | zero => exact .refl
  | succ fuel ih =>
    unfold receive
    exact .ite (count_touches ..).steady (.ite (count_touches ..).steady (.ite (openSession_steady ..)
      (sessionMsg_steady (ih .mailbox) ..)))

theorem deliver_steady (path : MabinPath) (m : Bytes) (s : State) : Steady s (deliver path m s) :=
  receive_steady ..

theorem mabinRow_steady (c : Bool) (path : MabinPath) (m : Bytes) (s : State) : Steady s (mabinRow c path m s) :=
  .whenRun .refl (.guardS .refl (deliver_steady ..))

theorem mboxWrite_steady (m : Bytes) (s : State) : Steady s (mboxWrite m s) :=
  .ite (count_touches ..).steady (.writeBy .refl (fun _ => .some (deliver_steady ..)))

theorem rowMboxInWrite_steady (msg : Bytes) (s : State) : Steady s (rowMboxInWrite msg s) :=
  .whenRun .refl (mboxWrite_steady ..)

theorem writeObject_steady (s : State) (src : Origin) (idx sub row : Nat) (v : Bytes) :
    Steady s (writeObject s src idx sub row v) :=
  .ite (freezeFn_steady ..) (anyWrite_steady (deliver_steady .mailbox) ..)

theorem rowObjectWrite_steady (src : Origin) (index sub row : Nat) (value : Bytes) (s : State) :
    Steady s (rowObjectWrite src index sub row value s) :=
  .whenRun .refl (writeObject_steady ..)

theorem barTable_steady (s : State) (off value : Nat) : Steady s (barTable s off value) := by
  unfold barTable
  split
  · exact .refl
  · extract_lets _ s₁ v k _ s₂
    exact .ite .update ((writeObject_steady ..).after (.set (t := s₁) .update))

theorem barWord_steady (s : State) (off value : Nat) : Steady s (barWord s off value) := by
  unfold barWord
  extract_lets idx sub
  split
  · exact .refl
  · exact .ite .refl (.ite (freezeFn_steady ..) (writeObject_steady ..))

theorem barVirtual_steady (s : State) (fn off value : Nat) : Steady s (barVirtual s fn off value) :=
  .ite .refl (.ite (.getD (poolWord_touches ..).steady .refl) (.ite .refl (freezeFn_steady ..)))

theorem barVector_steady (s : State) (fn off value : Nat) : Steady s (barVector s fn off value) := by
  unfold barVector
  split
  · exact .refl
  · split
    · exact .update
    · exact freezeFn_steady ..

theorem barWriteWord_steady (s : State) (fn bar off value : Nat) : Steady s (barWriteWord s fn bar off value) := by
  unfold barWriteWord
  split
  · extract_lets s₁
    exact .ite ((barWord_steady ..).after (renewLease_touches ..).steady)
      (.ite ((barTable_steady ..).after (renewLease_touches ..).steady)
      (.ite ((barVector_steady ..).after (renewLease_touches ..).steady) (renewLease_touches ..).steady))
  · exact .ite (barVirtual_steady ..) (.ite (barVector_steady ..) .refl)

theorem rowBarWrite_steady (fn bar offset value : Nat) (s : State) :
    Steady s (rowBarWrite fn bar offset value s) :=
  .whenRun .refl (barWriteWord_steady ..)

theorem portOwes_steady (n : Nat) (s : State) : Steady s (portOwes n s) := by
  unfold portOwes
  extract_lets s₁ s₂ s₃ s₄
  refine .trans (t := s₁) (.whenRun .refl (stepDue_touches ..).steady) ?_
  refine .trans (t := s₂) ((rowRestartDelayExpiry_touches ..).steady.after ((rowTrainingTimeout_steady ..).after
    ((rowKeptCoefficientsLockTimeout_steady ..).after (rowLockTimeout_steady ..)))) ?_
  refine .trans (t := s₃) (.forEach (fun _ _ => (rowPauseExpiry_touches ..).steady) .refl) ?_
  refine .trans (t := s₄) (.whenRun .refl (ownFrameTail_steady ..)) ?_
  exact (rowMacsecRxDeliver_steady ..).after ((rowGateInstant_touches ..).steady.after
    ((rowGateListStarted_steady ..).after ((rowLinkFlushed_steady ..).after
      (rowLinkHoldExpiry_touches ..).steady)))

theorem pinsOwe_steady (s : State) : Steady s (pinsOwe s) :=
  .forEach (fun _ _ => (rowTimeOutPulse_steady ..).after (rowTimeOutPulseEnd_touches ..).steady)
    (.forEach (fun _ _ => (rowTbValid_steady ..)) .refl)

theorem homeOwes_steady (p : Nat) (s : State) : Steady s (homeOwes p s) :=
  .ite (rowHomeBeat_steady ..) .refl

theorem engineOwes_steady (c e : Nat) (s : State) : Steady s (engineOwes c e s) := by
  unfold engineOwes
  extract_lets s₁
  refine .trans (t := s₁) ((rowIdleOverrun_steady ..).after
    ((rowEngineBudgetTrap_steady ..).after (rowMicrowordIssue_steady ..))) ?_
  exact .ite .refl (rowIdleStepPublish_steady ..)

theorem clusterOwes_steady (c : Nat) (s : State) : Steady s (clusterOwes c s) :=
  (rowResequencerRelease_touches ..).steady.after (.forEach (fun _ _ => (engineOwes_steady ..))
    (rowIdleStepStart_touches ..).steady)

theorem carouselOwes_steady (p : Nat) (s : State) : Steady s (carouselOwes p s) :=
  (rowEwrite_steady ..).after ((rowTscrub_steady ..).after (rowTwrite_steady ..))

theorem macOwes_steady (n : Nat) (s : State) : Steady s (macOwes n s) :=
  (rowFrameTransmitStart_steady ..).after ((rowFlowControlRepeat_steady ..).after
    ((rowFlowControlFrameSend_steady ..).after (rowFrameTransmitEnd_steady ..)))

theorem framesOwe_steady (s : State) : Steady s (framesOwe s) :=
  .forEach (fun _ _ => (rowEgressEntry_steady ..))
    ((judgePipes_touches ..).steady.after ((passOneBeat_steady ..).after
    (.forEach (fun _ _ => (rowVerifyResult_steady ..)) .refl)))

theorem pipeOwes_steady (p : Nat) (s : State) : Steady s (pipeOwes p s) :=
  .ite ((rowPipeReset_steady ..).after (.ite (rowPipePower_steady ..) .refl))
    (.ite (rowPipePower_steady ..) .refl)

theorem versionsOwe_steady (s : State) : Steady s (versionsOwe s) :=
  .forEach (fun _ _ => (rowSlotReserve_steady ..))
    (.forEach (fun _ _ => (rowSlotRetire_steady ..)) .refl)

theorem owedWork_steady (s : State) : Steady s (owedWork s) :=
  (versionsOwe_steady ..).after ((rekeyAll_steady ..).after
    (.forEach (fun _ _ => (ringOwes_touches ..).steady) (.forEach (fun _ _ => (rowArbiterRound_touches ..).steady)
    (.forEach (fun _ _ => (rowArbiterGrantCut_touches ..).steady)
    ((finishCode_touches ..).steady.after ((hostAccesses_steady ..).after
    ((fetchCmd_steady ..).after ((dropClosed_steady ..).after
    (.forEach (fun _ _ => (rowSampleFormatTimeout_touches ..).steady)
    ((makeSamples_touches ..).steady.after (.forEach (fun _ _ => (macOwes_steady ..))
    (.forEach (fun _ _ => (carouselOwes_steady ..)) ((framesOwe_steady ..).after
    (.forEach (fun _ _ => (enterVerifies_touches ..).steady)
    (.forEach (fun _ _ => (clusterOwes_steady ..)) (.forEach (fun _ _ => (homeOwes_steady ..).after
    ((rowHoldingQueueRelease_touches ..).steady.after (pipeOwes_steady ..)))
    ((pinsOwe_steady ..).after (.forEach (fun _ _ => (portOwes_steady ..)) .refl))))))))))))))))))

theorem freezeCluster_steady (s : State) (c : Nat) : Steady s (freezeCluster s c) := by
  unfold freezeCluster
  split
  · exact trapCluster_steady ..

theorem applyDeferred_steady (s : State) (d : Deferred) : Steady s (applyDeferred s d) :=
  .ite (applyKey_touches ..).steady (.ite (.ite (freezeCluster_steady ..)
    (releaseCluster_steady ..)) (.ite ((applySaRow_touches ..).steady.after (putDig_touches ..).steady)
    (.ite ((applyIecRow_touches ..).steady.after (putDig_touches ..).steady)
    (.ite ((fillPolicer_touches ..).steady.after (putDig_touches ..).steady) (putDig_touches ..).steady))))

theorem applyWrites_steady (s : State) (old : Nat) : Steady s (applyWrites s old) :=
  .foldl (fun _ _ => (applyDeferred_steady ..)) .update

theorem pushBound_steady (s : State) (j : Nat) : Steady s (pushBound s j) :=
  .update

theorem tickWork_steady (s : State) : Steady s (tickWork s) := by
  unfold tickWork
  extract_lets told todo s₁ _ _
  exact .set (t := s₁) (.ite (copyCounters_touches ..).steady .refl)

theorem markDone_steady (s : State) : Steady s (markDone s) :=
  .update

theorem deferOnce_steady (s : State) (q : Sealed) (cause : Nat) : Steady s (deferOnce s q cause) :=
  .ite .refl ((raiseEv_steady ..).after .update)

theorem deferVersions_steady (s : State) (taken : Option Sealed) : Steady s (deferVersions s taken) :=
  .foldl (fun _ _ => .foldl (fun _ _ => (deferOnce_steady ..)) .refl) .refl

theorem takeVersion_steady (s : State) : Steady s (takeVersion s) := by
  unfold takeVersion
  split
  · exact (deferVersions_steady ..).after .update
  · exact (compareDigest_steady ..).after (deferVersions_steady ..)

theorem flushAll_steady (s : State) : Steady s (flushAll s) :=
  .foldl (fun _ _ => (flushOne_steady ..)) .refl

/-! ## Boundaries, SOFT resets and beats

A boundary numbers its tick, a SOFT reset begins with version 0, and a beat advances the counter; the rest of each is
steady. -/

theorem Steady.good {s t : State} (h : Steady s t) (g : Good s) : Good t where
  slots := h.slots.trans g.slots
  log := h.log g.log
  events := h.events g.events
  beat := h.beat ▸ g.beat
  tick := h.tick ▸ g.tick
  memory := h.memory g.memory

/-- From s to t the bounds are kept, and the beat counter stays. -/
def Bounded (s t : State) : Prop := (Good s → Good t) ∧ t.beat = s.beat

theorem Steady.bounded {s t : State} (h : Steady s t) : Bounded s t := ⟨h.good, h.beat⟩

namespace Bounded

variable {s t u : State}

theorem refl : Bounded s s := Steady.refl.bounded

theorem trans (h : Bounded s t) (k : Bounded t u) : Bounded s u := ⟨k.1 ∘ h.1, k.2.trans h.2⟩

theorem ite {c : Prop} [Decidable c] (h : Bounded s t) (k : Bounded s u) : Bounded s (if c then t else u) := by
  split
  · exact h
  · exact k

theorem whenRun {f : State → State} (h : Bounded s t) (k : Bounded s (f t)) : Bounded s (whenRun t f) :=
  .ite k h

theorem guardS {c : Bool} {f : State → State} (h : Bounded s t) (k : Bounded s (f t)) : Bounded s (guardS c t f) :=
  .ite k h

end Bounded

/-! ### TICK_BOUNDARY -/

/-- The tick is numbered once; what goes before and what follows is steady. -/
theorem boundaryAs_numbers (s : State) (number : Nat) :
    ∃ u, Steady s u ∧ Steady (nextTick u number) (boundaryAs s number) := by
  refine ⟨markDone (judgePipes s), (markDone_steady ..).after (judgePipes_touches ..).steady, ?_⟩
  unfold boundaryAs
  extract_lets old j s₁ s₂ s₃
  have hs₁ : Steady (nextTick (markDone (judgePipes s)) number) s₁ :=
    (passBoundary_steady ..).after (settleTbs_touches ..).steady
  have hs₂ : Steady s₁ s₂ := (countLegacy_touches ..).steady.after ((returnUnits_touches ..).steady.after
    ((applyWrites_steady ..).after (windowCmds_touches ..).steady))
  have hs₃ : Steady s₂ s₃ := (pushBound_steady ..).after (digVer_touches ..).steady
  exact (takeVersion_steady ..).after ((tickWork_steady ..).after ((startFuses_steady ..).after
    ((powerBoundary_steady ..).after (hs₃.after (hs₂.after hs₁)))))

/-- A boundary keeps the bounds, and begins the tick of its number at its beat. -/
theorem boundaryAs_ticks (s : State) (number : Nat) :
    Bounded s (boundaryAs s number) ∧ (boundaryAs s number).rm.tick = number % 2 ^ 64 ∧
      (boundaryAs s number).rm.boundaryBeat = s.beat ∧
      (boundaryAs s number).rm.beatsLast = s.beat - s.rm.boundaryBeat ∧
      (boundaryAs s number).sys.soft = s.sys.soft := by
  obtain ⟨u, hu, ht⟩ := boundaryAs_numbers s number
  refine ⟨⟨fun g => ?_, ht.beat.trans hu.beat⟩, ht.tick, ?_, ?_, ht.soft.trans hu.soft⟩
  · have gu := hu.good g
    exact ht.good { gu with tick := Nat.mod_lt _ (by decide) }
  · exact ht.boundaryBeat.trans hu.beat
  · rw [ht.beatsLast, nextTick, hu.beat, hu.boundaryBeat]

theorem tickBoundary_bounded (s : State) : Bounded s (tickBoundary s) := (boundaryAs_ticks ..).1

/-- The boundary of this beat runs, when no SOFT reset is under way (R61). -/
theorem exec_tickBoundary {s : State} (run : s.sys.run = .running) (isDue : boundaryDue s = true)
    (noSoft : s.sys.soft = false) : exec .tickBoundary s = .next (tickBoundary s) := by
  show Host.Outcome.next (rowTickBoundary s) = _
  simp [rowTickBoundary, whenRun_running run, boundaryFirst, lastRestart, mayRestart, noSoft, isDue]

/-- Settles O8: nothing of the boundary but its first step numbers the tick. -/
theorem tickBoundaryNumbersTheTick : Obligations.TickBoundaryNumbersTheTick := by
  intro s run isDue noSoft
  rw [exec_tickBoundary run isDue noSoft, tickBoundary]
  obtain ⟨bounded, tick, boundaryBeat, beatsLast, -⟩ := boundaryAs_ticks s (s.rm.tick + 1)
  exact ⟨_, rfl, tick, boundaryBeat, beatsLast, bounded.2⟩

/-! ### SOFT_RESET and SOFT_RESET_DONE -/

/-- What the pipes and their shards lose leaves the memories in their form (R602). -/
theorem softPipes_steady (s : State) : Steady s (softPipes s) := by
  unfold softPipes
  extract_lets _ s₁
  have hs₁ : Steady s s₁ := .setMemory fun h => softMemory_wf h
  exact .foldl (fun _ _ => (modPipe_touches ..).steady.after ((dropRequests_touches ..).steady.after
    ((fillPolicers_touches ..).steady.after (clearPipe_touches ..).steady))) hs₁

theorem softVersions_bounded (s : State) : Bounded s (softVersions s) := by
  unfold softVersions
  extract_lets s₁ m r y
  have hs₁ : Steady s s₁ := (clearStaging_touches ..).steady
  clear_value s₁
  exact hs₁.bounded.trans ⟨fun g => { g with slots := rfl }, rfl⟩

theorem softReset_bounded (s : State) : Bounded s (softReset s) := by
  unfold softReset
  extract_lets s₁ s₂ s₃ s₄ s₅
  have hs₁ : Steady s s₁ := (activate_touches ..).steady.after (values_touches ..).steady
  have hs₂ : Bounded s₁ s₂ :=
    (softDiscard_steady ..).bounded.trans ((softVersions_bounded ..).trans (softPipes_steady ..).bounded)
  have hs₅ : Steady s₂ s₅ := .foldl (fun _ _ => (modPort_touches ..).steady) (.foldl
    (fun _ _ => (startTests_touches ..).steady) ((clearSoftCounters_touches ..).steady.after (forget_touches ..).steady))
  have all := (hs₁.bounded.trans hs₂).trans hs₅.bounded
  clear_value s₅
  exact all.trans ⟨fun g => { g with }, rfl⟩

theorem renumber_steady (s : State) (first : Nat) : Steady s (renumber s first) := by
  unfold renumber
  extract_lets s₁
  have hs₁ : Steady s s₁ := .foldl (fun _ _ => (modPipe_touches ..).steady) .refl
  clear_value s₁
  exact hs₁.set

/-- SOFT_RESET_DONE keeps the bounds, and tick 0 begins (R603). -/
theorem zeroBoundary_restarts (s : State) :
    Bounded s (zeroBoundary s) ∧ (zeroBoundary s).rm.tick = 0 ∧ (zeroBoundary s).sys.soft = false := by
  have told (u : State) (r : Ringmaster) (c : Counters) (vs : List Nat) (h₁ : r.tick = u.rm.tick)
      (h₂ : r.boundaryBeat = u.rm.boundaryBeat) (h₃ : r.beatsLast = u.rm.beatsLast) :
      Steady u (raiseEv { u with rm := r, cnt := c } evResetDone 2 vs) :=
    (raiseEv_steady ..).after (.update (by simp only [coreOf, h₁, h₂, h₃]))
  unfold zeroBoundary
  extract_lets y s₁ s₂
  have begins : Bounded s { s with sys := { y with soft := false } } := ⟨fun g => { g with }, rfl⟩
  have hs₁ : Steady { s with sys := { y with soft := false } } s₁ :=
    (renumber_steady ..).after (acceptAgain_touches ..).steady
  have noSoft : s₁.sys.soft = false := hs₁.soft
  have upto : Bounded s s₁ := begins.trans hs₁.bounded
  clear_value s₁
  obtain ⟨bounded, tick, -, -, soft⟩ := boundaryAs_ticks s₁ 0
  have hs₂ : boundaryAs s₁ 0 = s₂ := rfl
  rw [hs₂] at bounded tick soft
  clear_value s₂
  have last := told s₂ { s₂.rm with todo := s₂.rm.todo.filter (· != todoBeacon), bounds := s₂.rm.bounds.take 1 }
    { s₂.cnt with taken := none } [s₂.sys.last % 256] rfl rfl rfl
  exact ⟨(upto.trans bounded).trans last.bounded, last.tick.trans tick, last.soft.trans (soft.trans noSoft)⟩

/-! ### What a beat owes before its commands -/

theorem boundaryFirst_bounded (s : State) : Bounded s (boundaryFirst s) :=
  .ite (zeroBoundary_restarts ..).1 (.ite (tickBoundary_bounded ..) .refl)

theorem pastBoundary_bounded (s : State) : Bounded s (pastBoundary s) :=
  .whenRun .refl (boundaryFirst_bounded ..)

theorem pastCommit_bounded (s : State) : Bounded s (pastCommit s) :=
  .whenRun (pastBoundary_bounded ..) ((pastBoundary_bounded ..).trans (commitDueVersion_steady ..).bounded)

theorem dueSoft_bounded (s : State) : Bounded s (dueSoft s) := by
  unfold dueSoft
  split
  · exact .ite (softReset_bounded ..) .refl
  · exact .refl

theorem pastSoft_bounded (s : State) : Bounded s (pastSoft s) :=
  .whenRun (pastCommit_bounded ..) ((pastCommit_bounded ..).trans (dueSoft_bounded ..))

theorem duePipes_steady (s : State) : Steady s (duePipes s) :=
  .foldl (fun _ _ => .ite (pipeResetStart_steady ..) .refl) .refl

theorem settled_bounded (s : State) : Bounded s (settled s) :=
  .whenRun (pastSoft_bounded ..) ((pastSoft_bounded ..).trans (duePipes_steady ..).bounded)

/-- What comes before a command in its beat keeps the bounds. -/
theorem actsOn_bounded (c : Instr) (s : State) : Bounded s (actsOn c s) := by
  unfold actsOn
  split
  case h_9 => exact pastBoundary_bounded ..
  case h_10 => exact pastCommit_bounded ..
  case h_11 => exact pastSoft_bounded ..
  case h_12 => exact settled_bounded ..
  all_goals exact .refl

/-! ### CHIP and POWER resets -/

theorem cleared_good {s : State} {y : Sys} (log : y.log.length ≤ 64) (events : y.evq.length ≤ 1024) :
    Good (cleared s y) where
  slots := rfl
  log := log
  events := events
  beat := Nat.two_pow_pos _
  tick := Nat.two_pow_pos _
  memory := reset_memory_wf

theorem powerReset_good (s : State) (cause : Nat) : Good (powerReset s cause) :=
  cleared_good (Nat.zero_le _) (Nat.zero_le _)

/-- A CHIP reset keeps the log (R602). -/
theorem chipReset_good {s : State} (g : Good s) (cause : Nat) (run : RunState) : Good (chipReset s cause run) :=
  cleared_good g.log (Nat.zero_le _)

/-! ### BEAT -/

/-- What the end of a beat does is steady after its boundary. -/
theorem endOfBeat_steady (s : State) : Steady (settled s) (endOfBeat s) := by
  unfold endOfBeat
  extract_lets s₁ sessions
  exact .forEach (fun _ _ => (rowSessionIdleExpiry_touches ..).steady)
    ((rowLockExpired_steady ..).after (.forEach (fun _ _ => rowObjectNotify_steady ..)
    ((rowIdleExportTask_steady ..).after ((rowCounterDump_touches ..).steady.after
    ((rowEtwenBeacon_steady ..).after (.whenRun .refl
    ((servePools_steady ..).after (owedWork_steady ..))))))))

/-- The counter advances, modulo its width (R50), and what held for the beat that ends is dropped. -/
def advanced (s : State) : State :=
  { s with beat := (s.beat + 1) % 2 ^ 64, held := [], mem := { s.mem with oldUnits := [], oldExact := [] } }

theorem advanced_good {s : State} (g : Good s) : Good (advanced s) :=
  { g with beat := Nat.mod_lt _ (by decide) }

/-- The start of a beat advances the counter once; the rest is steady. -/
theorem startOfBeat_steady (s : State) : Steady (advanced s) (startOfBeat s) := by
  unfold startOfBeat
  extract_lets pins _ s₁ s₂
  have hs₁ : Steady (advanced s) s₁ := runSoon_steady ..
  exact (scanArbs_touches ..).steady.after ((sendNotifies_touches ..).steady.after
    ((buildBeacons_touches ..).steady.after ((issueWaiting_touches ..).steady.after
    ((clustersBegin_touches ..).steady.after ((passEarly_steady ..).after
    ((gainAll_touches ..).steady.after (.foldl (fun _ _ => realignWritten_steady ..)
    ((advanceAll_steady ..).after ((cellsSent_touches ..).steady.after
    ((cellsArrive_steady ..).after ((giveReturned_touches ..).steady.after hs₁)))))))))))

/-- The counts and flow control of a beat that ends. -/
theorem beatCounts_steady (s : State) : Steady s (beatCounts (flushAll (queueFlows (evalAllX s)))) :=
  (beatCounts_touches ..).steady.after ((flushAll_steady ..).after ((queueFlows_touches ..).steady.after
    (evalAllX_touches ..).steady))

/-- A beat: its end, the counter's advance, and the start of the next; then a CHIP reset that is due (R50, R601). -/
theorem passBeat_cases (s : State) :
    passBeat s = endOfBeat s ∧ (endOfBeat s).sys.run ≠ .running ∨
      (endOfBeat s).sys.run = .running ∧ ∃ u v, Steady (settled s) u ∧ Steady (advanced u) v ∧
        passBeat s = if chipDue v then chipReset v 4 .inReset else v := by
  by_cases run : (endOfBeat s).sys.run = .running
  · refine .inr ⟨run, _, _, (beatCounts_steady _).after (endOfBeat_steady s), startOfBeat_steady _, ?_⟩
    rw [passBeat, whenRun_running run]
  · exact .inl ⟨by rw [passBeat, whenRun_stopped run], run⟩

theorem passBeat_good {s : State} (g : Good s) : Good (passBeat s) := by
  have g := (settled_bounded s).1 g
  rcases passBeat_cases s with ⟨e, -⟩ | ⟨-, u, v, hu, hv, e⟩
  · rw [e]
    exact (endOfBeat_steady s).good g
  · rw [e]
    have gv := hv.good (advanced_good (hu.good g))
    split
    · exact chipReset_good gv ..
    · exact gv

theorem exec_beat {s : State} (running : Running s) : exec .beat s = .next (passBeat s) := by
  show Host.Outcome.next (rowBeat (settled s)) = _
  rw [running.2, rowBeat, whenRun_running running.1]

/-- A CHIP reset that is first asked for in a beat is not due as the beat ends. -/
theorem chipAt_of_passed {s u v : State} (hu : Steady s u) (hv : Steady (advanced u) v) :
    v.beat = (s.beat + 1) % 2 ^ 64 ∧
      (s.sys.chipAt = none → chipDue v = false) ∧ ∀ b, s.sys.chipAt = some b → v.sys.chipAt = some b := by
  have beat : v.beat = (s.beat + 1) % 2 ^ 64 := by rw [hv.beat, advanced, hu.beat]
  have chipAt := hv.chipAt
  change v.sys.chipAt = u.sys.chipAt ∨ u.sys.chipAt = none ∧ v.sys.chipAt = some ((u.beat + 1) % 2 ^ 64) at chipAt
  rw [hu.beat] at chipAt
  refine ⟨beat, fun idle => ?_, fun b waits => ?_⟩
  · have early (b : Nat) (h : b = s.beat ∨ b = (s.beat + 1) % 2 ^ 64) : due v (b + 10000) = false := by
      simp only [due, beat, decide_eq_false_iff_not]
      omega
    have := hu.chipAt
    unfold chipDue
    rcases hu.chipAt with h | ⟨-, h⟩ <;> rcases chipAt with k | ⟨-, k⟩ <;> rw [k]
    · simp [h, idle]
    · exact early _ (.inr rfl)
    · simpa [h] using early _ (.inl rfl)
    · exact early _ (.inr rfl)
  · rcases hu.chipAt with h | ⟨h, -⟩ <;> rcases chipAt with k | ⟨k, -⟩ <;> simp_all

theorem chipReset_last (s : State) (cause : Nat) (h : cause < 256) :
    (chipReset s cause .inReset).sys.last % 2 ^ 16 = 256 + cause := by
  show (b2n (s.sys.run == .frozen) * 2 ^ 16 + 1 * 256 + cause) % 2 ^ 16 = _
  omega

/-- Settles O7: the counter advances once in a beat, and a CHIP reset that waited is the only one that can be due. -/
theorem beatAdvances : Obligations.BeatAdvances := by
  refine ⟨fun s running run idle => ?_, fun s b running run waits small isDue => ?_, fun s running stops => ?_⟩
  all_goals
    rw [exec_beat running]
    have passed := passBeat_cases s
  · obtain ⟨-, off⟩ | ⟨-, u, v, hu, hv, e⟩ := passed
    · exact absurd run off
    rw [running.2] at hu
    obtain ⟨beat, quiet, -⟩ := chipAt_of_passed hu hv
    exact ⟨_, rfl, by simp only [e, quiet idle, Bool.false_eq_true, if_false, beat]⟩
  · obtain ⟨-, off⟩ | ⟨-, u, v, hu, hv, e⟩ := passed
    · exact absurd run off
    rw [running.2] at hu
    obtain ⟨beat, -, kept⟩ := chipAt_of_passed hu hv
    have resets : chipDue v = true := by
      simp only [chipDue, kept b waits, due, beat, decide_eq_true_eq]
      omega
    rw [e, if_pos resets]
    exact ⟨_, rfl, rfl, rfl, chipReset_last v 4 (by decide)⟩
  · obtain ⟨e, -⟩ | ⟨run, -⟩ := passed
    · rw [e]
    · exact absurd run stops

/-! ### Every step -/

theorem rowSupplyReset_good {s : State} (g : Good s) (mon mv : Nat) : Good (rowSupplyReset mon mv s) := by
  unfold rowSupplyReset guardS
  split
  · beta_reduce
    extract_lets s₁ s₂
    have hs₂ : Steady s s₂ := (postEvent_steady ..).after (supplyFalls_steady ..)
    exact chipReset_good (hs₂.good g) ..
  · exact g

theorem rowSoftReset_bounded (s : State) : Bounded s (rowSoftReset s) := by
  refine .whenRun .refl ?_
  split
  · exact .guardS .refl (softReset_bounded ..)
  · exact .refl

theorem rowSoftResetDone_bounded (s : State) : Bounded s (rowSoftResetDone s) :=
  .whenRun .refl (.guardS .refl (zeroBoundary_restarts ..).1)

/-- The commands of the resets and boundaries, which no frame makes steady. -/
def restarts : Instr → Bool
  | .porNAssert .. | .resetNAssert | .supplyReset .. | .softReset | .softResetDone | .tickBoundary | .beat => true
  | _ => false

/-- The resets and the boundaries keep the bounds. -/
theorem exec_restart_good {c : Instr} (hc : restarts c = true) {s : State} (g : Good s) :
    ∃ t, exec c s = .next t ∧ Good t := by
  cases c
  case porNAssert => exact ⟨_, rfl, powerReset_good ..⟩
  case resetNAssert =>
    refine ⟨_, rfl, ?_⟩
    unfold rowResetNAssert
    split
    · exact g
    · exact chipReset_good g ..
  case supplyReset =>
    exact ⟨_, rfl, rowSupplyReset_good g ..⟩
  case softReset =>
    exact ⟨_, rfl, (rowSoftReset_bounded _).1 ((pastCommit_bounded s).1 g)⟩
  case softResetDone => exact ⟨_, rfl, (rowSoftResetDone_bounded s).1 g⟩
  case tickBoundary => exact ⟨_, rfl, (pastBoundary_bounded s).1 g⟩
  case beat =>
    refine ⟨_, rfl, ?_⟩
    have g := (settled_bounded s).1 g
    unfold rowBeat whenRun
    split
    · exact passBeat_good g
    · exact g
  all_goals cases hc

/-- Every other command is steady, by its frame or by what its row does. -/
theorem exec_steady {c : Instr} (hc : restarts c = false) (s : State) :
    ∃ t, exec c s = .next t ∧ Steady (actsOn c s) t := by
  cases spares : sparesCore (mayTouch c) with
  | true =>
    obtain ⟨t, ht, touched⟩ := exec_touches c s
    exact ⟨t, ht, touched.steady spares⟩
  | false =>
  cases c
  case boot => exact ⟨_, rfl, rowBoot_steady ..⟩
  case resetBootImageWrite => exact ⟨_, rfl, rowResetBootImageWrite_steady ..⟩
  case resetCmdChip => exact ⟨_, rfl, rowResetCmdChip_steady ..⟩
  case resetCmdSoft => exact ⟨_, rfl, rowResetCmdSoft_steady ..⟩
  case resetCmdPipe => exact ⟨_, rfl, rowResetCmdPipe_steady ..⟩
  case resetCmdPort => exact ⟨_, rfl, rowResetCmdPort_steady ..⟩
  case pipeResetStart => exact ⟨_, rfl, rowPipeResetStart_steady ..⟩
  case pipeReset => exact ⟨_, rfl, rowPipeReset_steady ..⟩
  case functionReset => exact ⟨_, rfl, rowFunctionReset_steady ..⟩
  case supplyWarn => exact ⟨_, rfl, rowSupplyWarn_steady ..⟩
  case supplyDip => exact ⟨_, rfl, rowSupplyDip_steady ..⟩
  case supplyOk => exact ⟨_, rfl, rowSupplyOk_steady ..⟩
  case supplyResetRelease => exact ⟨_, rfl, rowSupplyResetRelease_steady ..⟩
  case freeze => exact ⟨_, rfl, rowFreeze_steady ..⟩
  case debugFreeze => exact ⟨_, rfl, rowDebugFreeze_steady ..⟩
  case versionCommit => exact ⟨_, rfl, rowVersionCommit_steady ..⟩
  case slotReserve => exact ⟨_, rfl, rowSlotReserve_steady ..⟩
  case slotRetire => exact ⟨_, rfl, rowSlotRetire_steady ..⟩
  case etwenBeacon => exact ⟨_, rfl, rowEtwenBeacon_steady ..⟩
  case dumpRecordWrite => exact ⟨_, rfl, rowDumpRecordWrite_steady ..⟩
  case objectNotify => exact ⟨_, rfl, rowObjectNotify_steady ..⟩
  case templateSetSend => exact ⟨_, rfl, rowTemplateSetSend_steady ..⟩
  case idleExportTask => exact ⟨_, rfl, rowIdleExportTask_steady ..⟩
  case homeBeat => exact ⟨_, rfl, rowHomeBeat_steady ..⟩
  case hbmReadLand => exact ⟨_, rfl, rowHbmReadLand_steady ..⟩
  case microwordIssue => exact ⟨_, rfl, rowMicrowordIssue_steady ..⟩
  case engineBudgetTrap => exact ⟨_, rfl, rowEngineBudgetTrap_steady ..⟩
  case verifyResult => exact ⟨_, rfl, rowVerifyResult_steady ..⟩
  case idleStepPublish => exact ⟨_, rfl, rowIdleStepPublish_steady ..⟩
  case idleOverrun => exact ⟨_, rfl, rowIdleOverrun_steady ..⟩
  case packetCommit => exact ⟨_, rfl, rowPacketCommit_steady ..⟩
  case ageCommit => exact ⟨_, rfl, rowAgeCommit_steady ..⟩
  case relocMoveCommit => exact ⟨_, rfl, rowRelocMoveCommit_steady ..⟩
  case dscrubCommit => exact ⟨_, rfl, rowDscrubCommit_steady ..⟩
  case hcmdInsert => exact ⟨_, rfl, rowHcmdInsert_steady ..⟩
  case hcmdDelete => exact ⟨_, rfl, rowHcmdDelete_steady ..⟩
  case hcmdModify => exact ⟨_, rfl, rowHcmdModify_steady ..⟩
  case hcmdRead => exact ⟨_, rfl, rowHcmdRead_steady ..⟩
  case hcmdRejected => exact ⟨_, rfl, rowHcmdRejected_steady ..⟩
  case twrite => exact ⟨_, rfl, rowTwrite_steady ..⟩
  case tscrub => exact ⟨_, rfl, rowTscrub_steady ..⟩
  case ewrite => exact ⟨_, rfl, rowEwrite_steady ..⟩
  case frameIngress => exact ⟨_, rfl, rowFrameIngress_steady ..⟩
  case frameTail => exact ⟨_, rfl, rowFrameTail_steady ..⟩
  case egressEntry => exact ⟨_, rfl, rowEgressEntry_steady ..⟩
  case frameTransmitStart => exact ⟨_, rfl, rowFrameTransmitStart_steady ..⟩
  case frameTransmitEnd => exact ⟨_, rfl, rowFrameTransmitEnd_steady ..⟩
  case copyDeliver => exact ⟨_, rfl, rowCopyDeliver_steady ..⟩
  case exportMessageSend => exact ⟨_, rfl, rowExportMessageSend_steady ..⟩
  case flowControlFrameSend => exact ⟨_, rfl, rowFlowControlFrameSend_steady ..⟩
  case flowControlRepeat => exact ⟨_, rfl, rowFlowControlRepeat_steady ..⟩
  case linkFlushed => exact ⟨_, rfl, rowLinkFlushed_steady ..⟩
  case gateListStarted => exact ⟨_, rfl, rowGateListStarted_steady ..⟩
  case portDisable => exact ⟨_, rfl, rowPortDisable_steady ..⟩
  case trainingTimeout => exact ⟨_, rfl, rowTrainingTimeout_steady ..⟩
  case linkUp => exact ⟨_, rfl, rowLinkUp_steady ..⟩
  case lockTimeout => exact ⟨_, rfl, rowLockTimeout_steady ..⟩
  case linkDown => exact ⟨_, rfl, rowLinkDown_steady ..⟩
  case linkHiBer => exact ⟨_, rfl, rowLinkHiBer_steady ..⟩
  case linkFaultClear => exact ⟨_, rfl, rowLinkFaultClear_steady ..⟩
  case serRefclkLost => exact ⟨_, rfl, rowSerRefclkLost_steady ..⟩
  case laneSearchEnter => exact ⟨_, rfl, rowLaneSearchEnter_steady ..⟩
  case laneSearchWindowEnd => exact ⟨_, rfl, rowLaneSearchWindowEnd_steady ..⟩
  case lanePowerDeep => exact ⟨_, rfl, rowLanePowerDeep_steady ..⟩
  case lanePowerOff => exact ⟨_, rfl, rowLanePowerOff_steady ..⟩
  case lanePowerActive => exact ⟨_, rfl, rowLanePowerActive_steady ..⟩
  case macsecRxFrame => exact ⟨_, rfl, rowMacsecRxFrame_steady ..⟩
  case macsecRxDeliver => exact ⟨_, rfl, rowMacsecRxDeliver_steady ..⟩
  case entropyHealthFail => exact ⟨_, rfl, rowEntropyHealthFail_steady ..⟩
  case cipherKatDone => exact ⟨_, rfl, rowCipherKatDone_steady ..⟩
  case lookasideJob => exact ⟨_, rfl, rowLookasideJob_steady ..⟩
  case lookasideJobComplete => exact ⟨_, rfl, rowLookasideJobComplete_steady ..⟩
  case tbValid => exact ⟨_, rfl, rowTbValid_steady ..⟩
  case tbDisable => exact ⟨_, rfl, rowTbDisable_steady ..⟩
  case toutConfigWrite => exact ⟨_, rfl, rowToutConfigWrite_steady ..⟩
  case timeOutPulse => exact ⟨_, rfl, rowTimeOutPulse_steady ..⟩
  case timeCapture => exact ⟨_, rfl, rowTimeCapture_steady ..⟩
  case tinAck => exact ⟨_, rfl, rowTinAck_steady ..⟩
  case rxRingDoorbell => exact ⟨_, rfl, rowRxRingDoorbell_steady ..⟩
  case txRingDoorbell => exact ⟨_, rfl, rowTxRingDoorbell_steady ..⟩
  case cmdRingDoorbell => exact ⟨_, rfl, rowCmdRingDoorbell_steady ..⟩
  case completionRingDoorbell => exact ⟨_, rfl, rowCompletionRingDoorbell_steady ..⟩
  case byteRingDoorbell => exact ⟨_, rfl, rowByteRingDoorbell_steady ..⟩
  case txDescriptorFetch => exact ⟨_, rfl, rowTxDescriptorFetch_steady ..⟩
  case txFrameEnter => exact ⟨_, rfl, rowTxFrameEnter_steady ..⟩
  case rxWriteback => exact ⟨_, rfl, rowRxWriteback_steady ..⟩
  case completionWrite => exact ⟨_, rfl, rowCompletionWrite_steady ..⟩
  case eventRecordWrite => exact ⟨_, rfl, rowEventRecordWrite_steady ..⟩
  case dmaReadError => exact ⟨_, rfl, rowDmaReadError_steady ..⟩
  case barWrite => exact ⟨_, rfl, rowBarWrite_steady ..⟩
  case versionCancel => exact ⟨_, rfl, rowVersionCancel_steady ..⟩
  case bankModeWrite => exact ⟨_, rfl, rowBankModeWrite_steady ..⟩
  case engineImageStage => exact ⟨_, rfl, rowEngineImageStage_steady ..⟩
  case imageVerify => exact ⟨_, rfl, rowImageVerify_steady ..⟩
  case engineKeyEnrol => exact ⟨_, rfl, rowEngineKeyEnrol_steady ..⟩
  case engineKeyRevoke => exact ⟨_, rfl, rowEngineKeyRevoke_steady ..⟩
  case mboxInWrite => exact ⟨_, rfl, rowMboxInWrite_steady ..⟩
  case lockExpired => exact ⟨_, rfl, rowLockExpired_steady ..⟩
  case localLock => exact ⟨_, rfl, rowLocalLock_steady ..⟩
  case localUnlock => exact ⟨_, rfl, rowLocalUnlock_steady ..⟩
  case localCommit => exact ⟨_, rfl, rowLocalCommit_steady ..⟩
  case cntFilterChain => exact ⟨_, rfl, rowCntFilterChain_steady ..⟩
  case releasePort => exact ⟨_, rfl, rowReleasePort_steady ..⟩
  case releaseFunction => exact ⟨_, rfl, rowReleaseFunction_steady ..⟩
  case releaseRing => exact ⟨_, rfl, rowReleaseRing_steady ..⟩
  case releaseSession => exact ⟨_, rfl, rowReleaseSession_steady ..⟩
  case releasePoolOwner => exact ⟨_, rfl, rowReleasePoolOwner_steady ..⟩
  case pipePower => exact ⟨_, rfl, rowPipePower_steady ..⟩
  case eventLogAck => exact ⟨_, rfl, rowEventLogAck_steady ..⟩
  case i2cPointerWrite => exact ⟨_, rfl, rowI2cPointerWrite_steady ..⟩
  case i2cRead => exact ⟨_, rfl, rowI2cRead_steady ..⟩
  case objectWrite => exact ⟨_, rfl, rowObjectWrite_steady ..⟩
  case keptCoefficientsLockTimeout => exact ⟨_, rfl, rowKeptCoefficientsLockTimeout_steady ..⟩
  case mabinHello => exact ⟨_, rfl, mabinRow_steady ..⟩
  case mabinHelloRekey => exact ⟨_, rfl, mabinRow_steady ..⟩
  case mabinHelloClose => exact ⟨_, rfl, mabinRow_steady ..⟩
  case mabinRead => exact ⟨_, rfl, mabinRow_steady ..⟩
  case mabinWrite => exact ⟨_, rfl, mabinRow_steady ..⟩
  case mabinStage => exact ⟨_, rfl, mabinRow_steady ..⟩
  case mabinCommit => exact ⟨_, rfl, mabinRow_steady ..⟩
  case mabinLock => exact ⟨_, rfl, mabinRow_steady ..⟩
  case mabinUnlock => exact ⟨_, rfl, mabinRow_steady ..⟩
  case subscribeAddEvents => exact ⟨_, rfl, mabinRow_steady ..⟩
  case subscribeAddObject => exact ⟨_, rfl, mabinRow_steady ..⟩
  case subscribeRemoveAll => exact ⟨_, rfl, mabinRow_steady ..⟩
  case blockRead => exact ⟨_, rfl, mabinRow_steady ..⟩
  case blockWrite => exact ⟨_, rfl, mabinRow_steady ..⟩
  case porNAssert | resetNAssert | supplyReset | softReset | softResetDone | tickBoundary | beat => cases hc
  all_goals cases spares

/-- Settles O55: a command acts on what its boundary leaves, and both keep the bounds. -/
theorem everyStepKeepsTheBounds : Obligations.EveryStepKeepsTheBounds := by
  intro s t g h
  cases waiting : s.pending with
  | nil =>
    rw [step_empty waiting] at h
    exact Host.Outcome.next.inj h ▸ g
  | cons c rest =>
    rw [step_of_pending_eq_cons waiting] at h
    have g : Good { s with pending := rest } := { g with }
    cases hc : restarts c with
    | true =>
      obtain ⟨u, hu, good⟩ := exec_restart_good hc g
      exact Host.Outcome.next.inj (hu.symm.trans h) ▸ good
    | false =>
      obtain ⟨u, hu, steady⟩ := exec_steady hc { s with pending := rest }
      exact Host.Outcome.next.inj (hu.symm.trans h) ▸ steady.good ((actsOn_bounded ..).1 g)

end Sys2Proof.Machine

namespace Sys2Proof.Machine

/-! ## The home clock (O17) -/

theorem Touches.pipeAt {P : List Part} {s t : State} (h : Touches P s t) (p : Nat)
    (hP : among P .pipes = false := by rfl) : pipeAt t p = pipeAt s p := by
  have e : t.pipes = s.pipes := h.rest .pipes hP
  rw [Machine.pipeAt, Machine.pipeAt, e]

/-- Which packet is eligible depends on the packets alone (R65). -/
theorem Touches.eligible {P : List Part} {s t : State} (h : Touches P s t) (p b : Nat)
    (hP : among P .packets = false := by rfl) : eligible t p b = eligible s p b := by
  obtain ⟨pkts, -⟩ := h.rest .packets hP
  simp only [Machine.eligible, flowWaiting, pkts]

/-- A home beat with nothing in it, which nothing holds, runs. -/
theorem homeTry_of_empty {s : State} {p h : Nat} (u : Option (Nat × Ecc)) (flows : slipping s p h = false)
    (merges : mergeHeld s p h = false) (empty : emptyBeat s p h = true) : ∃ t, homeTry s p h u = .ok t := by
  simp only [emptyBeat, Bool.and_eq_true, Bool.not_eq_true', Option.isNone_iff_eq_none] at empty
  obtain ⟨⟨plain, none⟩, idle⟩ := empty
  have still (f : Pipe → Pipe) : eligible (modPipe (count s (cPipe p 50) 1) p f) p h = Option.none :=
    (((modPipe_touches _ p f).after (P := [.pipes, .counters]) (count_touches ..).within).eligible p h).trans none
  simp only [homeTry, flows, merges, plain, none, idle, still, rebuildLater, Bool.false_eq_true, if_false,
    Option.isSome_none, Bool.and_false, Bool.false_and, if_true, bind, Except.bind]
  exact ⟨_, rfl⟩

theorem homeBeat_of_empty {s : State} {p : Nat} (u : Option (Nat × Ecc)) (flows : slipping s p (pipeAt s p).h = false)
    (merges : mergeHeld s p (pipeAt s p).h = false) (empty : emptyBeat s p (pipeAt s p).h = true) :
    (pipeAt (homeBeat s p u) p).h = (pipeAt s p).h + 1 ∧ (pipeAt (homeBeat s p u) p).lastBeat = s.beat := by
  obtain ⟨t, ran⟩ := homeTry_of_empty u flows merges empty
  simp only [homeBeat, ran, pipeAt_modPipe, and_self]

theorem homeBeat_of_slipping {s : State} {p : Nat} (u : Option (Nat × Ecc))
    (slips : slipping s p (pipeAt s p).h = true) :
    (pipeAt (homeBeat s p u) p).h = (pipeAt s p).h ∧ (pipeAt (homeBeat s p u) p).slip = (pipeAt s p).slip + 1 := by
  have held : homeTry s p (pipeAt s p).h u = .error holdSlip := by simp only [homeTry, slips, if_true]
  have counts (t : State) (n k : Nat) : pipeAt (count t n k) p = pipeAt t p := (count_touches ..).pipeAt p
  simp only [homeBeat, held, holdBeat, pipeAt_modPipe, counts, if_true]
  split <;> simp [counts]

theorem rowHomeBeat_runs {s : State} {p : Nat} (u : Option (Nat × Ecc)) (run : s.sys.run = .running)
    (ready : homeReady s p = true) : rowHomeBeat p u s = homeBeat s p u := by
  rw [rowHomeBeat, whenRun_running run, ready, guardS_true]

/-- Settles O17: an empty home beat runs, and a slip holds the clock. -/
theorem emptyHomeBeatAdvancesTheClock : Obligations.EmptyHomeBeatAdvancesTheClock := by
  refine ⟨fun s p u ⟨run, hs⟩ ready flows merges empty => ?_, fun s p u ⟨run, hs⟩ ready slips => ?_⟩
  all_goals
    refine ⟨_, next_row hs (rowHomeBeat p u), ?_⟩
    rw [rowHomeBeat_runs u run ready]
  · exact homeBeat_of_empty u flows merges empty
  · exact homeBeat_of_slipping u slips

end Sys2Proof.Machine

namespace Sys2Proof.Machine

/-! ## Landings (O20) -/

/-- From s to t pipe p keeps its reads, and numbers none. -/
def SameReads (p : Nat) (s t : State) : Prop :=
  (pipeAt t p).reads = (pipeAt s p).reads ∧ (pipeAt t p).nextRead = (pipeAt s p).nextRead

namespace SameReads

variable {p : Nat} {s t u : State}

theorem refl : SameReads p s s := ⟨rfl, rfl⟩

theorem trans (h : SameReads p s t) (k : SameReads p t u) : SameReads p s u := ⟨k.1.trans h.1, k.2.trans h.2⟩

theorem ite {c : Prop} [Decidable c] (h : SameReads p s t) (k : SameReads p s u) :
    SameReads p s (if c then t else u) := by
  split
  · exact h
  · exact k

theorem modPipe {f : Pipe → Pipe} (h : ∀ k, (f k).reads = k.reads ∧ (f k).nextRead = k.nextRead) :
    SameReads p s (modPipe s p f) := by
  unfold SameReads
  rw [pipeAt_modPipe]
  exact h _

theorem modPos (b : Nat) (f : Pos → Pos) : SameReads p s (modPos s p b f) := .modPipe fun _ => ⟨rfl, rfl⟩

end SameReads

theorem Touches.sameReads {P : List Part} {s t : State} (h : Touches P s t) (p : Nat)
    (hP : among P .pipes = false := by rfl) : SameReads p s t := by
  unfold SameReads
  rw [h.pipeAt p hP]
  exact ⟨rfl, rfl⟩

theorem holdClaim_sameReads (s : State) (p h : Nat) (pl : Place) : SameReads p s (holdClaim s p h pl) := by
  unfold holdClaim
  split
  · exact .refl
  · exact .modPipe fun _ => ⟨rfl, rfl⟩

/-- What a landing makes of its position leaves the reads. -/
theorem judgeRead_sameReads (s : State) (p : Nat) (r : Read) (e : Ecc) : SameReads p s (judgeRead s p r e) := by
  unfold judgeRead
  split
  · exact .refl
  next q _ =>
  extract_lets dbl pl bad fault tested is
  have his (profile : Nat) (key : Bytes) : SameReads p s (is profile key) :=
    .ite (.trans (.modPos ..) (holdClaim_sameReads ..)) .refl
  clear_value tested
  refine .ite .refl ?_
  split
  · exact .ite (.modPos ..) .refl
  refine .ite (.ite (.modPos ..) .refl) (.ite (.modPos ..) (.ite .refl ?_))
  split
  · split
    · exact his ..
    · exact .refl
  · exact .ite (his ..) (.ite (.modPos ..) .refl)
  · exact .refl

theorem holdBeat_sameReads (s : State) (p c : Nat) : SameReads p s (holdBeat s p c) := by
  unfold holdBeat
  extract_lets k s₁ s₂
  have hs₂ : SameReads p s s₂ := ((count_touches ..).after ((count_touches ..).after
    (.ite (count_touches ..) .refl)) : Touches [.counters] s s₂).sameReads p
  exact hs₂.trans (.modPipe fun _ => ⟨rfl, rfl⟩)

theorem endSlip_sameReads (s : State) (p : Nat) : SameReads p s (endSlip s p) := by
  unfold endSlip
  extract_lets k s₁ n s₂
  have hs₂ : SameReads p s s₂ := .trans (.ite .refl (holdBeat_sameReads ..)) (.modPipe fun _ => ⟨rfl, rfl⟩)
  exact .ite .refl (.ite (hs₂.trans ((raiseEv_touches ..).sameReads p)) hs₂)

/-- Read i of pipe p has been asked for, and where it still stands in the list it has landed. -/
def Landed (p i : Nat) (s : State) : Prop :=
  i < (pipeAt s p).nextRead ∧ ∀ x ∈ (pipeAt s p).reads, x.id = i → x.landed = true

section
variable {p i : Nat} {s t : State}

theorem SameReads.landed (h : SameReads p s t) (hs : Landed p i s) : Landed p i t := by
  unfold Landed
  rw [h.1, h.2]
  exact hs

/-- A read that is asked for later has a number of its own. -/
theorem landed_askFrom (h : Landed p i s) (b a n m r f : Nat) : Landed p i (askFrom s p b a n m r f) := by
  obtain ⟨asked, landed⟩ := h
  unfold Landed askFrom
  rw [pipeAt_modPipe]
  refine ⟨Nat.lt_succ_of_lt asked, fun x hx e => ?_⟩
  obtain hx | hx := List.mem_append.mp hx
  · exact landed x hx e
  · rw [List.mem_singleton.mp hx] at e
    exact absurd e asked.ne'

theorem landed_askCandidates (h : Landed p i s) (b n m r f : Nat) : Landed p i (askCandidates s p b n m r f) := by
  unfold askCandidates
  split
  · exact h
  · exact SameReads.landed (.modPos ..) (List.foldlRecOn _ _ h fun _ k _ _ => landed_askFrom k ..)

theorem landed_issueRead (h : Landed p i s) (id : Nat) : Landed p i (issueRead s p id) := by
  unfold issueRead
  split
  · exact h
  extract_lets s₁ s₂ off writes
  have hs₁ : Landed p i s₁ := by
    obtain ⟨asked, landed⟩ := h
    unfold s₁ Landed
    rw [pipeAt_modPipe]
    refine ⟨asked, fun x hx e => ?_⟩
    obtain ⟨y, hy, rfl⟩ := List.mem_map.mp hx
    have e : y.id = i := by split at e <;> exact e
    split <;> exact landed y hy e
  have after {t : State} (k : Touches [.counters] s₁ t) : Landed p i t := (k.sameReads p).landed hs₁
  have hs₂ : Touches [.counters] s₁ s₂ := .ite (count_touches ..) .refl
  exact after (.ite ((filtered_touches ..).after hs₂) ((filtered_touches ..).after hs₂))

theorem landed_issueReads (n : Nat) (h : Landed p i s) : Landed p i (issueReads p n s) := by
  induction n generalizing s with
  | zero => exact h
  | succ n ih =>
    unfold issueReads
    extract_lets k
    split
    · exact h
    split
    · exact h
    · exact ih (landed_issueRead h _)

/-- A landing marks every read of its number, or takes them off the list. -/
theorem landed_landRead {r : Read} (found : (pipeAt s p).reads.find? (fun x => x.id == r.id) = some r)
    (issued : r.issued = true) (out : r.landed = false) (reads : r.requester ≠ writeReq)
    (asked : r.id < (pipeAt s p).nextRead) (e : Ecc) : Landed p r.id (landRead s p r.id e) := by
  unfold landRead
  split
  next none => exact absurd (none.symm.trans found) (by simp)
  next r' found' =>
  obtain rfl : r = r' := Option.some.inj (found.symm.trans found')
  rw [if_neg (by simp [issued, out, reads])]
  extract_lets bad s₁ s₂ s₃ s₄
  have hs₂ : SameReads p s s₂ :=
    (Touches.ite ((count_touches ..).after (.ite (count_touches ..) .refl)) (.ite (count_touches ..) .refl) :
      Touches [.counters] s s₂).sameReads p
  have hs₃ : Landed p r.id s₃ := by
    unfold s₃ Landed
    rw [pipeAt_modPipe]
    refine ⟨hs₂.2 ▸ asked, fun x hx e => ?_⟩
    obtain ⟨y, hy, rfl⟩ := List.mem_map.mp hx
    split at e <;> simp_all
  have hs₄ : Landed p r.id s₄ := (judgeRead_sameReads ..).landed hs₃
  clear_value s₄
  split
  · unfold Landed
    rw [pipeAt_modPipe]
    exact ⟨hs₄.1, fun x hx => hs₄.2 x (List.mem_of_mem_filter hx)⟩
  · split
    · exact landed_askCandidates hs₄ ..
    · exact hs₄

/-- An idle step's access that lands leaves the list. -/
theorem landed_landIdle (asked : i < (pipeAt s p).nextRead) (e : Ecc) : Landed p i (landIdle s p i e) := by
  unfold landIdle
  extract_lets s₁ c s₂
  have hs₁ : SameReads p s s₁ := (Touches.ite (count_touches ..) .refl : Touches [.counters] s s₁).sameReads p
  have hs₂ : Landed p i s₂ := by
    unfold s₂ Landed
    rw [pipeAt_modPipe]
    refine ⟨hs₁.2 ▸ asked, fun x hx e => ?_⟩
    simp [e] at hx
  have offered (u : State) (cl : Nat) (t : Task) (h : Landed p i u) : Landed p i (offerTask u cl t) :=
    ((offerTask_touches ..).sameReads p).landed h
  split
  · exact hs₂
  · split
    · split
      next u b read => exact offered _ _ _ ((((freshBytes_touches ..).fst read).sameReads p).landed hs₂)
    · exact offered _ _ _ hs₂

theorem landed_landAccess {r : Read} (found : (pipeAt s p).reads.find? (fun x => x.id == r.id) = some r)
    (issued : r.issued = true) (out : r.landed = false) (reads : r.requester ≠ writeReq)
    (asked : r.id < (pipeAt s p).nextRead) (e : Ecc) : Landed p r.id (landAccess s p r.id e) := by
  unfold landAccess
  split
  · exact landed_landIdle asked e
  · exact landed_landRead found issued out reads asked e

end

theorem rowHbmReadLand_lands {s : State} {p : Nat} (run : s.sys.run = .running) (live : pipeLive s p = true)
    (i : Nat) (e : Ecc) : rowHbmReadLand p i e s = endSlip (issueReads p 8 (landAccess s p i e)) p := by
  rw [rowHbmReadLand, whenRun_running run, live, guardS_true]

/-! ### Writes -/

/-- From s to t pipe p keeps its cache and as many reads. -/
def SameCache (p : Nat) (s t : State) : Prop :=
  (pipeAt t p).cache = (pipeAt s p).cache ∧ (pipeAt t p).reads.length = (pipeAt s p).reads.length

theorem issueRead_sameCache (s : State) (p id : Nat) : SameCache p s (issueRead s p id) := by
  unfold issueRead
  split
  · exact ⟨rfl, rfl⟩
  extract_lets s₁ s₂ off writes
  have hs₁ : SameCache p s s₁ := by
    unfold s₁ SameCache
    rw [pipeAt_modPipe]
    exact ⟨rfl, List.length_map _⟩
  have after {t : State} (k : Touches [.counters] s₁ t) : SameCache p s t := by
    unfold SameCache
    rw [k.pipeAt p]
    exact hs₁
  have hs₂ : Touches [.counters] s₁ s₂ := .ite (count_touches ..) .refl
  exact after (.ite ((filtered_touches ..).after hs₂) ((filtered_touches ..).after hs₂))

theorem issueReads_sameCache (p n : Nat) (s : State) : SameCache p s (issueReads p n s) := by
  induction n generalizing s with
  | zero => exact ⟨rfl, rfl⟩
  | succ n ih =>
    unfold issueReads
    extract_lets k
    split
    · exact ⟨rfl, rfl⟩
    split
    · exact ⟨rfl, rfl⟩
    · obtain ⟨cache, reads⟩ := issueRead_sameCache s p (_ : Nat)
      obtain ⟨cache', reads'⟩ := ih (issueRead s p _)
      exact ⟨cache'.trans cache, reads'.trans reads⟩

theorem length_ldel {α : Type} {q : α → Bool} {l : List α} (h : l.any q = true) :
    (ldel q l).length + 1 = l.length := by
  induction l with
  | nil => cases h
  | cons a l ih =>
    cases ha : q a with
    | true => simp [ldel, ha]
    | false =>
      rw [List.any_cons, ha, Bool.false_or] at h
      simp [ldel, ha, ih h]

/-- What a write of slot a that lands leaves of the cache: its pin goes with the last write of the record (R231). -/
theorem landWrite_unpins {s : State} {p a : Nat} (out : (pipeAt s p).reads.any (writeOut a) = true) :
    (pipeAt (landWrite s p a) p).reads.length + 1 = (pipeAt s p).reads.length ∧
      if (ldel (writeOut a) (pipeAt s p).reads).any fun x =>
          x.requester == writeReq && x.slot == a && x.area == 0 then
        (pipeAt (landWrite s p a) p).cache = (pipeAt s p).cache
      else ∀ c, c ∈ (pipeAt (landWrite s p a) p).cache → c.slot = a → c.pin ≠ .write := by
  have shorter := length_ldel out
  simp only [landWrite, out, Bool.not_true, Bool.false_eq_true, if_false, pipeAt_modPipe]
  split
  · simp only [pipeAt_modPipe, and_true]
    exact shorter
  · simp only [pipeAt_modPipe]
    refine ⟨shorter, fun c hc slot => ?_⟩
    obtain ⟨x, -, rfl⟩ := List.mem_map.mp hc
    split at slot <;> simp_all

theorem rowHbmWriteLand_lands {s : State} {p : Nat} (run : s.sys.run = .running) (live : pipeLive s p = true)
    (a : Nat) : rowHbmWriteLand p a s = issueReads p 8 (landWrite s p a) := by
  rw [rowHbmWriteLand, whenRun_running run, live, guardS_true]

/-! ### The holding queue -/

theorem mem_of_argMin {α : Type} {f : α → Nat} {l : List α} {a : α} (h : argMin f l = some a) : a ∈ l := by
  induction l generalizing a with
  | nil => cases h
  | cons b l ih =>
    unfold argMin at h
    split at h
    · exact Option.some.inj h ▸ List.mem_cons_self
    next c hc =>
      split at h
      · exact Option.some.inj h ▸ List.mem_cons_of_mem _ (ih hc)
      · exact Option.some.inj h ▸ List.mem_cons_self

theorem mem_lmod_self {α : Type} {q : α → Bool} {f : α → α} {l : List α} {a : α} (h : a ∈ l) (ha : q a = true) :
    ∃ b, q b = true ∧ f b ∈ lmod q f l := by
  induction l with
  | nil => cases h
  | cons b l ih =>
    unfold lmod
    split
    next hb => exact ⟨b, hb, List.mem_cons_self⟩
    next hb =>
      obtain rfl | h := List.mem_cons.mp h
      · exact absurd ha hb
      · obtain ⟨c, hc, mem⟩ := ih h
        exact ⟨c, hc, List.mem_cons_of_mem _ mem⟩

/-- A packet of this number crosses. -/
def crossing (s : State) (i : Nat) : Prop := ∃ x ∈ s.pkts, x.id = i ∧ x.stage = .crossing

/-- A packet that crosses crosses on as others start. -/
theorem crossing_releaseHeld (p n : Nat) {s : State} {i : Nat} (h : crossing s i) : crossing (releaseHeld p n s) i := by
  induction n generalizing s with
  | zero => exact h
  | succ n ih =>
    unfold releaseHeld
    split
    · exact h
    next k _ =>
      refine ih ?_
      obtain ⟨x, mem, id, stage⟩ := h
      obtain same | moved := mem_lmod_of_mem (p := fun y => y.id == k.id)
        (f := fun y => { y with stage := .crossing, due := beatAfter s 20 }) mem
      · exact ⟨x, same, id, stage⟩
      · exact ⟨_, moved, id, rfl⟩

theorem releaseHeld_starts {s : State} {p n : Nat} {k : Pkt} (first : argMin orderKey (mayCross s p) = some k) :
    crossing (releaseHeld p (n + 1) s) k.id := by
  have here : k ∈ s.pkts := List.mem_of_mem_filter (List.mem_of_mem_filter (mem_of_argMin first))
  obtain ⟨b, hb, mem⟩ := mem_lmod_self (q := fun y => y.id == k.id)
    (f := fun y => { y with stage := .crossing, due := beatAfter s 20 }) here (by simp)
  unfold releaseHeld
  simp only [first]
  exact crossing_releaseHeld p n ⟨_, mem, by simpa using hb, rfl⟩

/-- The holding queue starts its earliest vector that has credit (R80). -/
theorem rowHoldingQueueRelease_starts {s : State} {p : Nat} {k : Pkt} (run : s.sys.run = .running)
    (live : pipeLive s p = true) (first : argMin orderKey (mayCross s p) = some k) :
    crossing (rowHoldingQueueRelease p s) k.id := by
  have held : 0 < (heldIn s p).length := List.length_pos_of_mem (List.mem_of_mem_filter (mem_of_argMin first))
  rw [rowHoldingQueueRelease, whenRun_running run, live, guardS_true, ← Nat.succ_pred_eq_of_pos held]
  exact releaseHeld_starts first

/-! ### The resequencer -/

/-- The packet of a number has passed to the commit join. -/
def joined (s : State) (i : Nat) : Prop := ∃ y, pktAt s i = some y ∧ y.flow.joined = true

theorem joined_modPkt {s : State} {i j : Nat} {f : Pkt → Pkt} (h : joined s i) (hid : ∀ k, (f k).id = k.id)
    (hf : ∀ k, k.flow.joined = true → (f k).flow.joined = true) : joined (modPkt s j f) i := by
  obtain ⟨y, hy, join⟩ := h
  by_cases e : i = j
  · subst e
    exact ⟨f y, by rw [pktAt_modPkt fun k hk => (hid k).trans hk, hy, Option.map_some], hf y join⟩
  · exact ⟨y, (pktAt_modPkt_ne (fun k hk => (hid k).trans hk) e).trans hy, join⟩

theorem joined_enterVerify {s : State} {i : Nat} (h : joined s i) (p : Nat) (k : Pkt) :
    joined (enterVerify s p k) i := by
  unfold enterVerify
  split
  · exact h
  · exact joined_modPkt h (fun _ => rfl) fun _ => id

theorem joined_enterVerifies {i : Nat} (p n : Nat) {s : State} (h : joined s i) :
    joined (enterVerifies p n s) i := by
  induction n generalizing s with
  | zero => exact h
  | succ n ih =>
    unfold enterVerifies
    split
    · exact ih (joined_enterVerify h ..)
    · exact h

theorem Touches.clusterAt {P : List Part} {s t : State} (h : Touches P s t) (c : Nat)
    (hP : among P .clusters = false := by rfl) : clusterAt t c = clusterAt s c := by
  have e : t.clusters = s.clusters := h.rest .clusters hP
  rw [Machine.clusterAt, Machine.clusterAt, e]

/-- The oldest entry of a cluster's resequencer leaves it, and its packet passes to the join. -/
def passOldest (s : State) (c id : Nat) (rest : List Nat) : State :=
  modPkt (modCluster s c fun x => { x with reseq := rest, released := some s.beat }) id fun x =>
    { x with flow := { x.flow with joined := true } }

/-- The oldest entry passes when its output is complete, one a beat (R292). -/
theorem releaseOldest_passes {s : State} {c id : Nat} {rest : List Nat} {k : Pkt}
    (oldest : (clusterAt s c).reseq = id :: rest) (there : pktAt s id = some k) (complete : k.flow.complete = true)
    (isDone : k.flow.doneAt ≤ s.beat) (first : (clusterAt s c).released ≠ some s.beat) :
    ∃ n raw, releaseOldest s c = enterVerifies (c / 8) n (requestVerify (passOldest s c id rest) k raw) := by
  unfold releaseOldest
  simp only [oldest, there, complete, due, isDone, first, decide_true, Bool.not_true, Bool.false_eq_true,
    decide_false, Bool.or_self, if_false]
  exact ⟨_, _, rfl⟩

theorem releaseOldest_joins {s : State} {c id : Nat} {rest : List Nat} {k : Pkt}
    (oldest : (clusterAt s c).reseq = id :: rest) (there : pktAt s id = some k) (complete : k.flow.complete = true)
    (isDone : k.flow.doneAt ≤ s.beat) (first : (clusterAt s c).released ≠ some s.beat) :
    (clusterAt (releaseOldest s c) c).reseq = rest ∧ (clusterAt (releaseOldest s c) c).released = some s.beat ∧
      joined (releaseOldest s c) id := by
  obtain ⟨n, raw, passes⟩ := releaseOldest_passes oldest there complete isDone first
  have verifies : Touches [.packets, .pipes]
      (modCluster s c fun x => { x with reseq := rest, released := some s.beat }) (releaseOldest s c) := by
    rw [passes]
    exact (enterVerifies_touches ..).after ((requestVerify_touches ..).after (modPkt_touches ..).within)
  rw [verifies.clusterAt c, clusterAt_modCluster, passes]
  refine ⟨rfl, rfl, joined_enterVerifies _ _ ?_⟩
  have passed : joined (passOldest s c id rest) id := by
    refine ⟨{ k with flow := { k.flow with joined := true } }, ?_, rfl⟩
    rw [passOldest, pktAt_modPkt, (modCluster_touches ..).pktAt, there, Option.map_some]
    exact fun _ e => e
  unfold requestVerify
  split
  · exact passed
  · exact joined_modPkt passed (fun _ => rfl) fun _ h => h

theorem rowResequencerRelease_releases {s : State} {c : Nat} (run : s.sys.run = .running)
    (rotates : inRotation s c = true) (live : pipeLive s (c / 8) = true) :
    rowResequencerRelease c s = releaseOldest s c := by
  simp only [rowResequencerRelease, whenRun_running run, rotates, live, Bool.and_self, guardS_true]

/-- Settles O20, by the work of each of the four rows. -/
theorem landingsAndReleases : Obligations.LandingsAndReleases := by
  refine ⟨?_, ?_, ?_, ?_⟩
  · intro s p e r ⟨run, hs⟩ live found issued out _ reads asked
    refine ⟨_, next_row hs (rowHbmReadLand p r.id e), ?_⟩
    rw [rowHbmReadLand_lands run live]
    obtain ⟨-, landed⟩ := (endSlip_sameReads ..).landed
      (landed_issueReads 8 (landed_landAccess found issued out reads asked e))
    exact landed
  · intro s p a ⟨run, hs⟩ live out
    refine ⟨_, next_row hs (rowHbmWriteLand p a), ?_⟩
    obtain ⟨cache, reads⟩ := issueReads_sameCache p 8 (landWrite s p a)
    rw [rowHbmWriteLand_lands run live, cache, reads]
    exact landWrite_unpins out
  · intro s p k ⟨run, hs⟩ live first
    exact ⟨_, next_row hs (rowHoldingQueueRelease p), rowHoldingQueueRelease_starts run live first⟩
  · intro s c id rest k ⟨run, hs⟩ rotates live oldest there complete isDone first
    refine ⟨_, next_row hs (rowResequencerRelease c), ?_⟩
    rw [rowResequencerRelease_releases run rotates live]
    exact releaseOldest_joins oldest there complete isDone first

end Sys2Proof.Machine

namespace Sys2Proof.Machine

/-! ## Reset (O56) -/

theorem reset_good : Good State.reset where
  slots := rfl
  log := by decide
  events := by decide
  beat := Nat.two_pow_pos _
  tick := Nat.two_pow_pos _
  memory := reset_memory_wf

/-- After reset the first boundary is a tick away, and nothing waits for it. -/
theorem reset_calm : calm State.reset = true := by decide

/-- The slots but slot 0 are free (R184). -/
theorem reset_slots : ∀ k, 0 < k → k < 4 → (slotAt State.reset k).state = .free := by
  intro k low high
  interval_cases k <;> rfl

/-- An object that nothing has written reads as its default. -/
theorem stored_of_no_objs {s : State} (h : s.objs = []) (idx sub row : Nat) :
    stored s idx sub row = defaultAt idx sub row := by
  rw [stored, h]
  rfl

/-- Settles O56: the reset state's fields, read one by one. -/
theorem resetMeetsTheBounds : Obligations.ResetMeetsTheBounds :=
  ⟨reset_good, running_of_calm reset_calm, rfl, rfl, rfl, rfl, rfl, reset_slots, rfl, rfl, rfl, rfl,
    fun r => tget_nil Ring.init r, rfl, stored_of_no_objs rfl⟩

end Sys2Proof.Machine

namespace Sys2Proof.Machine

/-! ## Idle steps in the beat of a trap (O21) -/

/-- An image whose one section, of idle entries (7), starts a task of kind 1 at address 0. -/
def idleImage : Bytes :=
  zeros 26 ++ [0, 1] ++ zeros 100 ++ bytesOf 2 7 ++ [0, 0] ++ bytesOf 4 144 ++ bytesOf 4 8
    ++ zeros 4 ++ zeros 8

/-- Version 0 with the image in every cluster. -/
def idleVersion : VerCfg := { VerCfg.zero with images := [{ clusters := 2 ^ 64 - 1, raw := idleImage }] }

/-- A task of kind 1. -/
def idleTask1 : Task := { kind := 1, arg := 0, data := [], copy := none, granted := none }

/-- The reset state with `idleImage` in force and cluster 0 TRAPPED in this very beat, one idle task
waiting: the cluster is in rotation until the beat ends (R312), and no step of it starts any more. -/
def trappedNow : State :=
  modCluster
    { State.reset with ver := { Versions.init with
        slots := Versions.init.slots.set 0 { state := .current, ver := idleVersion } } }
    0 fun k => { k with state := 2, trapBeat := some 0, idleQ := [idleTask1] }

/-- IDLE_STEP_START leaves a cluster that is not in service (state 0) as it is (R296). -/
theorem rowIdleStepStart_of_trapped {s : State} {c : Nat} (h : (clusterAt s c).state ≠ 0) :
    rowIdleStepStart c s = s := by
  simp [rowIdleStepStart, whenRun, guardS, h]

theorem running_trappedNow : Running trappedNow := running_of_calm (by decide +kernel)

theorem rwBool_trappedNow : rwBool trappedNow 0x5800 7 = true := by decide +kernel

theorem idleEngine_trappedNow : idleEngine trappedNow 0 = some 15 := by decide +kernel

theorem clusterImage_trappedNow : clusterImage (curVer trappedNow) 0 = some idleImage := by
  decide +kernel

theorem imgIdleEntry_idleImage : imgIdleEntry idleImage 1 = some 0 := by decide +kernel

/-- Refutes O21: its IDLE_STEP_START clause asks for a cluster in rotation, and a cluster TRAPPED in this
beat still is; but IDLE_STEP_START takes only a cluster in service. In `trappedNow` the task of cluster 0
meets every premise with engine 15 and entry 0, and the command starts nothing. -/
theorem not_enginesRunTrapAndPublish : ¬ Obligations.EnginesRunTrapAndPublish := by
  unfold Obligations.EnginesRunTrapAndPublish
  rintro ⟨-, -, -, -, hstart, -, -⟩
  obtain ⟨t, ht, hload, -, -⟩ := hstart trappedNow 0 15 0 idleTask1 [] idleImage running_trappedNow
    rwBool_trappedNow (by decide) (by decide) (by decide) idleEngine_trappedNow
    clusterImage_trappedNow imgIdleEntry_idleImage
  have trapped : (clusterAt trappedNow 0).state ≠ 0 := by decide
  have kept : exec (.idleStepStart 0) trappedNow = .next trappedNow :=
    congrArg Host.Outcome.next (rowIdleStepStart_of_trapped trapped)
  have idle : (engineAt trappedNow 0 15).load = .none := rfl
  cases kept.symm.trans ht
  rw [idle] at hload
  cases hload

end Sys2Proof.Machine

namespace Sys2Proof.Machine

/-! ## Carousel jobs and table writes (O28) -/

/-! ### Carousel beats -/

/-- An ingress half that runs while s stands at the beat of r has run in that beat. -/
theorem ranIngress_ingLast {r s : State} (h : Steady r s) (p cls : Nat) :
    (pipeAt (ranIngress s p cls) p).ingLast = some r.beat := by
  unfold ranIngress countCarousel
  rw [(count_touches ..).pipeAt p, pipeAt_modPipe, h.beat]

theorem ranEgress_egLast {r s : State} (h : Steady r s) (p cls : Nat) :
    (pipeAt (ranEgress s p cls) p).egLast = some r.beat := by
  unfold ranEgress countCarousel
  rw [(count_touches ..).pipeAt p, pipeAt_modPipe, h.beat]

/-- TWRITE uses its beat, whichever write it finds. -/
theorem twriteBeat_ingLast (s : State) (p : Nat) : (pipeAt (twriteBeat s p) p).ingLast = some s.beat := by
  unfold twriteBeat
  extract_lets a prepare
  have ha : Steady s a := (modPipe_touches ..).steady
  have passed := ha.trans (passOver_steady p a a.ver.pending)
  have prepared : (pipeAt prepare p).ingLast = some s.beat := by
    unfold prepare
    split
    next done => exact ranIngress_ingLast (passed.trans ((prepAny_steady ..).get done)) ..
    · exact ranIngress_ingLast passed ..
  split
  · split
    · exact ranIngress_ingLast (ha.trans (legacyBeat_touches ..).steady) ..
    · exact prepared
  · exact prepared

theorem rowTwrite_runs {s : State} {p : Nat} (run : s.sys.run = .running) (ready : ingressReady s p = true)
    (job : jobOf s .ingress s.beat = jobTwrite) : rowTwrite p s = twriteBeat s p := by
  rw [rowTwrite, whenRun_running run, ready, guardS_true]
  exact if_pos job

/-! ### The scrub (R168) -/

/-- The compare leaves the unit as the shadow holds it, unless the shadow cannot be read; the position moves on. -/
theorem scrubBeat_scrubs (s : State) (p : Nat) (f : Option TcamUnit) (e : Ecc) :
    (pipeAt (scrubBeat s p f e) p).scrubPos = ((pipeAt s p).scrubPos % 32768 + 1) % 32768 ∧
    (e ≠ .double → tcamAt (scrubBeat s p f e) (unitNo p ((pipeAt s p).scrubPos % 32768 / 2048)
        ((pipeAt s p).scrubPos % 32768 % 2048))
      = shadowAt s (unitNo p ((pipeAt s p).scrubPos % 32768 / 2048) ((pipeAt s p).scrubPos % 32768 % 2048))) := by
  unfold scrubBeat
  extract_lets pos b u n a old c
  have ha : (pipeAt a p).scrubPos = (pos + 1) % 32768 := by unfold a; rw [pipeAt_modPipe]
  have hc : c.pipes = a.pipes ∧ c.mem.shadow = s.mem.shadow := by unfold c; split <;> exact ⟨rfl, rfl⟩
  have hcp : (pipeAt c p).scrubPos = (pos + 1) % 32768 := by rw [pipeAt, hc.1]; exact ha
  have hcs : shadowAt c n = shadowAt s n := congrArg (tget TcamUnit.zero · n) hc.2
  split
  next double =>
    refine ⟨?_, fun readable => absurd double readable⟩
    rw [(raiseEv_touches ..).pipeAt p, (count_touches ..).pipeAt p]
    exact hcp
  split
  · refine ⟨?_, fun _ => ?_⟩
    · rw [(raiseEv_touches ..).pipeAt p, (count_touches ..).pipeAt p]
      exact hcp
    · rw [← hcs, tcamAt, ((raiseEv_touches ..).rest .search rfl).1, ((count_touches ..).rest .search rfl).1]
      exact tget_tput_self ..
  next same =>
    simp only [bne_iff_ne, ne_eq, not_not] at same
    exact ⟨hcp, fun _ => same.trans hcs⟩

theorem rowTscrub_runs {s : State} {p : Nat} (run : s.sys.run = .running) (ready : ingressReady s p = true)
    (job : jobOf s .ingress s.beat = jobTscrub) (f : Option TcamUnit) (e : Ecc) :
    rowTscrub p f e s = ranIngress (scrubBeat s p f e) p 0 := by
  rw [rowTscrub, whenRun_running run, ready, guardS_true]
  exact if_pos job

/-- Counting a beat changes no more of a pipe than the beat that it last ran. -/
theorem ranIngress_scrubPos (s : State) (p cls : Nat) :
    (pipeAt (ranIngress s p cls) p).scrubPos = (pipeAt s p).scrubPos := by
  unfold ranIngress countCarousel
  rw [(count_touches ..).pipeAt p, pipeAt_modPipe]

/-! ### EWRITE (R435) -/

theorem ewriteBeat_egLast (s : State) (p : Nat) : (pipeAt (ewriteBeat s p) p).egLast = some s.beat := by
  unfold ewriteBeat
  extract_lets old sched
  have hsched : OptSteady s sched := by
    refine ⟨fun {t} e => ?_⟩
    unfold sched at e
    split at e
    · split at e
      · cases e
        exact (Steady.update : Steady s { s with buf := _ }).trans (applySched_touches ..).steady
      · cases e
    · cases e
  clear_value sched
  split
  · exact ranEgress_egLast (hsched.get rfl) ..
  split
  · exact ranEgress_egLast ((egressWrite_touches ..).steady.trans (modPrep_steady ..)) ..
  · exact ranEgress_egLast Steady.refl ..

/-- The queue behind an applied write is what was behind it. -/
theorem applySched_schedQ (s : State) (w : SchedWrite) : (applySched s w).buf.schedQ = s.buf.schedQ := by
  unfold applySched
  split <;> rfl

theorem ewriteBeat_applies {s : State} {p : Nat} {w : SchedWrite} {rest : List SchedWrite}
    (queued : s.buf.schedQ = w :: rest) (here : schedPipe s w.node = p) :
    (ewriteBeat s p).buf.schedQ = rest := by
  simp only [ewriteBeat, queued, here, if_true]
  rw [(ranEgress_touches ..).rest .buffer rfl, applySched_schedQ]

theorem rowEwrite_runs {s : State} {p : Nat} (run : s.sys.run = .running) (ready : egressReady s p = true)
    (job : jobOf s .egress s.beat = jobEwrite) : rowEwrite p s = ewriteBeat s p := by
  rw [rowEwrite, whenRun_running run, ready, guardS_true]
  exact if_pos job

/-! ### Accepted writes -/

theorem renewLease_eq (s : State) (n : Nat) : ∃ m, renewLease s n = { s with mabin := m } := by
  rcases renewLease_cases s n with e | ⟨-, -, e⟩
  · exact ⟨s.mabin, e⟩
  · exact ⟨_, e⟩

theorem tierOf_expires (s : State) (n : Nat) (src : Origin) :
    tierOf { s with mabin := { s.mabin with expires := n } } src = tierOf s src := by
  cases src <;> rfl

theorem overUdp_expires (s : State) (n : Nat) (src : Origin) :
    overUdp { s with mabin := { s.mabin with expires := n } } src = overUdp s src := by
  cases src <;> rfl

/-- What the object table says of a write depends on its sender's tier and path alone. -/
theorem writeError_congr {s t : State} {src : Origin} (tier : tierOf t src = tierOf s src)
    (path : overUdp t src = overUdp s src) (idx sub row : Nat) (v : Bytes) :
    writeError t src idx sub row v = writeError s src idx sub row v := by
  unfold writeError
  rw [tier, path]

theorem writeError_renewLease (s : State) (n : Nat) (src : Origin) (idx sub row : Nat) (v : Bytes) :
    writeError (renewLease s n) src idx sub row v = writeError s src idx sub row v := by
  obtain e | ⟨-, -, e⟩ := renewLease_cases s n
  · rw [e]
  · rw [e]
    exact writeError_congr (tierOf_expires ..) (overUdp_expires ..) ..

/-- An accepted write does what its effect does to the state with the lease renewed, and counts. -/
theorem MayWrite.writes {s : State} {src : Origin} {idx sub row : Nat} {v : Bytes}
    (may : MayWrite s src idx sub row v) (eff : State → Option State) :
    ∃ m, ∀ u, eff { s with mabin := m } = some u → Touches [.counters] u (writeCmd s src idx sub row v eff) := by
  obtain ⟨run, here, fine⟩ := may
  obtain ⟨m, hm⟩ := renewLease_eq s (originNum src)
  refine ⟨m, fun u hu => ?_⟩
  obtain ⟨tier, e⟩ := writeCmd_accepted (eff := eff) run.1 here ((writeError_renewLease ..).trans fine) (hm ▸ hu)
  exact e ▸ filtered_touches ..

/-- A row that the bank takes joins the queue of its pipe. -/
theorem legacyPush_queues {s : State} {p : Nat} {r : Bytes} (bank : natAt r 0 2 < 16)
    (legacy : bankLegacy s (16 * p + natAt r 0 2) = true)
    (size : rowSizeOk (r.drop 4) (curWidth s (16 * p + natAt r 0 2)) = true)
    (entry : natAt r 2 2 < 2048 / curWidth s (16 * p + natAt r 0 2)) (room : (pipeAt s p).legacy.length < 256) :
    ∃ t, legacyPush p r s = some t ∧ ∃ l, (pipeAt t p).legacy = (pipeAt s p).legacy ++ [l] ∧
      l.bank = natAt r 0 2 ∧ l.entry = natAt r 2 2 ∧ l.recv = s.beat ∧ l.tick = s.rm.tick + 1 := by
  simp only [legacyPush, bank, legacy, size, entry, room, decide_true, Bool.and_self, if_true]
  exact ⟨_, rfl, _, congrArg Pipe.legacy (pipeAt_modPipe ..), rfl, rfl, rfl, rfl⟩

theorem queueSched_queues {s : State} (k : Nat) (row : Option Bytes) (room : s.buf.schedQ.length < 1024) :
    ∃ t, queueSched s k row = some t ∧ ∃ w, t.buf.schedQ = s.buf.schedQ ++ [w] ∧ w.node = k ∧ w.row = row := by
  rw [queueSched, if_neg (by omega)]
  exact ⟨_, rfl, _, rfl, rfl, rfl⟩

theorem schedRow_queues {s : State} (l i : Nat) {r : Bytes} (ok : nodeRowOk r = true)
    (room : s.buf.schedQ.length < 1024) :
    ∃ t, schedRow l i r s = some t ∧
      ∃ w, t.buf.schedQ = s.buf.schedQ ++ [w] ∧ w.node = nodeKey l i ∧ w.row = some r := by
  obtain ⟨t, ht, w⟩ := queueSched_queues (nodeKey l i) (some r) room
  refine ⟨setRw t 0x7000 (l + 1) i r, ?_, w⟩
  simp [schedRow, ok, ht]

/-! ### The mode of a bank (R200) -/

theorem tfind_tdrop {α : Type} (t : Tbl α) {lo hi i : Nat} (from_ : lo ≤ i) (below : i < hi) :
    tfind (tdrop t lo hi) i = none := by
  induction t with
  | nil => rfl
  | cons e t ih =>
    obtain ⟨k, v⟩ := e
    by_cases h : lo ≤ k ∧ k < hi
    · rw [tdrop, List.filter_cons_of_neg (by simp [h.1, h.2])]
      exact ih
    · rw [tdrop, List.filter_cons_of_pos (by simp; omega), tfind, if_neg (by omega)]
      exact ih

theorem tcamAt_wipeBank (s : State) {g n : Nat} (from_ : g * 2048 ≤ n) (below : n < g * 2048 + 2048) :
    tcamAt (wipeBank s g) n = TcamUnit.zero := by
  simp [tcamAt, wipeBank, tget, tfind_tdrop s.mem.tcam from_ below]

theorem stored_congr {s t : State} (h : t.objs = s.objs) (idx sub row : Nat) :
    stored t idx sub row = stored s idx sub row := by
  rw [stored, h, stored]

/-- Reading what was written gives the bits that are kept. -/
theorem stored_setRw (s : State) (idx sub row : Nat) (v : Bytes) :
    stored (setRw s idx sub row v) idx sub row = keptRow idx sub row v := by
  have read (t : State) : stored t idx sub row = tget (defaultAt idx sub row) t.objs (keyOf idx sub row) := by
    unfold stored tget
    split <;> simp [*]
  rw [read]
  exact tget_tput_self ..

theorem findMask_bankMode : ∀ g < 128, findMask (0x4800 + g) 3 keepMasks = none := by decide

theorem keptRow_bankMode {g : Nat} (h : g < 128) (v : Bytes) : keptRow (0x4800 + g) 3 noRow v = v := by
  unfold keptRow keptValue
  simp [findMask_bankMode g h]; omega

theorem setBankMode_sets {s : State} {g : Nat} (m : Nat) (hg : g < 128)
    (live : ∀ k, k < 4 → isLive s k = true → bankGroup (slotVer s k) g = 15)
    (pending : ∀ q, q ∈ s.ver.pending → bankGroup q.ver g = 15) :
    ∃ t, setBankMode g m s = some t ∧ stored t (0x4800 + g) 3 noRow = [BitVec.ofNat 8 m] ∧
      ∀ n, g * 2048 ≤ n → n < g * 2048 + 2048 → tcamAt t n = TcamUnit.zero := by
  have free : ((List.range 4).all (fun k => !isLive s k || bankGroup (slotVer s k) g == 15) &&
      s.ver.pending.all fun q => bankGroup q.ver g == 15) = true := by
    simp only [Bool.and_eq_true, List.all_eq_true, List.mem_range, Bool.or_eq_true, Bool.not_eq_true', beq_iff_eq]
    refine ⟨fun k hk => ?_, pending⟩
    cases h : isLive s k
    · exact .inl rfl
    · exact .inr (live k hk h)
  refine ⟨_, if_pos free, ?_, fun n => tcamAt_wipeBank _⟩
  exact (stored_setRw ..).trans (keptRow_bankMode hg _)

/-- Settles O28, by the work of each carousel beat and the effect of each write. -/
theorem searchAndSchedulerTables : Obligations.SearchAndSchedulerTables := by
  refine ⟨?_, ?_, ?_, ?_, ?_, ?_, ?_⟩
  · intro s p ⟨run, hs⟩ ready job
    refine ⟨_, next_row hs (rowTwrite p), ?_⟩
    rw [rowTwrite_runs run ready job]
    exact twriteBeat_ingLast s p
  · intro s p f e ⟨run, hs⟩ ready job
    refine ⟨_, next_row hs (rowTscrub p f e), ?_⟩
    obtain ⟨moved, compared⟩ := scrubBeat_scrubs s p f e
    rw [rowTscrub_runs run ready job]
    refine ⟨ranIngress_ingLast (scrubBeat_steady ..) .., (ranIngress_scrubPos ..).trans moved, fun readable => ?_⟩
    rw [tcamAt, ((ranIngress_touches ..).rest .search rfl).1]
    exact compared readable
  · intro s p ⟨run, hs⟩ ready job
    refine ⟨_, next_row hs (rowEwrite p), ?_⟩
    rw [rowEwrite_runs run ready job]
    exact ⟨ewriteBeat_egLast s p, fun w rest => ewriteBeat_applies⟩
  · intro s src p r _ may bank legacy size entry room
    refine ⟨_, next_row may.1.2 (rowLegacyWrite src p r), ?_⟩
    obtain ⟨m, writes⟩ := may.writes (legacyPush p r)
    obtain ⟨u, done, l, queued, fields⟩ := legacyPush_queues (s := { s with mabin := m }) bank legacy size entry room
    exact ⟨l, (congrArg Pipe.legacy ((writes u done).pipeAt p)).trans queued, fields⟩
  · intro s src l i r may ok room
    refine ⟨_, next_row may.1.2 (rowSchedRowWrite src l i r), ?_⟩
    obtain ⟨m, writes⟩ := may.writes (schedRow l i r)
    obtain ⟨u, done, w, queued, fields⟩ := schedRow_queues (s := { s with mabin := m }) l i ok room
    exact ⟨w, (congrArg Buf.schedQ ((writes u done).rest .buffer rfl)).trans queued, fields⟩
  · intro s src v may node room
    refine ⟨_, next_row may.1.2 (rowSchedClearDebt src v), ?_⟩
    obtain ⟨m, writes⟩ := may.writes (schedClear v)
    obtain ⟨u, done, w, queued, fields⟩ :=
      queueSched_queues (s := { s with mabin := m }) (nodeKey (bits v 31 30) (bits v 16 0)) none room
    have cleared : schedClear v { s with mabin := m } = some u := (if_pos node).trans done
    exact ⟨w, (congrArg Buf.schedQ ((writes u cleared).rest .buffer rfl)).trans queued, fields⟩
  · intro s src g m hg _ may live pending
    refine ⟨_, next_row may.1.2 (rowBankModeWrite src g m), ?_⟩
    obtain ⟨b, writes⟩ := may.writes (setBankMode g m)
    obtain ⟨u, done, read, wiped⟩ := setBankMode_sets (s := { s with mabin := b }) m hg live pending
    obtain ⟨objs, -⟩ := (writes u done).rest .objects rfl
    obtain ⟨tcam, -⟩ := (writes u done).rest .search rfl
    refine ⟨?_, fun n from_ below => ?_⟩
    · exact (stored_congr objs ..).trans read
    · exact (congrArg (tget TcamUnit.zero · n) tcam).trans (wiped n from_ below)

end Sys2Proof.Machine

namespace Sys2Proof.Machine

/-! ## Records that leave for their rings (O11)

Writing a record can raise events, of a function that it freezes, and count; neither takes anything off the queues. -/

/-- From s to t the event queue only grows at its end, and the snapshots stay. -/
def Queued (s t : State) : Prop :=
  (∃ x, t.sys.evq = s.sys.evq ++ x) ∧ t.cnt.snapshots = s.cnt.snapshots

namespace Queued

variable {s t u : State}

theorem refl : Queued s s := ⟨⟨[], (List.append_nil _).symm⟩, rfl⟩

theorem trans (h : Queued s t) (k : Queued t u) : Queued s u := by
  obtain ⟨⟨x, hx⟩, h⟩ := h
  obtain ⟨⟨y, hy⟩, k⟩ := k
  exact ⟨⟨x ++ y, by rw [hy, hx, List.append_assoc]⟩, k.trans h⟩

theorem ite {c : Prop} [Decidable c] (h : Queued s t) (k : Queued s u) : Queued s (if c then t else u) := by
  split
  · exact h
  · exact k

/-- A change that leaves both queues. -/
theorem update (events : t.sys.evq = s.sys.evq := by rfl) (snapshots : t.cnt.snapshots = s.cnt.snapshots := by rfl) :
    Queued s t :=
  ⟨⟨[], events.trans (List.append_nil _).symm⟩, snapshots⟩

end Queued

theorem Touches.queued {P : List Part} {s t : State} (h : Touches P s t) (system : among P .system = false := by rfl)
    (counters : among P .counters = false := by rfl) : Queued s t :=
  .update (congrArg Sys.evq (h.rest .system system)) (congrArg Counters.snapshots (h.rest .counters counters))

theorem count_queued (s : State) (n k : Nat) : Queued s (count s n k) := .ite .refl .update

theorem notify_queued (s : State) (n : Nat) (x : Session) (body : Bytes) : Queued s (notify s n x body) :=
  .ite .update (.trans .update (count_queued ..))

theorem tellSessions_queued (s : State) (e : Event) : Queued s (tellSessions s e) := by
  unfold tellSessions
  generalize s.mabin.sessions = l
  induction l generalizing s with
  | nil => exact .refl
  | cons x l ih => exact .trans (.ite (notify_queued ..) .refl) (ih _)

theorem queueEvent_queued (s : State) (e : Event) : Queued s (queueEvent s e) :=
  .ite ⟨⟨[e], rfl⟩, rfl⟩ (.trans .update (count_queued ..))

theorem postEvent_queued (s : State) (e : Event) : Queued s (postEvent s e) :=
  .trans (.ite .update .refl) ((queueEvent_queued ..).trans (tellSessions_queued ..))

theorem startFreeze_queued (s : State) (trigger code : Nat) : Queued s (startFreeze s trigger code) :=
  .ite ((postEvent_queued ..).trans .update) .refl

theorem raiseEv_queued (s : State) (code source : Nat) (values : List Nat) :
    Queued s (raiseEv s code source values) :=
  (postEvent_queued ..).trans (.ite (startFreeze_queued ..) .refl)

theorem freezeMaster_queued (s : State) (type cls num : Nat) : Queued s (freezeMaster s type cls num) :=
  .ite .refl (.trans .update (raiseEv_queued ..))

theorem freezeFn_queued (s : State) (f cause detail : Nat) : Queued s (freezeFn s f cause detail) :=
  .ite .refl ((modFn_touches ..).queued.trans (freezeMaster_queued ..))

theorem dmaWrite_queued (s : State) (r addr : Nat) (b : Bytes) : Queued s (dmaWrite s r addr b) :=
  .ite .update (freezeFn_queued ..)

theorem writeRecord_queued (s : State) (r : Nat) (b : Bytes) (start fin : Nat) :
    Queued s (writeRecord s r b start fin) :=
  (dmaWrite_queued ..).trans ((modRing_touches ..).queued.trans
    ((dmaWrite_queued ..).trans (notSignalled_touches ..).queued))

/-- The oldest event leaves the queue. -/
theorem writeEvent_takes {s : State} {e : Event} {rest : List Event} {r : Nat × Nat} (lost : s.sys.lost = 0)
    (oldest : s.sys.evq = e :: rest) (room : byteRoom s eventRing 64 = some r) :
    ∃ x, (writeEvent s).sys.evq = rest ++ x := by
  obtain ⟨a, b⟩ := r
  simp only [writeEvent, lost, oldest, bne_self_eq_false, Bool.false_eq_true, if_false, ringRecord, room]
  exact ((writeRecord_queued ..).trans (endGrant_touches ..).queued).1

/-- The oldest snapshot leaves the queue. -/
theorem writeDump_takes {s : State} {q : Snapshot} {rest : List Snapshot} {r : Nat × Nat}
    (oldest : s.cnt.snapshots = q :: rest) (passed : streamsPassed s q = true)
    (fits : dumpLength q ≤ 2 ^ rowSize (ringRow s dumpRing)) (room : byteRoom s dumpRing (dumpLength q) = some r) :
    (writeDump s).cnt.snapshots = rest := by
  obtain ⟨a, b⟩ := r
  simp only [writeDump, oldest, passed, Bool.not_true, Bool.false_eq_true, if_false, if_neg (Nat.not_lt.2 fits), room]
  obtain ⟨-, kept⟩ := (writeRecord_queued (dropSnapshot s) dumpRing (dumpRecord q) a b).trans
    (endGrant_touches _ arbDma).queued
  rw [kept]
  exact congrArg (List.drop 1) oldest

/-- The n oldest records of a domain leave and its sequence number counts them. -/
theorem recordsSent_sends (u : State) (d n : Nat) :
    domainQueue (recordsSent u d n) d = (domainQueue u d).drop n ∧
      domainSeq (recordsSent u d n) d = (domainSeq u d + n) % 2 ^ 32 := by
  unfold domainQueue domainSeq recordsSent
  rw [pipeAt_modPipe]
  by_cases h : d < 8 <;> simp [h]

theorem sendRecords_whole {s u : State} {d n : Nat} {ds : List (Nat × Nat)}
    (fits : messageFits s (exportMessage s d n).length = true)
    (sent : sendMessage s d n (exportMessage s d n) ds = some (u, .whole)) : sendRecords s d n ds = recordsSent u d n := by
  simp [sendRecords, fits, sent]

/-- The set of a domain that leaves, or is empty, is no longer due. -/
theorem sendTemplates_sends {s : State} {d : Nat} {ds : List (Nat × Nat)}
    (sent : templateSet s = [] ∨ ∃ u, sendMessage s d 0 (ipfixMessage s d (domainSeq s d) (templateSet s)) ds
      = some (u, .whole)) : ∃ u, sendTemplates s d ds = templatesSent u d := by
  unfold sendTemplates
  by_cases empty : templateSet s = []
  · exact ⟨s, if_pos empty⟩
  · obtain ⟨u, sent⟩ := sent.resolve_left empty
    exact ⟨u, by simp [empty, sent]⟩

theorem templatesSent_due (u : State) (d : Nat) : (templatesSent u d).host.tmplDue.contains d = false := by
  simp [templatesSent]

/-- Settles O11, by what each of the four rows takes off its queue. -/
theorem recordsLeaveForTheirRings : Obligations.RecordsLeaveForTheirRings := by
  refine ⟨?_, ?_, ?_, ?_⟩
  · intro s e rest r ⟨run, hs⟩ live grant lost oldest room
    refine ⟨_, next_row hs rowEventRecordWrite, ?_⟩
    rw [rowEventRecordWrite, whenRun_running run, live, grant, Bool.and_self, guardS_true]
    exact writeEvent_takes lost oldest room
  · intro s q rest r ⟨run, hs⟩ live grant oldest passed fits room
    refine ⟨_, next_row hs rowDumpRecordWrite, ?_⟩
    rw [rowDumpRecordWrite, whenRun_running run, live, grant, Bool.and_self, guardS_true,
      writeDump_takes oldest passed fits room]
  · intro s u d n ds ⟨run, hs⟩ domain some_ waiting open_ fits sent
    refine ⟨_, next_row hs (rowExportMessageSend d n ds), ?_⟩
    rw [rowExportMessageSend, whenRun_running run, open_, decide_eq_true domain, decide_eq_true some_,
      decide_eq_true waiting, Bool.not_false, Bool.and_self, Bool.and_self,
      Bool.and_self, guardS_true, sendRecords_whole fits sent]
    exact recordsSent_sends u d n
  · intro s d ds ⟨run, hs⟩ isDue open_ sent
    refine ⟨_, next_row hs (rowTemplateSetSend d ds), ?_⟩
    obtain ⟨u, left⟩ := sendTemplates_sends sent
    rw [rowTemplateSetSend, whenRun_running run, isDue, open_, Bool.not_false, Bool.and_self, guardS_true, left]
    exact templatesSent_due u d

end Sys2Proof.Machine

namespace Sys2Proof.Machine

/-! ## The SOFT reset (O4) -/

/-- A fold does what one of its steps does and every step keeps. -/
theorem foldl_reaches {α : Type} {P : State → Prop} {f : State → α → State} {a : α} {l : List α} (ha : a ∈ l)
    (does : ∀ t, P (f t a)) (keeps : ∀ t b, P t → P (f t b)) (s : State) : P (l.foldl f s) := by
  have kept (l : List α) (s : State) (h : P s) : P (l.foldl f s) := by
    induction l generalizing s with
    | nil => exact h
    | cons b l ih => exact ih _ (keeps s b h)
  induction l generalizing s with
  | nil => cases ha
  | cons b l ih =>
    rcases List.mem_cons.1 ha with rfl | ha
    · exact kept l _ (does s)
    · exact ih ha _

/-! ### SOFT_RESET (R603 steps 1 to 3) -/

/-- The memories are lost but for the companion, bulk and utility memories. -/
def softMemory (m : Mem) : Mem := { Mem.init with companion := m.companion, bulk := m.bulk, util := m.util }

/-- The work on each pipe leaves the memories. -/
theorem softPipes_memory_touches (s : State) :
    Touches [.buffer, .pipes, .arbiters] { s with mem := softMemory s.mem } (softPipes s) := by
  unfold softPipes
  exact .foldl (fun _ _ => (modPipe_touches ..).after ((dropRequests_touches ..).after
    ((fillPolicers_touches ..).after (clearPipe_touches ..).within))) .refl

/-- What follows the discards: the pools, counters, cipher units and MACs, and the SOFT reset under way. -/
abbrev softEnd : List Part := [.system, .ports, .cipher, .rings, .pools, .templates, .counters]

/-- A SOFT reset discards, and ends with what `softEnd` names. -/
theorem softReset_discards (s : State) :
    ∃ r, Touches [.objects, .digest] s r ∧
      Touches softEnd (softPipes (softVersions (softDiscard r))) (softReset s) := by
  unfold softReset
  extract_lets s₁ s₂ s₃ s₄ s₅
  have hs₁ : Touches [.objects, .digest] s s₁ := (activate_touches ..).after (values_touches ..).within
  have hs₅ : Touches softEnd s₂ s₅ :=
    .foldl (fun _ _ => (modPort_touches ..).within) (.foldl (fun _ _ => (startTests_touches ..).within)
      ((clearSoftCounters_touches ..).after (forget_touches ..).within))
  refine ⟨s₁, hs₁, ?_⟩
  clear_value s₅
  refine hs₅.trans (Touches.within (Q := [.system, .rings, .pools, .templates]) ?_)
  apply softState_touches <;> rfl

/-- The port no longer accepts frames. -/
def refuse (s : State) (n : Nat) : State := modPort s n fun x => { x with refusing := true }

theorem refusing_foldl_refuse (s : State) {l : List Nat} {n : Nat} (h : n ∈ l) :
    (portAt (l.foldl refuse s) n).refusing = true := by
  refine foldl_reaches (P := fun t => (portAt t n).refusing = true) h
    (fun t => by rw [refuse, portAt_modPort]) (fun t b ht => ?_) s
  by_cases hb : n = b
  · subst hb
    rw [refuse, portAt_modPort]
  · rw [refuse, portAt_modPort_ne _ _ hb]
    exact ht

/-- The ports of the SOFT reset are those that the last fold leaves. -/
theorem softReset_ports (s : State) : ∃ u, (softReset s).ports = ((List.range 134).foldl refuse u).ports := by
  unfold softReset
  extract_lets s₁ s₂ s₃ s₄ s₅
  have last : s₅ = (List.range 134).foldl refuse s₄ := rfl
  have ports := congrArg State.ports last
  clear_value s₅
  exact ⟨s₄, ports⟩

theorem softReset_refuses (s : State) {n : Nat} (h : n < 134) : (portAt (softReset s) n).refusing = true := by
  obtain ⟨u, ports⟩ := softReset_ports s
  rw [portAt, ports]
  exact refusing_foldl_refuse u (List.mem_range.2 h)

theorem rowSoftReset_resets {s : State} {r : Nat} (run : s.sys.run = .running) (asked : s.sys.softAt = some r)
    (isDue : resetDue s r = true) (noSoft : s.sys.soft = false) : rowSoftReset s = softReset s := by
  simp [rowSoftReset, whenRun_running run, asked, isDue, noSoft, guardS_true]

/-! ### SOFT_RESET_DONE (R603 step 4) -/

/-- From s to t the home clocks stay. -/
structure SameHomes (s t : State) : Prop where
  h : ∀ p, (pipeAt t p).h = (pipeAt s p).h

namespace SameHomes

variable {s t u : State}

theorem refl : SameHomes s s := ⟨fun _ => rfl⟩

theorem trans (h : SameHomes s t) (k : SameHomes t u) : SameHomes s u :=
  ⟨fun p => (k.h p).trans (h.h p)⟩

theorem ite {c : Prop} [Decidable c] (h : SameHomes s t) (k : SameHomes s u) : SameHomes s (if c then t else u) := by
  split
  · exact h
  · exact k

theorem foldl {α : Type} {f : State → α → State} (k : ∀ t a, SameHomes t (f t a)) (l : List α) (s : State) :
    SameHomes s (l.foldl f s) := by
  induction l generalizing s with
  | nil => exact .refl
  | cons a l ih => exact (k s a).trans (ih _)

theorem modPipe {p : Nat} {f : Pipe → Pipe} (h : ∀ k, (f k).h = k.h) : SameHomes s (modPipe s p f) := by
  refine ⟨fun q => ?_⟩
  by_cases hq : q = p
  · subst hq
    rw [pipeAt_modPipe, h]
  · rw [pipeAt_modPipe_ne _ _ hq]

end SameHomes

theorem Touches.sameHomes {P : List Part} {s t : State} (h : Touches P s t) (hP : among P .pipes = false := by rfl) :
    SameHomes s t := ⟨fun p => by rw [h.pipeAt p hP]⟩

theorem windowCmds_sameHomes (s : State) : SameHomes s (windowCmds s) := by
  unfold windowCmds
  extract_lets next join
  refine .foldl (fun _ _ => .modPipe ?_) _ s
  exact fun _ => rfl

theorem pipeStops_sameHomes (s : State) (p : Nat) : SameHomes s (pipeStops s p) := by
  have cleared : SameHomes s (clearPipe s p) := .modPipe fun _ => rfl
  have clusters (t : State) : SameHomes t ((List.range 8).foldl (fun s i => modCluster s (8 * p + i) fun k =>
      { Cluster.init with state := k.state, trapInfo := k.trapInfo, trapVector := k.trapVector }) t) :=
    .foldl (fun _ _ => (modCluster_touches ..).sameHomes) _ t
  unfold pipeStops
  exact cleared.trans ((clearShard_touches ..).sameHomes.trans ((clearSearch_touches ..).sameHomes.trans
    ((clusters _).trans ((clearPipeCounters_touches ..).sameHomes.trans (.modPipe fun _ => rfl)))))

theorem pipeWakes_sameHomes (s : State) (p : Nat) : SameHomes s (pipeWakes s p) := by
  have slots (t : State) : SameHomes t ((List.range 4).foldl (fun s sl => wakeSlot s p sl) t) :=
    .foldl (fun _ _ => (wakeSlot_touches ..).sameHomes) _ t
  have sides (t : State) : SameHomes t ((List.range 8).foldl (fun s i => wakeSides s (8 * p + i)) t) :=
    .foldl (fun _ _ => (wakeSides_touches ..).sameHomes) _ t
  unfold pipeWakes
  exact (clearSearch_touches ..).sameHomes.trans ((slots _).trans ((sides _).trans
    ((ver_touches ..).sameHomes.trans (.modPipe fun _ => rfl))))

theorem powerBoundary_sameHomes (s : State) : SameHomes s (powerBoundary s) :=
  .ite .refl (.foldl (fun _ _ => .ite (pipeStops_sameHomes ..) (.ite (pipeWakes_sameHomes ..) .refl)) _ s)

/-- A boundary leaves the home clocks where they stand. -/
theorem boundaryAs_sameHomes (s : State) (number : Nat) : SameHomes s (boundaryAs s number) := by
  unfold boundaryAs
  extract_lets old j s₁ s₂ s₃
  have hs₁ : SameHomes s s₁ := (judgePipes_touches ..).sameHomes.trans ((markDone_touches ..).sameHomes.trans
    ((nextTick_touches ..).sameHomes.trans ((settleTbs_touches ..).sameHomes.trans (passBoundary_touches ..).sameHomes)))
  have hs₂ : SameHomes s₁ s₂ := (windowCmds_sameHomes ..).trans ((applyWrites_touches ..).sameHomes.trans
    ((returnUnits_touches ..).sameHomes.trans (countLegacy_touches ..).sameHomes))
  have hs₃ : SameHomes s₂ s₃ := (digVer_touches ..).sameHomes.trans (pushBound_touches ..).sameHomes
  exact hs₁.trans (hs₂.trans (hs₃.trans ((powerBoundary_sameHomes ..).trans ((startFuses_touches ..).sameHomes.trans
    ((tickWork_touches ..).sameHomes.trans (takeVersion_touches ..).sameHomes)))))

/-- Tick 0 begins with every home clock at its beat. -/
theorem renumber_homes (s : State) (first : Nat) {p : Nat} (h : p < 8) : (pipeAt (renumber s first) p).h = s.beat := by
  unfold renumber
  extract_lets s₁
  have set : s₁.beat = s.beat ∧ (pipeAt s₁ p).h = s₁.beat := by
    constructor
    · exact (Touches.foldl (P := [.pipes]) (fun _ _ => modPipe_touches ..) .refl : Touches [.pipes] s s₁).steady.beat
    refine foldl_reaches (P := fun t => (pipeAt t p).h = t.beat) (List.mem_range.2 h)
      (fun t => by rw [pipeAt_modPipe]; rfl) (fun t b ht => ?_) _
    by_cases hb : p = b
    · subst hb
      rw [pipeAt_modPipe]
      rfl
    · rw [pipeAt_modPipe_ne _ _ hb]
      exact ht
  clear_value s₁
  exact set.2.trans set.1

theorem zeroBoundary_homes (s : State) {p : Nat} (h : p < 8) : (pipeAt (zeroBoundary s) p).h = s.beat := by
  unfold zeroBoundary
  extract_lets y s₁ s₂
  have hs₁ : (pipeAt s₁ p).h = s.beat := (renumber_homes _ _ h).trans (acceptAgain_touches ..).steady.beat
  have hs₂ : SameHomes s₁ s₂ := boundaryAs_sameHomes ..
  clear_value s₂
  exact ((raiseEv_touches ..).sameHomes.h p).trans ((hs₂.h p).trans hs₁)

theorem rowSoftResetDone_restarts {s : State} (run : s.sys.run = .running) (soft : s.sys.soft = true)
    (after : s.sys.softBeat < s.beat) (isDue : boundaryDue s = true) : rowSoftResetDone s = zeroBoundary s := by
  rw [rowSoftResetDone, whenRun_running run, mayRestart, isDue, soft, decide_eq_true after, Bool.and_self,
    Bool.and_self, guardS_true]

/-- Settles O4: what the discards leave stays to the end of the SOFT reset, and the home clocks that its end sets stay
through the boundary of tick 0. -/
theorem softResetDiscardsAndRestarts : Obligations.SoftResetDiscardsAndRestarts := by
  refine ⟨?_, ?_⟩
  · intro s r run committed asked isDue noSoft
    refine ⟨_, congrArg (fun u => Host.Outcome.next (rowSoftReset u)) committed, ?_⟩
    rw [rowSoftReset_resets run asked isDue noSoft]
    obtain ⟨u, hu, ends⟩ := softReset_discards s
    have discard := softDiscard_touches u
    have versions := softVersions_touches (softDiscard u)
    have pipes := softPipes_touches (softVersions (softDiscard u))
    have memory := softPipes_memory_touches (softVersions (softDiscard u))
    obtain ⟨dir, hbm, companion, bulk, quarantine⟩ := memory.rest .flow rfl
    obtain ⟨dir', hbm', companion', bulk', quarantine'⟩ := ends.rest .flow rfl
    obtain ⟨-, -, hcompanion, hbulk, -⟩ := hu.rest .flow rfl
    obtain ⟨-, -, dcompanion, dbulk, -⟩ := discard.rest .flow rfl
    obtain ⟨-, -, vcompanion, vbulk, -⟩ := versions.rest .flow rfl
    refine ⟨rfl, rfl, ?_, ?_, ?_, dir'.trans dir, hbm'.trans hbm, quarantine'.trans quarantine, ?_, ?_, ?_, ?_,
      (softReset_bounded s).2, (softReset_touches s).rest .fuses rfl, fun n => softReset_refuses s⟩
    · rw [(ends.rest .packets rfl).1, (pipes.rest .packets rfl).1, (versions.rest .packets rfl).1]
      rfl
    · exact (ends.rest .version rfl).trans (pipes.rest .version rfl)
    · exact (ends.rest .clusters rfl).trans (pipes.rest .clusters rfl)
    · exact companion'.trans (companion.trans (vcompanion.trans (dcompanion.trans hcompanion)))
    · exact bulk'.trans (bulk.trans (vbulk.trans (dbulk.trans hbulk)))
    · exact (ends.rest .util rfl).trans ((memory.rest .util rfl).trans ((versions.rest .util rfl).trans
        ((discard.rest .util rfl).trans (hu.rest .util rfl))))
    · exact (ends.rest .lock rfl).1.trans (pipes.rest .lock rfl).1
  · intro s run soft after isDue
    refine ⟨_, rfl, ?_⟩
    rw [rowSoftResetDone_restarts run soft after isDue]
    obtain ⟨-, tick, done⟩ := zeroBoundary_restarts s
    exact ⟨done, tick, fun p => zeroBoundary_homes s⟩

end Sys2Proof.Machine

namespace Sys2Proof.Machine

/-! ## What ports and lanes read (O12, O15, O16) -/

namespace Touches

variable {P : List Part} {s t : State} (h : Touches P s t)

include h

theorem stored (idx sub row : Nat) (hP : among P .objects = false := by rfl) :
    stored t idx sub row = stored s idx sub row := by
  obtain ⟨objs, -⟩ := h.rest .objects hP
  exact stored_congr objs ..

theorem portMode (n : Nat) (hP : among P .objects = false := by rfl) : portMode t n = portMode s n := h.rw _ _ hP

theorem portAn (n : Nat) (hP : among P .objects = false := by rfl) : portAn t n = portAn s n := h.rw _ _ hP

theorem portEnabled (n : Nat) (hP : among P .objects = false := by rfl) : portEnabled t n = portEnabled s n := by
  simp only [Machine.portEnabled, rwBool, h.rw _ _ hP]

theorem footprint (n : Nat) (hP : among P .objects = false := by rfl) : footprint t n = footprint s n := by
  simp only [Machine.footprint, h.portMode n hP]

theorem lanesWanted (n : Nat) (hP : among P .objects = false := by rfl) : lanesWanted t n = lanesWanted s n := by
  simp only [Machine.lanesWanted, h.footprint n hP, h.rw _ _ hP]

theorem clockGood (n : Nat) (hP : among P .pipes = false := by rfl) : clockGood t n = clockGood s n := by
  simp only [Machine.clockGood, h.pipeAt _ hP]

theorem beatAfter (b : Nat) (hP : among P .clock = false := by rfl) : beatAfter t b = beatAfter s b := by
  obtain ⟨beat, -⟩ := h.rest .clock hP
  simp only [Machine.beatAfter, beat]

theorem restartTimer (n : Nat) (objects : among P .objects = false := by rfl)
    (clock : among P .clock = false := by rfl) : restartTimer t n = restartTimer s n := by
  simp only [Machine.restartTimer, h.rw _ _ objects, h.beatAfter _ clock]

end Touches

/-! ### Lanes -/

theorem mem_lanesOf {l n mode : Nat} : l ∈ lanesOf n mode ↔ ∃ i < modeLanes mode, l = n + i := by
  simp only [lanesOf, List.mem_map, List.mem_range, eq_comm]

theorem lanesOf_nodup (n mode : Nat) : (lanesOf n mode).Nodup :=
  List.nodup_range.map fun _ _ => Nat.add_left_cancel

theorem footprint_nodup (s : State) (n : Nat) : (footprint s n).Nodup := lanesOf_nodup ..

theorem modeLanes_le (m : Nat) : modeLanes m ≤ 8 := by
  unfold modeLanes
  by_cases h : m < 11
  · interval_cases m <;> decide
  · rw [List.getD_eq_default _ _ (by simpa using h)]
    omega

/-- Each lane of a list without repetition takes its own update, and no other lane changes. -/
theorem laneAt_foldl_modLane (g : Nat → Lane → Lane) {ls : List Nat} (nodup : ls.Nodup) (s : State) (l : Nat) :
    laneAt (ls.foldl (fun s l => modLane s l (g l)) s) l = if l ∈ ls then g l (laneAt s l) else laneAt s l := by
  induction ls generalizing s with
  | nil => rfl
  | cons a ls ih =>
    obtain ⟨ha, nodup⟩ := List.nodup_cons.1 nodup
    rw [List.foldl_cons, ih nodup]
    by_cases hl : l = a
    · subst hl
      simp [ha]
    · simp [hl, laneAt_modLane_ne _ _ hl]

theorem laneAt_modLanes {ls : List Nat} (nodup : ls.Nodup) (s : State) (f : Lane → Lane) (l : Nat) :
    laneAt (modLanes s ls f) l = if l ∈ ls then f (laneAt s l) else laneAt s l :=
  laneAt_foldl_modLane (fun _ => f) nodup s l

/-! ### STEP, TRAIN and LOCK -/

theorem portAt_enterStep (s : State) (n mode fec : Nat) :
    (portAt (enterStep s n mode fec) n).state = 2 ∧ (portAt (enterStep s n mode fec) n).mode = mode := by
  unfold enterStep
  simp only [portAt_modPort, and_self]

/-- STEP leaves the lanes of the mode ACTIVE, and those beyond it OFF. -/
theorem laneAt_enterStep {s : State} {n l : Nat} (mode fec : Nat) (h : l ∈ footprint s n) :
    (laneAt (enterStep s n mode fec) l).power = if (lanesOf n mode).contains l then 0 else 3 := by
  unfold enterStep
  extract_lets s₁ s₂
  have off : (laneAt s₁ l).power = 3 := by
    rw [laneAt_modLanes (footprint_nodup s n), if_pos h]
  rw [(modPort_touches s₂ ..).laneAt, laneAt_modLanes (lanesOf_nodup ..)]
  by_cases hl : l ∈ lanesOf n mode
  · simp [hl]
  · simp [hl, off]

theorem endStep_of_ne {s : State} {n : Nat} (h : (portAt s n).state ≠ 2) : endStep s n = s := by
  simp [endStep, h]

theorem portIn_iff {s : State} {n k : Nat} (hn : n < 130) : portIn s n k = true ↔ (portAt s n).state = k := by
  simp [portIn, hn]

/-- STEP with a mode that trains is followed by TRAIN. -/
theorem portAt_endStep_trains {s : State} {n : Nat} (step : (portAt s n).state = 2)
    (trains : trains s n (portAt s n).mode = true) (fresh : keepsCoeffs (portAt s n) = false) :
    portAt (endStep s n) n = { portAt s n with state := 3, timer := .train (trainEnd s n) } := by
  simp [endStep, step, trains, fresh]

theorem portAt_enterLock (s : State) (n : Nat) :
    portAt (enterLock s n) n = { portAt s n with
      state := 4, timer := lockTimer s n, modeActive := (portAt s n).mode, fecActive := (portAt s n).fec } := by
  rw [enterLock, portAt_modPort]

/-- The port is UP with its mode, from this beat. -/
theorem portAt_enterUp (s : State) (n : Nat) :
    (portAt (enterUp s n) n).state = 5 ∧ (portAt (enterUp s n) n).timer = .none ∧
      (portAt (enterUp s n) n).lastChange = s.beat ∧ (portAt (enterUp s n) n).modeActive = (portAt s n).mode ∧
      (portAt (enterUp s n) n).faults = (portAt s n).faults := by
  have lanes := lockLanes_touches s (lanesOf n (portAt s n).mode)
  obtain ⟨beat, -⟩ := lanes.rest .clock rfl
  unfold enterUp linkBack
  simp only [portAt_modPort, (raiseEv_touches ..).portAt, lanes.portAt, beat, and_self]

/-! ### DOWN -/

theorem portAt_leaveUp_state (s : State) (n k : Nat) : (portAt (leaveUp s n k) n).state = k := by
  unfold leaveUp
  split
  · simp only [(raiseEv_touches ..).portAt, portAt_modPort]
  · simp only [portAt_modPort]

theorem portAt_portDown (s : State) (n : Nat) (t : PortTimer) :
    portAt (portDown s n t) n = { portAt (leaveUp s n 0) n with
      timer := t, modeActive := 0, fecActive := 0, faults := 0, trained := false, exitBy := none } := by
  unfold portDown
  simp only [portAt_modPort, (modLanes_touches ..).portAt]

theorem portAt_leaveUp_of_ne {s : State} {n : Nat} (h : (portAt s n).state ≠ 5) (k : Nat) :
    portAt (leaveUp s n k) n = { portAt s n with state := k } := by
  rw [leaveUp, if_neg h, portAt_modPort]

/-- A port that fails below UP is DOWN with its cause, and waits the restart delay. -/
theorem portAt_failBringUp {s : State} {n : Nat} (h : (portAt s n).state ≠ 5) (cause : Nat) :
    (portAt (failBringUp s n cause) n).state = 0 ∧ (portAt (failBringUp s n cause) n).failCause = cause ∧
      (portAt (failBringUp s n cause) n).timer = restartTimer s n := by
  unfold failBringUp
  extract_lets s₁
  have hs₁ : portAt (raiseEv s₁ evLinkFail n [cause]) n = { portAt s n with failCause := cause } := by
    rw [(raiseEv_touches ..).portAt, portAt_modPort]
  have below : (portAt (raiseEv s₁ evLinkFail n [cause]) n).state ≠ 5 := by rwa [hs₁]
  simp only [portAt_portDown, portAt_leaveUp_of_ne below, hs₁, true_and]
  exact (modPort_touches ..).restartTimer n

end Sys2Proof.Machine

namespace Sys2Proof.Machine

/-! ## Bring-up advances (O13) -/

theorem rowAnComplete_steps {s : State} {n m f : Nat} (run : s.sys.run = .running) (hn : n < 130)
    (negotiate : (portAt s n).state = 1) (common : (advertised s n).contains m = true)
    (fec : fecResolves s n m f = true) : rowAnComplete n m f s = enterStep s n m (fecFor s n m f) := by
  rw [rowAnComplete, whenRun_running run, (portIn_iff hn).2 negotiate, common, fec, Bool.and_self, Bool.and_self,
    guardS_true]

theorem portAt_rowTrainingDone {s : State} {n : Nat} (run : s.sys.run = .running) (hn : n < 130)
    (train : (portAt (endStep s n) n).state = 3) (cs : List Nat) :
    (portAt (rowTrainingDone n cs s) n).state = 4 ∧
      (portAt (rowTrainingDone n cs s) n).modeActive = (portAt (endStep s n) n).mode ∧
      (portAt (rowTrainingDone n cs s) n).fecActive = (portAt (endStep s n) n).fec := by
  rw [rowTrainingDone, whenRun_running run, (portIn_iff hn).2 train, guardS_true]
  extract_lets s₁ s₂
  have lanes : Touches [.lanes] s₁ s₂ := .foldl (fun _ _ => modLane_touches ..) .refl
  simp only [portAt_enterLock, portAt_modPort, lanes.portAt, true_and]
  exact ⟨rfl, rfl⟩

theorem rowLinkUp_rises {s : State} {n k : Nat} (run : s.sys.run = .running) (hn : n < 130)
    (lock : (portAt s n).state = 4) (noFault : (portAt s n).faults = 0) (noSearch : searching s n = false)
    (skew : k ≤ 240) (timer : (portAt s n).timer ≠ .none) : rowLinkUp n k s = enterUp (modPort s n fun p =>
      { p with skew := if modeLanes p.mode ≤ 1 then p.skew else k }) n := by
  simp [rowLinkUp, whenRun_running run, endStep_of_ne (s := s) (n := n) (by omega), (portIn_iff hn).2 lock, noFault,
    noSearch, skew, bne_iff_ne.2 timer]

theorem rowLinkFaultClear_rises {s : State} {n : Nat} (run : s.sys.run = .running) (hn : n < 130)
    (lock : (portAt s n).state = 4) (fault : (portAt s n).faults ≠ 0) (noSearch : searching s n = false)
    (timer : (portAt s n).timer = .none) :
    rowLinkFaultClear n s = enterUp (modPort s n fun p => { p with faults := 0 }) n := by
  have noSearch : searching (modPort s n fun p => { p with faults := 0 }) n = false := noSearch
  simp [rowLinkFaultClear, whenRun_running run, (portIn_iff hn).2 lock, bne_iff_ne.2 fault, noSearch, timer]

/-- Settles O13: each event by the state that it finds the port in. -/
theorem bringUpAdvances : Obligations.BringUpAdvances := by
  refine ⟨?_, ?_, ?_, ?_⟩
  · intro s n m f ⟨run, hs⟩ hn negotiate common fec
    refine ⟨_, next_row hs (rowAnComplete n m f), ?_⟩
    rw [rowAnComplete_steps run hn negotiate common fec]
    obtain ⟨state, mode⟩ := portAt_enterStep s n m (fecFor s n m f)
    exact ⟨mode, state, fun l => laneAt_enterStep m _⟩
  · intro s n cs ⟨run, hs⟩ hn trains
    refine ⟨_, next_row hs (rowTrainingDone n cs), ?_⟩
    have train : (portAt (endStep s n) n).state = 3 ∧ (portAt (endStep s n) n).mode = (portAt s n).mode ∧
        (portAt (endStep s n) n).fec = (portAt s n).fec := by
      rcases trains with train | ⟨step, trains, fresh⟩
      · rw [endStep_of_ne (by omega)]
        exact ⟨train, rfl, rfl⟩
      · simp only [portAt_endStep_trains step trains fresh, and_self]
    obtain ⟨state, mode, fec⟩ := train
    rw [← mode, ← fec]
    exact portAt_rowTrainingDone run hn state cs
  · intro s n k ⟨run, hs⟩ hn lock noFault noSearch skew timer
    refine ⟨_, next_row hs (rowLinkUp n k), ?_⟩
    rw [rowLinkUp_rises run hn lock noFault noSearch skew timer]
    obtain ⟨up, idle, change, mode, -⟩ := portAt_enterUp (modPort s n fun p =>
      { p with skew := if modeLanes p.mode ≤ 1 then p.skew else k }) n
    rw [portAt_modPort] at mode
    exact ⟨up, idle, change, mode⟩
  · intro s n ⟨run, hs⟩ hn lock fault noSearch timer
    refine ⟨_, next_row hs (rowLinkFaultClear n), ?_⟩
    rw [rowLinkFaultClear_rises run hn lock fault noSearch timer]
    obtain ⟨up, -, -, -, faults⟩ := portAt_enterUp (modPort s n fun p => { p with faults := 0 }) n
    rw [portAt_modPort] at faults
    exact ⟨up, faults⟩

end Sys2Proof.Machine

namespace Sys2Proof.Machine

/-! ## A failed bring-up waits (O14) -/

theorem due_of_le {s : State} {b : Nat} (h : b ≤ s.beat) : due s b = true := decide_eq_true h

theorem rowTrainingTimeout_fails {s : State} {n b : Nat} (run : s.sys.run = .running)
    (timer : (portAt s n).timer = .train b) (ended : b ≤ s.beat) : rowTrainingTimeout n s = failBringUp s n 1 := by
  simp [rowTrainingTimeout, whenRun_running run, timer, due_of_le ended]

section
variable {s : State} {n b k : Nat} (run : s.sys.run = .running) (hn : n < 130) (lock : (portAt s n).state = 4)
  (timer : (portAt s n).timer = .lock b)

include run hn lock timer

theorem rowLockTimeout_fails_wide (skew : 240 < k) (several : 2 ≤ modeLanes (portAt s n).mode) :
    rowLockTimeout n k s = failBringUp (modPort s n fun p => { p with skew := k % 65536 }) n 3 := by
  simp [rowLockTimeout, whenRun_running run, endStep_of_ne (s := s) (n := n) (by omega), timer,
    (portIn_iff hn).2 lock, skew, several]

theorem rowLockTimeout_fails_late (narrow : ¬(240 < k ∧ 2 ≤ modeLanes (portAt s n).mode)) (ended : b ≤ s.beat) :
    rowLockTimeout n k s = failBringUp s n 2 := by
  simp [rowLockTimeout, whenRun_running run, endStep_of_ne (s := s) (n := n) (by omega), timer,
    (portIn_iff hn).2 lock, due_of_le ended]
  exact fun skew several => absurd ⟨skew, several⟩ narrow

end

theorem rowKeptCoefficientsLockTimeout_ends {s : State} {n b : Nat} (run : s.sys.run = .running)
    (timer : (portAt s n).timer = .kept b) (ended : b ≤ s.beat) : rowKeptCoefficientsLockTimeout n s =
      if trains s n (portAt s n).mode then modPort s n fun p =>
        { p with state := 3, kept := false, modeActive := 0, fecActive := 0, timer := .train (b + 2250000) }
      else failBringUp s n 2 := by
  simp [rowKeptCoefficientsLockTimeout, whenRun_running run, timer, due_of_le ended]

/-- Settles O14: each timer's end, and the lanes' skew. -/
theorem failedBringUpWaits : Obligations.FailedBringUpWaits := by
  refine ⟨?_, ?_, ?_⟩
  · intro s n b ⟨run, hs⟩ train timer ended
    refine ⟨_, next_row hs (rowTrainingTimeout n), ?_⟩
    rw [rowTrainingTimeout_fails run timer ended]
    exact portAt_failBringUp (by omega) 1
  · intro s n b k ⟨run, hs⟩ hn lock timer ended
    refine ⟨_, next_row hs (rowLockTimeout n k), ?_⟩
    by_cases wide : 240 < k ∧ 2 ≤ modeLanes (portAt s n).mode
    · rw [if_pos wide, rowLockTimeout_fails_wide run hn lock timer wide.1 wide.2]
      have below : (portAt (modPort s n fun p => { p with skew := k % 65536 }) n).state ≠ 5 := by
        simp [lock]
      exact portAt_failBringUp below 3
    · rw [if_neg wide, rowLockTimeout_fails_late run hn lock timer wide (ended.resolve_right wide)]
      exact portAt_failBringUp (by omega) 2
  · intro s n b ⟨run, hs⟩ lock timer ended
    refine ⟨_, next_row hs (rowKeptCoefficientsLockTimeout n), ?_⟩
    rw [rowKeptCoefficientsLockTimeout_ends run timer ended]
    by_cases trains : trains s n (portAt s n).mode = true
    · simp only [trains, if_true, portAt_modPort, and_self]
    · rw [if_neg trains, if_neg trains]
      obtain ⟨down, cause, -⟩ := portAt_failBringUp (s := s) (n := n) (by omega) 2
      exact ⟨down, cause⟩

end Sys2Proof.Machine

namespace Sys2Proof.Machine

/-! ## A port leaves UP (O15) -/

/-! ### Link-loss handling (R381) -/

theorem portAt_enterFlush (s : State) (n : Nat) :
    (portAt (enterFlush s n) n).link = 2 ∧ (portAt (enterFlush s n) n).state = (portAt s n).state := by
  unfold enterFlush
  split
  next flush => exact ⟨flush, rfl⟩
  · simp only [portAt_modPort, and_self]

/-- A hold time of 0 puts the port in FLUSH, and another in HOLD until its end. -/
theorem portAt_linkLost (s : State) (n : Nat) :
    (portAt (linkLost s n) n).link = (if rw s (0x6100 + n) 0x15 = 0 then 2 else 1) ∧
      (rw s (0x6100 + n) 0x15 ≠ 0 →
        (portAt (linkLost s n) n).holdEnd = beatAfter s (rw s (0x6100 + n) 0x15 * 1250)) := by
  have cut := cutTransmit_touches s n
  unfold linkLost
  dsimp only
  rw [cut.rw]
  split
  next none => exact ⟨(portAt_enterFlush ..).1, (absurd none ·)⟩
  · simp only [portAt_modPort, cut.beatAfter, true_and]
    exact fun _ => trivial

/-- A port that goes from UP to DOWN begins link-loss handling. -/
theorem portAt_portDown_link {s : State} {n : Nat} (up : (portAt s n).state = 5) (t : PortTimer) :
    (portAt (portDown s n t) n).link = (if rw s (0x6100 + n) 0x15 = 0 then 2 else 1) ∧
      (rw s (0x6100 + n) 0x15 ≠ 0 →
        (portAt (portDown s n t) n).holdEnd = beatAfter s (rw s (0x6100 + n) 0x15 * 1250)) := by
  have cut := (cutReceive_touches (lanesBack s n) n).after
    ((lanesBack_touches s n).within (P := [.system, .packets, .ports, .lanes, .buffer, .pipes, .rings, .arbiters,
      .sessions, .counters, .out]))
  rw [portAt_portDown, leaveUp, if_pos up]
  simp only [(raiseEv_touches ..).portAt, portAt_modPort]
  rw [← cut.rw, ← cut.beatAfter]
  exact portAt_linkLost ..

/-! ### A port with no frame in transfer -/

/-- No frame is being received or sent at the port. -/
def Idle (s : State) (n : Nat) : Prop := (portAt s n).rx = none ∧ (portAt s n).tx = none

theorem cutReceive_of_idle {s : State} {n : Nat} (idle : Idle s n) : cutReceive s n = s := by
  rw [cutReceive, idle.1, Option.bind_none]

theorem cutTransmit_of_idle {s : State} {n : Nat} (idle : Idle s n) : cutTransmit s n = s := by
  rw [cutTransmit, idle.2]

/-- From s to t no port but n changes, and n receives and sends what it did. -/
structure OnlyPort (n : Nat) (s t : State) : Prop where
  frame : Touches [.system, .ports, .lanes, .sessions, .counters] s t
  others : ∀ k, k ≠ n → portAt t k = portAt s k
  rx : (portAt t n).rx = (portAt s n).rx
  tx : (portAt t n).tx = (portAt s n).tx

namespace OnlyPort

variable {n : Nat} {s t u : State}

theorem trans (h : OnlyPort n s t) (k : OnlyPort n t u) : OnlyPort n s u where
  frame := h.frame.trans k.frame
  others := fun j hj => (k.others j hj).trans (h.others j hj)
  rx := k.rx.trans h.rx
  tx := k.tx.trans h.tx

theorem of_touches {P : List Part} (h : Touches P s t)
    (hP : inside P [.system, .ports, .lanes, .sessions, .counters] = true := by rfl)
    (ports : among P .ports = false := by rfl) : OnlyPort n s t where
  frame := h.within hP
  others := fun k _ => h.portAt k ports
  rx := congrArg Port.rx (h.portAt n ports)
  tx := congrArg Port.tx (h.portAt n ports)

theorem modPort {f : Port → Port} (h : ∀ p, (f p).rx = p.rx ∧ (f p).tx = p.tx) : OnlyPort n s (modPort s n f) where
  frame := (modPort_touches ..).within
  others := fun _ => portAt_modPort_ne _ _
  rx := by rw [portAt_modPort, (h _).1]
  tx := by rw [portAt_modPort, (h _).2]

theorem idle (h : OnlyPort n s t) {k : Nat} (idle : Idle s k) : Idle t k := by
  unfold Idle
  by_cases hk : k = n
  · subst hk
    rw [h.rx, h.tx]
    exact idle
  · rw [h.others k hk]
    exact idle

end OnlyPort

theorem enterFlush_onlyPort (s : State) (n : Nat) : OnlyPort n s (enterFlush s n) := by
  unfold enterFlush
  split
  · exact .of_touches (P := []) .refl
  · exact .modPort fun _ => ⟨rfl, rfl⟩

theorem linkLost_onlyPort {s : State} {n : Nat} (idle : Idle s n) : OnlyPort n s (linkLost s n) := by
  unfold linkLost
  rw [cutTransmit_of_idle idle]
  dsimp only
  split
  · exact enterFlush_onlyPort s n
  · exact .modPort fun _ => ⟨rfl, rfl⟩

theorem leaveUp_onlyPort {s : State} {n : Nat} (idle : Idle s n) (k : Nat) : OnlyPort n s (leaveUp s n k) := by
  have lanes : OnlyPort n s (lanesBack s n) := .of_touches (lanesBack_touches ..)
  unfold leaveUp
  rw [cutReceive_of_idle (lanes.idle idle)]
  split
  · extract_lets s₁ s₂
    have hs₂ : OnlyPort n s₁ s₂ := .modPort fun _ => ⟨rfl, rfl⟩
    have told : OnlyPort n s₂ (raiseEv s₂ evLinkDown n []) := .of_touches (raiseEv_touches ..)
    exact lanes.trans ((linkLost_onlyPort (lanes.idle idle)).trans (hs₂.trans told))
  · exact .modPort fun _ => ⟨rfl, rfl⟩

theorem portDown_onlyPort {s : State} {n : Nat} (idle : Idle s n) (t : PortTimer) :
    OnlyPort n s (portDown s n t) := by
  unfold portDown
  exact (leaveUp_onlyPort idle 0).trans (.trans (.of_touches (modLanes_touches ..)) (.modPort fun _ => ⟨rfl, rfl⟩))

/-! ### The ports of a pipe (R106) -/

/-- A fold establishes what one of its steps does, where every step keeps an invariant and what has been done. -/
theorem foldl_establishes {α : Type} {I D : State → Prop} {f : State → α → State} {a : α} {l : List α}
    (ha : a ∈ l) {s : State} (start : I s) (inv : ∀ t, ∀ b ∈ l, I t → I (f t b)) (does : ∀ t, I t → D (f t a))
    (keeps : ∀ t, ∀ b ∈ l, b ≠ a → I t → D t → D (f t b)) : I (l.foldl f s) ∧ D (l.foldl f s) := by
  obtain ⟨l₁, l₂, rfl⟩ := List.append_of_mem ha
  rw [List.foldl_append, List.foldl_cons]
  have before : I (l₁.foldl f s) :=
    List.foldlRecOn _ _ start fun t ht b hb => inv t b (List.mem_append_left _ hb) ht
  refine List.foldlRecOn (motive := fun t => I t ∧ D t) _ _ ⟨inv _ a ha before, does _ before⟩ fun t ht b hb => ?_
  have hb : b ∈ l₁ ++ a :: l₂ := List.mem_append_right _ (List.mem_cons_of_mem _ hb)
  refine ⟨inv t b hb ht.1, ?_⟩
  by_cases h : b = a
  · exact h ▸ does t ht.1
  · exact keeps t b hb h ht.1 ht.2

/-- The port nodes of a pipe. -/
def pipePorts (p : Nat) : List Nat := (List.range 16).map (16 * p + ·)

theorem mem_pipePorts {p n : Nat} : n ∈ pipePorts p ↔ ∃ i < 16, n = 16 * p + i := by
  simp only [pipePorts, List.mem_map, List.mem_range, eq_comm]

/-- What the loss of its reference clock does to a port. -/
def clockLost (s : State) (n : Nat) : State :=
  if portEnabled s n then modPort (portDown s n .none) n fun p => { p with failCause := 4 } else s

theorem clockLost_onlyPort {s : State} {n : Nat} (idle : Idle s n) : OnlyPort n s (clockLost s n) := by
  unfold clockLost
  split
  · exact (portDown_onlyPort idle .none).trans (.modPort fun _ => ⟨rfl, rfl⟩)
  · exact .of_touches (P := []) .refl

theorem portAt_clockLost {s : State} {n : Nat} (enabled : portEnabled s n = true) :
    (portAt (clockLost s n) n).state = 0 ∧ (portAt (clockLost s n) n).failCause = 4 := by
  simp only [clockLost, enabled, if_true, portAt_modPort, portAt_portDown, portAt_leaveUp_state, and_self]

theorem clockLost_ports {s : State} {p n : Nat} (idle : ∀ k ∈ pipePorts p, Idle s k) (hn : n ∈ pipePorts p)
    (enabled : portEnabled s n = true) :
    (portAt ((pipePorts p).foldl clockLost s) n).state = 0 ∧
      (portAt ((pipePorts p).foldl clockLost s) n).failCause = 4 := by
  refine (foldl_establishes (I := fun t => portEnabled t n = true ∧ ∀ k ∈ pipePorts p, Idle t k)
    (D := fun t => (portAt t n).state = 0 ∧ (portAt t n).failCause = 4) hn ⟨enabled, idle⟩
    (fun t b hb ⟨enabled, idle⟩ => ?_)
    (fun t ⟨enabled, _⟩ => portAt_clockLost enabled)
    fun t b hb ne ⟨_, idle⟩ done => ?_).2
  · have step := clockLost_onlyPort (idle b hb)
    exact ⟨(step.frame.portEnabled n).trans enabled, fun k hk => step.idle (idle k hk)⟩
  · rw [(clockLost_onlyPort (idle b hb)).others n ne.symm]
    exact done

theorem clockLost_frame {s : State} {p : Nat} (idle : ∀ k ∈ pipePorts p, Idle s k) :
    Touches [.system, .ports, .lanes, .sessions, .counters] s ((pipePorts p).foldl clockLost s) := by
  refine (List.foldlRecOn (motive := fun t => Touches _ s t ∧ ∀ k ∈ pipePorts p, Idle t k) _ _ ⟨.refl, idle⟩
    fun t ⟨frame, idle⟩ b hb => ?_).1
  have step := clockLost_onlyPort (idle b hb)
  exact ⟨frame.trans step.frame, fun k hk => step.idle (idle k hk)⟩

/-- The pipe without its reference clock, before its ports are told. -/
def clockGone (s : State) (p : Nat) : State :=
  raiseEv (modPipe s p fun k => { k with refclkLost := true, refclkAt := s.beat }) evRefclkLost p []

theorem clockGone_touches (s : State) (p : Nat) :
    Touches [.system, .pipes, .sessions, .counters] s (clockGone s p) :=
  (raiseEv_touches ..).after (modPipe_touches ..).within

theorem rowSerRefclkLost_downs {s : State} {p : Nat} (run : s.sys.run = .running) (hp : p < 8)
    (good : (pipeAt s p).refclkLost = false) :
    rowSerRefclkLost p s = (pipePorts p).foldl clockLost (clockGone s p) := by
  rw [rowSerRefclkLost, whenRun_running run, good, decide_eq_true hp]
  rfl

/-! ### The events -/

theorem rowLinkDown_downs {s : State} {n : Nat} (run : s.sys.run = .running) (hn : n < 130)
    (up : (portAt s n).state = 5) : rowLinkDown n s = portDown s n (restartTimer s n) := by
  rw [rowLinkDown, whenRun_running run, (portIn_iff hn).2 up, Bool.true_or, guardS_true]

theorem bit_setBit (v c : Nat) : bit (setBit v c true) c = true := by
  unfold bit setBit
  split
  next set => exact set
  next clear =>
    rw [if_pos rfl, Nat.add_comm, Nat.testBit_two_pow_add_eq, Bool.eq_false_of_not_eq_true clear, Bool.not_false]

/-- A fault takes an UP port to LOCK and is recorded. -/
theorem portAt_rowLinkHiBer {s : State} {n c : Nat} (run : s.sys.run = .running) (hn : n < 130)
    (up : (portAt s n).state = 5) (hc : c < 3) :
    (portAt (rowLinkHiBer n c s) n).state = 4 ∧ bit (portAt (rowLinkHiBer n c s) n).faults c = true := by
  rw [rowLinkHiBer, whenRun_running run, endStep_of_ne (by omega)]
  extract_lets t new s₁ s₂
  have hs₁ : portAt s₁ n = portAt s n := (Touches.ite (raiseEv_touches ..) .refl :
    Touches [.system, .sessions, .counters] s s₁).portAt n
  have hs₂ : s₂ = leaveUp s₁ n 4 := if_pos (by rw [isUp, hs₁, up]; rfl)
  rw [(portIn_iff hn).2 up, decide_eq_true hc, Bool.true_or, Bool.and_self, guardS_true, hs₂, portAt_modPort]
  exact ⟨portAt_leaveUp_state .., bit_setBit ..⟩

/-- A port that is disabled is DOWN and in FLUSH. -/
theorem portDisableEff_downs {s : State} {n : Nat} (enabled : portEnabled s n = true) :
    ∃ t, portDisableEff n s = some t ∧ stored t (0x3100 + n) 2 noRow = keptRow (0x3100 + n) 2 noRow [0] ∧
      (portAt t n).state = 0 ∧ (portAt t n).link = 2 := by
  refine ⟨_, rfl, ?_⟩
  simp only [enabled, if_true]
  have put := setRw_touches (portDown s n .none) (0x3100 + n) 2 noRow [0]
  have read := stored_setRw (portDown s n .none) (0x3100 + n) 2 noRow [0]
  generalize setRw (portDown s n .none) (0x3100 + n) 2 noRow [0] = t at put read ⊢
  have lanes := modLanes_touches t (footprint s n) laneOff
  obtain ⟨flush, state⟩ := portAt_enterFlush (modLanes t (footprint s n) laneOff) n
  rw [portAt_modPort]
  refine ⟨?_, ?_, flush⟩
  · exact (((modPort_touches ..).after ((enterFlush_touches ..).after lanes.within) :
      Touches [.lanes, .ports] t _).stored ..).trans read
  · rw [state, lanes.portAt, put.portAt, portAt_portDown]
    exact portAt_leaveUp_state ..

/-! ### The objects of ports and lanes keep every bit -/

theorem findMask_eq_none {idx sub : Nat} {l : List (Nat × Nat × Nat × Nat)}
    (h : ∀ e ∈ l, e.2.2.1 = sub → e.1 ≤ idx → e.1 + e.2.1 ≤ idx) : findMask idx sub l = none := by
  induction l with
  | nil => rfl
  | cons e l ih =>
    obtain ⟨from_, count, sub', mask⟩ := e
    have rest := ih fun e he => h e (List.mem_cons_of_mem _ he)
    have here := h _ List.mem_cons_self
    simp only [findMask, rest]
    split
    next hs =>
      split
      next hi => exact if_neg (Nat.not_lt.2 (here hs hi))
      · rfl
    · rfl

/-- Of the objects of lanes and ports only `port.an.modes` has reserved bits. -/
theorem keptRow_of_line {idx sub : Nat} (from_ : 0x3000 ≤ idx) (below : idx < 0x3200) (other : sub ≠ 5) (v : Bytes) :
    keptRow idx sub noRow v = v := by
  have masks : ∀ e ∈ keepMasks, e.1 + e.2.1 ≤ 0x3000 ∨ 0x3200 ≤ e.1 ∨ e.2.2.1 = 5 := by decide
  have none : findMask idx sub keepMasks = none := findMask_eq_none fun e he hs hi => by
    rcases masks e he with h | h | h <;> omega
  unfold keptRow keptValue
  rw [none, if_neg (by simp; omega), if_neg (by simp; omega)]

/-- Settles O15, by what a port leaves as it goes from UP, and by each of the pipe's ports in turn. -/
theorem portLeavesUp : Obligations.PortLeavesUp := by
  refine ⟨?_, ?_, ?_, ?_⟩
  · intro s n ⟨run, hs⟩ hn up
    refine ⟨_, next_row hs (rowLinkDown n), ?_⟩
    rw [rowLinkDown_downs run hn up]
    refine ⟨?_, ?_, ?_, fun _ _ _ => portAt_portDown_link up _⟩
    · rw [portAt_portDown]
      exact portAt_leaveUp_state ..
    · rw [portAt_portDown]
    · rw [portAt_portDown]
      rfl
  · intro s n c ⟨run, hs⟩ hn up hc
    exact ⟨_, next_row hs (rowLinkHiBer n c), portAt_rowLinkHiBer run hn up hc⟩
  · intro s p ⟨run, hs⟩ hp good idle
    refine ⟨_, next_row hs (rowSerRefclkLost p), ?_⟩
    have gone := clockGone_touches s p
    have idle : ∀ k ∈ pipePorts p, Idle (clockGone s p) k := fun k hk => by
      obtain ⟨i, hi, rfl⟩ := mem_pipePorts.1 hk
      unfold Idle
      rw [gone.portAt]
      exact idle i hi
    rw [rowSerRefclkLost_downs run hp good]
    refine ⟨?_, fun i hi enabled => ?_⟩
    · rw [(clockLost_frame idle).pipeAt p, clockGone, (raiseEv_touches ..).pipeAt p, pipeAt_modPipe]
    · exact clockLost_ports idle (mem_pipePorts.2 ⟨i, hi, rfl⟩) ((gone.portEnabled _).trans enabled)
  · intro s src n hn may enabled
    refine ⟨_, next_row may.1.2 (rowPortDisable src n), ?_⟩
    obtain ⟨m, writes⟩ := may.writes (portDisableEff n)
    obtain ⟨u, done, put, down, flush⟩ := portDisableEff_downs (s := { s with mabin := m }) enabled
    have counted := writes u done
    unfold rowPortDisable
    rw [counted.stored, counted.portAt]
    exact ⟨put.trans (keptRow_of_line (by omega) (by omega) (by decide) _), down, flush⟩

end Sys2Proof.Machine

namespace Sys2Proof.Machine

/-! ## Bring-up starts (O12) -/

/-! ### Objects of ports and lanes that are written -/

/-- The objects of lanes and ports are in force at once. -/
theorem nextBeat_of_line {idx : Nat} (from_ : 0x3000 ≤ idx) (below : idx < 0x3200) (sub : Nat) :
    nextBeat idx sub = false := by
  simp [nextBeat]
  omega

theorem keyOf_inj {idx sub idx' sub' : Nat} (h : sub < 256) (h' : sub' < 256)
    (e : keyOf idx sub noRow = keyOf idx' sub' noRow) : idx = idx' ∧ sub = sub' := by
  have e : (idx * 256 + sub) * 2 ^ 32 + noRow = (idx' * 256 + sub') * 2 ^ 32 + noRow := e
  omega

theorem held_setRw (s : State) {idx sub : Nat} (v : Bytes) (now : nextBeat idx sub = false) :
    (setRw s idx sub noRow v).held = s.held := by
  simp [setRw, now]

/-- A write of an object in force at once changes no other object's value. -/
theorem rw_setRw_ne (s : State) {idx sub idx' sub' : Nat} (v : Bytes) (now : nextBeat idx sub = false) (hs : sub < 256)
    (hs' : sub' < 256) (ne : idx' ≠ idx ∨ sub' ≠ sub) : rw (setRw s idx sub noRow v) idx' sub' = rw s idx' sub' := by
  have other : keyOf idx' sub' noRow ≠ keyOf idx sub noRow := fun e => by
    obtain ⟨rfl, rfl⟩ := keyOf_inj hs' hs e
    simp at ne
  have objs : tfind (setRw s idx sub noRow v).objs (keyOf idx' sub' noRow) = tfind s.objs (keyOf idx' sub' noRow) := by
    unfold setRw putCfg tput
    dsimp only
    split
    · exact tfind_terase_ne _ other
    · exact tfind_tins_ne _ _ other
  simp only [rw, rwRow, stored, objs, held_setRw s v now]

/-- An object whose value is in force at once reads as written. -/
theorem rw_setRw_self (s : State) {idx sub : Nat} (v : Bytes) (now : nextBeat idx sub = false)
    (free : tfind s.held (keyOf idx sub noRow) = none) :
    rw (setRw s idx sub noRow v) idx sub = natOf (keptRow idx sub noRow v) := by
  simp only [rw, rwRow, held_setRw s v now, free, stored_setRw]

/-! ### From DOWN -/

/-- The state in which bring-up starts: NEGOTIATE with Clause 73, else STEP (R102). -/
theorem portAt_startBringUp {s : State} {n : Nat} (clock : clockGood s n = true) (lanes : lanesWanted s n = true)
    (mode : portMode s n ≠ 0) : (portAt (startBringUp s n) n).state = if portAn s n = 1 then 1 else 2 := by
  unfold startBringUp
  extract_lets s₁ s₂ m
  have hs₂ : Touches [.ports, .lanes] s s₂ := (askedPowers_touches ..).after (modPort_touches ..).within
  have ready : ¬(!clockGood s₂ n || !lanesWanted s₂ n || portMode s₂ n = 0) = true := by
    rw [hs₂.clockGood, hs₂.lanesWanted, hs₂.portMode, clock, lanes]
    simpa using mode
  rw [if_neg ready, hs₂.portAn]
  split
  · rw [portAt_modPort]
  · exact (portAt_enterStep ..).1

/-- What bring-up of a port reads stays as the port is enabled. -/
theorem portEnable_reads (s : State) {n : Nat} (hn : n < 130) :
    let t := setRw s (0x3100 + n) 2 noRow [1]
    portMode t n = portMode s n ∧ portAn t n = portAn s n ∧ lanesWanted t n = lanesWanted s n := by
  intro t
  have now : nextBeat (0x3100 + n) 2 = false := nextBeat_of_line (by omega) (by omega) 2
  have read (idx sub : Nat) (hs : sub < 256) (ne : idx ≠ 0x3100 + n ∨ sub ≠ 2) : rw t idx sub = rw s idx sub :=
    rw_setRw_ne s _ now (by decide) hs ne
  have mode : portMode t n = portMode s n := read _ _ (by decide) (.inr (by decide))
  refine ⟨mode, read _ _ (by decide) (.inr (by decide)), ?_⟩
  unfold lanesWanted footprint
  rw [mode]
  rw [Bool.eq_iff_iff, List.all_eq_true, List.all_eq_true]
  refine forall₂_congr fun l hl => ?_
  obtain ⟨i, hi, rfl⟩ := mem_lanesOf.1 hl
  have := modeLanes_le (portMode s n)
  rw [read _ _ (by decide) (.inl (by omega))]

/-- Enabling a port starts its bring-up and stores 1. -/
theorem portEnableEff_starts {s : State} {n : Nat} (hn : n < 130) (disabled : portEnabled s n = false)
    (ok : enableOk s n = true) (room : reservesOk { setRw s (0x3100 + n) 2 noRow [1] with held := [] } = true)
    (clock : clockGood s n = true) (lanes : lanesWanted s n = true) (mode : portMode s n ≠ 0) :
    ∃ t, portEnableEff n s = some t ∧ stored t (0x3100 + n) 2 noRow = [1] ∧
      (portAt t n).state = if portAn s n = 1 then 1 else 2 := by
  obtain ⟨sameMode, an, wanted⟩ := portEnable_reads s hn
  have clock' : clockGood (setRw s (0x3100 + n) 2 noRow [1]) n = true := ((setRw_touches ..).clockGood n).trans clock
  refine ⟨startBringUp (setRw s (0x3100 + n) 2 noRow [1]) n, ?_, ?_, ?_⟩
  · simpa [portEnableEff, disabled, ok] using room
  · rw [(startBringUp_touches ..).stored, stored_setRw, keptRow_of_line (by omega) (by omega) (by decide)]
  · rw [portAt_startBringUp clock' (wanted.trans lanes) (sameMode.trans_ne mode), an]

theorem rowRestartDelayExpiry_starts {s : State} {n b : Nat} (run : s.sys.run = .running)
    (timer : (portAt s n).timer = .restart b) (ended : b ≤ s.beat) (enabled : portEnabled s n = true) :
    rowRestartDelayExpiry n s = startBringUp s n := by
  simp [rowRestartDelayExpiry, whenRun_running run, timer, due_of_le ended, enabled]

/-! ### The ports of a pipe (R106) -/

/-- What the return of its reference clock does to a port. -/
def clockBack (s : State) (n : Nat) : State := if portEnabled s n then startBringUp s n else s

theorem clockBack_touches (s : State) (n : Nat) : Touches [.ports, .lanes] s (clockBack s n) := by
  unfold clockBack
  exact .ite (startBringUp_touches ..) .refl

theorem portAt_clockBack_ne {s : State} {n k : Nat} (h : k ≠ n) : portAt (clockBack s n) k = portAt s k := by
  unfold clockBack
  split
  · exact portAt_startBringUp_ne h
  · rfl

theorem clockBack_ports {s : State} {p n : Nat} (hn : n ∈ pipePorts p) (enabled : portEnabled s n = true)
    (clock : clockGood s n = true) (lanes : lanesWanted s n = true) (mode : portMode s n ≠ 0) :
    (portAt ((pipePorts p).foldl clockBack s) n).state = if portAn s n = 1 then 1 else 2 := by
  refine (foldl_establishes (I := fun t => Touches [.ports, .lanes] s t)
    (D := fun t => (portAt t n).state = if portAn s n = 1 then 1 else 2) hn .refl
    (fun t b _ ht => ht.trans (clockBack_touches t b)) (fun t ht => ?_) fun t b _ ne _ done => ?_).2
  · rw [clockBack, ht.portEnabled, if_pos enabled, portAt_startBringUp ((ht.clockGood n).trans clock)
      ((ht.lanesWanted n).trans lanes) ((ht.portMode n).trans_ne mode), ht.portAn]
  · rw [portAt_clockBack_ne ne.symm]
    exact done

theorem rowSerRefclkRestored_starts {s : State} {p : Nat} (run : s.sys.run = .running) (hp : p < 8)
    (lost : (pipeAt s p).refclkLost = true) (ended : (pipeAt s p).refclkAt + 1250000 ≤ s.beat) :
    rowSerRefclkRestored p s =
      (pipePorts p).foldl clockBack (modPipe s p fun k => { k with refclkLost := false }) := by
  rw [rowSerRefclkRestored, whenRun_running run, lost, decide_eq_true hp, due_of_le ended]
  rfl

/-- Settles O12: each way into bring-up, with what it reads as the write or the clock leaves it. -/
theorem bringUpStarts : Obligations.BringUpStarts := by
  refine ⟨?_, ?_, ?_⟩
  · intro s src n hn may disabled ok room clock lanes mode
    refine ⟨_, next_row may.1.2 (rowPortEnable src n), ?_⟩
    obtain ⟨m, writes⟩ := may.writes (portEnableEff n)
    obtain ⟨u, done, put, state⟩ :=
      portEnableEff_starts (s := { s with mabin := m }) hn disabled ok room clock lanes mode
    have counted := writes u done
    unfold rowPortEnable
    rw [counted.stored, counted.portAt]
    exact ⟨put, state⟩
  · intro s n b ⟨run, hs⟩ timer ended enabled clock lanes mode
    refine ⟨_, next_row hs (rowRestartDelayExpiry n), ?_⟩
    rw [rowRestartDelayExpiry_starts run timer ended enabled]
    exact portAt_startBringUp clock lanes mode
  · intro s p ⟨run, hs⟩ hp lost ended
    refine ⟨_, next_row hs (rowSerRefclkRestored p), ?_⟩
    rw [rowSerRefclkRestored_starts run hp lost ended]
    have back := modPipe_touches s p fun k => { k with refclkLost := false }
    have good : (pipeAt (modPipe s p fun k => { k with refclkLost := false }) p).refclkLost = false := by
      rw [pipeAt_modPipe]
    generalize (modPipe s p fun k => { k with refclkLost := false }) = t at back good ⊢
    refine ⟨?_, fun i hi enabled lanes mode => ?_⟩
    · rw [(Touches.foldl clockBack_touches .refl : Touches [.ports, .lanes] t _).pipeAt p]
      exact good
    · have pipe : nodePipe (16 * p + i) = p := by
        rw [nodePipe, if_pos (by omega)]
        omega
      have clock : clockGood t (16 * p + i) = true := by
        rw [clockGood, pipe, good, Bool.not_false, Bool.or_true]
      rw [clockBack_ports (mem_pipePorts.2 ⟨i, hi, rfl⟩) ((back.portEnabled _).trans enabled) clock
        ((back.lanesWanted _).trans lanes) ((back.portMode _).trans_ne mode), back.portAn]

end Sys2Proof.Machine

namespace Sys2Proof.Machine

/-! ## Search mode and lane power (O16) -/

/-! ### Search mode (R108 to R110) -/

/-- Search takes an UP port of a mode with sync headers to LOCK, with no timer. -/
theorem searchEnter_locks {s : State} {l n : Nat} (hl : l < 130) (port : portOfLane s l = some n)
    (up : (portAt s n).state = 5) (mode : (portAt s n).mode ∈ [2, 3, 5]) (fresh : rwBool s (0x3000 + l) 0x0B = false) :
    ∃ t, searchEnter l s = some t ∧ stored t (0x3000 + l) 0x0B noRow = [1] ∧ (portAt t n).state = 4 ∧
      (portAt t n).timer = .none := by
  have headers : [2, 3, 5].contains (usedMode s n) = true := by
    simpa [usedMode, up] using mode
  unfold searchEnter
  split
  next none => exact absurd (none.symm.trans port) (by simp)
  next k found =>
  obtain rfl : n = k := Option.some.inj (port.symm.trans found)
  rw [headers, fresh, Bool.not_true, if_neg Bool.false_ne_true, if_neg Bool.false_ne_true]
  extract_lets s₁ s₂
  have hs₂ : Touches [.lanes] s₁ s₂ := modLane_touches ..
  have stays : isUp s₂ n = true := by
    rw [isUp, hs₂.portAt, (setRw_touches ..).portAt, up]
    rfl
  refine ⟨_, if_pos stays, ?_, ?_⟩
  · rw [(modPort_touches ..).stored, (leaveUp_touches ..).stored, hs₂.stored, stored_setRw,
      keptRow_of_line (by omega) (by omega) (by decide)]
  · simp only [portAt_modPort, portAt_leaveUp_state, and_self]

theorem searchSlip_starts {s : State} {l : Nat} (u : Nat) (free : (laneAt s l).busy = false) :
    ∃ t, searchSlip l u s = some t ∧ (laneAt t l).busy = true ∧
      (laneAt t l).offset = ((laneAt s l).offset + u) % 66 := by
  refine ⟨_, if_neg (by simp [free]), ?_⟩
  simp only [laneAt_modLane, and_self]

theorem laneAt_rowLaneSearchWindowEnd {s : State} {l e : Nat} (run : s.sys.run = .running)
    (busy : (laneAt s l).busy = true) (ended : (laneAt s l).windowEnd ≤ s.beat) (he : e ≤ (laneAt s l).window) :
    (laneAt (rowLaneSearchWindowEnd l e s) l).busy = false ∧ (laneAt (rowLaneSearchWindowEnd l e s) l).done = true ∧
      (laneAt (rowLaneSearchWindowEnd l e s) l).errors = e % 2 ^ 23 := by
  simp only [rowLaneSearchWindowEnd, whenRun_running run, busy, due_of_le ended, he, decide_true, Bool.and_self,
    guardS_true, laneAt_modLane, and_self]

/-- A lane that leaves search stores 0. -/
theorem searchExit_stores (s : State) {l : Nat} (hl : l < 130) :
    ∃ t, searchExit l s = some t ∧ stored t (0x3000 + l) 0x0B noRow = [0] := by
  have put : stored (setRw s (0x3000 + l) 0x0B noRow [0]) (0x3000 + l) 0x0B noRow = [0] := by
    rw [stored_setRw, keptRow_of_line (by omega) (by omega) (by decide)]
  unfold searchExit
  extract_lets t
  split
  · exact ⟨_, rfl, put⟩
  · refine ⟨_, rfl, ?_⟩
    split
    · exact put
    · rw [(modPort_touches ..).stored, put]

/-! ### Lane power (R111 to R113) -/

theorem lt_of_portOfLane {s : State} {l n : Nat} (h : portOfLane s l = some n) : n < 130 := by
  have enabled (k : Nat) (h : portEnabled s k = true) : k < 130 := by
    simp only [portEnabled, Bool.and_eq_true, decide_eq_true_eq] at h
    exact h.1
  unfold portOfLane at h
  split at h
  · split at h
    next on => exact Option.some.inj h ▸ enabled _ on
    · cases h
  · have := List.find?_some h
    simp only [Bool.and_eq_true] at this
    exact enabled _ this.1

/-- A lane of a port's footprint has its objects among those of lanes. -/
theorem lt_of_mem_footprint {s : State} {n x : Nat} (hn : n < 130) (h : x ∈ footprint s n) : x < 138 := by
  obtain ⟨i, hi, rfl⟩ := mem_lanesOf.1 h
  have := modeLanes_le (portMode s n)
  omega

/-- A write of `lane.power` leaves what is in force of every other object. -/
theorem rw_putPower_ne (s : State) {ls : List Nat} (lines : ∀ x ∈ ls, x < 138) (v : Nat) {idx sub : Nat}
    (hs : sub < 256) (ne : sub ≠ 2) : rw (putPower s ls v) idx sub = rw s idx sub := by
  refine List.foldlRecOn (motive := fun t => rw t idx sub = rw s idx sub) _ _ rfl fun t ht x hx => ?_
  have := lines x hx
  exact (rw_setRw_ne t _ (nextBeat_of_line (by omega) (by omega) 2) (by decide) hs (.inr ne)).trans ht

/-- A lane whose power is written as 0 is asked to be ACTIVE. -/
theorem rw_putPower_mem (s : State) {ls : List Nat} (lines : ∀ x ∈ ls, x < 138) {x : Nat} (hx : x ∈ ls)
    (free : tfind s.held (keyOf (0x3000 + x) 2 noRow) = none) : rw (putPower s ls 0) (0x3000 + x) 2 = 0 := by
  have now (b : Nat) (hb : b ∈ ls) : nextBeat (0x3000 + b) 2 = false := by
    have := lines b hb
    exact nextBeat_of_line (by omega) (by omega) 2
  have := lines x hx
  refine (foldl_establishes (I := fun t => t.held = s.held) (D := fun t => rw t (0x3000 + x) 2 = 0) hx rfl
    (fun t b hb ht => (held_setRw t _ (now b hb)).trans ht) (fun t ht => ?_) fun t b hb ne _ done => ?_).2
  · rw [rw_setRw_self t _ (now x hx) (ht ▸ free), keptRow_of_line (by omega) (by omega) (by decide)]
    rfl
  · rw [rw_setRw_ne t _ (now b hb) (by decide) (by decide) (.inl (by omega))]
    exact done

theorem stored_putPower_single (s : State) {l : Nat} (hl : l < 130) (v : Nat) :
    stored (putPower s [l] v) (0x3000 + l) 2 noRow = bytesOf 1 v :=
  (stored_setRw ..).trans (keptRow_of_line (by omega) (by omega) (by decide) _)

section
variable (s : State) {n : Nat} (hn : n < 130) (v : Nat)

include hn

theorem portMode_putPower : portMode (putPower s (footprint s n) v) n = portMode s n :=
  rw_putPower_ne s (fun _ => lt_of_mem_footprint hn) v (by decide) (by decide)

theorem footprint_putPower : footprint (putPower s (footprint s n) v) n = footprint s n := by
  unfold footprint
  exact congrArg (lanesOf n) (portMode_putPower s hn v)

end

/-! ### A port's lanes sleep -/

theorem coeffs_modLanes (s : State) (ls : List Nat) {f : Lane → Lane} (h : ∀ x, (f x).coeffs = x.coeffs) (l : Nat) :
    (laneAt (modLanes s ls f) l).coeffs = (laneAt s l).coeffs := by
  refine List.foldlRecOn (motive := fun t => (laneAt t l).coeffs = (laneAt s l).coeffs) _ _ rfl fun t ht x _ => ?_
  by_cases hl : l = x
  · subst hl
    rw [laneAt_modLane, h, ht]
  · rw [laneAt_modLane_ne _ _ hl, ht]

/-- A port that goes down leaves its lanes their coefficients. -/
theorem coeffs_portDown (s : State) (n : Nat) (t : PortTimer) (l : Nat) :
    (laneAt (portDown s n t) l).coeffs = (laneAt s l).coeffs := by
  have back : (laneAt (lanesBack s n) l).coeffs = (laneAt s l).coeffs := by
    refine coeffs_modLanes _ _ (fun x => ?_) l
    rfl
  have left : (laneAt (leaveUp s n 0) l).coeffs = (laneAt s l).coeffs := by
    unfold leaveUp
    split
    · dsimp only
      rw [(raiseEv_touches ..).laneAt, (modPort_touches ..).laneAt, (linkLost_touches ..).laneAt,
        (cutReceive_touches ..).laneAt, back]
    · rw [(modPort_touches ..).laneAt]
  unfold portDown
  dsimp only
  rw [(modPort_touches ..).laneAt]
  refine (coeffs_modLanes _ _ (fun x => ?_) l).trans left
  rfl

/-- The lanes of a port that goes down keep their coefficients only in DEEP, and where they are told to. -/
theorem powerDown_lanes (s : State) (n v : Nat) {x : Nat} (hx : x ∈ footprint s n) :
    (laneAt (powerDown s n v) x).power = v ∧ (laneAt (powerDown s n v) x).coeffs =
      if v == 2 && rwBool s (0x3000 + x) 4 then (laneAt s x).coeffs else 0 := by
  unfold powerDown
  extract_lets ls keep p trained s₁ s₂
  have hs₂ : laneAt s₂ x = { laneAt s₁ x with power := v, coeffs := if keep x then (laneAt s₁ x).coeffs else 0 } :=
    (laneAt_foldl_modLane (fun l x => { x with power := v, coeffs := if keep l then x.coeffs else 0 })
      (footprint_nodup s n) s₁ x).trans (if_pos hx)
  rw [(modPort_touches ..).laneAt, hs₂]
  exact ⟨rfl, by rw [coeffs_portDown]⟩

theorem powerDown_down (s : State) (n v : Nat) : (portAt (powerDown s n v) n).state = 0 := by
  unfold powerDown
  extract_lets ls keep p trained s₁ s₂
  have hs₂ : Touches [.lanes] s₁ s₂ := .foldl (fun _ _ => modLane_touches ..) .refl
  rw [portAt_modPort, hs₂.portAt, portAt_portDown]
  exact portAt_leaveUp_state ..

/-! ### The writes of `lane.power` -/

/-- `lane.power` of a lane takes the value: ACTIVE, OFF, and DEEP on a SerDes lane (R111). -/
def PowerAllowed (l v : Nat) : Prop := v ≠ 1 ∧ v ≤ 3 ∧ (v = 2 → l < 128)

theorem PowerAllowed.not_refused {l v : Nat} (h : PowerAllowed l v) :
    ¬(v = 1 || 3 < v || (v = 2 && 128 ≤ l)) = true := by
  obtain ⟨notQuiet, inRange, serdes⟩ := h
  simp only [Bool.or_eq_true, Bool.and_eq_true, decide_eq_true_eq]
  omega

theorem all_power_eq_false {s : State} {ls : List Nat} {l v : Nat} (mem : l ∈ ls) (ne : rw s (0x3000 + l) 2 ≠ v) :
    (ls.all fun i => rw s (0x3000 + i) 2 == v) = false :=
  List.all_eq_false.2 ⟨l, mem, by simpa using ne⟩

section
variable {s : State} {l v : Nat} (ok : PowerAllowed l v)

include ok

/-- A lane outside every enabled port takes the value. -/
theorem lanePower_alone (alone : portOfLane s l = none) : lanePower l v s = some (putPower s [l] v) := by
  simp only [lanePower, if_neg ok.not_refused, powerLanes, alone]

/-- A lane of an enabled port that has another power takes its port with it. -/
theorem lanePower_port {n : Nat} (port : portOfLane s l = some n) (mem : l ∈ footprint s n)
    (other : rw s (0x3000 + l) 2 ≠ v) : lanePower l v s = some (
      if v = 0 then powerUp (putPower s (footprint s n) v) n
        (if (footprint s n).all fun i => rw s (0x3000 + i) 2 == 2 then 2 else 3)
      else powerDown (putPower s (footprint s n) v) n v) := by
  simp only [lanePower, if_neg ok.not_refused, powerLanes, port, all_power_eq_false mem other,
    Bool.false_eq_true, if_false]
  exact (apply_ite some ..).symm

end

/-- A port of which a lane leaves ACTIVE goes down, and all its lanes with it. -/
theorem lanePower_sleeps {s : State} {l v n : Nat} (ok : PowerAllowed l v) (hv : v ≠ 0)
    (port : portOfLane s l = some n) (mem : l ∈ footprint s n) (active : rw s (0x3000 + l) 2 = 0) :
    ∃ t, lanePower l v s = some t ∧ (portAt t n).state = 0 ∧ ∀ x, x ∈ footprint s n → (laneAt t x).power = v ∧
      (laneAt t x).coeffs = if v == 2 && rwBool s (0x3000 + x) 4 then (laneAt s x).coeffs else 0 := by
  have done := lanePower_port ok port mem (by omega)
  rw [if_neg hv] at done
  refine ⟨_, done, powerDown_down .., fun x hx => ?_⟩
  have hn := lt_of_portOfLane port
  have lanes := powerDown_lanes (putPower s (footprint s n) v) n v (by rwa [footprint_putPower s hn])
  rwa [rwBool, rw_putPower_ne s (fun _ => lt_of_mem_footprint hn) v (by decide) (by decide),
    (putPower_touches ..).laneAt] at lanes

/-- An accepted write of DEEP or OFF is stored, and a port of which a lane was ACTIVE goes down. -/
theorem lanePower_writes {s : State} {src : Origin} {l v : Nat} {b : Bytes} (hl : l < 130)
    (ok : PowerAllowed l v) (hv : v ≠ 0) (may : MayWrite s src (0x3000 + l) 2 noRow b) :
    let t := writeCmd s src (0x3000 + l) 2 noRow b (lanePower l v)
    (portOfLane s l = none → stored t (0x3000 + l) 2 noRow = bytesOf 1 v) ∧
      ∀ n, portOfLane s l = some n → l ∈ footprint s n → rw s (0x3000 + l) 2 = 0 → (portAt t n).state = 0 ∧
        ∀ x, x ∈ footprint s n → (laneAt t x).power = v ∧
          (laneAt t x).coeffs = if v == 2 && rwBool s (0x3000 + x) 4 then (laneAt s x).coeffs else 0 := by
  obtain ⟨m, writes⟩ := may.writes (lanePower l v)
  refine ⟨fun alone => ?_, fun n port mem active => ?_⟩
  · have done := lanePower_alone (s := { s with mabin := m }) ok alone
    exact ((writes _ done).stored ..).trans (stored_putPower_single _ hl v)
  · obtain ⟨u, done, sleeps⟩ := lanePower_sleeps (s := { s with mabin := m }) ok hv port mem active
    simp only [(writes u done).portAt, (writes u done).laneAt]
    exact sleeps

/-- A port whose lanes return from OFF starts bring-up. -/
theorem lanePower_wakes {s : State} {l n : Nat} (port : portOfLane s l = some n) (mem : l ∈ footprint s n)
    (off : rw s (0x3000 + l) 2 = 3) (clock : clockGood s n = true) (mode : portMode s n ≠ 0)
    (free : ∀ x, x ∈ footprint s n → tfind s.held (keyOf (0x3000 + x) 2 noRow) = none) :
    ∃ t, lanePower l 0 s = some t ∧ (portAt t n).state = if portAn s n = 1 then 1 else 2 := by
  have hn := lt_of_portOfLane port
  have lines : ∀ x ∈ footprint s n, x < 138 := fun _ => lt_of_mem_footprint hn
  have done := lanePower_port (v := 0) ⟨by decide, by decide, by omega⟩ port mem (by omega)
  rw [if_pos rfl, all_power_eq_false mem (by omega), if_neg Bool.false_ne_true] at done
  have clock' := ((putPower_touches s (footprint s n) 0).clockGood n).trans clock
  have wanted : lanesWanted (putPower s (footprint s n) 0) n = true := by
    rw [lanesWanted, footprint_putPower s hn, List.all_eq_true]
    exact fun x hx => beq_iff_eq.2 (rw_putPower_mem s lines hx (free x hx))
  have an : portAn (putPower s (footprint s n) 0) n = portAn s n := rw_putPower_ne s lines 0 (by decide) (by decide)
  exact ⟨_, done, (portAt_startBringUp clock' wanted ((portMode_putPower s hn 0).trans_ne mode)).trans
    (by rw [an])⟩

/-! ### LPI (R111) -/

theorem portAt_rowLpiEnter {s : State} {n : Nat} (run : s.sys.run = .running) (hn : n < 130)
    (up : (portAt s n).state = 5) (eee : rwBool s (0x3100 + n) 0x0B = true) (idle : (portAt s n).tx = none) :
    portAt (rowLpiEnter n s) n = { portAt s n with lpi := true } := by
  rw [rowLpiEnter, whenRun_running run, (portIn_iff hn).2 up, eee, idle, Option.isNone_none, Bool.and_self,
    Bool.and_self, guardS_true, portAt_modPort, (modLanes_touches ..).portAt]

theorem portAt_rowLpiWake {s : State} {n : Nat} (run : s.sys.run = .running) (lpi : (portAt s n).lpi = true) :
    portAt (rowLpiWake n s) n = { portAt s n with lpi := false } := by
  rw [rowLpiWake, whenRun_running run, lpi, guardS_true, portAt_modPort, (modLanes_touches ..).portAt]

/-- Settles O16: each write by its effect, and each event by its row. -/
theorem lanesSearchAndSleep : Obligations.LanesSearchAndSleep := by
  refine ⟨?_, ?_, ?_, ?_, ?_, ?_, ?_, ?_, ?_⟩
  · intro s src l n hl may port hn up mode fresh
    refine ⟨_, next_row may.1.2 (rowLaneSearchEnter src l), ?_⟩
    obtain ⟨m, writes⟩ := may.writes (searchEnter l)
    obtain ⟨u, done, put, lock⟩ := searchEnter_locks (s := { s with mabin := m }) hl port up mode fresh
    have counted := writes u done
    unfold rowLaneSearchEnter
    rw [counted.stored, counted.portAt]
    exact ⟨put, lock⟩
  · intro s src l k _ _ may free
    refine ⟨_, next_row may.1.2 (rowLaneSearchSlip src l k), ?_⟩
    obtain ⟨m, writes⟩ := may.writes (searchSlip l k)
    obtain ⟨u, done, slips⟩ := searchSlip_starts (s := { s with mabin := m }) k free
    unfold rowLaneSearchSlip
    rw [(writes u done).laneAt]
    exact slips
  · intro s l e ⟨run, hs⟩ busy ended he
    exact ⟨_, next_row hs (rowLaneSearchWindowEnd l e), laneAt_rowLaneSearchWindowEnd run busy ended he⟩
  · intro s src l hl may
    refine ⟨_, next_row may.1.2 (rowLaneSearchExit src l), ?_⟩
    obtain ⟨m, writes⟩ := may.writes (searchExit l)
    obtain ⟨u, done, put⟩ := searchExit_stores { s with mabin := m } hl
    exact ((writes u done).stored ..).trans put
  · intro s src l hl may
    have ok : PowerAllowed l 2 := ⟨by decide, by decide, fun _ => hl⟩
    exact ⟨_, next_row may.1.2 (rowLanePowerDeep src l), lanePower_writes (by omega) ok (by decide) may⟩
  · intro s src l hl may
    have ok : PowerAllowed l 3 := ⟨by decide, by decide, by omega⟩
    exact ⟨_, next_row may.1.2 (rowLanePowerOff src l), lanePower_writes hl ok (by decide) may⟩
  · intro s src l n _ may port mem off clock mode free
    refine ⟨_, next_row may.1.2 (rowLanePowerActive src l), ?_⟩
    obtain ⟨m, writes⟩ := may.writes (lanePower l 0)
    obtain ⟨u, done, wakes⟩ := lanePower_wakes (s := { s with mabin := m }) port mem off clock mode free
    exact (congrArg Port.state ((writes u done).portAt n)).trans wakes
  · intro s n ⟨run, hs⟩ hn up eee idle
    refine ⟨_, next_row hs (rowLpiEnter n), ?_⟩
    rw [portAt_rowLpiEnter run hn up eee idle]
    exact ⟨rfl, up⟩
  · intro s n ⟨run, hs⟩ lpi
    refine ⟨_, next_row hs (rowLpiWake n), ?_⟩
    rw [portAt_rowLpiWake run lpi]

end Sys2Proof.Machine

namespace Sys2Proof.Machine

/-! ## An entry and a key (O50) -/

/-- A unit matches when every compared bit, one whose mask bit is 1, has its value (R157). -/
theorem unitMatches_iff (u : TcamUnit) (k : Nat) :
    unitMatches u k = true ↔ ∀ b, u.mask.testBit b = true → k.testBit b = u.value.testBit b := by
  rw [unitMatches, beq_iff_eq]
  calc k &&& u.mask = u.value &&& u.mask
    _ ↔ ∀ b, (k &&& u.mask).testBit b = (u.value &&& u.mask).testBit b :=
      ⟨fun same b => by rw [same], Nat.eq_of_testBit_eq⟩
    _ ↔ ∀ b, u.mask.testBit b = true → k.testBit b = u.value.testBit b := by
      refine forall_congr' fun b => ?_
      rw [Nat.testBit_and, Nat.testBit_and]
      cases u.mask.testBit b with
      | false => simp only [Bool.and_false, Bool.false_eq_true, false_imp_iff]
      | true => simp only [Bool.and_true, forall_const]

/-- An entry matches when it is valid, holds the slot, and each of its units matches its part of the key. -/
theorem entryMatches_iff (t : Tbl TcamUnit) (n w slot key : Nat) :
    entryMatches t n w slot key = true ↔
      (tget TcamUnit.zero t n).valid = true ∧ bit (tget TcamUnit.zero t n).slots slot = true ∧
        ∀ i, i < w → unitMatches (tget TcamUnit.zero t (n + i)) (keyUnit key w i) = true := by
  simp only [entryMatches, Bool.and_eq_true, List.all_eq_true, List.mem_range, and_assoc]

/-- Settles O50: the entry's conditions, and in each unit the equality under the mask bit by bit. -/
theorem entriesMatchUnderTheirMask : Obligations.EntriesMatchUnderTheirMask := by
  intro t n w slot key
  simp only [entryMatches_iff, unitMatches_iff]

end Sys2Proof.Machine

namespace Sys2Proof.Machine

/-! ## The life of a version (O9) -/

/-! ### Slots -/

theorem slotAt_congr {s t : State} (h : t.ver.slots = s.ver.slots) (k : Nat) : slotAt t k = slotAt s k := by
  rw [slotAt, h, slotAt]

theorem slotAt_modSlot {s : State} {k : Nat} (h : k < s.ver.slots.length) (f : Slot → Slot) :
    slotAt (modSlot s k f) k = f (slotAt s k) := by
  simp [slotAt, modSlot, h]

theorem slotAt_modSlot_ne (s : State) {k j : Nat} (f : Slot → Slot) (h : j ≠ k) :
    slotAt (modSlot s k f) j = slotAt s j := by
  simp [slotAt, modSlot, h.symm]

@[simp] theorem length_slots_modSlot (s : State) (k : Nat) (f : Slot → Slot) :
    (modSlot s k f).ver.slots.length = s.ver.slots.length :=
  List.length_modify ..

/-- A slot past the last reads as FREE. -/
theorem lt_of_slotAt_state {s : State} {k : Nat} (h : (slotAt s k).state ≠ .free) : k < s.ver.slots.length := by
  by_contra out
  exact h (by simp [slotAt, List.getElem?_eq_none (not_lt.1 out), Slot.zero])

/-! ### SLOT_RESERVE (R190) -/

theorem mem_pending_modSealed {s : State} {q : Sealed} (h : q ∈ s.ver.pending) (f : Sealed → Sealed) :
    f q ∈ (modSealed s q.ver.num f).ver.pending :=
  List.mem_map.2 ⟨q, h, if_pos rfl⟩

/-- A version that meets no conflict takes the slot, with its content. -/
theorem reserve_takes {s : State} {q : Sealed} {k : Nat} (slots : s.ver.slots.length = 4)
    (oldest : s.ver.pending.find? (fun q => q.slot.isNone) = some q)
    (lowest : (List.range 4).find? (fun k => (slotAt s k).state == .free) = some k)
    (agrees : reserveConflict s q k = false) :
    (slotAt (reserve s) k).state = .preparing ∧ (slotVer (reserve s) k).num = q.ver.num ∧
      (slotVer (reserve s) k).cfg = q.ver.cfg ∧
      ∃ x, x ∈ (reserve s).ver.pending ∧ x.ver.num = q.ver.num ∧ x.slot = some k := by
  have hk : k < s.ver.slots.length := slots ▸ List.mem_range.1 (List.mem_of_find?_eq_some lowest)
  have mem : q ∈ s.ver.pending := List.mem_of_find?_eq_some oldest
  have taken : ∃ v f, reserve s = modSealed (modSlot s k fun _ => ⟨.preparing, v⟩) q.ver.num f ∧
      v.num = q.ver.num ∧ v.cfg = q.ver.cfg ∧ (f q).ver = v ∧ (f q).slot = some k := by
    simp only [reserve, oldest, lowest, agrees, Bool.false_eq_true, if_false]
    exact ⟨_, _, rfl, rfl, rfl, rfl, rfl⟩
  obtain ⟨v, f, e, num, cfg, ver, slot⟩ := taken
  have held : slotAt (reserve s) k = ⟨.preparing, v⟩ := e ▸ slotAt_modSlot hk _
  rw [slotVer, held]
  refine ⟨rfl, num, cfg, f q, ?_, ver ▸ num, slot⟩
  rw [e]
  exact mem_pending_modSealed mem f

/-! ### VERSION_COMMIT (R187, R191, R210) -/

/-- A comparison of digests changes its own result alone. -/
theorem compareDigest_ver (s : State) : ∃ c, (compareDigest s).ver = { s.ver with compared := c } := by
  have told (c : Option Bool) (code : Nat) (vs : List Nat) :
      (raiseEv { s with ver := { s.ver with compared := c } } code 0 vs).ver = { s.ver with compared := c } :=
    (raiseEv_touches ..).rest .version rfl
  unfold compareDigest
  extract_lets want have_ _ put
  split
  · exact ⟨_, rfl⟩
  split
  · split
    · exact ⟨_, told ..⟩
    · exact ⟨_, rfl⟩
  split
  · exact ⟨_, rfl⟩
  · exact ⟨_, told ..⟩

/-- The version machinery after a commit. -/
theorem makeCurrent_ver (s : State) (q : Sealed) (k : Nat) : ∃ d, (makeCurrent s q k).ver =
    { s.ver with
      slots := (s.ver.slots.modify s.ver.current fun x => { x with state := .draining }).modify k
        fun x => { x with state := .current }
      current := k, committedAt := none
      pending := s.ver.pending.filter fun x => x.ver.num != q.ver.num
      history := ({ num := q.ver.num, slot := k, causes := q.causes, target := q.target,
                    commitTick := s.rm.tick, digest := d } :: s.ver.history).take 64 } := by
  unfold makeCurrent
  extract_lets old s₁ s₂ v r s₃ row _ s₄ s₅
  refine ⟨configDigest s₃, ?_⟩
  calc
    _ = (gatesCommit s₅ old).ver := (raiseEv_touches ..).rest .version rfl
    _ = s₅.ver := (gatesCommit_touches ..).rest .version rfl
    _ = s₄.ver := (changeRate_touches ..).rest .version rfl
    _ = _ := rfl

/-- The version that the boundary has taken becomes current. -/
theorem commitDueVersion_ver {s : State} {q : Sealed} {n k : Nat} (taken : s.ver.committedAt = some n)
    (found : s.ver.pending.find? (fun q => q.ver.num == n) = some q) (slot : q.slot = some k) :
    ∃ c, (commitDueVersion s).ver = { (makeCurrent s q k).ver with compared := c } := by
  simp only [commitDueVersion, taken, found, slot]
  exact compareDigest_ver _

/-- VERSION_COMMIT brings the version into force in its slot, and the one before it drains. -/
theorem commitDueVersion_commits {s : State} {q : Sealed} {n k : Nat} (slots : s.ver.slots.length = 4) (hk : k < 4)
    (taken : s.ver.committedAt = some n)
    (found : s.ver.pending.find? (fun q => q.ver.num == n) = some q) (slot : q.slot = some k) :
    let t := commitDueVersion s
    t.ver.current = k ∧ t.ver.committedAt = none ∧ (slotAt t k).state = .current ∧
      (k ≠ s.ver.current → s.ver.current < 4 → (slotAt t s.ver.current).state = .draining) ∧
      t.ver.pending = s.ver.pending.filter (fun x => x.ver.num != n) ∧
      ∃ h, t.ver.history.head? = some h ∧ h.num = n ∧ h.slot = k ∧ h.causes = q.causes ∧
        h.target = q.target ∧ h.commitTick = s.rm.tick := by
  intro t
  obtain ⟨c, hc⟩ := commitDueVersion_ver taken found slot
  obtain ⟨d, hd⟩ := makeCurrent_ver s q k
  rw [hd] at hc
  have num : q.ver.num = n := by simpa using List.find?_some found
  let drained := modSlot s s.ver.current fun x => { x with state := .draining }
  have sameSlots (j : Nat) : slotAt t j = slotAt (modSlot drained k fun x => { x with state := .current }) j :=
    slotAt_congr (by rw [hc]; rfl) j
  have length : drained.ver.slots.length = 4 := (length_slots_modSlot ..).trans slots
  refine ⟨by rw [hc], by rw [hc], ?_, fun other old => ?_, by rw [hc, num], ?_⟩
  · rw [sameSlots, slotAt_modSlot (length ▸ hk)]
  · rw [sameSlots, slotAt_modSlot_ne _ _ other.symm, slotAt_modSlot (slots ▸ old)]
  · exact ⟨_, congrArg (fun v : Versions => v.history.head?) hc, num, rfl, rfl, rfl, rfl⟩

/-! ### SLOT_RETIRE (R187) -/

theorem rowSlotRetire_frees {s : State} {k : Nat} (run : s.sys.run = .running)
    (draining : (slotAt s k).state = .draining) (unheld : holders s k = 0) :
    (slotAt (rowSlotRetire k s) k).state = .free := by
  have here : k < s.ver.slots.length := lt_of_slotAt_state (by rw [draining]; decide)
  rw [rowSlotRetire, whenRun_running run, draining, unheld, beq_self_eq_true, beq_self_eq_true, Bool.and_self,
    guardS_true, slotAt_modSlot here]
  rfl

/-! ### VERSION_CANCEL (R193) -/

theorem pending_reject (s : State) (num reason : Nat) : (reject s num reason).ver.pending = s.ver.pending := by
  have told : (reject s num reason).ver = { s.ver with lastReject := num * 65536 + reason } :=
    (raiseEv_touches ..).rest .version rfl
  rw [told]

/-- The versions before the one that falls stay pending. -/
theorem pending_rejectFrom (s : State) (num reason : Nat) :
    (rejectFrom s num reason).ver.pending = s.ver.pending.takeWhile fun q => q.ver.num != num := by
  unfold rejectFrom
  extract_lets keep drop newest s₁ v s₂
  exact List.foldlRecOn (motive := fun t : State => t.ver.pending = keep) _ _ rfl
    fun t ht q _ => (pending_reject ..).trans ht

/-- Settles O9, by what each of the four rows makes of the version machinery. -/
theorem versionLifeCycle : Obligations.VersionLifeCycle := by
  refine ⟨?_, ?_, ?_, ?_⟩
  · intro s q k ⟨run, hs⟩ slots oldest lowest agrees
    refine ⟨_, next_row hs rowSlotReserve, ?_⟩
    rw [rowSlotReserve, whenRun_running run]
    exact reserve_takes slots oldest lowest agrees
  · intro s q n k run past slots hk taken found slot
    refine ⟨_, congrArg (fun u => Host.Outcome.next (rowVersionCommit u)) past, ?_⟩
    rw [rowVersionCommit, whenRun_running run]
    exact commitDueVersion_commits slots hk taken found slot
  · intro s k ⟨run, hs⟩ _ draining unheld
    exact ⟨_, next_row hs (rowSlotRetire k), rowSlotRetire_frees run draining unheld⟩
  · intro s src v q _ may newest num
    refine ⟨_, next_row may.1.2 (rowVersionCancel src v), ?_⟩
    obtain ⟨m, writes⟩ := may.writes (cancelVersion v)
    have falls : cancelVersion v { s with mabin := m } = some (rejectFrom { s with mabin := m } v rejCancelled) := by
      simp only [cancelVersion, newest, num, if_true]
    have ver : (rowVersionCancel src v s).ver = _ := (writes _ falls).rest .version rfl
    rw [ver]
    exact pending_rejectFrom ..

end Sys2Proof.Machine

namespace Sys2Proof.Machine

-- One proof after the other: the many short proofs would each hold a thread of its own.
set_option Elab.async false

/-! ## The work of a boundary (O10)

A boundary lists its work in the middle of what it does. What comes before and after takes nothing off the list, and
leaves the objects, the copied counters and the subscriptions that the work reads. -/

/-- The boundary of a copy of the counters. -/
def Snapshot.stamp (q : Snapshot) : Nat × Nat := (q.tick, q.beat)

/-- What the work of a boundary reads, as it stands in the state. -/
structure WorkCore where
  softAt : Option Nat
  todo : List Nat
  objs : Tbl Bytes
  held : Tbl Bytes
  sequence : Nat
  taken : Option Snapshot
  sessions : Tbl Session

def workCoreOf (s : State) : WorkCore :=
  ⟨s.sys.softAt, s.rm.todo, s.objs, s.held, s.cnt.sequence, s.cnt.taken, s.mabin.sessions⟩

/-- From s to t a SOFT reset that waits, the work on the list, the objects below those of resets, the number and the
boundary of the copied counters and the sessions' subscriptions stay. -/
structure KeepsWork (s t : State) : Prop where
  softAt : t.sys.softAt = s.sys.softAt
  todo : t.rm.todo = s.rm.todo
  rw : ∀ idx sub, idx < 0x9000 → sub < 256 → rw t idx sub = rw s idx sub
  sequence : t.cnt.sequence = s.cnt.sequence
  taken : t.cnt.taken.map Snapshot.stamp = s.cnt.taken.map Snapshot.stamp
  subs : ∀ n x, (n, x) ∈ t.mabin.sessions → ∃ y, (n, y) ∈ s.mabin.sessions ∧ y.subs = x.subs

theorem rw_congr {s t : State} (objs : t.objs = s.objs) (held : t.held = s.held) (idx sub : Nat) :
    rw t idx sub = rw s idx sub := by
  unfold rw rwRow stored
  rw [objs, held]

/-- At most the counters change, and keep their number and the boundary of their copy. -/
theorem keepsWork_of_counts {s t : State} (softAt : t.sys.softAt = s.sys.softAt) (todo : t.rm.todo = s.rm.todo)
    (objs : t.objs = s.objs) (held : t.held = s.held) (sessions : t.mabin.sessions = s.mabin.sessions)
    (sequence : t.cnt.sequence = s.cnt.sequence)
    (taken : t.cnt.taken.map Snapshot.stamp = s.cnt.taken.map Snapshot.stamp) : KeepsWork s t where
  softAt := softAt
  todo := todo
  rw := fun idx sub _ _ => rw_congr objs held idx sub
  sequence := sequence
  taken := taken
  subs := fun _ x h => ⟨x, sessions ▸ h, rfl⟩

namespace KeepsWork

variable {s t u : State}

/-- An update of fields outside the core. -/
theorem update (h : workCoreOf t = workCoreOf s := by rfl) : KeepsWork s t := by
  obtain ⟨softAt, todo, objs, held, sequence, taken, sessions⟩ := WorkCore.mk.inj h
  exact keepsWork_of_counts softAt todo objs held sessions sequence (by rw [taken])

theorem refl : KeepsWork s s := .update

theorem trans (h : KeepsWork s t) (k : KeepsWork t u) : KeepsWork s u where
  softAt := k.softAt.trans h.softAt
  todo := k.todo.trans h.todo
  rw := fun idx sub hi hs => (k.rw idx sub hi hs).trans (h.rw idx sub hi hs)
  sequence := k.sequence.trans h.sequence
  taken := k.taken.trans h.taken
  subs := fun n x hx => by
    obtain ⟨y, hy, e⟩ := k.subs n x hx
    obtain ⟨z, hz, e'⟩ := h.subs n y hy
    exact ⟨z, hz, e'.trans e⟩

/-- A step from t, after what led from s to t. -/
theorem after (k : KeepsWork t u) (h : KeepsWork s t) : KeepsWork s u := h.trans k

/-- An update of fields outside the core, after what led to t. -/
theorem set (h : KeepsWork s t) (e : workCoreOf u = workCoreOf t := by rfl) : KeepsWork s u := h.trans (update e)

theorem ite {c : Prop} [Decidable c] (h : KeepsWork s t) (k : KeepsWork s u) : KeepsWork s (if c then t else u) := by
  split
  · exact h
  · exact k

theorem foldl {α : Type} {f : State → α → State} {l : List α} (k : ∀ t a, KeepsWork t (f t a))
    (h : KeepsWork s t) : KeepsWork s (l.foldl f t) :=
  List.foldlRecOn _ _ h fun t ht a _ => ht.trans (k t a)

theorem whenRun {f : State → State} (h : KeepsWork s t) (k : KeepsWork s (f t)) : KeepsWork s (whenRun t f) :=
  .ite k h

end KeepsWork

/-- None of P holds a field of the core but the counters. -/
def sparesWork (P : List Part) : Bool :=
  !(among P .clock || among P .system || among P .objects || among P .sessions)

theorem Touches.keepsWork_of_counts {P : List Part} {s t : State} (h : Touches P s t)
    (sequence : t.cnt.sequence = s.cnt.sequence)
    (taken : t.cnt.taken.map Snapshot.stamp = s.cnt.taken.map Snapshot.stamp)
    (hP : sparesWork P = true := by rfl) : KeepsWork s t := by
  simp only [sparesWork, Bool.not_eq_true', Bool.or_eq_false_iff] at hP
  obtain ⟨⟨⟨clock, system⟩, objects⟩, sessions⟩ := hP
  obtain ⟨-, rm⟩ := h.rest .clock clock
  obtain ⟨objs, held, -⟩ := h.rest .objects objects
  obtain ⟨sessions, -⟩ := h.rest .sessions sessions
  exact Machine.keepsWork_of_counts (congrArg Sys.softAt (h.rest .system system)) (congrArg Ringmaster.todo rm)
    objs held sessions sequence taken

/-- A function that touches nothing of the core leaves the work. -/
theorem Touches.keepsWork {P : List Part} {s t : State} (h : Touches P s t) (hP : sparesWork P = true := by rfl)
    (counters : among P .counters = false := by rfl) : KeepsWork s t := by
  have cnt : t.cnt = s.cnt := h.rest .counters counters
  exact h.keepsWork_of_counts (by rw [cnt]) (by rw [cnt]) hP

/-! ### Counts and events -/

theorem count_keepsWork (s : State) (n k : Nat) : KeepsWork s (count s n k) := .ite .refl .update

theorem filtered_keepsWork (s : State) (source tier : Nat) (masters : List (Nat × Nat)) (addr : Nat)
    (cls : Option Nat) (k : Nat) : KeepsWork s (filtered s source tier masters addr cls k) := .update

theorem countPolice_keepsWork (s : State) (policer colour n tick : Nat) :
    KeepsWork s (countPolice s policer colour n tick) := by
  refine (countPolice_touches ..).keepsWork_of_counts rfl ?_
  simp only [countPolice, mapSnaps, Option.map_map]
  congr 1
  funext q
  simp only [Function.comp_apply]
  split <;> rfl

theorem clearPipeCounters_keepsWork (s : State) (p : Nat) : KeepsWork s (clearPipeCounters s p) := .update

/-- A session that is told keeps its subscriptions. -/
theorem notify_keepsWork {s t : State} {n : Nat} {x : Session} (h : KeepsWork s t) (mem : (n, x) ∈ s.mabin.sessions)
    (body : Bytes) : KeepsWork s (notify t n x body) := by
  unfold notify
  extract_lets room x' m t'
  have told : KeepsWork s t' := { h with
    rw := h.rw
    subs := fun k y hy => by
      obtain e | hy := mem_tins hy
      · obtain ⟨rfl, rfl⟩ := Prod.mk.inj e
        exact ⟨x, mem, rfl⟩
      · exact h.subs k y hy }
  exact .ite told ((count_keepsWork ..).after told)

theorem tellSessions_keepsWork (s : State) (e : Event) : KeepsWork s (tellSessions s e) := by
  refine List.foldlRecOn (motive := KeepsWork s) _ _ .refl fun t ht x hx => ?_
  exact .ite (notify_keepsWork ht hx _) ht

theorem queueEvent_keepsWork (s : State) (e : Event) : KeepsWork s (queueEvent s e) :=
  .ite .update ((count_keepsWork ..).after .update)

theorem postEvent_keepsWork (s : State) (e : Event) : KeepsWork s (postEvent s e) :=
  (tellSessions_keepsWork ..).after ((queueEvent_keepsWork ..).after (.ite .update .refl))

theorem startFreeze_keepsWork (s : State) (trigger code : Nat) : KeepsWork s (startFreeze s trigger code) :=
  .ite ((postEvent_keepsWork ..).trans .update) .refl

theorem raiseEv_keepsWork (s : State) (code source : Nat) (values : List Nat) :
    KeepsWork s (raiseEv s code source values) :=
  (postEvent_keepsWork ..).trans (.ite (startFreeze_keepsWork ..) .refl)

theorem freezeMaster_keepsWork (s : State) (type cls num : Nat) : KeepsWork s (freezeMaster s type cls num) :=
  .ite .refl ((raiseEv_keepsWork ..).after .update)

theorem releaseMaster_keepsWork (s : State) (type cls num : Nat) : KeepsWork s (releaseMaster s type cls num) :=
  (raiseEv_keepsWork ..).after .update

/-! ### What comes before the work -/

theorem judgeFrame_keepsWork (s : State) (k : Pkt) : KeepsWork s (judgeFrame s k) := by
  unfold judgeFrame
  split
  · exact .refl
  extract_lets r tick n dei _
  split
  extract_lets s₁ s₂
  have hs₂ : KeepsWork s s₂ := (countPolice_keepsWork ..).after .update
  exact .ite ((dropPkt_touches ..).keepsWork.after hs₂) ((modPkt_touches ..).keepsWork.after hs₂)

theorem judgeAll_keepsWork (p beat n : Nat) (s : State) : KeepsWork s (judgeAll p beat n s) := by
  induction n generalizing s with
  | zero => exact .refl
  | succ n ih =>
    unfold judgeAll
    split
    · exact (ih _).after (judgeFrame_keepsWork ..)
    · exact .refl

theorem joinNext_keepsWork (s : State) : KeepsWork s (joinNext s) := by
  have joined (next : Nat → Nat → Nat → Nat × Nat) (e : Nat) : KeepsWork s
      (match next (e / 1000000000) (e % 1000000000) s.rm.rate with
        | (j, k) => { s with rm := { s.rm with mode := .joining, j := j, kk := k,
                                               notBefore := s.beat + tickBeats s.rm.rate } }) := .update
  unfold joinNext
  split
  · exact .refl
  · exact .ite .refl (joined boundaryAfter _)

theorem passBoundary_keepsWork (s : State) : KeepsWork s (passBoundary s) := by
  unfold passBoundary
  generalize nextLocked = next
  extract_lets r s₁ joined
  split
  · exact (joinNext_keepsWork ..).after .update
  split
  · exact (raiseEv_keepsWork ..).after .update
  split
  extract_lets s₂
  have hs₂ : KeepsWork s s₂ := .update
  exact .ite ((raiseEv_keepsWork ..).after hs₂) hs₂

theorem cancelIdle_keepsWork (s : State) (c e : Nat) (requeue : Bool) : KeepsWork s (cancelIdle s c e requeue) := by
  unfold cancelIdle
  split
  · have freed (t : Task) : KeepsWork s (modEngine (count s (cCluster c 6) 1) c e fun _ => Engine.init) :=
      (modEngine_touches ..).keepsWork.after (count_keepsWork ..)
    next t _ =>
    exact .ite ((modCluster_touches ..).keepsWork.after (freed t))
      ((unformat_touches ..).keepsWork.after ((count_keepsWork ..).after (freed t)))
  · exact .refl

theorem frozenList_keepsWork (s : State) (l : List Nat) :
    KeepsWork s { s with sys := { s.sys with frozenList := l } } := .update

theorem trapCluster_keepsWork (s : State) (c cause info : Nat) (vector : Bytes) :
    KeepsWork s (trapCluster s c cause info vector) := by
  unfold trapCluster
  refine .ite .refl ?_
  extract_lets s₁ s₂ s₃ s₄ w
  have hs₂ : KeepsWork s s₂ := .foldl (fun _ _ => (unformat_touches ..).keepsWork)
    (.foldl (fun _ _ => cancelIdle_keepsWork ..) .refl)
  have hs₄ : KeepsWork s s₄ := (count_keepsWork ..).after
    ((markTrapped_touches ..).keepsWork.after ((modCluster_touches ..).keepsWork.after hs₂))
  exact (raiseEv_keepsWork ..).after ((frozenList_keepsWork s₄ _).after hs₄)

theorem freezeCluster_keepsWork (s : State) (c : Nat) : KeepsWork s (freezeCluster s c) := trapCluster_keepsWork ..

theorem releaseCluster_keepsWork (s : State) (c : Nat) : KeepsWork s (releaseCluster s c) :=
  .ite .refl ((releaseMaster_keepsWork ..).after (modCluster_touches ..).keepsWork)

theorem applyDeferred_keepsWork (s : State) (d : Deferred) : KeepsWork s (applyDeferred s d) := by
  have put : KeepsWork s (putDig s d) := (putDig_touches ..).keepsWork
  exact .ite (applyKey_touches ..).keepsWork (.ite (.ite (freezeCluster_keepsWork ..) (releaseCluster_keepsWork ..))
    (.ite ((applySaRow_touches ..).keepsWork.after put) (.ite ((applyIecRow_touches ..).keepsWork.after put)
    (.ite ((fillPolicer_touches ..).keepsWork.after put) put))))

theorem applyWrites_keepsWork (s : State) (old : Nat) : KeepsWork s (applyWrites s old) :=
  .foldl (fun _ _ => applyDeferred_keepsWork ..) .update

theorem pipeStops_keepsWork (s : State) (p : Nat) : KeepsWork s (pipeStops s p) :=
  (modPipe_touches ..).keepsWork.after ((clearPipeCounters_keepsWork ..).after
    (.foldl (fun _ _ => (modCluster_touches ..).keepsWork) ((clearSearch_touches ..).keepsWork.after
    ((clearShard_touches ..).keepsWork.after (clearPipe_touches ..).keepsWork))))

theorem powerBoundary_keepsWork (s : State) : KeepsWork s (powerBoundary s) :=
  .ite .refl (.foldl (fun _ _ => .ite (pipeStops_keepsWork ..) (.ite (pipeWakes_touches ..).keepsWork .refl)) .refl)

theorem freshBytes_keepsWork (n : Nat) (s : State) : KeepsWork s (freshBytes n s).1 := by
  induction n generalizing s with
  | zero => exact .refl
  | succ n ih => exact (ih _).after .update

theorem burnFuse_keepsWork (s : State) (j : FuseJob) : KeepsWork s (burnFuse s j) := by
  unfold burnFuse
  split
  · exact (raiseEv_keepsWork ..).after ((freshBytes_keepsWork 6 s).trans .update)
  · exact .update

theorem startFuses_keepsWork (s : State) : KeepsWork s (startFuses s) :=
  .ite .refl (.foldl (fun _ _ => burnFuse_keepsWork ..) .update)

/-! ### What comes after it -/

theorem compareDigest_keepsWork (s : State) : KeepsWork s (compareDigest s) :=
  .ite .refl (.ite (.ite ((raiseEv_keepsWork ..).after .update) .update)
    (.ite .refl ((raiseEv_keepsWork ..).after .update)))

theorem deferVersions_keepsWork (s : State) (taken : Option Sealed) : KeepsWork s (deferVersions s taken) :=
  .foldl (fun _ _ => .foldl (fun _ _ => .ite .refl ((raiseEv_keepsWork ..).after .update)) .refl) .refl

theorem takeVersion_keepsWork (s : State) : KeepsWork s (takeVersion s) := by
  unfold takeVersion
  split
  · exact (deferVersions_keepsWork ..).after .update
  · exact (compareDigest_keepsWork ..).after (deferVersions_keepsWork ..)

theorem changeRate_keepsWork (s : State) (rate : Nat) : KeepsWork s (changeRate s rate) := by
  have changed (next : Nat → Nat → Nat → Nat × Nat) (r : Ringmaster) (todo : r.todo = s.rm.todo)
      (old : Nat × Nat) (pos : Nat) : KeepsWork s
        (match r.mode with
          | .free => { s with rm := { r with b0 := s.beat, k := 1 } }
          | _ => match next old.1 pos rate with
            | (j, k) => { s with rm := { r with j := j, kk := k, notBefore := s.beat + tickBeats rate } }) := by
    split
    · exact .update (by simp only [workCoreOf, todo])
    · exact .update (by simp only [workCoreOf, todo])
  unfold changeRate
  refine .ite .refl (changed boundaryAfter _ ?_ _ _)
  rfl

theorem gateCommit_keepsWork (s : State) (n : Nat) : KeepsWork s (gateCommit s n) :=
  .ite (modGate_touches ..).keepsWork (.ite (modGate_touches ..).keepsWork
    (.ite (modGate_touches ..).keepsWork ((raiseEv_keepsWork ..).after (modGate_touches ..).keepsWork)))

theorem makeCurrent_keepsWork (s : State) (q : Sealed) (k : Nat) : KeepsWork s (makeCurrent s q k) := by
  unfold makeCurrent
  extract_lets old s₁ s₂ v r s₃ row h s₄ s₅
  have hs₄ : KeepsWork s s₄ := .update
  exact (raiseEv_keepsWork ..).after ((KeepsWork.foldl (fun _ _ => .ite (gateCommit_keepsWork ..) .refl) .refl).after
    ((changeRate_keepsWork ..).after hs₄))

theorem commitDueVersion_keepsWork (s : State) : KeepsWork s (commitDueVersion s) := by
  unfold commitDueVersion
  split
  · exact .refl
  split
  · split
    · exact (compareDigest_keepsWork ..).after (makeCurrent_keepsWork ..)
    · exact .update
  · exact .update

/-! ### The end of packets and the reset of a pipe -/

theorem freezeFn_keepsWork (s : State) (f cause detail : Nat) : KeepsWork s (freezeFn s f cause detail) :=
  .ite .refl ((freezeMaster_keepsWork ..).after (modFn_touches ..).keepsWork)

theorem dmaWrite_keepsWork (s : State) (r addr : Nat) (b : Bytes) : KeepsWork s (dmaWrite s r addr b) :=
  .ite ((filtered_keepsWork ..).after (emit_touches ..).keepsWork) (freezeFn_keepsWork ..)

theorem headWrite_keepsWork (s : State) (r : Nat) : KeepsWork s (headWrite s r) := .ite .refl (dmaWrite_keepsWork ..)

theorem writeBack_keepsWork (s : State) (r : Nat) (words : List Nat) : KeepsWork s (writeBack s r words) :=
  (notSignalled_touches ..).keepsWork.after ((headWrite_keepsWork ..).after
    ((modRing_touches ..).keepsWork.after ((dmaWrite_keepsWork ..).after (dmaWrite_keepsWork ..))))

theorem drainBegun_keepsWork (r n : Nat) (s : State) : KeepsWork s (drainBegun r n s) := by
  induction n generalizing s with
  | zero => exact .refl
  | succ n ih =>
    unfold drainBegun
    split
    · exact (ih _).after ((writeBack_keepsWork ..).after (modRing_touches ..).keepsWork)
    · exact .refl

theorem txFinish_keepsWork (s : State) (k : Pkt) (status : Nat) : KeepsWork s (txFinish s k status) := by
  unfold txFinish
  split
  · exact .ite ((drainBegun_keepsWork ..).after (modRing_touches ..).keepsWork) .refl
  · exact .refl

theorem discardPkt_keepsWork (s : State) (id : Nat) : KeepsWork s (discardPkt s id) := by
  unfold discardPkt
  split
  · exact .refl
  extract_lets s₁ s₂
  have hs₂ : KeepsWork s s₂ := (txFinish_keepsWork ..).after (.ite (leaveQueue_touches ..).keepsWork .refl)
  exact .ite ((freePkt_touches ..).keepsWork.after hs₂) ((modPkt_touches ..).keepsWork.after hs₂)

theorem discardAll_keepsWork (s : State) (l : List Pkt) : KeepsWork s (discardAll s l) :=
  .foldl (fun _ _ => (discardPkt_keepsWork ..).after (.ite .refl (modPkt_touches ..).keepsWork)) .refl

/-- The count of what a PIPE reset lost stands among the objects of resets. -/
theorem keyOf_lt_resetLost {idx sub : Nat} (hi : idx < 0x9000) (hs : sub < 256) (p : Nat) :
    keyOf idx sub noRow < keyOf 0x9000 5 p := by
  have below : (idx * 256 + sub) * 2 ^ 32 + 0xFFFFFFFF < (0x9000 * 256 + 5) * 2 ^ 32 + p := by omega
  exact below

theorem putLost_keepsWork (s : State) (p : Nat) (v : Bytes) :
    KeepsWork s { s with objs := tput [] s.objs (keyOf 0x9000 5 p) v } := by
  refine { (KeepsWork.refl : KeepsWork s s) with rw := fun idx sub hi hs => ?_ }
  have other := (keyOf_lt_resetLost hi hs p).ne
  have objs : tfind (tput [] s.objs (keyOf 0x9000 5 p) v) (keyOf idx sub noRow) =
      tfind s.objs (keyOf idx sub noRow) := by
    unfold tput
    split
    · exact tfind_terase_ne _ other
    · exact tfind_tins_ne _ _ other
  simp only [rw, rwRow, stored, objs]

theorem pipeResetStart_keepsWork (s : State) (p : Nat) : KeepsWork s (pipeResetStart s p) := by
  unfold pipeResetStart
  extract_lets _ s₁ s₂ s₃ s₄ lost s₅ s₆ s₇ s₈ s₉
  have hs₄ : KeepsWork s s₄ := (modPools_touches ..).keepsWork.after ((dropWaiting_touches ..).keepsWork.after
    ((forget_touches ..).keepsWork.after .update))
  have hs₆ : KeepsWork s₄ s₆ :=
    (discardAll_keepsWork ..).after (.foldl (fun _ _ => (modPort_touches ..).keepsWork) .refl)
  have hs₇ : KeepsWork s₆ s₇ := (clearShard_touches ..).keepsWork.after
    ((emptyClusters_touches ..).keepsWork.after (clearPipe_touches ..).keepsWork)
  have hs₈ : KeepsWork s₇ s₈ := (dropRequests_touches ..).keepsWork.after
    ((fillPolicers_touches ..).keepsWork.after (clearPipeCounters_keepsWork ..))
  refine .after (.ite .refl ?_) hs₄
  exact (modPipe_touches ..).keepsWork.after ((putLost_keepsWork s₈ p _).after (hs₈.after (hs₇.after hs₆)))

theorem duePipes_keepsWork (s : State) : KeepsWork s (duePipes s) :=
  .foldl (fun _ _ => .ite (pipeResetStart_keepsWork ..) .refl) .refl

/-! ### The boundary -/

/-- The boundary from s to u lists its work in the state v. -/
structure ListsWork (s u v : State) : Prop where
  before : KeepsWork s v
  boundaryBeat : v.rm.boundaryBeat = s.beat
  steady : Steady (tickWork v) u
  after : KeepsWork (tickWork v) u

theorem pushBound_keepsWork (s : State) (j : Nat) : KeepsWork s (pushBound s j) := .update

theorem nextTick_keepsWork (s : State) (number : Nat) : KeepsWork s (nextTick s number) := .update

theorem nextTick_boundaryBeat (s : State) (number : Nat) : (nextTick s number).rm.boundaryBeat = s.beat := rfl

theorem boundaryAs_listsWork (s : State) (number : Nat) : ∃ v, ListsWork s (boundaryAs s number) v := by
  unfold boundaryAs
  extract_lets old j s₁ s₂ s₃
  have marked : KeepsWork s (markDone (judgePipes s)) :=
    (markDone_touches ..).keepsWork.after (.foldl (fun _ _ => judgeAll_keepsWork ..) .refl)
  have hs₁ : KeepsWork (nextTick (markDone (judgePipes s)) number) s₁ :=
    (passBoundary_keepsWork ..).after (settleTbs_touches ..).keepsWork
  have steady₁ : Steady (nextTick (markDone (judgePipes s)) number) s₁ :=
    (passBoundary_steady ..).after (settleTbs_touches ..).steady
  have hs₂ : KeepsWork s₁ s₂ := (countLegacy_touches ..).keepsWork.after ((returnUnits_touches ..).keepsWork.after
    ((applyWrites_keepsWork ..).after (windowCmds_touches ..).keepsWork))
  have steady₂ : Steady s₁ s₂ := (countLegacy_touches ..).steady.after ((returnUnits_touches ..).steady.after
    ((applyWrites_steady ..).after (windowCmds_touches ..).steady))
  have hs₃ : KeepsWork s₂ s₃ := (pushBound_keepsWork ..).after (digVer_touches ..).keepsWork
  have steady₃ : Steady s₂ s₃ := (pushBound_steady ..).after (digVer_touches ..).steady
  refine ⟨startFuses (powerBoundary s₃), ?_, ?_, takeVersion_steady .., takeVersion_keepsWork ..⟩
  · exact (startFuses_keepsWork ..).after ((powerBoundary_keepsWork ..).after
      (hs₃.after (hs₂.after (hs₁.after ((nextTick_keepsWork ..).after marked)))))
  · have steady := (startFuses_steady ..).after ((powerBoundary_steady s₃).after
      (steady₃.after (steady₂.after steady₁)))
    have marked := (markDone_steady (judgePipes s)).after (judgePipes_touches s).steady
    exact steady.boundaryBeat.trans ((nextTick_boundaryBeat ..).trans marked.beat)

theorem mem_of_tfind {α : Type} {t : Tbl α} {i : Nat} {x : α} (h : tfind t i = some x) : (i, x) ∈ t := by
  induction t with
  | nil => cases h
  | cons e t ih =>
    obtain ⟨k, v⟩ := e
    unfold tfind at h
    split at h
    next same =>
      obtain rfl := Option.some.inj h
      exact same ▸ List.mem_cons_self
    · exact List.mem_cons_of_mem _ (ih h)

theorem tickWork_todo (s : State) : (tickWork s).rm.todo =
    (if onPeriod s (rw s 0x1500 4) then [todoBeacon] else []) ++
      (if onPeriod s (rw s 0x5800 8) then [todoIdle] else []) ++
      (s.mabin.sessions.filter fun x => x.2.subs.any (subDue s)).map fun x => todoNotify x.1 := rfl

/-- The counters that a boundary copies are those of its beat. -/
theorem tickWork_taken {s : State} (on : onPeriod s (rw s 0x8820 1) = true) :
    (tickWork s).cnt.taken.map Snapshot.stamp = some (s.rm.tick, s.rm.boundaryBeat) := by
  unfold tickWork
  simp only [on, if_true]
  rfl

/-- What follows the boundary in its beat keeps its work, when no SOFT reset waits. -/
theorem AtBoundary.listsWork {s u : State} (h : AtBoundary s u) :
    u = settled s ∧ u.sys.run = .running ∧ ∃ v, ListsWork s u v := by
  obtain ⟨run, isDue, noSoft, softAt, rfl, running⟩ := h
  obtain ⟨v, before, boundaryBeat, steady, after⟩ := boundaryAs_listsWork s (s.rm.tick + 1)
  have past : pastBoundary s = boundaryAs s (s.rm.tick + 1) := by
    have noRestart : lastRestart s = false := by simp [lastRestart, mayRestart, noSoft]
    simp only [pastBoundary, whenRun_running run, boundaryFirst, noRestart, isDue, Bool.false_eq_true, if_false,
      if_true, tickBoundary]
  rw [← past] at steady after
  have committed : KeepsWork (tickWork v) (pastCommit s) :=
    .whenRun after ((commitDueVersion_keepsWork _).after after)
  have steadyCommit : Steady (tickWork v) (pastCommit s) := .whenRun steady ((commitDueVersion_steady _).after steady)
  have none_ : (pastCommit s).sys.softAt = none := by
    have listed : (tickWork v).sys = v.sys := (tickWork_touches v).rest .system rfl
    rw [committed.softAt, listed, before.softAt, softAt]
  have noReset : pastSoft s = pastCommit s := by
    simp only [pastSoft, whenRun, dueSoft, none_, ite_self]
  refine ⟨rfl, running, v, before, boundaryBeat, ?_, ?_⟩
  · rw [settled, noReset]
    exact .whenRun steadyCommit ((duePipes_steady _).after steadyCommit)
  · rw [settled, noReset]
    exact .whenRun committed ((duePipes_keepsWork _).after committed)

namespace ListsWork

variable {s u v : State}

theorem tick (h : ListsWork s u v) : v.rm.tick = u.rm.tick :=
  ((tickWork_steady v).tick.symm.trans h.steady.tick.symm)

/-- The periods are those that were in force at the boundary. -/
theorem onPeriod (h : ListsWork s u v) {idx sub : Nat} (hi : idx < 0x9000 := by decide) (hs : sub < 256 := by decide) :
    onPeriod v (Machine.rw v idx sub) = onPeriod u (Machine.rw u idx sub) := by
  have value : Machine.rw u idx sub = Machine.rw v idx sub :=
    (h.after.rw idx sub hi hs).trans ((tickWork_touches v).rw idx sub)
  rw [value, Machine.onPeriod, h.tick, Machine.onPeriod]

theorem mem_todo (h : ListsWork s u v) {w : Nat} : w ∈ u.rm.todo ↔
    (Machine.onPeriod u (Machine.rw u 0x1500 4) = true ∧ w = todoBeacon) ∨
      (Machine.onPeriod u (Machine.rw u 0x5800 8) = true ∧ w = todoIdle) ∨
      ∃ n x, (n, x) ∈ v.mabin.sessions ∧ x.subs.any (subDue v) = true ∧ todoNotify n = w := by
  rw [h.after.todo, tickWork_todo, h.onPeriod, h.onPeriod]
  simp only [List.mem_append, List.mem_ite_nil_right, List.mem_singleton, List.mem_map, List.mem_filter,
    Prod.exists, or_assoc, and_assoc]

theorem todo_beacon (h : ListsWork s u v) (on : Machine.onPeriod u (Machine.rw u 0x1500 4) = true) :
    u.rm.todo.contains todoBeacon = true :=
  List.contains_iff_mem.2 (h.mem_todo.2 (.inl ⟨on, rfl⟩))

theorem todo_idle (h : ListsWork s u v) (on : Machine.onPeriod u (Machine.rw u 0x5800 8) = true) :
    u.rm.todo.contains todoIdle = true :=
  List.contains_iff_mem.2 (h.mem_todo.2 (.inr (.inl ⟨on, rfl⟩)))

/-- A session with a due object is listed. -/
theorem todo_notify (h : ListsWork s u v) {n : Nat} {x : Session} {b : Sub} (here : sessionAt u n = some x)
    (mem : b ∈ x.subs) (isDue : subDue u b = true) : u.rm.todo.contains (todoNotify n) = true := by
  obtain ⟨y, hy, subs⟩ := h.after.subs n x (mem_of_tfind here)
  have sessions : (tickWork v).mabin.sessions = v.mabin.sessions := ((tickWork_touches v).rest .sessions rfl).1
  have isDue : subDue v b = true := by rwa [subDue, h.tick]
  exact List.contains_iff_mem.2 (h.mem_todo.2 (.inr (.inr
    ⟨n, y, sessions ▸ hy, List.any_eq_true.2 ⟨b, subs ▸ mem, isDue⟩, rfl⟩)))

/-- The counters are copied, with the tick and the beat of the boundary. -/
theorem taken (h : ListsWork s u v) (on : Machine.onPeriod u (Machine.rw u 0x8820 1) = true) :
    ∃ k, u.cnt.taken = some k ∧ k.tick = u.rm.tick ∧ k.beat = s.beat := by
  have copied := h.after.taken.trans (tickWork_taken (h.onPeriod.trans on))
  obtain ⟨k, hk, stamp⟩ := Option.map_eq_some_iff.1 copied
  obtain ⟨tick, beat⟩ := Prod.mk.inj stamp
  exact ⟨k, hk, tick.trans h.tick, beat.trans h.boundaryBeat⟩

theorem sequence (h : ListsWork s u v) : u.cnt.sequence = s.cnt.sequence := by
  have listed : (tickWork v).cnt.sequence = v.cnt.sequence := by
    unfold tickWork
    extract_lets told todo t
    show t.cnt.sequence = _
    unfold t
    split <;> rfl
  rw [h.after.sequence, listed, h.before.sequence]

end ListsWork

/-! ### The beacon (R205) -/

theorem contains_doneTodo (s : State) (w : Nat) : (doneTodo s w).rm.todo.contains w = false := by
  simp [doneTodo]

theorem sendBeacon_beacon (s : State) : (sendBeacon s).beacon = beaconPayload s := by
  unfold sendBeacon
  extract_lets s₁ s₂
  have built : s₂.beacon = s₁.beacon := by
    unfold s₂
    split
    · have replaced (l : List Nat) : (l.foldl replaceBeacon s₁).beacon = s₁.beacon :=
        List.foldlRecOn (motive := fun t : State => t.beacon = s₁.beacon) _ _ rfl
          fun t ht n _ => ((replaceBeacon_touches t n).rest .beacon rfl).trans ht
      exact ((buildBeacons_touches _).rest .beacon rfl).trans (replaced _)
    · rfl
  split
  · exact ((tellBeacon_touches _).rest .beacon rfl).trans built
  · exact built

theorem rowEtwenBeacon_sends {s : State} (run : s.sys.run = .running) (listed : s.rm.todo.contains todoBeacon = true) :
    (rowEtwenBeacon s).beacon = beaconPayload s ∧ (rowEtwenBeacon s).rm.tick = s.rm.tick ∧
      (rowEtwenBeacon s).rm.todo.contains todoBeacon = false := by
  rw [rowEtwenBeacon, whenRun_running run, beaconWork, if_pos listed]
  obtain ⟨-, rm⟩ := (sendBeacon_touches (doneTodo s todoBeacon)).rest .clock rfl
  rw [rm]
  exact ⟨sendBeacon_beacon _, rfl, contains_doneTodo ..⟩

/-! ### The counters (R596) -/

theorem keepSnapshot_keeps (s : State) (k : Snapshot) :
    (keepSnapshot s k).cnt.taken = none ∧ (keepSnapshot s k).cnt.sequence = s.cnt.sequence + 1 ∧
      ∃ q, (keepSnapshot s k).cnt.snapshots.getLast? = some q ∧ q.tick = k.tick ∧ q.beat = k.beat ∧
        q.seq = s.cnt.sequence ∧ q.words = k.words ∧ q.filtered = k.filtered := by
  have missed : (missDumps s).cnt.sequence = s.cnt.sequence := by
    simp only [missDumps, count]
    split <;> rfl
  unfold keepSnapshot
  extract_lets t m q
  exact ⟨rfl, congrArg (· + 1) missed, q, List.getLast?_concat, rfl, rfl, missed, rfl, rfl⟩

theorem rowCounterDump_keeps {s : State} {k : Snapshot} (run : s.sys.run = .running) (taken : s.cnt.taken = some k) :
    rowCounterDump s = keepSnapshot s k := by
  simp only [rowCounterDump, whenRun_running run, counterDump, taken]

/-! ### The tasks of idle entries (R295) -/

theorem offerTask_idleQ {s : State} {c : Nat} (room : (clusterAt s c).idleQ.length < 64) (t : Task) :
    (clusterAt (offerTask s c t) c).idleQ = (clusterAt s c).idleQ ++ [t] := by
  simp [offerTask, queueTask, room]

theorem offerTask_ne (s : State) {c j : Nat} (h : c ≠ j) (t : Task) :
    clusterAt (offerTask s j t) c = clusterAt s c := by
  unfold offerTask queueTask
  split
  · exact clusterAt_modCluster_ne _ _ h
  · exact ((freeGranted_touches ..).clusterAt c).trans ((discardTask_touches ..).clusterAt c)

theorem foldl_offerTask_idleQ {s : State} {c : Nat} {ts : List Task}
    (room : (clusterAt s c).idleQ.length + ts.length ≤ 64) :
    (clusterAt (ts.foldl (fun s t => offerTask s c t) s) c).idleQ = (clusterAt s c).idleQ ++ ts := by
  induction ts generalizing s with
  | nil => simp
  | cons t ts ih =>
    rw [List.length_cons] at room
    have first := offerTask_idleQ (s := s) (c := c) (by omega) t
    rw [List.foldl_cons, ih (by rw [first, List.length_append, List.length_singleton]; omega), first,
      List.append_assoc, List.singleton_append]

theorem exportTasks_ne (s : State) {c j : Nat} (h : c ≠ j) : clusterAt (exportTasks s j) c = clusterAt s c := by
  unfold exportTasks
  split
  · rfl
  · exact List.foldlRecOn (motive := fun t => clusterAt t c = clusterAt s c) _ _ rfl
      fun t ht x _ => (offerTask_ne t h x).trans ht

theorem length_exportBuilds_le (img : Bytes) : (exportBuilds img).length ≤ 15 := by
  rw [exportBuilds, List.length_map]
  exact List.length_filter_le ..

/-- A cluster of the home mask gets a task for each idle entry of its image. -/
theorem exportTasks_idleQ {s : State} {c : Nat} {img : Bytes} (home : bit (maskClusters (homeMask s)) c = true)
    (image : clusterImage (curVer s) c = some img) (room : (clusterAt s c).idleQ.length ≤ 49) :
    (clusterAt (exportTasks s c) c).idleQ = (clusterAt s c).idleQ ++ exportBuilds img := by
  have := length_exportBuilds_le img
  simp only [exportTasks, home, if_true, image]
  exact foldl_offerTask_idleQ (by omega)

theorem foldl_exportTasks_ne {c : Nat} {l : List Nat} (h : c ∉ l) (s : State) :
    clusterAt (l.foldl exportTasks s) c = clusterAt s c :=
  List.foldlRecOn (motive := fun t => clusterAt t c = clusterAt s c) _ _ rfl
    fun t ht _ hj => (exportTasks_ne t (ne_of_mem_of_not_mem hj h).symm).trans ht

/-- Each cluster is served once. -/
theorem foldl_exportTasks_idleQ {s : State} {c : Nat} {img : Bytes} {l : List Nat} (nodup : l.Nodup) (mem : c ∈ l)
    (home : bit (maskClusters (homeMask s)) c = true) (image : clusterImage (curVer s) c = some img)
    (room : (clusterAt s c).idleQ.length ≤ 49) :
    (clusterAt (l.foldl exportTasks s) c).idleQ = (clusterAt s c).idleQ ++ exportBuilds img := by
  obtain ⟨l₁, l₂, rfl⟩ := List.append_of_mem mem
  obtain ⟨-, nodup₂, apart⟩ := List.nodup_append.1 nodup
  have first : c ∉ l₁ := fun h => apart c h c List.mem_cons_self rfl
  have last : c ∉ l₂ := (List.nodup_cons.1 nodup₂).1
  have frame : Touches [.buffer, .clusters, .pools, .counters] s (l₁.foldl exportTasks s) :=
    .foldl exportTasks_touches .refl
  have objs := frame.rest .objects rfl
  have ver : (l₁.foldl exportTasks s).ver = s.ver := frame.rest .version rfl
  have queue := foldl_exportTasks_ne first s
  rw [List.foldl_append, List.foldl_cons, foldl_exportTasks_ne last, exportTasks_idleQ (img := img), queue]
  · rw [homeMask, stored_congr objs.1]
    exact home
  · rw [curVer, slotVer, slotAt, ver]
    exact image
  · rw [queue]
    exact room

theorem rowIdleExportTask_exports {s : State} (run : s.sys.run = .running)
    (listed : s.rm.todo.contains todoIdle = true) :
    (rowIdleExportTask s).rm.todo.contains todoIdle = false ∧
      ∀ (c : Nat) (img : Bytes), c < 64 → bit (maskClusters (homeMask s)) c = true →
        clusterImage (curVer s) c = some img → (clusterAt s c).idleQ.length ≤ 49 →
        (clusterAt (rowIdleExportTask s) c).idleQ = (clusterAt s c).idleQ ++ exportBuilds img := by
  have row : rowIdleExportTask s = (List.range 64).foldl exportTasks (doneTodo s todoIdle) := by
    rw [rowIdleExportTask, whenRun_running run, idleExportTasks, if_pos listed]
    rfl
  rw [row]
  refine ⟨?_, fun c img hc home image room => ?_⟩
  · have frame : Touches [.buffer, .clusters, .pools, .counters] (doneTodo s todoIdle) _ :=
      .foldl (l := List.range 64) exportTasks_touches .refl
    obtain ⟨-, rm⟩ := frame.rest .clock rfl
    rw [rm]
    exact contains_doneTodo ..
  · exact foldl_exportTasks_idleQ (s := doneTodo s todoIdle) List.nodup_range (List.mem_range.2 hc) home image room

/-! ### The object notifications (R575) -/

theorem sessionAt_notify (s : State) (n : Nat) (x : Session) (body : Bytes) :
    ∃ y, sessionAt (notify s n x body) n = some y ∧ y.notifySeq = (x.notifySeq + 1) % 2 ^ 32 := by
  unfold notify
  extract_lets room y m t
  have told : sessionAt t n = some y := tfind_tins_self ..
  refine ⟨y, ?_, rfl⟩
  split
  · exact told
  · rw [sessionAt, ((count_touches ..).rest .sessions rfl).1]
    exact told

/-- The one subscription of a session, due and never told, is told. -/
theorem objectNotifies_tells {s : State} {n : Nat} {x : Session} {b : Sub} (here : sessionAt s n = some x)
    (subs : x.subs = [b]) (isDue : subDue s b = true) (fresh : b.last = none)
    (known : (lookupObj (b.a / 256) (b.a % 256)).isSome = true) :
    ∃ y, sessionAt (objectNotifies s n) n = some y ∧ y.notifySeq = (x.notifySeq + 1) % 2 ^ 32 := by
  obtain ⟨r, hr⟩ := Option.isSome_iff_exists.1 known
  have value : subValue s b = some (r, readValue s r (b.a / 256) noRow) := by rw [subValue, hr, Option.map_some]
  simp only [objectNotifies, here, subs, List.foldl_cons, List.foldl_nil, tellObject, value, isDue, fresh]
  exact sessionAt_notify ..

theorem rowObjectNotify_tells {s : State} {n : Nat} {x : Session} {b : Sub} (run : s.sys.run = .running)
    (listed : s.rm.todo.contains (todoNotify n) = true) (here : sessionAt s n = some x) (subs : x.subs = [b])
    (isDue : subDue s b = true) (fresh : b.last = none)
    (known : (lookupObj (b.a / 256) (b.a % 256)).isSome = true) :
    (rowObjectNotify n s).rm.todo.contains (todoNotify n) = false ∧
      ∃ y, sessionAt (rowObjectNotify n s) n = some y ∧ y.notifySeq = (x.notifySeq + 1) % 2 ^ 32 := by
  rw [rowObjectNotify, whenRun_running run, notifyWork, if_pos listed]
  obtain ⟨-, rm⟩ := (objectNotifies_touches (doneTodo s (todoNotify n)) n).rest .clock rfl
  rw [rm]
  exact ⟨contains_doneTodo .., objectNotifies_tells (s := doneTodo s (todoNotify n)) here subs isDue fresh known⟩

/-- Settles O10: each row does what is listed, and the boundary lists what is on its period. -/
theorem boundaryWorkIsDoneOnce : Obligations.BoundaryWorkIsDoneOnce := by
  refine ⟨?_, ?_, ?_, ?_, ?_, ?_, ?_, ?_⟩
  · intro s u atBoundary on
    obtain ⟨rfl, run, v, lists⟩ := atBoundary.listsWork
    exact ⟨_, rfl, rowEtwenBeacon_sends run (lists.todo_beacon on)⟩
  · intro s u atBoundary on
    obtain ⟨rfl, run, v, lists⟩ := atBoundary.listsWork
    obtain ⟨k, taken, tick, beat⟩ := lists.taken on
    refine ⟨_, congrArg Host.Outcome.next (rowCounterDump_keeps run taken), ?_⟩
    obtain ⟨done, next, q, newest, qtick, qbeat, seq, -⟩ := keepSnapshot_keeps (settled s) k
    rw [lists.sequence] at next seq
    exact ⟨done, next, q, newest, qtick.trans tick, qbeat.trans beat, seq⟩
  · intro s u atBoundary on
    obtain ⟨rfl, run, v, lists⟩ := atBoundary.listsWork
    exact ⟨_, rfl, rowIdleExportTask_exports run (lists.todo_idle on)⟩
  · intro s u n x b atBoundary here subs isDue fresh known
    obtain ⟨rfl, run, v, lists⟩ := atBoundary.listsWork
    have listed := lists.todo_notify here (subs ▸ List.mem_singleton_self b) isDue
    exact ⟨_, rfl, rowObjectNotify_tells run listed here subs isDue fresh known⟩
  · intro s ⟨run, hs⟩ listed
    obtain ⟨beacon, -, done⟩ := rowEtwenBeacon_sends run listed
    exact ⟨_, next_row hs rowEtwenBeacon, done, beacon⟩
  · intro s k ⟨run, hs⟩ taken
    refine ⟨_, next_row hs rowCounterDump, ?_⟩
    rw [rowCounterDump_keeps run taken]
    exact keepSnapshot_keeps s k
  · intro s ⟨run, hs⟩ listed
    exact ⟨_, next_row hs rowIdleExportTask, rowIdleExportTask_exports run listed⟩
  · intro s n x b ⟨run, hs⟩ listed here subs isDue fresh known
    exact ⟨_, next_row hs (rowObjectNotify n), rowObjectNotify_tells run listed here subs isDue fresh known⟩

end Sys2Proof.Machine

namespace Sys2Proof.Machine

/-! ## Releases that wait (O45) -/

/-- An accepted write of an effect that defers a value joins the writes of the boundary (R204). -/
theorem MayWrite.defers {s : State} {src : Origin} {idx sub row : Nat} {v : Bytes} (may : MayWrite s src idx sub row v)
    (k : Key) (x : Bytes) :
    ∃ d, (writeCmd s src idx sub row v fun s => some (deferWrite s k x)).deferred = s.deferred ++ [d] ∧
      d.key = k ∧ d.recvBeat = s.beat := by
  obtain ⟨m, writes⟩ := may.writes fun s => some (deferWrite s k x)
  obtain ⟨-, -, deferred⟩ := (writes _ rfl).rest .objects rfl
  exact ⟨_, deferred, rfl, rfl⟩

/-- The type of a master is the top byte of its word. -/
theorem bits_frozenWord {type cls num : Nat} (ht : type < 2 ^ 8) (hc : cls < 2 ^ 8) (hn : num < 2 ^ 16) :
    bits (frozenWord type cls num) 31 24 = type := by
  simp only [bits, frozenWord, Nat.shiftRight_eq_div_pow]
  omega

/-- An accepted release of a master of types 1 to 5 takes effect at the next beat (R621). -/
theorem MayWrite.releases {s : State} {src : Origin} {type cls num : Nat} (hc : cls < 2 ^ 8) (hn : num < 2 ^ 16)
    (may : MayWrite s src 0x9040 1 noRow (bytesOf 4 (frozenWord type cls num))) (ht : 0 < type ∧ type ≤ 5) :
    (releaseWrite src type cls num s).sys.soon = s.sys.soon ++ [.release (frozenWord type cls num)] := by
  obtain ⟨m, writes⟩ := may.writes (askRelease (frozenWord type cls num))
  have asked : askRelease (frozenWord type cls num) { s with mabin := m } =
      some (soonDo { s with mabin := m } (.release (frozenWord type cls num))) := by
    have typed : bits (frozenWord type cls num) 31 24 = type := bits_frozenWord (by omega) hc hn
    refine if_neg ?_
    simp only [typed, Bool.or_eq_true, decide_eq_true_eq]
    omega
  exact congrArg Sys.soon ((writes _ asked).rest .system rfl)

/-- An accepted write carried out in an HCMD position joins the commands of its pipe, for the next tick (R63). -/
theorem MayWrite.pushes {s : State} {src : Origin} {idx sub row : Nat} {v : Bytes} (may : MayWrite s src idx sub row v)
    {eff : State → Option State} {p kind arg : Nat}
    (h : ∀ m, eff { s with mabin := m } = some (pushCmd { s with mabin := m } p kind arg)) :
    ∃ m, (pipeAt (writeCmd s src idx sub row v eff) p).cmds = (pipeAt s p).cmds ++ [m] ∧ m.kind = kind ∧
      m.arg = arg ∧ m.recv = s.beat ∧ m.tick = s.rm.tick + 1 := by
  obtain ⟨b, writes⟩ := may.writes eff
  refine ⟨_, (congrArg Pipe.cmds ((writes _ (h b)).pipeAt p)).trans (congrArg Pipe.cmds (pipeAt_modPipe ..)),
    rfl, rfl, rfl, rfl⟩

/-- Settles O45: each accepted write by its effect. -/
theorem acceptedReleasesWait : Obligations.AcceptedReleasesWait := by
  refine ⟨?_, ?_, ?_, ?_, ?_, ?_, ?_, ?_, ?_⟩
  · intro s src c may
    exact ⟨_, next_row may.1.2 (rowEngineClusterFreeze src c), may.defers ..⟩
  · intro s src c may
    exact ⟨_, next_row may.1.2 (rowEngineClusterRelease src c), may.defers ..⟩
  · intro s src n k hn hk may
    exact ⟨_, next_row may.1.2 (rowReleasePort src n k), may.releases hk hn (by decide)⟩
  · intro s src n hn may
    exact ⟨_, next_row may.1.2 (rowReleaseFunction src n), may.releases (by decide) hn (by decide)⟩
  · intro s src n hn may
    exact ⟨_, next_row may.1.2 (rowReleaseRing src n), may.releases (by decide) hn (by decide)⟩
  · intro s src n hn may
    exact ⟨_, next_row may.1.2 (rowReleaseSession src n), may.releases (by decide) hn (by decide)⟩
  · intro s src n hn may
    exact ⟨_, next_row may.1.2 (rowReleasePoolOwner src n), may.releases (by decide) hn (by decide)⟩
  · intro s src a may here
    exact ⟨_, next_row may.1.2 (rowFlowQuarantineRelease src a), may.pushes fun _ => if_pos here⟩
  · intro s src e p may owner
    refine ⟨_, next_row may.1.2 (rowNatRelease src e), ?_⟩
    subst owner
    refine (may.pushes ?_).imp fun m ⟨queued, kind, arg, _⟩ => ⟨queued, kind, arg⟩
    exact fun _ => rfl

end Sys2Proof.Machine

namespace Sys2Proof.Machine

-- One proof after the other: the many short proofs would each hold a thread of its own.
set_option Elab.async false

/-! ## The commit rows (O18, O19)

A commit step works on its position between `beforeCommit`, which brings its reads in, and `endCommit`, which marks it
as done. `KeepsSteps s t` says that t has the positions, the completion stores and the rings of s; it is composed along
the calls of the model's functions, so that the mark and the completion of a step are those that it makes itself. -/

/-- A position's home beat, and whether its commit step has run. -/
def Pos.mark (q : Pos) : Nat × Bool := (q.h, q.done)

/-- From s to t the positions stay, done or not, and so do the completion stores and the rings. -/
structure KeepsSteps (s t : State) : Prop where
  marks : ∀ p, (pipeAt t p).pos.map Pos.mark = (pipeAt s p).pos.map Pos.mark
  store : ∀ p, (pipeAt t p).cpls = (pipeAt s p).cpls
  rings : t.host.rings = s.host.rings

/-- A change that a map does not see. -/
theorem map_lmod {α β : Type} {g : α → β} {f : α → α} (h : ∀ a, g (f a) = g a) {q : α → Bool} (l : List α) :
    (lmod q f l).map g = l.map g := by
  induction l with
  | nil => rfl
  | cons a l ih =>
    unfold lmod
    split
    · exact congrArg (· :: l.map g) (h a)
    · exact congrArg (g a :: ·) ih

namespace KeepsSteps

variable {s t u : State}

theorem refl : KeepsSteps s s := ⟨fun _ => rfl, fun _ => rfl, rfl⟩

theorem trans (h : KeepsSteps s t) (k : KeepsSteps t u) : KeepsSteps s u :=
  ⟨fun p => (k.marks p).trans (h.marks p), fun p => (k.store p).trans (h.store p), k.rings.trans h.rings⟩

theorem ite {c : Prop} [Decidable c] (h : KeepsSteps s t) (k : KeepsSteps s u) :
    KeepsSteps s (if c then t else u) := by
  split
  · exact h
  · exact k

theorem foldl {α : Type} {f : State → α → State} {l : List α} (k : ∀ t a, KeepsSteps t (f t a)) :
    KeepsSteps s (l.foldl f s) :=
  List.foldlRecOn _ _ .refl fun t ht a _ => ht.trans (k t a)

theorem modPipe {p : Nat} {f : Pipe → Pipe}
    (marks : (f (pipeAt s p)).pos.map Pos.mark = (pipeAt s p).pos.map Pos.mark := by rfl)
    (store : (f (pipeAt s p)).cpls = (pipeAt s p).cpls := by rfl) : KeepsSteps s (modPipe s p f) := by
  refine ⟨fun j => ?_, fun j => ?_, rfl⟩ <;> by_cases hj : j = p
  · subst hj; rw [pipeAt_modPipe, marks]
  · rw [pipeAt_modPipe_ne _ _ hj]
  · subst hj; rw [pipeAt_modPipe, store]
  · rw [pipeAt_modPipe_ne _ _ hj]

theorem modPos {p h : Nat} {f : Pos → Pos} (mark : ∀ q, (f q).mark = q.mark) : KeepsSteps s (modPos s p h f) :=
  .modPipe (map_lmod mark _)

/-- The state of a pair that a function has answered. -/
theorem fst {β : Type} {x : State × β} {y : β} (h : KeepsSteps s x.1) (e : x = (t, y)) : KeepsSteps s t := by
  rw [e] at h
  exact h

end KeepsSteps

/-- A function that touches neither pipes nor rings. -/
theorem Touches.keepsSteps {P : List Part} {s t : State} (h : Touches P s t)
    (pipes : among P .pipes = false := by rfl) (rings : among P .rings = false := by rfl) : KeepsSteps s t where
  marks p := by rw [h.pipeAt p pipes]
  store p := by rw [h.pipeAt p pipes]
  rings := (h.rest .rings rings).1

/-! ### What a step answers -/

theorem bind_eq_ok {ε α β : Type} {x : Except ε α} {f : α → Except ε β} {b : β} :
    (x >>= f) = .ok b ↔ ∃ a, x = .ok a ∧ f a = .ok b := by
  cases x with
  | error e => exact ⟨fun h => (nomatch h), fun ⟨_, h, _⟩ => (nomatch h)⟩
  | ok a => exact ⟨fun h => ⟨a, rfl, h⟩, fun ⟨_, h, k⟩ => (Except.ok.inj h) ▸ k⟩

theorem map_eq_ok {ε α β : Type} {x : Except ε α} {f : α → β} {b : β} :
    x.map f = .ok b ↔ ∃ a, x = .ok a ∧ f a = b := by
  cases x with
  | error e => exact ⟨fun h => (nomatch h), fun ⟨_, h, _⟩ => (nomatch h)⟩
  | ok a => exact ⟨fun h => ⟨a, rfl, Except.ok.inj h⟩, fun ⟨_, h, k⟩ => congrArg _ ((Except.ok.inj h) ▸ k)⟩

theorem orPin_eq_ok {o : Option State} {t : State} : orPin o = .ok t ↔ o = some t := by
  cases o <;> simp [orPin]

theorem orExport_eq_ok {o : Option State} {t : State} : orExport o = .ok t ↔ o = some t := by
  cases o <;> simp [orExport]

theorem KeepsSteps.foldlM {α : Type} {f : State → α → Except Nat State}
    (k : ∀ {t a u}, f t a = .ok u → KeepsSteps t u) {l : List α} {s t : State} (e : l.foldlM f s = .ok t) :
    KeepsSteps s t := by
  induction l generalizing s with
  | nil => exact Except.ok.inj e ▸ .refl
  | cons a l ih =>
    obtain ⟨u, first, others⟩ := bind_eq_ok.1 e
    exact (k first).trans (ih others)

/-! ### The cache, the places and the records -/

/-- Making room drops entries, and nothing else. -/
theorem cacheRoom_cache {n m : Nat} {k k' : Pipe} (e : cacheRoom n k m = some k') :
    ∃ c, k' = { k with cache := c } := by
  induction n generalizing k with
  | zero => cases e
  | succ n ih =>
    unfold cacheRoom at e
    split at e
    · exact ⟨k.cache, (Option.some.inj e).symm⟩
    split at e
    · cases e
    split at e
    · cases e
    · obtain ⟨c, rfl⟩ := ih e
      exact ⟨c, rfl⟩

theorem putCache_keepsSteps {s t : State} {p a : Nat} {dbl : Bool} {pin : Pin} (e : putCache s p a dbl pin = some t) :
    KeepsSteps s t := by
  obtain ⟨k, put, rfl⟩ := Option.map_eq_some_iff.1 e
  obtain ⟨k', room, rfl⟩ := Option.map_eq_some_iff.1 put
  obtain ⟨c, rfl⟩ := cacheRoom_cache room
  exact .modPipe

theorem enterRead_keepsSteps {s t : State} {p a : Nat} {dbl : Bool} (e : enterRead s p a dbl = some t) :
    KeepsSteps s t := by
  unfold enterRead at e
  split at e
  · exact Option.some.inj e ▸ .modPipe
  · exact putCache_keepsSteps e

theorem askFrom_keepsSteps (s : State) (p h slot bytes area requester after : Nat) :
    KeepsSteps s (askFrom s p h slot bytes area requester after) := .modPipe

theorem askWrite_keepsSteps (s : State) (p slot area : Nat) : KeepsSteps s (askWrite s p slot area) :=
  askFrom_keepsSteps ..

theorem takePlace_keepsSteps {s t : State} {p profile : Nat} {key : Bytes} {pl : Place}
    (e : takePlace s p profile key = some (t, pl)) : KeepsSteps s t := by
  unfold takePlace at e
  extract_lets at e
  split at e
  split at e
  · obtain ⟨rfl, -⟩ := Prod.mk.inj (Option.some.inj e)
    exact (occupy_touches ..).keepsSteps
  · obtain ⟨i, -, e⟩ := Option.map_eq_some_iff.1 e
    obtain ⟨rfl, -⟩ := Prod.mk.inj e
    exact .modPipe

theorem putEarly_early (k : Pipe) (a : Nat) (dbl : Bool) (r : Bytes) :
    ∃ e, putEarly k a dbl r = { k with early := e } := by
  unfold putEarly
  split <;> exact ⟨_, rfl⟩

theorem storeRecord_keepsSteps {s t : State} {p h : Nat} {dbl : Bool} {r : Bytes} {pl : Place}
    (e : storeRecord s p h dbl r pl = some t) : KeepsSteps s t := by
  cases pl with
  | slot a =>
    have asked : KeepsSteps s (askWrite (writeRecordAt s a dbl r) p a 0) :=
      (writeRecordAt_touches ..).keepsSteps.trans (askWrite_keepsSteps ..)
    simp only [storeRecord] at e
    split at e
    · exact Option.some.inj e ▸ asked
    · exact asked.trans (putCache_keepsSteps e)
  | stash i => exact Option.some.inj e ▸ .modPipe
  | early a =>
    obtain ⟨l, early⟩ := putEarly_early (pipeAt s p) a dbl (sealRecord a dbl r)
    refine .trans (.modPipe ?_ ?_) (putCache_keepsSteps e) <;> rw [early]

theorem freeStashEntry_keepsSteps (s : State) (p i tick : Nat) : KeepsSteps s (freeStashEntry s p i tick) := by
  unfold freeStashEntry
  extract_lets had s₁
  have hs₁ : KeepsSteps s s₁ := .modPipe
  exact .ite (hs₁.trans (countR_touches ..).keepsSteps) hs₁

/-- A move that has nothing left to carry is marked so in its status alone. -/
theorem releasePlace_keepsSteps (s : State) (p : Nat) (pl : Place) (dbl : Bool) (h tick : Nat) :
    KeepsSteps s (releasePlace s p pl dbl h tick) := by
  have emptied (a : Nat) : KeepsSteps s (if dirAt s a = 255 then s else vacate s a dbl) :=
    .ite .refl (vacate_touches ..).keepsSteps
  unfold releasePlace
  split
  · refine .modPipe ?_ rfl
    rw [List.map_map]
    exact List.map_congr_left fun q _ => by simp only [Function.comp_apply]; split <;> rfl
  · split
    · exact (emptied _).trans .modPipe
    · exact (emptied _).trans .modPipe
    · exact freeStashEntry_keepsSteps ..

theorem dropClaim_keepsSteps (s : State) (p : Nat) (c : Claim) : KeepsSteps s (dropClaim s p c) := .modPipe

theorem leaveClaim_keepsSteps (s : State) (p : Nat) (c : Claim) (h tick : Nat) :
    KeepsSteps s (leaveClaim s p c h tick) :=
  .ite ((dropClaim_keepsSteps ..).trans ((releasePlace_keepsSteps ..).trans (countR_touches ..).keepsSteps)) .modPipe

theorem leaveClaims_keepsSteps (s : State) (p h tick : Nat) : KeepsSteps s (leaveClaims s p h tick) :=
  .foldl fun _ _ => leaveClaim_keepsSteps ..

theorem natFreeAt_keepsSteps (s : State) (p i port : Nat) : KeepsSteps s (natFreeAt s p i port) := .modPipe

/-- The end of a record leaves a claim to its later holders, or frees its place. -/
theorem endRecord_keepsSteps {s t : State} {p h tick : Nat} {pl : Place} {dbl : Bool}
    (e : endRecord s p h tick pl dbl = some t) : KeepsSteps s t := by
  unfold endRecord at e
  extract_lets r profile key holders at e
  obtain ⟨u, stored, rfl⟩ := Option.map_eq_some_iff.1 e
  extract_lets s₁ s₂
  have hs₁ : KeepsSteps s s₁ := (storeRecord_keepsSteps stored).trans (.ite .refl (natFreeAt_keepsSteps ..))
  have hs₂ : KeepsSteps s s₂ := by
    refine hs₁.trans ?_
    unfold s₂
    split
    · exact .ite (.trans .modPipe (countR_touches ..).keepsSteps) .refl
    · exact .refl
  refine hs₂.trans (.ite (releasePlace_keepsSteps ..) ?_)
  split <;> exact .modPipe

/-! ### What comes before and after the work of a step -/

theorem quarantine_keepsSteps (s : State) (p a cause tick : Nat) : KeepsSteps s (quarantine s p a cause tick) := by
  unfold quarantine
  split
  · exact .refl
  extract_lets slots s₁ l s₂ s₃
  have hs₁ : Touches [.flow] s s₁ := .foldl (fun _ _ => putDir_touches ..) .refl
  have hs₂ : Touches [.flow] s s₂ := .set (t := s₁) hs₁
  have hs₃ : KeepsSteps s₂ s₃ := .modPipe
  exact hs₂.keepsSteps.trans (hs₃.trans ((countR_touches ..).keepsSteps.trans (raiseAt_touches ..).keepsSteps))

theorem quarantineBad_keepsSteps (s : State) (p : Nat) (q : Pos) : KeepsSteps s (quarantineBad s p q) :=
  .foldl fun _ _ => .ite .refl (quarantine_keepsSteps ..)

theorem enterReads_keepsSteps {s t : State} {p : Nat} {q : Pos} (e : enterReads s p q = .ok t) : KeepsSteps s t := by
  unfold enterReads at e
  extract_lets rs s₁ at e
  refine .trans (t := s₁) .modPipe (.foldlM (fun {u r v} one => ?_) e)
  split at one
  · exact enterRead_keepsSteps (orPin_eq_ok.1 one)
  · exact Except.ok.inj one ▸ .refl

theorem beforeCommit_keepsSteps {s t : State} {p : Nat} {q : Pos} (e : beforeCommit s p q = .ok t) :
    KeepsSteps s t :=
  (quarantineBad_keepsSteps s p q).trans (.trans (.foldl fun _ _ => (rebuildBucket_touches ..).keepsSteps)
    (enterReads_keepsSteps e))

theorem alarms_keepsSteps (s : State) (p tick : Nat) : KeepsSteps s (alarms s p tick) := by
  unfold alarms
  extract_lets oa sa o t k s₁ s₂
  have hs₁ : KeepsSteps s s₁ := .modPipe
  have hs₂ : KeepsSteps s s₂ := .ite (hs₁.trans (raiseAt_touches ..).keepsSteps) hs₁
  exact .ite (hs₂.trans (raiseAt_touches ..).keepsSteps) hs₂

theorem settleEarly_keepsSteps (s : State) (p : Nat) : KeepsSteps s (settleEarly s p) := by
  unfold settleEarly
  extract_lets k free
  refine .foldl fun t e => ?_
  extract_lets s₁
  have hs₁ : KeepsSteps t s₁ :=
    .trans .modPipe ((writeRecordAt_touches ..).keepsSteps.trans (askWrite_keepsSteps ..))
  cases put : putCache s₁ p e.slot e.dbl .write with
  | none => exact hs₁
  | some u => exact hs₁.trans (putCache_keepsSteps put)

/-- What ends the commit step of position q. -/
def endCommit (s : State) (p : Nat) (q : Pos) (worked : Bool) : State :=
  alarms (count (settleEarly (modPos s p q.h fun x => { x with done := true }) p)
    (cPipe p (if worked then 48 else 49)) 1) p q.tick

theorem endCommit_keepsSteps (s : State) (p : Nat) (q : Pos) (worked : Bool) :
    KeepsSteps (modPos s p q.h fun x => { x with done := true }) (endCommit s p q worked) :=
  (settleEarly_keepsSteps ..).trans ((count_touches ..).keepsSteps.trans (alarms_keepsSteps ..))

/-- Where the marks stay, the position of a home beat stands or is missing, done or not, as before. -/
theorem mark_posAt {s t : State} {p : Nat} (h : Nat)
    (marks : (pipeAt t p).pos.map Pos.mark = (pipeAt s p).pos.map Pos.mark) :
    (posAt t p h).map Pos.mark = (posAt s p h).map Pos.mark := by
  have first (l : List Pos) :
      (l.find? fun q => q.h == h).map Pos.mark = (l.map Pos.mark).find? fun m => m.1 == h := by
    rw [List.find?_map]
    rfl
  rw [posAt, posAt, first, first, marks]

theorem posAt_modPos {f : Pos → Pos} (hf : ∀ q, (f q).h = q.h) (s : State) (p h : Nat) :
    posAt (modPos s p h f) p h = (posAt s p h).map f := by
  rw [posAt, modPos, pipeAt_modPipe]
  exact find?_lmod_self (fun q hq => by rwa [hf q]) _

/-- A step whose position still stands as its work ends marks it as done. -/
theorem endCommit_marks {s t : State} {p : Nat} {q : Pos} (here : posAt s p q.h = some q)
    (marks : (pipeAt t p).pos.map Pos.mark = (pipeAt s p).pos.map Pos.mark) (worked : Bool) :
    ∃ y, posAt (endCommit t p q worked) p q.h = some y ∧ y.done = true := by
  obtain ⟨x, hx, -⟩ := Option.map_eq_some_iff.1 ((mark_posAt q.h marks).trans (congrArg _ here))
  have marked : posAt (modPos t p q.h fun x => { x with done := true }) p q.h = some { x with done := true } := by
    rw [posAt_modPos (f := fun x => { x with done := true }) fun _ => rfl, hx, Option.map_some]
  obtain ⟨y, hy, same⟩ := Option.map_eq_some_iff.1
    ((mark_posAt q.h ((endCommit_keepsSteps t p q worked).marks p)).trans (congrArg _ marked))
  exact ⟨y, hy, congrArg Prod.snd same⟩

/-- The work of a step, by what its position is for. -/
def commitWork (s : State) (p : Nat) (q : Pos) (c : Nat) (upset : Option (Nat × Ecc)) : Except Nat (State × Bool) :=
  match q.work with
  | .packet id => commitPacket s p q id c upset
  | .age item slots => (commitAge s p q item slots).map fun s => (s, true)
  | .move src dst _ dbl entry => (commitMove s p q src dst dbl entry).map fun s => (s, true)
  | .dscrub _ test => .ok (commitDscrub s p q (test.map Prod.fst), true)
  | .hcmd m => (commitCmd s p c q m upset).map fun s => (s, true)
  | .idle => .ok (s, q.status == 1)

theorem commitStep_eq (s : State) (p : Nat) (q : Pos) (c : Nat) (upset : Option (Nat × Ecc)) :
    commitStep s p q c upset = (beforeCommit s p q >>= fun r => commitWork r p q c upset >>= fun w =>
      .ok (endCommit w.1 p q w.2, w.2)) := by
  unfold commitStep commitWork
  cases q.work <;> rfl

/-- What a commit step that runs does. -/
theorem commitStep_ok {s u : State} {p c : Nat} {q : Pos} {upset : Option (Nat × Ecc)} {x : Bool}
    (ran : commitStep s p q c upset = .ok (u, x)) :
    ∃ r w, beforeCommit s p q = .ok r ∧ commitWork r p q c upset = .ok (w, x) ∧ u = endCommit w p q x := by
  rw [commitStep_eq] at ran
  obtain ⟨r, before, ran⟩ := bind_eq_ok.1 ran
  obtain ⟨⟨w, y⟩, works, ends⟩ := bind_eq_ok.1 ran
  obtain ⟨rfl, rfl⟩ := Prod.mk.inj (Except.ok.inj ends)
  exact ⟨r, w, before, works, rfl⟩

/-! ### The work of a packet's step -/

theorem learnOverflow_keepsSteps (s : State) (p tick : Nat) : KeepsSteps s (learnOverflow s p tick) := by
  have told (t : State) (f : Pipe → Pipe) (h : KeepsSteps t (modPipe t p f)) :
      KeepsSteps t (raiseAt (modPipe t p f) evLearnOverflow p tick []) := h.trans (raiseAt_touches ..).keepsSteps
  exact .trans (countR_touches ..).keepsSteps (.ite .refl (told _ _ .modPipe))

theorem placeLate_keepsSteps (s : State) (p c tick profile : Nat) (key : Bytes) :
    KeepsSteps s (placeLate s p c tick profile key).1 := by
  unfold placeLate
  split
  · exact learnOverflow_keepsSteps ..
  next u pl taken =>
    extract_lets pl s₁
    have hs₁ : KeepsSteps u s₁ := .modPipe
    have counted : KeepsSteps s₁ (countR s₁ (cPipe p 9) 1 tick) := (countR_touches ..).keepsSteps
    exact (takePlace_keepsSteps taken).trans (hs₁.trans counted)

theorem dirDouble_keepsSteps (s : State) (p h c b tick requester : Nat) :
    KeepsSteps s (dirDouble s p h c b tick requester) := by
  unfold dirDouble
  extract_lets s₁ s₂ s₃
  have hs₁ : KeepsSteps s s₁ := .foldl fun _ _ => (putDir_touches ..).keepsSteps
  have hs₂ : KeepsSteps s₁ s₂ := .modPos fun _ => rfl
  have hs₃ : KeepsSteps s₂ s₃ := .foldl fun _ _ => askFrom_keepsSteps ..
  exact hs₁.trans (hs₂.trans (hs₃.trans ((count_touches ..).keepsSteps.trans (raiseAt_touches ..).keepsSteps)))

theorem readWords_keepsSteps (s : State) (p h c tick requester : Nat) (bs : List Nat) (upset : Option (Nat × Ecc)) :
    KeepsSteps s (readWords s p h c tick requester bs upset) := by
  unfold readWords
  split
  · exact .ite (count_touches ..).keepsSteps .refl
  · exact .ite (dirDouble_keepsSteps ..) .refl
  · exact .refl

theorem openMiss_keepsSteps (s : State) (p h c tick profile : Nat) (key : Bytes) (upset : Option (Nat × Ecc)) :
    KeepsSteps s (openMiss s p h c tick profile key upset).1 := by
  unfold openMiss
  split
  extract_lets s₁ k
  refine .trans (t := s₁) (readWords_keepsSteps ..) ?_
  split
  · exact placeLate_keepsSteps ..
  split
  split
  · exact dropClaim_keepsSteps ..
  split
  · exact .refl
  · exact placeLate_keepsSteps ..

theorem findRecord_keepsSteps (s : State) (p c : Nat) (q : Pos) (profile : Nat) (key : Bytes) (learns : Bool)
    (upset : Option (Nat × Ecc)) : KeepsSteps s (findRecord s p c q profile key learns upset).1 := by
  unfold findRecord
  extract_lets learns missed
  have hmissed : KeepsSteps s (missed s).1 := by
    unfold missed
    split
    · exact .refl
    split
    · exact learnOverflow_keepsSteps ..
    split
    · exact openMiss_keepsSteps ..
    · exact .refl
  clear_value missed
  split
  · split
    · exact .refl
    · exact hmissed
  split
  · exact .refl
  split
  · split
    · exact dropClaim_keepsSteps ..
    · exact leaveClaim_keepsSteps ..
  · split
    · exact .refl
    · exact hmissed

/-- All that an operation can do to the state: nothing, a count, an allocation, a look at one. -/
theorem opEffect_cases {R : State → Prop} (c : CommitCtx) (t : CommitSt) (w : Nat) (same : R t.s)
    (counted : ∀ o, R (pipeCount c t.s o)) (alloc : ∀ a b first n paired, R (natAlloc c t a b first n paired).1.s)
    (rev : ∀ a, R (natRev c t a).1.s) : R (opEffect c t w).s := by
  have keeps {u : CommitSt} (h : u.s = t.s) : R u.s := h ▸ same
  have either {b : Prop} [Decidable b] {u v : CommitSt} (h : R u.s) (k : R v.s) : R (if b then u else v).s := by
    split
    · exact h
    · exact k
  unfold opEffect
  extract_lets op imm a b0 m b f d fin _ _ _ _ _ _ _ _ _ exported _ _ _ _ sampled
  have hfin (u : CommitSt) (nf q : Nat) (p : Bool) : (fin u nf q p).s = u.s := by simp [fin]
  clear_value fin
  -- 1 to 9, the arithmetic
  iterate 6 refine either (keeps (by simp [hfin])) ?_
  refine either (keeps (by simp)) (either (keeps (by simp [hfin])) (either (keeps (by simp [apply_ite CommitSt.s])) ?_))
  -- 10 to 12, an allocation, a member and a candidate
  refine either ?_ (either ?_ (either same ?_))
  · split
    next u q ok e =>
      have allocated := alloc a b0 (imm % 16) (bits imm 7 4 + 1) (bit imm 8)
      rw [e] at allocated
      simpa using allocated
  · split
    · exact keeps (by simp)
    · exact keeps (by simp [hfin])
  -- 13 and 14, a record and a sample
  refine either (either (counted 19) (either same (either (counted 16) same))) (either ?_ ?_)
  · have hs : sampled.s = t.s := hfin ..
    refine either (keeps hs) (either (keeps hs) (either (keeps hs) ?_))
    exact hs ▸ counted 21
  iterate 4 refine either (keeps (by simp [hfin])) ?_
  -- 19, the look at an allocation
  refine either ?_ same
  split
  next u q ok e =>
    have looked := rev a
    rw [e] at looked
    simpa using looked

theorem natAlloc_keepsSteps (c : CommitCtx) (t : CommitSt) (a b first cnt : Nat) (paired : Bool) :
    KeepsSteps t.s (natAlloc c t a b first cnt paired).1.s := by
  unfold natAlloc
  split
  · exact .refl
  extract_lets old st try1 js k s₁
  split
  · exact .refl
  split
  · exact .modPipe
  split
  · exact .refl
  · have hs₁ : KeepsSteps t.s s₁ := .modPipe
    exact hs₁.trans (raiseAt_touches ..).keepsSteps

theorem runOp_keepsSteps (c : CommitCtx) (t : CommitSt) (w : Nat) : KeepsSteps t.s (runOp c t w).s := by
  have counted (o : Nat) : KeepsSteps t.s (pipeCount c t.s o) := (pipeCount_touches ..).keepsSteps
  unfold runOp
  extract_lets g
  split
  · exact .refl
  split
  · exact counted _
  · exact opEffect_cases c t w .refl counted (natAlloc_keepsSteps c t) fun a => (natRev_touches c t a).keepsSteps

theorem runOps_keepsSteps (c : CommitCtx) (t : CommitSt) (ws : List Nat) : KeepsSteps t.s (runOps c t ws).s :=
  List.foldlRecOn (motive := fun u => KeepsSteps t.s u.s) _ _ .refl fun u hu w _ => hu.trans (runOp_keepsSteps c u w)

theorem pushExport_keepsSteps (s : State) (p template : Nat) (data : Bytes) :
    KeepsSteps s (pushExport s p template data) := .modPipe

theorem emitExport_keepsSteps {c : CommitCtx} {t : CommitSt} {u : State} (e : emitExport c t = some u) :
    KeepsSteps t.s u := by
  unfold emitExport at e
  split at e
  · exact Option.some.inj e ▸ .refl
  split at e
  · cases e
  · exact Option.some.inj e ▸ pushExport_keepsSteps ..

/-- A packet that leaves, to egress or at its end, leaves the pipes. -/
theorem sendOn_pipeAt (s : State) (k : Pkt) (d : Decision) (edits : List Nat) (hint p : Nat) :
    pipeAt (sendOn s k d edits hint) p = pipeAt s p := (sendOn_touches ..).pipeAt p

theorem commitTrapped_marks (s : State) (p : Nat) (q : Pos) (k : Pkt) (c : Nat) :
    (pipeAt (commitTrapped s p q k c) p).pos.map Pos.mark = (pipeAt s p).pos.map Pos.mark := by
  unfold commitTrapped
  split
  next u f found =>
  extract_lets hit s₁ hint
  have hs₁ : KeepsSteps s s₁ := ((findRecord_keepsSteps ..).fst found).trans
    ((countR_touches ..).keepsSteps.trans (countR_touches ..).keepsSteps)
  rw [sendOn_pipeAt]
  exact (hs₁.trans (leaveClaims_keepsSteps ..)).marks p

theorem commitProgram_marks {s t : State} {p c : Nat} {q : Pos} {k : Pkt} {raw : Bytes} {upset : Option (Nat × Ecc)}
    {x : Bool} (e : commitProgram s p q k c raw upset = .ok (t, x)) :
    (pipeAt t p).pos.map Pos.mark = (pipeAt s p).pos.map Pos.mark := by
  unfold commitProgram at e
  extract_lets v profile dbl n prog learns at e
  split at e
  next u f found =>
  extract_lets u₁ place created rcd s₁ ctx st ran ran₁ sent at e
  have hs₁ : KeepsSteps s s₁ := ((findRecord_keepsSteps ..).fst found).trans
    ((leaveClaims_keepsSteps ..).trans (countR_touches ..).keepsSteps)
  have hran : KeepsSteps s ran.s := hs₁.trans (runOps_keepsSteps ctx st _)
  have hran₁ : KeepsSteps s ran₁.s := by
    unfold ran₁
    split <;> exact hran
  have hsent {y : State} (e : sent y = .ok (t, x)) (hy : KeepsSteps s y) :
      (pipeAt t p).pos.map Pos.mark = (pipeAt s p).pos.map Pos.mark := by
    unfold sent at e
    extract_lets ran₂ at e
    clear_value ran₂
    obtain ⟨z, exported, e⟩ := bind_eq_ok.1 e
    have hz : KeepsSteps y z := emitExport_keepsSteps (orExport_eq_ok.1 exported)
    extract_lets z₁ at e
    have hz₁ : KeepsSteps z z₁ := (emitSample_touches ..).keepsSteps
    split at e
    next w d tpl verdict =>
    have judged := packetVerdict_touches ctx { ran₂ with s := z₁ } n prog.isSome
    have hw : KeepsSteps z₁ w := (judged.fst verdict).keepsSteps
    split at e
    next a edits bound =>
    have ha : KeepsSteps w a := by
      by_cases dropped : d.kind = 3
      · rw [if_pos dropped] at bound
        exact KeepsSteps.refl.fst (x := (w, [])) bound
      · rw [if_neg dropped] at bound
        exact ((bindTemplates_touches ctx { ran₂ with s := w } _ _ _).fst bound).keepsSteps
    obtain ⟨rfl, -⟩ := Prod.mk.inj (Except.ok.inj e)
    rw [sendOn_pipeAt]
    exact (hy.trans (hz.trans (hz₁.trans (hw.trans ha)))).marks p
  clear_value sent place
  split at e
  · obtain ⟨y, stored, e⟩ := bind_eq_ok.1 e
    exact hsent e (hran₁.trans (storeRecord_keepsSteps (orPin_eq_ok.1 stored)))
  · obtain ⟨y, same, e⟩ := bind_eq_ok.1 e
    exact hsent e (Except.ok.inj same ▸ hran₁)

theorem commitPacket_marks {s t : State} {p id c : Nat} {q : Pos} {upset : Option (Nat × Ecc)} {x : Bool}
    (e : commitPacket s p q id c upset = .ok (t, x)) :
    (pipeAt t p).pos.map Pos.mark = (pipeAt s p).pos.map Pos.mark := by
  unfold commitPacket at e
  split at e
  · obtain ⟨rfl, -⟩ := Prod.mk.inj (Except.ok.inj e)
    exact (leaveClaims_keepsSteps ..).marks p
  split at e
  · obtain ⟨rfl, -⟩ := Prod.mk.inj (Except.ok.inj e)
    exact commitTrapped_marks ..
  · exact commitProgram_marks e

/-! ### The work of sweeps, moves and scrubs -/

theorem expiryExport_keepsSteps {s t : State} {p tick : Nat} {v : VerCfg} {profile : Nat} {rcd : Bytes}
    (e : expiryExport s p tick v profile rcd = some t) : KeepsSteps s t := by
  unfold expiryExport at e
  extract_lets n at e
  split at e
  · exact Option.some.inj e ▸ (countR_touches ..).keepsSteps
  split at e
  · cases e
  split at e <;> exact Option.some.inj e ▸ pushExport_keepsSteps ..

theorem ageRecord_keepsSteps {s t : State} {p : Nat} {q : Pos} {pl : Place} {dbl : Bool}
    (e : ageRecord s p q pl dbl = .ok t) : KeepsSteps s t := by
  unfold ageRecord at e
  extract_lets r fl b profile a l ends at e
  have hends {u : State} (e : ends u = .ok t) : KeepsSteps u t := by
    obtain ⟨v, ended, e⟩ := bind_eq_ok.1 e
    exact (endRecord_keepsSteps (orPin_eq_ok.1 ended)).trans (Except.ok.inj e ▸ (countR_touches ..).keepsSteps)
  clear_value ends
  split at e
  · exact Except.ok.inj e ▸ .refl
  split at e
  · obtain ⟨u, exported, e⟩ := bind_eq_ok.1 e
    exact (expiryExport_keepsSteps (orExport_eq_ok.1 exported)).trans (hends e)
  · obtain ⟨u, same, e⟩ := bind_eq_ok.1 e
    exact Except.ok.inj same ▸ hends e

theorem commitAge_keepsSteps {s t : State} {p : Nat} {q : Pos} {item : Nat} {slots : List Nat}
    (e : commitAge s p q item slots = .ok t) : KeepsSteps s t := by
  unfold commitAge at e
  split at e
  · refine .foldlM (fun {u a v} one => ?_) e
    extract_lets at one
    split at one
    · exact Except.ok.inj one ▸ .refl
    · exact ageRecord_keepsSteps one
  split at e
  · exact ageRecord_keepsSteps e
  · exact Except.ok.inj e ▸ .refl

theorem dropStash_keepsSteps (s : State) (p i : Nat) : KeepsSteps s (dropStash s p i) := .modPipe

theorem abandonMove_keepsSteps (s : State) (p : Nat) (q : Pos) (src : Place) (dst : Nat) (dbl : Bool) (entry : Nat) :
    KeepsSteps s (abandonMove s p q src dst dbl entry) := by
  unfold abandonMove
  extract_lets s₁ s₂ s₃
  have hs₂ : KeepsSteps s₁ s₂ := .modPipe
  have hs₃ : KeepsSteps s₂ s₃ := by
    unfold s₃
    split
    · exact dropStash_keepsSteps ..
    · exact .refl
  exact (vacate_touches ..).keepsSteps.trans (hs₂.trans (hs₃.trans (countR_touches ..).keepsSteps))

theorem commitMove_keepsSteps {s t : State} {p : Nat} {q : Pos} {src : Place} {dst : Nat} {dbl : Bool} {entry : Nat}
    (e : commitMove s p q src dst dbl entry = .ok t) : KeepsSteps s t := by
  unfold commitMove at e
  extract_lets r claim bad follow followed emptied at e
  have hfollowed {u : State} (e : followed u = .ok t) : KeepsSteps u t := by
    obtain rfl := Except.ok.inj e
    exact .trans .modPipe (countR_touches ..).keepsSteps
  have copied (u : State) (b : Bytes) : KeepsSteps u (askWrite (putCompanion u dst b) p dst 1) :=
    (putCompanion_touches ..).keepsSteps.trans (askWrite_keepsSteps ..)
  have hemptied {u : State} (e : emptied u = .ok t) : KeepsSteps u t := by
    unfold emptied at e
    split at e
    · obtain ⟨v, stored, e⟩ := bind_eq_ok.1 e
      exact (copied ..).trans ((storeRecord_keepsSteps (orPin_eq_ok.1 stored)).trans (hfollowed e))
    · obtain ⟨v, stored, e⟩ := bind_eq_ok.1 e
      exact (copied ..).trans ((storeRecord_keepsSteps (orPin_eq_ok.1 stored)).trans (hfollowed e))
    · obtain ⟨v, dropped, e⟩ := bind_eq_ok.1 e
      obtain rfl := Except.ok.inj dropped
      exact (copied ..).trans ((dropStash_keepsSteps ..).trans (hfollowed e))
  clear_value emptied claim
  split at e
  · exact Except.ok.inj e ▸ abandonMove_keepsSteps ..
  split at e
  · obtain ⟨v, taken, e⟩ := bind_eq_ok.1 e
    obtain rfl := Except.ok.inj taken
    exact (writeRecordAt_touches ..).keepsSteps.trans ((askWrite_keepsSteps ..).trans (.trans .modPipe (hemptied e)))
  · obtain ⟨v, stored, e⟩ := bind_eq_ok.1 e
    exact (storeRecord_keepsSteps (orPin_eq_ok.1 stored)).trans (hemptied e)

theorem releaseSlot_keepsSteps (s : State) (p a tick : Nat) : KeepsSteps s (releaseSlot s p a tick) := by
  unfold releaseSlot
  extract_lets s₁ m s₂
  have hs₁ : KeepsSteps s s₁ := (putSlot_touches ..).keepsSteps.trans
    ((askWrite_keepsSteps ..).trans (putDir_touches ..).keepsSteps)
  have hs₂ : Touches [.flow] s₁ s₂ := .set .refl
  exact hs₁.trans (hs₂.keepsSteps.trans (raiseAt_touches ..).keepsSteps)

theorem commitDscrub_keepsSteps (s : State) (p : Nat) (q : Pos) (test : Option Nat) :
    KeepsSteps s (commitDscrub s p q test) := by
  unfold commitDscrub
  split
  · exact .refl
  · exact .ite .refl (.ite (countR_touches ..).keepsSteps (releaseSlot_keepsSteps ..))

/-! ### The rows -/

/-- The row of a kind runs the step of that kind that is due. -/
theorem CommitRuns.commitDue {s u : State} {p : Nat} {q : Pos} (runs : CommitRuns s p q u) {kind : Pos → Bool}
    (hq : kind q = true) : whenRun s (fun s => commitDue s p kind) = u := by
  obtain ⟨⟨run, -⟩, isDue, notDone, first, ready, ⟨v, whole⟩, x, ran⟩ := runs
  rw [whenRun_running run]
  simp only [Machine.commitDue, isDue, notDone, hq, first, ready, whole, ran, Bool.not_true, bne_self_eq_false,
    Bool.or_self, Bool.false_eq_true, if_false]

/-- The command of a row acts as the step does. -/
theorem CommitRuns.next {s u : State} {p : Nat} {q : Pos} (runs : CommitRuns s p q u) {kind : Pos → Bool}
    (hq : kind q = true) :
    (Host.Outcome.next (whenRun (settled s) fun s => Machine.commitDue s p kind) : Host.Outcome State Fault Refusal) =
      .next u := by
  rw [runs.1.2, runs.commitDue hq]

/-- The position stands, and its step has the three parts. -/
theorem CommitRuns.step {s u : State} {p : Nat} {q : Pos} (runs : CommitRuns s p q u) :
    posAt s p q.h = some q ∧ ∃ r w x, beforeCommit s p q = .ok r ∧
      commitWork r p q (pipeAt s p).h none = .ok (w, x) ∧ u = endCommit w p q x := by
  obtain ⟨-, isDue, -, -, -, -, x, ran⟩ := runs
  obtain ⟨r, w, before, works, ends⟩ := commitStep_ok ran
  refine ⟨?_, r, w, x, before, works, ends⟩
  unfold duePos at isDue
  split at isDue
  · have at_h : q.h = (pipeAt s p).h - horizon s := by simpa using List.find?_some isDue
    rw [at_h]
    exact isDue
  · cases isDue

/-- A step whose work leaves the positions marks its own. -/
theorem CommitRuns.marks {s u : State} {p : Nat} {q : Pos} (runs : CommitRuns s p q u)
    (keeps : ∀ {r w x}, commitWork r p q (pipeAt s p).h none = .ok (w, x) →
      (pipeAt w p).pos.map Pos.mark = (pipeAt r p).pos.map Pos.mark) :
    ∃ y, posAt u p q.h = some y ∧ y.done = true := by
  obtain ⟨here, r, w, x, before, works, rfl⟩ := runs.step
  exact endCommit_marks here ((keeps works).trans ((beforeCommit_keepsSteps before).marks p)) x

/-! ### A trapped packet (R313) -/

theorem sendOn_toEgress {s : State} {k k' : Pkt} {d : Decision} (there : pktAt s k.id = some k') (sent : d.kind ≠ 3)
    (edits : List Nat) (hint : Nat) :
    ∃ x, pktAt (sendOn s k d edits hint) k.id = some x ∧ x.stage = .toEgress ∧ x.dec.kind = d.kind := by
  rw [sendOn, if_neg sent, pktAt_modPkt, there]
  · exact ⟨_, rfl, rfl, rfl⟩
  · exact fun _ h => h

theorem Touches.slotVer {P : List Part} {s t : State} (h : Touches P s t) (k : Nat)
    (hP : among P .version = false := by rfl) : slotVer t k = slotVer s k := by
  have ver : t.ver = s.ver := h.rest .version hP
  simp only [Machine.slotVer, slotAt, ver]

theorem commitTrapped_toEgress {s : State} {p : Nat} {q : Pos} {k : Pkt} (there : pktAt s k.id = some k)
    (forwards : (trapDecision (slotVer s k.vslot) k.flow.profile).kind ≠ 3) (c : Nat) :
    ∃ x, pktAt (commitTrapped s p q k c) k.id = some x ∧ x.stage = .toEgress ∧
      x.dec.kind = (trapDecision (slotVer s k.vslot) k.flow.profile).kind := by
  unfold commitTrapped
  split
  next u f found =>
  extract_lets hit s₁ hint
  have hs₁ : Touches [.system, .flow, .pipes, .sessions, .counters] s s₁ :=
    (countR_touches ..).after ((countR_touches ..).after ((findRecord_touches ..).fst found))
  have left : pktAt (leaveClaims s₁ p q.h k.tick) k.id = some k :=
    (((leaveClaims_touches ..).after hs₁).pktAt _).trans there
  rw [← hs₁.slotVer] at forwards ⊢
  exact sendOn_toEgress left forwards ..

/-- The end of a step touches no packet. -/
theorem endCommit_touches (s : State) (p : Nat) (q : Pos) (worked : Bool) :
    Touches [.system, .flow, .pipes, .sessions, .counters] s (endCommit s p q worked) :=
  (alarms_touches ..).after ((count_touches ..).after ((settleEarly_touches ..).after (modPos_touches ..).within))

theorem CommitRuns.trapped {s u : State} {p id : Nat} {q : Pos} {k : Pkt} (runs : CommitRuns s p q u)
    (work : q.work = .packet id) (there : pktAt s id = some k) (trapped : k.flow.trapped = true)
    (forwards : (trapDecision (slotVer s k.vslot) k.flow.profile).kind ≠ 3) :
    ∃ x, pktAt u id = some x ∧ x.stage = .toEgress ∧
      x.dec.kind = (trapDecision (slotVer s k.vslot) k.flow.profile).kind := by
  obtain ⟨-, r, w, x, before, works, rfl⟩ := runs.step
  have hr := (beforeCommit_touches s p q).getOk before
  obtain rfl : k.id = id := by simpa using List.find?_some there
  have there' : pktAt r k.id = some k := (hr.pktAt _).trans there
  simp only [commitWork, work, commitPacket, there', trapped, Bool.true_or, if_true] at works
  obtain ⟨rfl, -⟩ := Prod.mk.inj (Except.ok.inj works)
  rw [(endCommit_touches ..).pktAt]
  rw [← hr.slotVer] at forwards ⊢
  exact commitTrapped_toEgress there' forwards _

/-! ### A slot that leaves the quarantine (R252) -/

theorem Touches.dirAt {P : List Part} {s t : State} (h : Touches P s t) (a : Nat)
    (hP : among P .flow = false := by rfl) : dirAt t a = dirAt s a := by
  rw [Machine.dirAt, Machine.dirAt, (h.rest .flow hP).1]

theorem Touches.quarantine {P : List Part} {s t : State} (h : Touches P s t)
    (hP : among P .flow = false := by rfl) : t.mem.quarantine = s.mem.quarantine := by
  obtain ⟨-, -, -, -, same⟩ := h.rest .flow hP
  exact same

/-- The quarantine of another slot leaves the directory byte of a quarantined one. -/
theorem dirAt_quarantine {s : State} {a : Nat} (out : dirAt s a = 255) (p b cause tick : Nat) :
    dirAt (quarantine s p b cause tick) a = 255 := by
  unfold quarantine
  split
  · exact out
  extract_lets slots s₁ l s₂ s₃
  have hs₁ : dirAt s₁ a = 255 := List.foldlRecOn (motive := fun t => dirAt t a = 255) _ _ out fun t ht x _ => by
    by_cases hx : a = x
    · subst hx; exact dirAt_putDir ..
    · exact (dirAt_putDir_ne _ _ hx).trans ht
  have later : Touches [.system, .pipes, .sessions, .counters] s₂
      (raiseAt (countR s₃ (cPipe p 10) 1 tick) evRecordBad p tick [b, cause]) :=
    (raiseAt_touches ..).after ((countR_touches ..).after (modPipe_touches ..).within)
  exact (later.dirAt a).trans hs₁

theorem dirAt_beforeCommit {s r : State} {p a : Nat} {q : Pos} (out : dirAt s a = 255) (none : q.rebuild = [])
    (before : beforeCommit s p q = .ok r) : dirAt r a = 255 := by
  have bad : dirAt (quarantineBad s p q) a = 255 :=
    List.foldlRecOn (motive := fun t => dirAt t a = 255) _ _ out fun t ht e _ => by
      split
      · exact ht
      · exact dirAt_quarantine ht ..
  simp only [beforeCommit, none, List.foldl_nil] at before
  exact (((enterReads_touches ..).getOk before).dirAt a).trans bad

theorem releaseSlot_quarantine (s : State) (p a tick : Nat) : a ∉ (releaseSlot s p a tick).mem.quarantine := by
  unfold releaseSlot
  extract_lets s₁ m s₂
  rw [(raiseAt_touches ..).quarantine]
  simp [s₂]

theorem writeRecordAt_quarantine (s : State) (a : Nat) (dbl : Bool) (r : Bytes) :
    (writeRecordAt s a dbl r).mem.quarantine = s.mem.quarantine := by
  unfold writeRecordAt writeRaw
  split <;> rfl

theorem settleEarly_quarantine (s : State) (p : Nat) : (settleEarly s p).mem.quarantine = s.mem.quarantine := by
  unfold settleEarly
  extract_lets k free
  refine List.foldlRecOn (motive := fun t : State => t.mem.quarantine = s.mem.quarantine) _ _ rfl fun t ht e _ => ?_
  extract_lets s₁
  have hs₁ : s₁.mem.quarantine = s.mem.quarantine :=
    (askWrite_touches ..).quarantine.trans ((writeRecordAt_quarantine ..).trans ht)
  cases put : putCache s₁ p e.slot e.dbl .write with
  | none => exact hs₁
  | some u => exact ((putCache_touches ..).get put).quarantine.trans hs₁

theorem endCommit_quarantine (s : State) (p : Nat) (q : Pos) (worked : Bool) :
    (endCommit s p q worked).mem.quarantine = s.mem.quarantine :=
  (alarms_touches ..).quarantine.trans ((count_touches ..).quarantine.trans (settleEarly_quarantine ..))

theorem CommitRuns.released {s u : State} {p b a : Nat} {bytes : Bytes} {q : Pos} (runs : CommitRuns s p q u)
    (work : q.work = .dscrub b (some (a, bytes))) (out : dirAt s a = 255) (none : q.rebuild = [])
    (good : (q.badSlots.any fun e => e.1 == a) = false) : a ∉ u.mem.quarantine := by
  obtain ⟨-, r, w, x, before, works, rfl⟩ := runs.step
  simp only [commitWork, work, Option.map_some, commitDscrub, dirAt_beforeCommit out none before, good,
    bne_self_eq_false, Bool.false_eq_true, if_false] at works
  obtain ⟨rfl, -⟩ := Prod.mk.inj (Except.ok.inj works)
  rw [endCommit_quarantine]
  exact releaseSlot_quarantine _ _ _ _

/-- Settles O18: the work of each step leaves the marks of the positions, so that its end marks its own. -/
theorem commitStepsRunOnce : Obligations.CommitStepsRunOnce := by
  refine ⟨?_, ?_, ?_, ?_⟩
  · intro s u p id q runs work
    refine ⟨u, runs.next (by rw [work]), runs.marks fun works => ?_, fun k there trapped forwards =>
      runs.trapped work there trapped forwards⟩
    simp only [commitWork, work] at works
    exact commitPacket_marks works
  · intro s u p i l q runs work
    refine ⟨u, runs.next (by rw [work]), runs.marks fun works => ?_⟩
    simp only [commitWork, work] at works
    obtain ⟨w, aged, e⟩ := map_eq_ok.1 works
    obtain ⟨rfl, -⟩ := Prod.mk.inj e
    exact (commitAge_keepsSteps aged).marks p
  · intro s u p d f e b src q runs work
    refine ⟨u, runs.next (by rw [work]), runs.marks fun works => ?_⟩
    simp only [commitWork, work] at works
    obtain ⟨w, moved, e⟩ := map_eq_ok.1 works
    obtain ⟨rfl, -⟩ := Prod.mk.inj e
    exact (commitMove_keepsSteps moved).marks p
  · intro s u p b x q runs work
    refine ⟨u, runs.next (by rw [work]), runs.marks fun works => ?_, ?_⟩
    · simp only [commitWork, work] at works
      obtain ⟨rfl, -⟩ := Prod.mk.inj (Except.ok.inj works)
      exact (commitDscrub_keepsSteps ..).marks p
    · rintro a bytes rfl out none good
      exact runs.released work out none good

/-! ### Table commands (R256, R520) -/

/-- The completion of a command. -/
def completion (q : Pos) (m : Cmd) (status place : Nat) (image : Bytes) : Completion :=
  { body := bytesOf 1 status ++ bytesOf 1 (cmdProfile m.body) ++ [0, 0] ++ slice m.body 4 4
      ++ bytesOf 4 place ++ zeros 4 ++ bytesOf 8 q.tick ++ slice image 0 128 ++ zeros 8,
    count := m.count }

theorem complete_eq (s : State) (p : Nat) (q : Pos) (m : Cmd) (status place : Nat) (image : Bytes) :
    complete s p q m status place image =
      if m.held then consumed (modPipe s p fun k => { k with cpls := k.cpls ++ [completion q m status place image] }) p
        m.count
      else s := rfl

theorem completion_status (q : Pos) (m : Cmd) (status place : Nat) (image : Bytes) :
    byteAt (completion q m status place image).body 0 = status % 256 := by
  simp [completion, byteAt, bytesOf]

/-- Every completion is what `Completes` asks for. -/
theorem complete_completes (s : State) (p : Nat) (q : Pos) (m : Cmd) (status place : Nat) (image : Bytes) :
    Completes s (complete s p q m status place image) p m (completion q m status place image) := by
  rw [complete_eq]
  cases held : m.held with
  | false => exact { store := by simp [held], count := rfl, ring := fun e => nomatch held.symm.trans e }
  | true =>
    refine { store := ?_, count := rfl, ring := fun _ oldest => ?_ }
    · rw [if_pos rfl, (consumed_touches ..).pipeAt p, pipeAt_modPipe]
      simp [held]
    · rw [if_pos rfl, consumed, ringAt_modRing, (modPipe_touches ..).ringAt, if_pos oldest]

/-- What a step does before and after its completion leaves it. -/
theorem KeepsSteps.completes {s r w : State} {p : Nat} {m : Cmd} {x : Completion} (h : KeepsSteps s r)
    (k : Completes r w p m x) : Completes s w p m x where
  store := by rw [k.store, h.store]
  count := k.count
  ring held oldest := k.ring held (by rw [ringAt, h.rings]; exact oldest)

theorem Completes.endCommit {s w : State} {p : Nat} {m : Cmd} {x : Completion} (h : Completes s w p m x) (q : Pos)
    (worked : Bool) : Completes s (endCommit w p q worked) p m x := by
  have ends := endCommit_keepsSteps w p q worked
  refine { store := ?_, count := h.count, ring := fun held oldest => ?_ }
  · rw [ends.store, modPos, pipeAt_modPipe]
    exact h.store
  · rw [ringAt, ends.rings]
    exact h.ring held oldest

/-- From s to t command m of pipe p has completed, whatever the completion says. -/
def Ends (s t : State) (p : Nat) (m : Cmd) : Prop := ∃ x, Completes s t p m x

theorem complete_ends {s r : State} {p : Nat} {q : Pos} {m : Cmd} {status place : Nat} {image : Bytes}
    (h : KeepsSteps s r) : Ends s (complete r p q m status place image) p m :=
  ⟨_, h.completes (complete_completes ..)⟩

theorem actOnRecord_ends {s t : State} {p : Nat} {q : Pos} {m : Cmd} {pl : Place} {dbl : Bool}
    (e : actOnRecord s p q m pl dbl = .ok t) : Ends s t p m := by
  unfold actOnRecord at e
  extract_lets r at e
  split at e
  · obtain ⟨u, ended, e⟩ := bind_eq_ok.1 e
    exact Except.ok.inj e ▸ complete_ends ((endRecord_keepsSteps (orPin_eq_ok.1 ended)).trans
      (countR_touches ..).keepsSteps)
  split at e
  · obtain ⟨u, stored, e⟩ := bind_eq_ok.1 e
    exact Except.ok.inj e ▸ complete_ends (storeRecord_keepsSteps (orPin_eq_ok.1 stored))
  · exact Except.ok.inj e ▸ complete_ends .refl

theorem commitBySlot_ends {s t : State} {p : Nat} {q : Pos} {m : Cmd} (e : commitBySlot s p q m = .ok t) :
    Ends s t p m := by
  unfold commitBySlot at e
  extract_lets a pl d dbl read r at e
  iterate 4
    split at e
    · exact Except.ok.inj e ▸ complete_ends .refl
  exact actOnRecord_ends e

theorem commitInsert_ends {s t : State} {p c : Nat} {q : Pos} {m : Cmd} {upset : Option (Nat × Ecc)}
    (e : commitInsert s p c q m upset = .ok t) : Ends s t p m := by
  unfold commitInsert at e
  extract_lets key dbl profile at e
  split at e
  · exact Except.ok.inj e ▸ complete_ends .refl
  split at e
  · exact Except.ok.inj e ▸ complete_ends .refl
  split at e
  next u f found =>
  have hu : KeepsSteps s u := by
    refine KeepsSteps.fst ?_ found
    split
    · split
      · exact dropClaim_keepsSteps ..
      split
      · exact .refl
      · exact openMiss_keepsSteps ..
    · split
      · exact .refl
      · exact openMiss_keepsSteps ..
  extract_lets u₁ at e
  have hu₁ : KeepsSteps s u₁ := hu.trans (leaveClaims_keepsSteps ..)
  split at e
  · exact Except.ok.inj e ▸ complete_ends hu₁
  · exact Except.ok.inj e ▸ complete_ends hu₁
  · obtain ⟨v, stored, e⟩ := bind_eq_ok.1 e
    exact Except.ok.inj e ▸ complete_ends (hu₁.trans (storeRecord_keepsSteps (orPin_eq_ok.1 stored)))

/-- A command that its admission step has refused completes with the status found there. -/
theorem commitCmd_of_status {q : Pos} {m : Cmd} (kind : m.kind = 0) (refused : q.status ≠ 0) (s : State) (p c : Nat)
    (upset : Option (Nat × Ecc)) :
    commitCmd s p c q m upset = .ok (complete s p q m q.status 0xFFFFFFFF []) := by
  simp [commitCmd, kind, refused]

/-- The commit step of a table command has one completion, whichever way it goes. -/
theorem commitCmd_ends {s t : State} {p c : Nat} {q : Pos} {m : Cmd} {upset : Option (Nat × Ecc)} (kind : m.kind = 0)
    (e : commitCmd s p c q m upset = .ok t) : Ends s t p m := by
  simp only [commitCmd, kind, zero_ne_one, OfNat.zero_ne_ofNat, if_false] at e
  split at e
  · exact Except.ok.inj e ▸ complete_ends .refl
  split at e
  · exact commitBySlot_ends e
  split at e
  · exact commitInsert_ends e
  split at e
  · exact actOnRecord_ends e
  · exact Except.ok.inj e ▸ complete_ends .refl

/-- The whole step, with what its command's work completes. -/
theorem CommitRuns.cmd {s u : State} {p : Nat} {q : Pos} {m : Cmd} (runs : CommitRuns s p q u)
    (work : q.work = .hcmd m) : ∃ r w, commitCmd r p (pipeAt s p).h q m none = .ok w ∧
      ∀ x, Completes r w p m x → Completes s u p m x := by
  obtain ⟨-, r, w, x, before, works, rfl⟩ := runs.step
  simp only [commitWork, work] at works
  obtain ⟨w, ran, e⟩ := map_eq_ok.1 works
  obtain ⟨rfl, rfl⟩ := Prod.mk.inj e
  exact ⟨r, w, ran, fun x h => ((beforeCommit_keepsSteps before).completes h).endCommit q true⟩

theorem CommitRuns.completes {s u : State} {p : Nat} {q : Pos} {m : Cmd} (runs : CommitRuns s p q u)
    (work : q.work = .hcmd m) (kind : m.kind = 0) : ∃ x, Completes s u p m x := by
  obtain ⟨r, w, ran, whole⟩ := runs.cmd work
  exact (commitCmd_ends kind ran).imp whole

theorem CommitRuns.rejects {s u : State} {p : Nat} {q : Pos} {m : Cmd} (runs : CommitRuns s p q u)
    (work : q.work = .hcmd m) (kind : m.kind = 0) (refused : q.status = 7) :
    ∃ x, Completes s u p m x ∧ byteAt x.body 0 = 7 := by
  obtain ⟨r, w, ran, whole⟩ := runs.cmd work
  rw [commitCmd_of_status kind (by omega)] at ran
  refine ⟨_, whole _ (Except.ok.inj ran ▸ complete_completes ..), ?_⟩
  rw [completion_status, refused]

/-- A command of an opcode, not refused, is of the kind of that opcode's row. -/
theorem isCmd_of_work {q : Pos} {m : Cmd} {op : Nat} (work : q.work = .hcmd m) (kind : m.kind = 0)
    (accepted : q.status ≠ 7) (hop : cmdOp m.body = op) : isCmd op q = true := by
  simp [isCmd, work, kind, accepted, hop]

/-- Settles O19: each row runs the step that is due, which completes its command once. -/
theorem tableCommandsComplete : Obligations.TableCommandsComplete := by
  refine ⟨?_, ?_, ?_, ?_, ?_⟩
  · intro s u p q m runs work kind accepted op
    exact ⟨u, runs.next (isCmd_of_work work kind accepted op), runs.completes work kind⟩
  · intro s u p q m runs work kind accepted op
    exact ⟨u, runs.next (isCmd_of_work work kind accepted op), runs.completes work kind⟩
  · intro s u p q m runs work kind accepted op
    exact ⟨u, runs.next (isCmd_of_work work kind accepted op), runs.completes work kind⟩
  · intro s u p q m runs work kind accepted op
    exact ⟨u, runs.next (isCmd_of_work work kind accepted op), runs.completes work kind⟩
  · intro s u p q m runs work kind refused
    exact ⟨u, runs.next (by simp [work, kind, refused]), runs.rejects work kind refused⟩

end Sys2Proof.Machine

namespace Sys2Proof.Machine

/-! ## Images and keys (O44) -/

/-! ### Image bytes (R310) -/

theorem lockExpiry_of_lease {s : State} (lease : s.beat < s.mabin.expires) : lockExpiry s = s := by
  unfold lockExpiry
  split
  · rfl
  · exact if_neg (by simpa [due] using lease)

/-- A renewal leaves all but the expiry of the lock. -/
theorem renewLease_eq_expires (s : State) (who : Nat) :
    ∃ n, renewLease s who = { s with mabin := { s.mabin with expires := n } } := by
  rcases renewLease_cases s who with e | ⟨-, -, e⟩
  · exact ⟨s.mabin.expires, e⟩
  · exact ⟨_, e⟩

/-- A staged write of the lock holder with tier 2 or above does what its effect does to the state with the lease
renewed, and counts (R571). -/
theorem stagingWrite_of_holder {s : State} {src : Origin} {k : Nat} (tier : tierOf s src = some k) (high : 2 ≤ k)
    (holder : s.mabin.holder = some (originNum src)) (lease : s.beat < s.mabin.expires) (idx sub : Nat)
    (eff : State → Option State) :
    ∃ n, ∀ t, eff { s with mabin := { s.mabin with expires := n } } = some t →
      Touches [.counters] t (stagingWrite s src idx sub eff) := by
  obtain ⟨n, renewed⟩ := renewLease_eq_expires s (originNum src)
  refine ⟨n, fun t done => ?_⟩
  simp only [stagingWrite, lockExpiry_of_lease lease, tier, Option.isNone_some, decide_eq_true_eq, high.not_gt,
    holder, bne_self_eq_false, Bool.false_eq_true, if_false]
  rw [renewed, done]
  exact filtered_touches ..

/-- Bytes that fit replace or extend the transfer. -/
theorem stageImage_of_fits {s : State} {b : Bytes} (last : Bool)
    (fits : ((if s.mabin.imageHere && !s.mabin.imageDone then s.mabin.image else []) ++ b).length ≤ 16777216) :
    stageImage s b last = some { s with mabin := { s.mabin with
      image := (if s.mabin.imageHere && !s.mabin.imageDone then s.mabin.image else []) ++ b
      imageHere := true, imageDone := last, imageStatus := 2 ^ 24 } } := by
  have joined : (if s.mabin.imageHere && !s.mabin.imageDone then s.mabin.image ++ b else b) =
      (if s.mabin.imageHere && !s.mabin.imageDone then s.mabin.image else []) ++ b := by
    split <;> rfl
  simp only [stageImage, joined, fits.not_gt, if_false]

/-! ### The verdict (R311) -/

/-- The plans of an image are staged as rows and emptied tables, and keep what those keep. -/
theorem stagePlans_keeps {α : Type} (f : State → α) (rows : ∀ t idx sub row v, f (stageRow t idx sub row v) = f t)
    (tables : ∀ t idx sub, f (stageEmpty t idx sub) = f t) (s : State) (raw : Bytes) :
    f (stagePlans s raw) = f s := by
  unfold stagePlans
  split
  · rfl
  · refine List.foldlRecOn (motive := fun t => f t = f s) _ _ rfl fun t ht h _ => ?_
    exact List.foldlRecOn (motive := fun u => f u = f s) _ _ ((tables ..).trans ht)
      fun u hu r _ => (rows ..).trans hu

/-- A whole image that is not yet judged stays, and its status says the first reason against it. -/
theorem verifyImage_judges {s : State} (here : s.mabin.imageHere = true) (whole : s.mabin.imageDone = true)
    (unjudged : s.mabin.imageStatus = 2 ^ 24) :
    (verifyImage s).mabin.image = s.mabin.image ∧
      (verifyImage s).mabin.imageStatus = (if imageReason s s.mabin.image = 0 then 2 * 2 ^ 24
        else 3 * 2 ^ 24 + imageReason s s.mabin.image) := by
  simp only [verifyImage, here, whole, unjudged, beq_self_eq_true, Bool.and_self, if_true]
  split
  case isTrue accepted =>
    exact ⟨stagePlans_keeps (·.mabin.image) (fun _ _ _ _ _ => rfl) (fun _ _ _ => rfl) ..,
      stagePlans_keeps (·.mabin.imageStatus) (fun _ _ _ _ _ => rfl) (fun _ _ _ => rfl) ..⟩
  case isFalse rejected =>
    obtain ⟨-, -, -, -, image, -, -, -, status, -⟩ := (raiseEv_touches _ evImageRejected 0 _).rest .lock rfl
    exact ⟨image, status⟩

/-! ### Fuse words (R308) -/

theorem slice_of_length {b : Bytes} {n : Nat} (h : b.length = n) : slice b 0 n = b := by
  simp [slice, ← h]

theorem putFuse_of_hash {j : FuseJob} (h : j.hash ≠ []) (s : State) (r : Bool) (b : Bytes) :
    (putFuse s j r b).sys = { s.sys with fuses.slots := tins s.sys.fuses.slots j.slot b } := by
  simp [putFuse, h]

theorem putFuse_of_revocation {j : FuseJob} (h : j.hash = []) (s : State) (b : Bytes) :
    (putFuse s j true b).sys = { s.sys with fuses.revoked := insertUnique j.slot s.sys.fuses.revoked } := by
  simp [putFuse, h]

theorem mem_insertUnique_self (x : Nat) (l : List Nat) : x ∈ insertUnique x l := by
  unfold insertUnique
  split
  case isTrue listed => simpa using listed
  case isFalse => simp

/-- With no supply warning and no word waiting, a word with a good read-back holds what is programmed into it. -/
theorem queueFuse_programs {s : State} {j : FuseJob} (supply : s.sys.warnSince = none) (idle : s.sys.fuseQ = [])
    (good : j.badRead = none) : queueFuse s j = putFuse s j true j.hash := by
  have emptied : { s with sys := { s.sys with fuseQ := [] } } = s := by rw [← idle]
  rw [queueFuse, startFuses, if_neg (by simp [supply])]
  change (s.sys.fuseQ ++ [j]).foldl burnFuse { s with sys := { s.sys with fuseQ := [] } } = _
  rw [emptied, idle, List.nil_append, List.foldl_cons, List.foldl_nil, burnFuse, good]

/-- An accepted write that asks for a fuse word programs it at once, with no supply warning and no word waiting. -/
theorem MayWrite.programs {s : State} {src : Origin} {idx sub row : Nat} {v : Bytes}
    (may : MayWrite s src idx sub row v) (supply : s.sys.warnSince = none) (idle : s.sys.fuseQ = [])
    {eff : State → Option State} {j : FuseJob} (good : j.badRead = none)
    (asks : ∀ m, eff { s with mabin := m } = some (queueFuse { s with mabin := m } j)) :
    (writeCmd s src idx sub row v eff).sys = (putFuse s j true j.hash).sys := by
  obtain ⟨m, writes⟩ := may.writes eff
  have programmed := congrArg State.sys (queueFuse_programs (s := { s with mabin := m }) supply idle good)
  exact ((writes _ (asks m)).rest .system rfl).trans programmed

theorem MayWrite.enrols {s : State} {src : Origin} {k : Nat} {h : Bytes} (size : h.length = 48)
    (may : MayWrite s src 0x5800 5 noRow (bytesOf 1 k ++ h)) (low : 1 ≤ k) (high : k ≤ 4)
    (empty : slotTaken s k = false) (supply : s.sys.warnSince = none) (idle : s.sys.fuseQ = []) :
    (rowEngineKeyEnrol src k h none s).sys = { s.sys with fuses.slots := tins s.sys.fuses.slots k h } := by
  have asks (m : Mabin) : ¬ (decide (k = 0) || decide (4 < k) || slotTaken { s with mabin := m } k) = true := by
    rw [show slotTaken { s with mabin := m } k = false from empty]
    simp only [Bool.or_false, Bool.or_eq_true, decide_eq_true_eq]
    omega
  have filled : h ≠ [] := List.ne_nil_of_length_pos (by omega)
  rw [rowEngineKeyEnrol, slice_of_length size]
  exact (may.programs supply idle rfl fun m => if_neg (asks m)).trans (putFuse_of_hash filled ..)

theorem MayWrite.revokes {s : State} {src : Origin} {k : Nat} (may : MayWrite s src 0x5800 6 noRow (bytesOf 1 k))
    (low : 1 ≤ k) (high : k ≤ 4) (taken : slotTaken s k = true) (valid : slotRevoked s k = false)
    (supply : s.sys.warnSince = none) (idle : s.sys.fuseQ = []) :
    (rowEngineKeyRevoke src k none s).sys =
      { s.sys with fuses.revoked := insertUnique k s.sys.fuses.revoked } := by
  have asks (m : Mabin) : ¬ (decide (k = 0) || decide (4 < k) || !slotTaken { s with mabin := m } k ||
      slotRevoked { s with mabin := m } k) = true := by
    rw [show slotTaken { s with mabin := m } k = true from taken,
      show slotRevoked { s with mabin := m } k = false from valid]
    simp only [Bool.not_true, Bool.or_false, Bool.or_eq_true, decide_eq_true_eq]
    omega
  exact (may.programs supply idle rfl fun m => if_neg (asks m)).trans (putFuse_of_revocation rfl ..)

/-- Settles O44: the bytes as the lock holder's write leaves them, the verdict by the first reason, and each fuse
word as it is programmed. -/
theorem imagesAndKeys : Obligations.ImagesAndKeys := by
  refine ⟨?_, ?_, ?_, ?_⟩
  · intro s src b last k running tier high holder lease fits
    refine ⟨_, next_row running.2 (rowEngineImageStage src b last), ?_⟩
    rw [rowEngineImageStage, whenRun_running running.1]
    obtain ⟨n, staged⟩ := stagingWrite_of_holder tier high holder lease 0x5800 1 (stageImage · b last)
    obtain ⟨-, -, -, -, image, whole, here, -, status, -⟩ := (staged _ (stageImage_of_fits last fits)).rest .lock rfl
    exact ⟨image, here, whole, status⟩
  · intro s running here whole unjudged
    refine ⟨_, next_row running.2 rowImageVerify, ?_⟩
    rw [rowImageVerify, whenRun_running running.1]
    exact verifyImage_judges here whole unjudged
  · intro s src k h size may low high empty supply idle
    refine ⟨_, next_row may.1.2 (rowEngineKeyEnrol src k h none), ?_⟩
    rw [may.enrols size low high empty supply idle]
    exact ⟨tfind_tins_self .., idle⟩
  · intro s src k may low high taken valid supply idle
    refine ⟨_, next_row may.1.2 (rowEngineKeyRevoke src k none), ?_⟩
    rw [may.revokes low high taken valid supply idle]
    exact ⟨mem_insertUnique_self .., rfl⟩

end Sys2Proof.Machine

namespace Sys2Proof.Machine

/-! ## The sequence window (O51) -/

/-- The seen bits of R332 moved by d, with the bit of the old top set: what stays in the 47 bits of the window. -/
def movedSeen (seen d : Nat) : Nat :=
  ((if d < 47 then seen * 2 ^ d else 0) ||| (if d ≤ 47 then 2 ^ (d - 1) else 0)) % 2 ^ 47

/-- The AHEAD branch of R332: a valid window, and a number more than one ahead and below half the modulus. -/
theorem seqwin_ahead {f x m d : Nat} (w : Nat) (re : Bool) (valid : bit f 47 = true) (modulus : 0 < m)
    (ahead : d = (x % m + m - bits f 63 48 % m) % m) (past : 1 < d) (half : d < (m + 1) / 2) :
    seqwin f x m w re = (x % m * 2 ^ 48 + 2 ^ 47 + movedSeen (bits f 46 0) d, 2, d - 1) := by
  have inHalf : (decide (1 ≤ d) && decide (d < (m + 1) / 2)) = true := by simp [half, past.le]
  unfold seqwin
  simp only [if_neg modulus.ne', valid, Bool.not_true, Bool.false_eq_true, if_false, ← ahead]
  rw [if_pos inHalf, if_neg past.ne', movedSeen]

/-- R333: a move by 47 keeps of the seen bits the highest alone, the one it sets. -/
theorem movedSeen_fortySeven (seen : Nat) : movedSeen seen 47 = 2 ^ 46 := by
  rw [movedSeen, if_neg (lt_irrefl 47), if_pos le_rfl, Nat.zero_or]
  decide

/-- R333: a move by more than 47 sets a bit outside the window. -/
theorem movedSeen_of_gt {d : Nat} (wide : 47 < d) (seen : Nat) : movedSeen seen d = 0 := by
  rw [movedSeen, if_neg wide.not_gt, if_neg wide.not_ge, Nat.zero_or, Nat.zero_mod]

/-- Settles O51: the AHEAD branch, by whether the move is by 47 or by more. -/
theorem wideShiftsEmptyTheWindow : Obligations.WideShiftsEmptyTheWindow := by
  intro f x m w d re valid modulus _ ahead wide half
  rw [seqwin_ahead w re valid modulus ahead (by omega) half]
  refine ⟨rfl, congrArg (x % m * 2 ^ 48 + 2 ^ 47 + ·) ?_⟩
  obtain rfl | wider := wide.eq_or_lt
  · rw [movedSeen_fortySeven, if_pos rfl]
  · rw [movedSeen_of_gt wider, if_neg wider.ne']

end Sys2Proof.Machine

namespace Sys2Proof.Machine

/-! ## Frames leave the part (O24) -/

/-- From this beat the frame k is in transmission at the node n. -/
structure Sends (s : State) (n id beat : Nat) : Prop where
  tx : (portAt s n).tx = some id
  frame : ∃ x, pktAt s id = some x ∧ x.stage = .sending ∧ x.out.startBeat = beat

theorem Sends.keep {P : List Part} {s t : State} {n id beat : Nat} (h : Sends s n id beat) (k : Touches P s t)
    (ports : among P .ports = false := by rfl) (packets : among P .packets = false := by rfl) : Sends t n id beat where
  tx := (congrArg Port.tx (k.portAt n ports)).trans h.tx
  frame := by rw [k.pktAt id packets]; exact h.frame

/-- The chosen frame starts, and no path withholds a block of it. -/
theorem startFrame_sends {s : State} {n : Nat} {kid : Kid} {k : Pkt} (here : pktAt s k.id = some k) :
    Sends (startFrame s n kid k none) n k.id s.beat := by
  unfold startFrame
  extract_lets len _ s₁
  split
  next u path charged =>
  split
  split
  next v body stamped =>
  extract_lets _ failed
  split
  next w cipher guarded =>
  have hw : Touches [.system, .buffer, .cipher, .sessions, .counters] s w :=
    ((protect_touches ..).fst guarded).after (((ptpUpdate_touches ..).fst stamped).after
      (((chargePath_touches ..).fst charged).after (.set (t := s) .refl)))
  extract_lets whole sent s₂ s₃ s₄ s₅
  obtain ⟨beat, -⟩ := hw.rest .clock rfl
  have started : ∃ x, pktAt s₂ k.id = some x ∧ x.stage = .sending ∧ x.out.startBeat = s.beat := by
    refine ⟨_, (pktAt_modPkt ?_).trans (congrArg _ ((hw.pktAt k.id).trans here)), rfl, beat⟩
    exact fun _ same => same
  have left : Touches [.ports, .buffer] s₂ s₃ := (modPort_touches ..).after (leaveQueue_touches ..).within
  have hs₃ : Sends s₃ n k.id s.beat := by
    refine ⟨congrArg Port.tx (portAt_modPort ..), ?_⟩
    rw [left.pktAt]
    exact started
  have hs₄ : Touches [.buffer, .counters] s₃ s₄ := .ite (count_touches ..).within .refl
  have hs₅ : Touches [.buffer, .counters] s₃ s₅ := by
    unfold s₅
    split
    · exact (creditFrame_touches ..).after hs₄
    · exact hs₄
  have unstomped : failed = false := Bool.and_false _
  rw [unstomped, if_neg Bool.false_ne_true]
  exact hs₃.keep hs₅

theorem transmitStart_sends {s : State} {n : Nat} {kid : Kid} {k : Pkt}
    (choice : choosePort (storeCut s n) n (readyQueues (storeCut s n) n) = some kid)
    (head : headOf (storeCut s n) kid.queue = some k) (here : pktAt (storeCut s n) k.id = some k) :
    Sends (transmitStart s n [] none) n k.id s.beat := by
  obtain ⟨beat, -⟩ := (storeCut_touches s n).rest .clock rfl
  simp only [transmitStart, choice, head, readFrame, readCells]
  rw [← beat]
  exact startFrame_sends here

/-- The MAC is free again, and the frame has left the part. -/
theorem transmitEnd_frees (s : State) (n : Nat) (k : Pkt) :
    (portAt (transmitEnd s n k) n).tx = none ∧
      Output.frame n k.out.startBeat k.out.sent k.out.stomped ∈ (transmitEnd s n k).out := by
  unfold transmitEnd
  extract_lets s₁ len s₂ s₃ s₄ s₅
  have counted : Touches [.counters] s₁ s₄ := .ite .refl ((filtered_touches ..).after ((filtered_touches ..).after
    ((count_touches ..).after (count_touches ..).within)))
  have freed : Touches [.system, .packets, .buffer, .rings, .sessions, .counters, .out] s₅
      (freePkt (txFinish s₅ k (b2n k.out.stomped)) k) := (freePkt_touches ..).after (txFinish_touches ..).within
  refine ⟨?_, ?_⟩
  · rw [freed.portAt, portAt_modPort]
  · have emitted : Output.frame n k.out.startBeat k.out.sent k.out.stomped ∈ s₁.out :=
      List.mem_append_right _ (List.mem_singleton_self _)
    exact freed.left.subset (counted.left.subset emitted)

/-- Settles O24, by the start of the chosen frame and by the end of the frame that the MAC sends. -/
theorem transmissionStartsAndEnds : Obligations.TransmissionStartsAndEnds := by
  refine ⟨?_, ?_⟩
  · intro s u n kid k ⟨run, hs⟩ hn may free noFlow live stored choice head here
    subst stored
    refine ⟨_, next_row hs (rowFrameTransmitStart n [] none), ?_⟩
    rw [rowFrameTransmitStart, whenRun_running run, decide_eq_true hn, may, free, noFlow, live, Option.isNone_none,
      Bool.not_false, Bool.and_self, Bool.and_self, Bool.and_self, Bool.and_self, guardS_true]
    obtain ⟨tx, frame⟩ := transmitStart_sends choice head here
    exact ⟨tx, frame⟩
  · intro s n id k ⟨run, hs⟩ tx here tail gone
    refine ⟨_, next_row hs (rowFrameTransmitEnd n), ?_⟩
    rw [rowFrameTransmitEnd, whenRun_running run, tx, Option.bind_some, here]
    simp only [tail, due, decide_eq_true gone, Bool.and_self, guardS_true]
    exact transmitEnd_frees s n k

end Sys2Proof.Machine

namespace Sys2Proof.Machine

/-! ## Flow control (O25) -/

/-! ### What events and protection count -/

/-- From s to t only counters of the part itself (R578) may have counted. -/
structure KeepsUnits (s t : State) : Prop where
  word : ∀ m < cPart 0, tget 0 t.cnt.words m = tget 0 s.cnt.words m

namespace KeepsUnits

variable {s t u : State}

theorem refl : KeepsUnits s s := ⟨fun _ _ => rfl⟩

theorem trans (h : KeepsUnits s t) (k : KeepsUnits t u) : KeepsUnits s u :=
  ⟨fun m hm => (k.word m hm).trans (h.word m hm)⟩

theorem ite {c : Prop} [Decidable c] (h : KeepsUnits s t) (k : KeepsUnits s u) :
    KeepsUnits s (if c then t else u) := by
  split
  · exact h
  · exact k

theorem update (h : t.cnt = s.cnt := by rfl) : KeepsUnits s t := ⟨fun _ _ => by rw [h]⟩

theorem part (s : State) (o k : Nat) : KeepsUnits s (count s (cPart o) k) :=
  ⟨fun m hm => count_words_ne s k (by unfold cPart at *; omega)⟩

end KeepsUnits

theorem notify_keepsUnits (s : State) (n : Nat) (x : Session) (body : Bytes) : KeepsUnits s (notify s n x body) :=
  .ite .update (.trans .update (.part ..))

theorem tellSessions_keepsUnits (s : State) (e : Event) : KeepsUnits s (tellSessions s e) := by
  refine List.foldlRecOn (motive := KeepsUnits s) _ _ .refl fun t ht x _ => ?_
  exact .ite (ht.trans (notify_keepsUnits ..)) ht

theorem queueEvent_keepsUnits (s : State) (e : Event) : KeepsUnits s (queueEvent s e) :=
  .ite .update (.trans .update (.part ..))

theorem postEvent_keepsUnits (s : State) (e : Event) : KeepsUnits s (postEvent s e) :=
  .trans (.ite .update .refl) ((queueEvent_keepsUnits ..).trans (tellSessions_keepsUnits ..))

theorem startFreeze_keepsUnits (s : State) (trigger code : Nat) : KeepsUnits s (startFreeze s trigger code) := by
  unfold startFreeze
  split
  · extract_lets s₁
    exact .trans (t := s₁) (postEvent_keepsUnits ..) .update
  · exact .refl

theorem raiseEv_keepsUnits (s : State) (code source : Nat) (values : List Nat) :
    KeepsUnits s (raiseEv s code source values) :=
  (postEvent_keepsUnits ..).trans (.ite (startFreeze_keepsUnits ..) .refl)

theorem rekeyCheck_keepsUnits (s : State) (unit item next limit : Nat) :
    KeepsUnits s (rekeyCheck s unit item next limit) :=
  .ite (.trans .update (raiseEv_keepsUnits ..)) .refl

theorem exhaust_keepsUnits (s : State) (unit item : Nat) : KeepsUnits s (exhaust s unit item) :=
  .ite .refl (.trans .update (raiseEv_keepsUnits ..))

theorem protect_keepsUnits (s : State) (n : Nat) (body : Bytes) : KeepsUnits s (protect s n body).1 := by
  unfold protect
  split
  · exact .refl
  · extract_lets i r e pn data es tci tag head off iv aad c icv s₁ s₂ s₃
    have hs₂ : KeepsUnits s s₂ := .trans .update (rekeyCheck_keepsUnits s₁ ..)
    exact .ite (hs₂.trans (exhaust_keepsUnits ..)) hs₂

/-- A port that protects nothing sends the bytes as they are. -/
theorem protect_of_off {s : State} {n : Nat} (off : macTxOn s n = false) (body : Bytes) :
    protect s n body = (s, body) := by
  simp [protect, off]

/-! ### What a port tells reads -/

namespace Touches

variable {P : List Part} {s t : State} (h : Touches P s t)

include h

theorem fcMode (n : Nat) (objects : among P .objects = false := by rfl) : fcMode t n = fcMode s n := h.rw _ _ objects

theorem toldClasses (n : Nat) (objects : among P .objects = false := by rfl) : toldClasses t n = toldClasses s n := by
  simp only [Machine.toldClasses, h.fcMode n objects, h.rw _ _ objects]

theorem xOf (n k : Nat) (objects : among P .objects = false := by rfl) (buffer : among P .buffer = false := by rfl) :
    xOf t n k = xOf s n k := by
  have buf : t.buf = s.buf := h.rest .buffer buffer
  have one : onePool t n = onePool s n := by simp only [onePool, h.fcMode n objects]
  simp only [Machine.xOf, one, acctAt, buf]

theorem flowFrame (n : Nat) (xs : Tbl Nat) (objects : among P .objects = false := by rfl) :
    flowFrame t n xs = flowFrame s n xs := by
  simp only [Machine.flowFrame, h.fcMode n objects, h.rw _ _ objects]

end Touches

/-- What a port announces repeats at the port's rate. -/
theorem halfQuanta_congr {P : List Part} {s t : State} (h : Touches P s t) {n : Nat}
    (mode : (portAt t n).modeActive = (portAt s n).modeActive) (objects : among P .objects = false := by rfl) :
    halfQuanta t n = halfQuanta s n := by
  have rate : portRate t n = portRate s n := by
    simp only [portRate, mode, h.portMode n objects]
  rw [halfQuanta, rate, h.rw _ _ objects, halfQuanta]

theorem toldClasses_nodup (s : State) (n : Nat) : (toldClasses s n).Nodup := by
  unfold toldClasses
  extract_lets m
  split
  · exact List.nodup_singleton 0
  split
  · exact List.nodup_range.filter _
  · exact List.nodup_nil

/-! ### Changes of x join the queue -/

theorem tget_foldl_tput (f : Nat → Nat) (ks : List Nat) (t : Tbl Nat) (k : Nat) :
    tget 0 (ks.foldl (fun t k => tput 0 t k (f k)) t) k = if k ∈ ks then f k else tget 0 t k := by
  induction ks generalizing t with
  | nil => rfl
  | cons a ks ih =>
    rw [List.foldl_cons, ih]
    by_cases h : k = a
    · subst h
      simp
    · simp [h, tget_tput_ne _ _ _ _ h]

theorem portAt_queueFlow {s : State} {n : Nat} (hn : n < 130) (up : isUp s n = true) (new : untold s n ≠ []) :
    portAt (queueFlow s n) n = { portAt s n with
      fcQ := (portAt s n).fcQ ++ [(untold s n).map fun k => (k, b2n (xOf s n k))],
      told := (untold s n).foldl (fun t k => tput 0 t k (b2n (xOf s n k))) (portAt s n).told } := by
  simp [queueFlow, hn, up, new]

/-- What joins the queue of a port is told. -/
theorem untold_queueFlow {s : State} {n : Nat} (hn : n < 130) (up : isUp s n = true) (new : untold s n ≠ []) :
    untold (queueFlow s n) n = [] := by
  have frame := queueFlow_touches s n
  rw [untold, frame.toldClasses, portAt_queueFlow hn up new, List.filter_eq_nil_iff]
  intro k told
  simp only [frame.xOf, tget_foldl_tput (fun k => b2n (xOf s n k))]
  by_cases h : k ∈ untold s n
  · simp [h]
  · rw [if_neg h]
    simpa [untold, told] using h

/-! ### A pause or PFC frame is sent -/

/-- When each class is announced again, after a frame that announces xs. -/
def repeatsAfter (again : Nat) (xs t : Tbl Nat) : Tbl Nat :=
  xs.foldl (fun t e => if e.2 = 0 then terase t e.1 else tins t e.1 again) t

theorem tfind_repeatsAfter_of_not_mem {again k : Nat} {xs : Tbl Nat} (h : k ∉ tkeys xs) (t : Tbl Nat) :
    tfind (repeatsAfter again xs t) k = tfind t k := by
  induction xs generalizing t with
  | nil => rfl
  | cons e xs ih =>
    have ne : k ≠ e.1 := List.ne_of_not_mem_cons h
    refine (ih (List.not_mem_of_not_mem_cons h) _).trans ?_
    beta_reduce
    split
    · exact tfind_terase_ne _ ne
    · exact tfind_tins_ne _ _ ne

/-- A class told XOFF repeats, and a class told XON repeats no more (R368). -/
theorem tfind_repeatsAfter {again : Nat} {xs : Tbl Nat} (nodup : (tkeys xs).Nodup) {e : Nat × Nat} (he : e ∈ xs)
    (t : Tbl Nat) : tfind (repeatsAfter again xs t) e.1 = if e.2 = 0 then none else some again := by
  induction xs generalizing t with
  | nil => cases he
  | cons a xs ih =>
    obtain ⟨fresh, nodup⟩ := List.nodup_cons.1 nodup
    obtain rfl | he := List.mem_cons.1 he
    · refine (tfind_repeatsAfter_of_not_mem fresh _).trans ?_
      beta_reduce
      split
      · exact tfind_terase_self ..
      · exact tfind_tins_self ..
    · exact ih nodup he _

/-- What protection makes of a frame that announces xs, without its FCS. -/
def toldSent (s : State) (n : Nat) (xs : Tbl Nat) : State × Bytes :=
  protect s n ((flowFrame s n xs).take ((flowFrame s n xs).length - 4))

/-- The frame that leaves to announce xs. -/
def toldFrame (s : State) (n : Nat) (xs : Tbl Nat) : Bytes := (toldSent s n xs).2 ++ fcsOf (toldSent s n xs).2

/-- A port tells its peer and counts the frame, before it notes when it tells again. -/
def peerTold (s : State) (n : Nat) (xs : Tbl Nat) : State :=
  emit (count (toldSent s n xs).1 (cPort n 24) 1) (.flowControl n (toldFrame s n xs))

theorem peerTold_touches (s : State) (n : Nat) (xs : Tbl Nat) :
    Touches [.system, .cipher, .sessions, .counters, .out] s (peerTold s n xs) :=
  (emit_touches ..).after ((count_touches ..).after (protect_touches ..).within)

theorem tellPeer_eq (s : State) (n : Nat) (xs : Tbl Nat) :
    tellPeer s n xs = modPort (peerTold s n xs) n fun p =>
      { p with repeatAt := repeatsAfter ((peerTold s n xs).beat + halfQuanta (peerTold s n xs) n) xs p.repeatAt } :=
  rfl

theorem portAt_tellPeer (s : State) (n : Nat) (xs : Tbl Nat) :
    portAt (tellPeer s n xs) n =
      { portAt s n with repeatAt := repeatsAfter (s.beat + halfQuanta s n) xs (portAt s n).repeatAt } := by
  have told := peerTold_touches s n xs
  obtain ⟨beat, -⟩ := told.rest .clock rfl
  rw [tellPeer_eq, portAt_modPort, told.portAt, beat, halfQuanta_congr told (congrArg Port.modeActive (told.portAt n))]

theorem tellPeer_counts (s : State) {n : Nat} (hn : n < 130) (xs : Tbl Nat) :
    tget 0 (tellPeer s n xs).cnt.words (cPort n 24) = wordAdd (tget 0 s.cnt.words (cPort n 24)) 1 := by
  have unit : cPort n 24 < cPart 0 := by unfold cPort cPart; omega
  rw [← (protect_keepsUnits s n _).word _ unit]
  exact count_words _ one_ne_zero

theorem fcsOf_length (m : Bytes) : (fcsOf m).length = 4 := by
  rw [fcsOf, leBytes, List.length_reverse, bytesOf_length]

/-- A frame that ends with its FCS is what its body makes it. -/
theorem take_append_fcsOf (body : Bytes) : (body ++ fcsOf body).take ((body ++ fcsOf body).length - 4) = body := by
  rw [List.length_append, fcsOf_length, Nat.add_sub_cancel, List.take_left]

theorem flowFrame_eq (s : State) (n : Nat) (xs : Tbl Nat) : ∃ body, flowFrame s n xs = body ++ fcsOf body := by
  unfold flowFrame
  extract_lets q
  split
  · exact ⟨_, rfl⟩
  · exact ⟨_, rfl⟩

/-- The frame leaves as it is where the port does not protect what it sends (R452). -/
theorem toldFrame_of_off {s : State} {n : Nat} (off : macTxOn s n = false) (xs : Tbl Nat) :
    toldFrame s n xs = flowFrame s n xs := by
  obtain ⟨body, frame⟩ := flowFrame_eq s n xs
  rw [toldFrame, toldSent, protect_of_off off, frame, take_append_fcsOf]

theorem tellPeer_out (s : State) (n : Nat) (xs : Tbl Nat) :
    (tellPeer s n xs).out = s.out ++ [.flowControl n (toldFrame s n xs)] := by
  have kept : (toldSent s n xs).1.out = s.out := (protect_touches ..).rest .out rfl
  rw [tellPeer_eq, modPort_out, peerTold, emit, count_out, kept]

/-- The oldest frame that waits is the one that is told. -/
theorem tellNext_of_cons {s : State} {n : Nat} {xs : Tbl Nat} {rest : List (Tbl Nat)}
    (waits : (portAt s n).fcQ = xs :: rest) :
    tellNext s n = tellPeer (modPort s n fun p => { p with fcQ := rest }) n xs := by
  rw [tellNext, waits]

theorem portAt_tellNext {s : State} {n : Nat} {xs : Tbl Nat} {rest : List (Tbl Nat)}
    (waits : (portAt s n).fcQ = xs :: rest) :
    portAt (tellNext s n) n = { portAt s n with
      fcQ := rest, repeatAt := repeatsAfter (s.beat + halfQuanta s n) xs (portAt s n).repeatAt } := by
  have same : halfQuanta (modPort s n fun p => { p with fcQ := rest }) n = halfQuanta s n :=
    halfQuanta_congr (modPort_touches ..) (by rw [portAt_modPort])
  rw [tellNext_of_cons waits, portAt_tellPeer, same, portAt_modPort, modPort_beat]

theorem tellNext_out {s : State} {n : Nat} {xs : Tbl Nat} {rest : List (Tbl Nat)}
    (waits : (portAt s n).fcQ = xs :: rest) :
    ∃ f, (tellNext s n).out = s.out ++ [.flowControl n f] ∧ (macTxOn s n = false → f = flowFrame s n xs) := by
  rw [tellNext_of_cons waits, tellPeer_out, modPort_out]
  refine ⟨_, rfl, fun off => ?_⟩
  refine (toldFrame_of_off ?_ xs).trans ((modPort_touches ..).flowFrame n xs)
  exact off

theorem lt_of_flowReady {s : State} {n : Nat} (ready : flowReady s n = true) : n < 130 := by
  simp only [flowReady, Bool.and_eq_true, decide_eq_true_eq] at ready
  obtain ⟨⟨⟨⟨port, -⟩, -⟩, -⟩, -⟩ := ready
  exact port

/-- No class is announced twice in a frame that repeats. -/
theorem repeats_nodup (s : State) (n : Nat) : (tkeys ((repeats s n).map fun k => (k, 1))).Nodup := by
  have keys : tkeys ((repeats s n).map fun k => (k, 1)) = repeats s n := by
    simp [tkeys, Function.comp_def]
  rw [keys]
  exact (toldClasses_nodup s n).filter _

/-! ### Received pauses -/

/-- A time of 0 ends the pauses of the classes that it is for, and starts no other. -/
theorem pauseEnd_foldl_pauseClass (n : Nat) (ks : List Nat) (s : State) (k : Nat)
    (h : k ∈ ks ∨ tfind (portAt s n).pauseEnd k = none) :
    tfind (portAt (ks.foldl (fun s k => pauseClass s n k 0) s) n).pauseEnd k = none := by
  induction ks generalizing s with
  | nil => simpa using h
  | cons a ks ih =>
    refine ih _ ?_
    beta_reduce
    rw [pauseClass, portAt_modPort, if_pos rfl]
    by_cases ha : k = a
    · subst ha
      exact .inr (tfind_terase_self ..)
    · simpa [ha, tfind_terase_ne _ ha] using h

theorem pauseReceive_counts (s : State) (n : Nat) (f : Bytes) :
    tget 0 (pauseReceive s n f).cnt.words (cPort n 25) = wordAdd (tget 0 s.cnt.words (cPort n 25)) 1 := by
  have once : tget 0 (count s (cPort n 25) 1).cnt.words (cPort n 25) =
      wordAdd (tget 0 s.cnt.words (cPort n 25)) 1 := count_words s one_ne_zero
  have paused : Touches [.ports] (count s (cPort n 25) 1) (pauseReceive s n f) :=
    .ite .refl (.ite (.foldl (fun _ _ => pauseClass_touches ..) .refl)
      (.foldl (fun _ _ => .ite (.foldl (fun _ _ => pauseClass_touches ..) .refl) .refl) .refl))
  have cnt : (pauseReceive s n f).cnt = (count s (cPort n 25) 1).cnt := paused.rest .counters rfl
  rw [cnt, once]

/-- A pause frame of time 0 ends the pause of every class (R369). -/
theorem pauseReceive_resumes {s : State} {n k : Nat} {f : Bytes} (obeys : fcMode s n ≠ 0) (pause : natAt f 14 2 = 1)
    (zero : natAt f 16 2 = 0) (hk : k < 8) : tfind (portAt (pauseReceive s n f) n).pauseEnd k = none := by
  unfold pauseReceive
  rw [if_neg (by rwa [(count_touches ..).fcMode]), if_pos pause, zero]
  exact pauseEnd_foldl_pauseClass n _ _ k (.inl (List.mem_range.2 hk))

/-- Settles O25: the queue as a beat ends, the two rows that tell the peer, and the two that obey it. -/
theorem flowControlTellsAndObeys : Obligations.FlowControlTellsAndObeys := by
  refine ⟨?_, ?_, ?_, ?_, ?_⟩
  · intro s n hn up new
    exact ⟨congrArg Port.fcQ (portAt_queueFlow hn up new), untold_queueFlow hn up new⟩
  · intro s n xs rest ⟨run, hs⟩ ready waits nodup
    refine ⟨_, next_row hs (rowFlowControlFrameSend n), ?_⟩
    rw [rowFlowControlFrameSend, whenRun_running run, ready, guardS_true]
    obtain ⟨f, out, plain⟩ := tellNext_out waits
    refine ⟨?_, ⟨[], f, ?_, fun off => ⟨rfl, plain off⟩⟩, ?_, fun e he => ?_⟩
    · rw [portAt_tellNext waits]
    · rw [out, List.append_nil]
    · rw [tellNext_of_cons waits]
      exact tellPeer_counts _ (lt_of_flowReady ready) xs
    · rw [portAt_tellNext waits]
      exact tfind_repeatsAfter nodup he _
  · intro s n ⟨run, hs⟩ ready again
    refine ⟨_, next_row hs (rowFlowControlRepeat n), ?_⟩
    rw [rowFlowControlRepeat, whenRun_running run, ready, List.isEmpty_eq_false_iff.2 again, Bool.not_false,
      Bool.and_self, guardS_true, tellAgain]
    refine ⟨⟨[], toldFrame s n _, ?_, fun off => ⟨rfl, toldFrame_of_off off _⟩⟩, fun k hk => ?_⟩
    · rw [tellPeer_out, List.append_nil]
    · rw [portAt_tellPeer]
      exact tfind_repeatsAfter (repeats_nodup s n) (List.mem_map_of_mem hk) _
  · intro s n f ⟨run, hs⟩ hn up control plain
    refine ⟨_, next_row hs (rowPauseFrameReceive n f), ?_⟩
    rw [rowPauseFrameReceive, whenRun_running run, isUp, up, control, plain, decide_eq_true hn]
    exact ⟨pauseReceive_counts s n f, fun obeys pause zero k => pauseReceive_resumes obeys pause zero⟩
  · intro s n c b ⟨run, hs⟩ paused ended
    refine ⟨_, next_row hs (rowPauseExpiry n c), ?_⟩
    rw [rowPauseExpiry, whenRun_running run, paused]
    simp only [due, decide_eq_true ended, guardS_true, portAt_modPort, tfind_terase_self]

end Sys2Proof.Machine

namespace Sys2Proof.Machine

/-! ## Link-loss timers and gate lists (O26) -/

theorem gateAt_modGate (s : State) (n : Nat) (f : Gate → Gate) : gateAt (modGate s n f) n = f (gateAt s n) := by
  rw [gateAt, modGate, portAt_modPort, gateAt]

theorem Touches.gateAt {P : List Part} {s t : State} (h : Touches P s t) (n : Nat)
    (hP : among P .ports = false := by rfl) : gateAt t n = gateAt s n :=
  congrArg Port.gate (h.portAt n hP)

/-- A port that is not in FLUSH enters it with nothing discarded yet. -/
theorem portAt_enterFlush_flushed {s : State} {n : Nat} (h : (portAt s n).link ≠ 2) :
    (portAt (enterFlush s n) n).flushed = 0 := by
  rw [enterFlush, if_neg h, portAt_modPort]

/-- The end of a FLUSH holds nothing back, and leaves the port NORMAL when it is UP (R381). -/
theorem portAt_flushEnd {s : State} {n : Nat} (flush : (portAt s n).link = 2) (empty : queuedFor s n = []) :
    portAt (flushEnd s n) n =
      { portAt s n with link := if (portAt s n).state = 5 then 0 else 3, flushHold := [] } := by
  simp [flushEnd, flush, empty, (raiseEv_touches ..).portAt]

/-- A waiting list that has come replaces the gate's list (R429). -/
theorem gateAt_gateStart {s : State} {n c tb y v : Nat} {l : List Nat}
    (waits : (gateAt s n).change = some (c, tb, y, v, l)) (valid : tbValid s tb = true)
    (come : tbReached s tb c = true) :
    gateAt (gateStart s n) n =
      { running := true, version := v, tb := tb, cycle := y, list := l, entry := 0,
        cycleStart := c, next := instantAfter l y c 0, change := none, lost := false } := by
  simp [gateStart, waits, valid, come, (raiseEv_touches ..).gateAt, gateAt_modGate]

/-- At its instant a gate goes to the next entry, or to the first of the next cycle (R430). -/
theorem gateAdvance_entry {s : State} {n : Nat} (runs : (gateAt s n).running = true)
    (come : tbReached s (gateAt s n).tb (gateAt s n).next = true) :
    (gateAt (gateAdvance s n) n).entry = if (cycleSegs (gateAt s n).list (gateAt s n).cycle).length
      ≤ (gateAt s n).entry + 1 then 0 else (gateAt s n).entry + 1 := by
  simp [gateAdvance, runs, come, gateAt_modGate]

/-- Settles O26, by what each of the four rows makes of the port or of its gate. -/
theorem linkLossAndGatesRun : Obligations.LinkLossAndGatesRun := by
  refine ⟨?_, ?_, ?_, ?_⟩
  · intro s n ⟨run, hs⟩ hold passed
    refine ⟨_, next_row hs (rowLinkHoldExpiry n), ?_⟩
    rw [rowLinkHoldExpiry, whenRun_running run, hold, due, decide_eq_true passed, beq_self_eq_true, Bool.and_self,
      guardS_true]
    exact ⟨(portAt_enterFlush ..).1, portAt_enterFlush_flushed (by omega)⟩
  · intro s n ⟨run, hs⟩ flush empty
    refine ⟨_, next_row hs (rowLinkFlushed n), ?_⟩
    rw [rowLinkFlushed, whenRun_running run, portAt_flushEnd flush empty]
    exact ⟨rfl, rfl⟩
  · intro s n c tb y v l ⟨run, hs⟩ waits valid come
    refine ⟨_, next_row hs (rowGateListStarted n), ?_⟩
    rw [rowGateListStarted, whenRun_running run, gateAt_gateStart waits valid come]
    exact ⟨rfl, rfl, rfl, rfl, rfl, rfl⟩
  · intro s n ⟨run, hs⟩ runs come
    refine ⟨_, next_row hs (rowGateInstant n), ?_⟩
    rw [rowGateInstant, whenRun_running run]
    exact gateAdvance_entry runs come

end Sys2Proof.Machine

namespace Sys2Proof.Machine

/-! ## Copies (O27) -/

/-- A copy whose last part finds its descriptor leaves the part, and its grant ends (R390). -/
theorem deliverCopy_whole {s u : State} {c : Copy} {ds : List (Nat × Nat)}
    (takes : rxTakes s c.ring (.copy c.id) = true) (grant : holds s arbDma c.ring = true)
    (sent : rxDeliver s c.ring (.copy c.id) c.words (copyBytes c) ds = some (u, .whole)) :
    deliverCopy s c ds [] = endGrant (endCopy (emit u (.copy c.ring (copyBytes c))) c) arbDma := by
  simp [deliverCopy, takes, grant, sent, readCells]

/-- A copy that goes out unformatted waits for no task. -/
theorem copyAt_unformatted (s : State) (id : Nat) :
    copyAt (unformatted s id) id = (copyAt s id).map fun c => { c with waitUntil := none } := by
  refine find?_lmod_self ?_ s.buf.copies
  exact fun _ same => same

theorem idleQ_dropTask {s : State} {id : Nat} {e : Nat × Cluster} (he : e ∈ (dropTask s id).clusters) {y : Task}
    (hy : y ∈ e.2.idleQ) : y.copy ≠ some id := by
  obtain ⟨e, -, rfl⟩ := List.mem_map.1 he
  exact bne_iff_ne.1 (List.mem_filter.1 hy).2

/-- Settles O27, by what the delivery puts out and by what the end of the wait leaves. -/
theorem copiesAreDelivered : Obligations.CopiesAreDelivered := by
  refine ⟨?_, ?_⟩
  · intro s u c ds ⟨run, hs⟩ here first takes grant sent
    refine ⟨_, next_row hs (rowCopyDeliver c.id ds []), ?_⟩
    rw [rowCopyDeliver, whenRun_running run, here]
    simp only [first, beq_self_eq_true, guardS_true, deliverCopy_whole takes grant sent]
    exact List.mem_append_right _ (List.mem_singleton_self _)
  · intro s c w ⟨run, hs⟩ here waits passed
    refine ⟨_, next_row hs (rowSampleFormatTimeout c.id), ?_⟩
    rw [rowSampleFormatTimeout, whenRun_running run, here, Option.bind_some, waits]
    simp only [due, decide_eq_true passed, guardS_true]
    have left : copyAt (dropTask s c.id) c.id = some c := here
    exact ⟨⟨_, (copyAt_unformatted ..).trans (congrArg _ left), rfl⟩, fun e he y hy => idleQ_dropTask he hy⟩

end Sys2Proof.Machine

namespace Sys2Proof.Machine

/-! ## Counters (O46) -/

/-- An accepted write leaves what its effect leaves, but for the counts of the filters. -/
theorem MayWrite.leaves {s : State} {src : Origin} {idx sub row : Nat} {v : Bytes}
    (may : MayWrite s src idx sub row v) (eff : State → Option State) :
    ∃ m, ∀ u, eff { s with mabin := m } = some u → ∃ x,
      writeCmd s src idx sub row v eff = { u with cnt := { u.cnt with filtered := x } } := by
  obtain ⟨run, here, fine⟩ := may
  obtain ⟨m, hm⟩ := renewLease_eq s (originNum src)
  refine ⟨m, fun u hu => ?_⟩
  obtain ⟨tier, e⟩ := writeCmd_accepted (eff := eff) run.1 here ((writeError_renewLease ..).trans fine) (hm ▸ hu)
  exact ⟨_, e⟩

/-- A clear takes bit 63 from its counter and leaves every other (R579). -/
theorem overflowClear_clears (s : State) {n : Nat} (h : n ≤ 9215) :
    ∃ u, overflowClear n s = some u ∧
      counterOf u.cnt.words u.cnt.line n = counterOf s.cnt.words s.cnt.line n % 2 ^ 63 ∧
      ∀ k, k ≠ n → counterOf u.cnt.words u.cnt.line k = counterOf s.cnt.words s.cnt.line k := by
  unfold overflowClear counterOf
  rw [if_neg (by omega)]
  cases line : isLine n with
  | true =>
    refine ⟨_, rfl, ?_, fun k other => ?_⟩
    · simp [modCnt]
    · simp only [modCnt]
      split
      · exact tget_tmod_ne _ _ _ other
      · rfl
  | false =>
    refine ⟨_, rfl, ?_, fun k other => ?_⟩
    · simp [modCnt]
    · simp only [modCnt]
      split
      · rfl
      · exact tget_tmod_ne _ _ _ other

/-- The objects of the filters keep the bits that their masks name. -/
theorem keptRow_filter (sub row : Nat) (v : Bytes) : keptRow 0x8810 sub row v = keptValue 0x8810 sub v := by
  simp [keptRow]

theorem filterSelect_stores (s : State) (i : Nat) {v : Bytes} (ok : filterRowOk v = true) :
    ∃ u, filterSelect i v s = some u ∧ stored u 0x8810 1 i = keptValue 0x8810 1 v := by
  refine ⟨_, by rw [filterSelect, ok]; rfl, ?_⟩
  exact (stored_setRw ..).trans (keptRow_filter ..)

/-- The pairs whose chaining a mask v changes. -/
def changedPairs (s : State) (v : Bytes) : List Nat :=
  (List.range 128).filter fun i => bitOf (stored s 0x8810 2 noRow) i != bitOf v i

theorem mem_changedPairs {s : State} {v : Bytes} {i : Nat} (h : i < 128) :
    i ∈ changedPairs s v ↔ bitOf (stored s 0x8810 2 noRow) i ≠ bitOf v i := by
  simp [changedPairs, h]

/-- A chain mask is stored, and the pairs that it changes wait for the next beat (R594). -/
theorem filterChain_stores (s : State) {v : Bytes} (size : v.length = 16) :
    ∃ u, filterChain v s = some u ∧ stored u 0x8810 2 noRow = keptValue 0x8810 2 v ∧
      u.sys.soon = s.sys.soon ++ [.clearPairs (changedPairs s v)] :=
  ⟨_, if_pos size, (stored_setRw ..).trans (keptRow_filter ..), rfl⟩

/-- Settles O46: each accepted write by its effect, and the read of the low mark by its row. -/
theorem countersFollowTheirWrites : Obligations.CountersFollowTheirWrites := by
  refine ⟨?_, ?_, ?_, ?_⟩
  · intro s src n hn may
    refine ⟨_, next_row may.1.2 (rowCntOverflowClear src n), ?_⟩
    obtain ⟨m, leaves⟩ := may.leaves (overflowClear n)
    obtain ⟨u, done, cleared, others⟩ := overflowClear_clears { s with mabin := m } hn
    obtain ⟨x, e⟩ := leaves u done
    rw [rowCntOverflowClear, e]
    exact ⟨cleared, others⟩
  · intro s src i v may ok
    refine ⟨_, next_row may.1.2 (rowCntFilterSelect src i v), ?_⟩
    obtain ⟨m, writes⟩ := may.writes (filterSelect i v)
    obtain ⟨u, done, row⟩ := filterSelect_stores { s with mabin := m } i ok
    exact ((writes u done).stored ..).trans row
  · intro s src v may size
    refine ⟨_, next_row may.1.2 (rowCntFilterChain src v), ?_⟩
    obtain ⟨m, writes⟩ := may.writes (filterChain v)
    obtain ⟨u, done, mask, waits⟩ := filterChain_stores { s with mabin := m } size
    refine ⟨((writes u done).stored ..).trans mask, changedPairs s v, ?_, fun i => mem_changedPairs⟩
    exact (congrArg Sys.soon ((writes u done).rest .system rfl)).trans waits
  · intro s ⟨run, hs⟩
    refine ⟨_, next_row hs rowBufCellsFreeLowRead, ?_⟩
    rw [rowBufCellsFreeLowRead, whenRun_running run]
    exact ⟨rfl, rfl⟩

end Sys2Proof.Machine

namespace Sys2Proof.Machine

/-! ## Requests to the pool manager (O38)

A request that waits alone is served in its owner's turn, on the state in which no request waits; the turns of the
other owners do nothing. What it leaves of the pools is what the decision on it leaves, with the answer and with the
frees of the beat made. -/

/-- The request that a function's write of `pool.req` makes (R403). -/
def fnRequest (fn op seq len h : Nat) : PoolReq :=
  { owner := ownerOfFn fn, op := op, seq := seq % 2 ^ 14, len := len % 2 ^ 15, handle := h % 2 ^ 32, step := none }

theorem poolReq_of_virtual {s : State} {f : Nat} (virtual : 0 < f) (enabled : fnEnabled s f = true)
    (thawed : (fnAt s f).frozen = false) (op seq len h : Nat) :
    poolReq s f op seq len h = takeReq (fnRequest f op seq len h) s := by
  unfold poolReq
  rw [if_neg (by omega), enabled, thawed]
  rfl

theorem pools_modPools (s : State) (f : Pools → Pools) : pools (modPools s f) = f (pools s) := rfl

/-! ### The turns of a beat (R402) -/

theorem mem_turns {o : Nat} (h : o < 128) (beat : Nat) : o ∈ turns beat :=
  List.mem_map.mpr ⟨(o + 128 - beat % 128) % 128, List.mem_range.mpr (by omega), by omega⟩

theorem serveOwner_of_idle {s : State} (idle : (pools s).waiting = []) (o : Nat) : serveOwner s o = s := by
  simp [serveOwner, idle]

theorem foldl_serveOwner_of_idle {s : State} (idle : (pools s).waiting = []) (os : List Nat) :
    os.foldl serveOwner s = s :=
  List.foldlRecOn (motive := (· = s)) os _ rfl fun _ e o _ => e ▸ serveOwner_of_idle idle o

theorem waiting_takeReq {s : State} (idle : (pools s).waiting = []) (q : PoolReq) :
    (pools (takeReq q s)).waiting = [q] :=
  congrArg (· ++ [q]) idle

/-- Taking back the one request that waits leaves the state before it. -/
theorem takeReq_withdrawn {s : State} (idle : (pools s).waiting = []) {q : PoolReq} {o : Nat} (turn : q.owner = o) :
    modPools (takeReq q s) (fun k => { k with waiting := ldel (fun w => w.owner == o) k.waiting }) = s := by
  have none_left : ldel (fun w => w.owner == o) ((pools s).waiting ++ [q]) = (pools s).waiting := by
    simp [idle, ldel, turn]
  change modPools s (fun k => { k with waiting := ldel _ ((pools s).waiting ++ [q]) }) = s
  rw [none_left]
  rfl

/-- A request that waits alone waits for its owner's turn. -/
theorem serveOwner_takeReq {s : State} (idle : (pools s).waiting = []) (q : PoolReq) (o : Nat) :
    serveOwner (takeReq q s) o = if q.owner = o then serveReq s q else takeReq q s := by
  have waits := waiting_takeReq idle q
  unfold serveOwner
  by_cases turn : q.owner = o
  · simp [waits, turn, takeReq_withdrawn idle turn]
  · simp [waits, turn]

theorem foldl_serveOwner_takeReq {s : State} {q : PoolReq} (idle : (pools s).waiting = [])
    (left : (pools (serveReq s q)).waiting = []) {os : List Nat} (turn : q.owner ∈ os) :
    os.foldl serveOwner (takeReq q s) = serveReq s q := by
  induction os with
  | nil => cases turn
  | cons o os ih =>
    rw [List.foldl_cons, serveOwner_takeReq idle]
    split
    case isTrue => exact foldl_serveOwner_of_idle left os
    case isFalse other => exact ih ((List.mem_cons.mp turn).resolve_left other)

/-! ### The answer at the end of the beat (R403) -/

/-- The word that answers a request. -/
def answerWord (q : PoolReq) (status h : Nat) : Nat := q.op * 2 ^ 62 + q.seq * 2 ^ 48 + status * 2 ^ 32 + h

theorem answerWord_fnRequest (f op seq len handle status h : Nat) :
    answerWord (fnRequest f op seq len handle) status h = op * 2 ^ 62 + seq % 2 ^ 14 * 2 ^ 48 + status * 2 ^ 32 + h :=
  rfl

/-- An answer is a word of `pool.resp`. -/
theorem answerReq_answers (s : State) (q : PoolReq) (status h : Nat) :
    ∃ r, pools (answerReq s q status h) = { pools s with resp := r } ∧
      tget 0 r (q.owner - 64) = answerWord q status h :=
  ⟨_, rfl, tget_tput_self ..⟩

/-- What the end of the beat leaves of the pools when a function's request waits alone. -/
theorem servePools_takeReq {s u : State} {q : PoolReq} {status h : Nat} (idle : (pools s).waiting = [])
    (owner : q.owner < 128) (fn : q.step = none) (decided : decideReq s q = (u, status, h))
    (left : (pools u).waiting = []) :
    (pools (servePools (takeReq q s))).alloc = (pools u).freeing.foldl terase (pools u).alloc ∧
      (pools (servePools (takeReq q s))).waiting = [] ∧
      tget 0 (pools (servePools (takeReq q s))).resp (q.owner - 64) = answerWord q status h := by
  obtain ⟨r, answered, word⟩ := answerReq_answers u q status h
  have served : pools (serveReq s q) = { pools u with resp := r } := by
    rw [← answered]
    simp only [serveReq, decided, fn]
  have turn : (turns (takeReq q s).beat).foldl serveOwner (takeReq q s) = serveReq s q :=
    foldl_serveOwner_takeReq idle (by rw [served]; exact left) (mem_turns owner _)
  rw [servePools, turn, pools_modPools, served]
  exact ⟨rfl, left, word⟩

/-- In t a request of function f waits alone; the end of the beat answers it with a word, and makes the frees that
the decision on it, u, leaves. -/
structure Answered (t u : State) (f word : Nat) : Prop where
  waits : (pools t).waiting.length = 1
  alloc : (pools (servePools t)).alloc = (pools u).freeing.foldl terase (pools u).alloc
  left : (pools (servePools t)).waiting = []
  resp : tget 0 (pools (servePools t)).resp f = word

theorem poolReq_answered {s u : State} {f op seq len handle status h : Nat} (virtual : 0 < f) (below : f < 64)
    (enabled : fnEnabled s f = true) (thawed : (fnAt s f).frozen = false) (idle : (pools s).waiting = [])
    (decided : decideReq s (fnRequest f op seq len handle) = (u, status, h)) (left : (pools u).waiting = []) :
    Answered (poolReq s f op seq len handle) u f
      (op * 2 ^ 62 + seq % 2 ^ 14 * 2 ^ 48 + status * 2 ^ 32 + h) := by
  have owner : (fnRequest f op seq len handle).owner < 128 := Nat.add_lt_add_left below 64
  have word : (fnRequest f op seq len handle).owner - 64 = f := Nat.add_sub_cancel_left ..
  obtain ⟨alloc, none_left, resp⟩ := servePools_takeReq idle owner rfl decided left
  rw [word, answerWord_fnRequest] at resp
  rw [poolReq_of_virtual virtual enabled thawed]
  exact ⟨congrArg List.length (waiting_takeReq idle _), alloc, none_left, resp⟩

/-! ### The decisions (R401, R405) -/

theorem pools_countPool (s : State) (p o status : Nat) (frees : Bool) :
    pools (countPool s p o status frees) = pools s :=
  (countPool_touches ..).rest .pools rfl

theorem decideReq_of_allocation {s : State} {q : PoolReq} (op : q.op = 1) :
    decideReq s q = allocate s q.owner q.len :=
  if_pos op

theorem decideReq_of_free {s u : State} {q : PoolReq} {status : Nat} (op : q.op = 2)
    (freed : freeBuffer s q.owner q.handle = (u, status)) : decideReq s q = (u, status, noHandle) := by
  rw [decideReq, if_neg (by omega), if_pos op, freed]

/-- A request that neither allocates nor frees changes no pool. -/
theorem decideReq_of_invalid {s : State} {q : PoolReq} (accepted : ownerRefused s q.owner = false)
    (allocates : q.op ≠ 1) (frees : q.op ≠ 2) :
    ∃ u, decideReq s q = (u, poolBadLength, noHandle) ∧ pools u = pools s := by
  simp only [decideReq, allocates, frees, accepted, Bool.false_eq_true, if_false]
  exact ⟨_, rfl, pools_countPool ..⟩

/-- An allocation that meets R401 takes the free buffer of the lowest index. -/
theorem allocate_grants {s : State} {o len i : Nat} (accepted : ownerRefused s o = false) (positive : 0 < len)
    (fits : len ≤ 16384) (below : poolHeld s o (poolFor len) < ownerMax s o (poolFor len))
    (room : poolHeld s o (poolFor len) < ownerMin s o (poolFor len) ∨
      poolUnused s (poolFor len) < poolFree s (poolFor len))
    (lowest : lowestFree s (poolFor len) = some i) :
    ∃ u, allocate s o len = (u, 0, handleOf (poolFor len) i) ∧
      pools u = { pools s with alloc := tins (pools s).alloc (handleOf (poolFor len) i) o } := by
  unfold allocate
  extract_lets p s₁ fail
  have accepted₁ : ownerRefused s₁ o = false := accepted
  have below₁ : ¬ ownerMax s₁ o p ≤ poolHeld s₁ o p := not_le.mpr below
  have room₁ : (decide (poolHeld s₁ o p < ownerMin s₁ o p) || decide (poolUnused s₁ p < poolFree s₁ p)) = true := by
    rw [Bool.or_eq_true, decide_eq_true_eq, decide_eq_true_eq]
    exact room
  have lowest₁ : lowestFree s₁ p = some i := lowest
  rw [accepted₁, if_neg (by simp), if_neg (by simp; omega), if_neg below₁, if_pos room₁, lowest₁]
  exact ⟨_, rfl, pools_countPool ..⟩

/-- A free of a buffer that its owner holds is made at the end of the beat. -/
theorem freeBuffer_frees {s : State} {o h : Nat} (accepted : ownerRefused s o = false) (buffer : isBuffer s h = true)
    (held : tfind (pools s).alloc h = some o) (fresh : h ∉ (pools s).freeing) :
    ∃ u, freeBuffer s o h = (u, 0) ∧ pools u = { pools s with freeing := (pools s).freeing ++ [h] } := by
  unfold freeBuffer
  simp only [accepted, buffer, held, List.contains_iff_mem, fresh, bne_self_eq_false, Bool.not_true,
    Bool.false_eq_true, if_false]
  exact ⟨_, rfl, pools_countPool ..⟩

/-! ### Reclaims (R406) -/

theorem mem_insertUnique_of_mem {x y : Nat} {l : List Nat} (h : x ∈ l) : x ∈ insertUnique y l := by
  unfold insertUnique
  split
  · exact h
  · exact List.mem_append_left _ h

theorem mem_foldl_insertUnique {x : Nat} {l k : List Nat} (h : x ∈ l ∨ x ∈ k) :
    x ∈ k.foldl (fun l y => insertUnique y l) l := by
  induction k generalizing l with
  | nil => exact h.resolve_right List.not_mem_nil
  | cons y k ih =>
    refine ih ?_
    obtain h | h := h
    · exact .inl (mem_insertUnique_of_mem h)
    · obtain rfl | h := List.mem_cons.mp h
      · exact .inl (mem_insertUnique_self ..)
      · exact .inr h

theorem freeAllOf_frees (s : State) {o : Nat} {e : Nat × Nat} (held : e ∈ (pools s).alloc) (owner : e.2 = o) :
    e.1 ∈ (pools (freeAllOf s o)).freeing :=
  mem_foldl_insertUnique (.inr (List.mem_map.mpr ⟨e, List.mem_filter.mpr ⟨held, by simpa using owner⟩, rfl⟩))

/-- Settles O38, by the decision on the one request that waits. -/
theorem poolRequestsAreServed : Obligations.PoolRequestsAreServed := by
  refine ⟨?_, ?_, ?_, ?_⟩
  · intro s f q n i ⟨run, hs⟩ virtual hf enabled thawed idle unfreed accepted positive fits below room lowest
    refine ⟨_, next_row hs (rowPoolAllocate f q n), ?_⟩
    rw [rowPoolAllocate, whenRun_running run]
    obtain ⟨u, decided, taken⟩ := allocate_grants accepted positive fits below room lowest
    have len : (fnRequest f 1 q n 0).len = n := Nat.mod_eq_of_lt (by omega)
    have granted : decideReq s (fnRequest f 1 q n 0) = (u, 0, handleOf (poolFor n) i) := by
      rw [decideReq_of_allocation rfl, len]
      exact decided
    obtain ⟨waits, alloc, -, resp⟩ :=
      poolReq_answered virtual hf enabled thawed idle granted (by rw [taken]; exact idle)
    refine ⟨waits, ?_, by simpa using resp⟩
    rw [alloc, taken, unfreed]
    exact tfind_tins_self ..
  · intro s f q h ⟨run, hs⟩ virtual hf enabled thawed idle unfreed accepted fits buffer held
    refine ⟨_, next_row hs (rowPoolFree f q h), ?_⟩
    rw [rowPoolFree, whenRun_running run]
    obtain ⟨u, decided, freed⟩ := freeBuffer_frees accepted buffer held (by simp [unfreed])
    have handle : (fnRequest f 2 q 0 h).handle = h := Nat.mod_eq_of_lt fits
    have made : decideReq s (fnRequest f 2 q 0 h) = (u, 0, noHandle) :=
      decideReq_of_free rfl (by rw [handle]; exact decided)
    obtain ⟨waits, alloc, left, resp⟩ :=
      poolReq_answered virtual hf enabled thawed idle made (by rw [freed]; exact idle)
    refine ⟨waits, ?_, left, by simpa using resp⟩
    rw [alloc, freed, unfreed]
    exact tfind_terase_self ..
  · intro s f o q ⟨run, hs⟩ virtual hf enabled thawed idle accepted invalid
    refine ⟨_, next_row hs (rowPoolReqInvalid f o q), ?_⟩
    have guard : (o == 0 || o == 3) = true := by simpa using invalid
    rw [rowPoolReqInvalid, whenRun_running run, guard, guardS_true]
    have allocates : (fnRequest f o q 0 0).op ≠ 1 := by change o ≠ 1; omega
    have frees : (fnRequest f o q 0 0).op ≠ 2 := by change o ≠ 2; omega
    obtain ⟨u, decided, kept⟩ := decideReq_of_invalid accepted allocates frees
    obtain ⟨waits, -, -, resp⟩ := poolReq_answered virtual hf enabled thawed idle decided (by rw [kept]; exact idle)
    exact ⟨waits, resp⟩
  · intro s src o may frozen
    refine ⟨_, next_row may.1.2 (rowPoolOwnerReclaim src o), fun e held owner => ?_⟩
    obtain ⟨m, writes⟩ := may.writes (reclaim o [1])
    have freed : reclaim o [1] { s with mabin := m } = some (freeAllOf { s with mabin := m } o) :=
      congrArg some (if_pos (by simpa [pools] using frozen))
    have kept : pools (rowPoolOwnerReclaim src o s) = pools (freeAllOf { s with mabin := m } o) :=
      (writes _ freed).rest .pools rfl
    rw [kept]
    exact freeAllOf_frees _ held owner

end Sys2Proof.Machine

namespace Sys2Proof.Machine

/-! ## Values that an accepted write stores -/

/-- A row that the object tables answer is one of them, and holds the object. -/
theorem mem_of_findRow {idx sub : Nat} {r : ObjRow} {l : List ObjRow} (h : findRow idx sub l = some r) :
    r ∈ l ∧ r.sub = sub ∧ r.base ≤ idx ∧ idx < r.base + r.insts := by
  induction l with
  | nil => cases h
  | cons a l ih =>
    have later (h : findRow idx sub l = some r) := (ih h).imp_left (List.mem_cons_of_mem a)
    unfold findRow at h
    split at h
    case isFalse => exact later h
    next hs =>
      split at h
      case isFalse => exact later h
      next hb =>
        split at h
        case isFalse => exact later h
        next hi =>
          obtain rfl := Option.some.inj h
          exact ⟨List.mem_cons_self, hs, hb, hi⟩

/-- The objects that are kept by more than a mask are tables (R153, R180). -/
theorem kind_of_packed : ∀ r ∈ objRows, (0x4900 < r.base + r.insts ∧ r.base < 0x4910) ∨
    (0x4B00 < r.base + r.insts ∧ r.base < 0x4B08 ∧ r.sub = 1) → r.kind = 9 := by decide +kernel

/-- What a write meets that the object table accepts (R546 to R552, R558). -/
theorem of_writeError_eq_zero {s : State} {src : Origin} {idx sub row : Nat} {v : Bytes}
    (fine : writeError s src idx sub row v = 0) :
    ∃ r, lookupObj idx sub = some r ∧ lengthOk r row v = true ∧ rangeOk r v = true := by
  cases here : lookupObj idx sub with
  | none => simp [writeError, here, errNoObject] at fine
  | some r =>
    refine ⟨r, rfl, ?_⟩
    simp only [writeError, here, errNoObject, errAccess, errTier, errSecret, errFormat, errValue] at fine
    by_contra unfit
    rw [not_and_or, Bool.not_eq_true, Bool.not_eq_true] at unfit
    obtain size | range := unfit
    · simp only [size, Bool.not_false, if_true] at fine
      repeat' split at fine
      all_goals cases fine
    · simp only [range, Bool.not_false, if_true] at fine
      repeat' split at fine
      all_goals cases fine

theorem bytesOf_ne_nil {n : Nat} (h : 0 < n) (v : Nat) : bytesOf n v ≠ [] := fun e => by
  have := bytesOf_length n v
  rw [e] at this
  exact h.ne this

/-- An accepted scalar is kept by the mask of its object alone. -/
theorem MayWrite.keptRow {s : State} {src : Origin} {idx sub : Nat} {v : Bytes} (may : MayWrite s src idx sub noRow v)
    (scalar : v ≠ []) : keptRow idx sub noRow v = keptValue idx sub v := by
  obtain ⟨-, -, fine⟩ := may
  obtain ⟨r, here, size, -⟩ := of_writeError_eq_zero fine
  obtain ⟨listed, hs, from_, below⟩ := mem_of_findRow here
  have unpacked : r.kind ≠ 9 := fun table => by simp [lengthOk, table, scalar] at size
  unfold Machine.keptRow
  rw [if_neg, if_neg]
  · simp only [Bool.and_eq_true, decide_eq_true_eq]
    exact fun h => unpacked (kind_of_packed r listed (.inr (by omega)))
  · simp only [Bool.and_eq_true, decide_eq_true_eq]
    exact fun h => unpacked (kind_of_packed r listed (.inl (by omega)))

/-! ## Time bases (O32) -/

theorem tbBecomeValid_valid (s : State) (b : Nat) :
    (tbAt (tbBecomeValid s b) b).state = .valid ∧ (tbAt (tbBecomeValid s b) b).validSince = s.rm.tick := by
  unfold tbBecomeValid markTb
  extract_lets s₁ m old s₂
  rw [(realignAll_touches ..).tbAt, tbAt_modTb, (raiseEv_touches ..).tbAt, tbAt_modTb]
  exact ⟨rfl, rfl⟩

theorem tbAt_applyStep {s : State} {b : Nat} {o : Int} (waits : (tbAt s b).stepPending = some o) :
    tbAt (applyStep s b) b = { (tbMove (tbAt s b) (o * 2 ^ 32)).1 with
      stepPending := none, stepUsed := true, steps := ((s.beat, o) :: (tbAt s b).steps).take 4 } := by
  simp only [applyStep, waits]
  rw [(realignAll_touches ..).tbAt]
  split
  · rw [(tickLost_touches ..).tbAt, (raiseEv_touches ..).tbAt, tbAt_modTb]
    rfl
  · rw [(raiseEv_touches ..).tbAt, tbAt_modTb]
    rfl

theorem tbAt_tbStop (s : State) (b : Nat) :
    tbAt (tbStop b s) b = { tbAt s b with state := .disabled, slew := 0, slewNext := none } := by
  unfold tbStop
  extract_lets s₁ s₂
  have stopped : tbAt s₂ b = { tbAt s b with state := .disabled, slew := 0, slewNext := none } :=
    ((raiseEv_touches ..).tbAt b).trans (tbAt_modTb ..)
  split
  · exact ((tickLost_touches ..).tbAt b).trans stopped
  · exact stopped

theorem tbEnable_settles {s : State} {b : Nat} (off : (tbAt s b).state = .disabled) :
    ∃ t, tbEnable b s = some t ∧
      tbAt t b = { tbAt s b with
        state := .settling, stepUsed := false, slew := 0, slewNext := none, boundaries := 0 } := by
  refine ⟨_, if_pos off, ?_⟩
  rw [tbAt_modTb, (setRw_touches ..).tbAt]

theorem tbStep_waits {s : State} {b o : Nat} (on : (tbAt s b).state ≠ .disabled) (free : (tbAt s b).stepUsed = false)
    (none_waits : (tbAt s b).stepPending = none) (no_slew : (tbAt s b).slew = 0) :
    ∃ t, tbStep b o s = some t ∧ tbAt t b = { tbAt s b with stepPending := some (signed 64 o) } := by
  unfold tbStep
  extract_lets x
  rw [if_neg (by simp [x, on, free, none_waits, no_slew])]
  exact ⟨_, rfl, tbAt_modTb ..⟩

theorem tbSetRate_stores {s : State} {b r : Nat} (fits : (signed 32 r).natAbs ≤ 65536000) (no_slew : (tbAt s b).slew = 0) :
    ∃ t, tbSetRate b r s = some t ∧ stored t (0x2000 + b) 3 noRow = keptRow (0x2000 + b) 3 noRow (bytesOf 4 r) := by
  unfold tbSetRate
  extract_lets x
  rw [if_neg (by simp [x, no_slew]; omega)]
  exact ⟨_, rfl, stored_setRw ..⟩

theorem tbSlew_waits {s : State} {b o : Nat} (fits : rateFits (tbRate s b) (tbSppm s b) = true) :
    ∃ t, tbSlew b o s = some t ∧ tbAt t b = { tbAt s b with slewNext := some (signed 64 o * 2 ^ 32) } :=
  ⟨_, if_pos fits, tbAt_modTb ..⟩

theorem tbDisable_waits {s : State} {b : Nat} (on : (tbAt s b).state ≠ .disabled) :
    ∃ t, tbDisable b s = some t ∧ t.sys.soon = s.sys.soon ++ [.tbDisable b] ∧ tbAt t b = tbAt s b := by
  refine ⟨_, if_neg on, rfl, ?_⟩
  rw [(soonDo_touches ..).tbAt, (setRw_touches ..).tbAt]

/-- Settles O32, by the effect of each write and the work of the next beat. -/
theorem timeBasesFollowWrites : Obligations.TimeBasesFollowWrites := by
  refine ⟨?_, ?_, ?_, ?_, ?_, ?_, ?_, ?_⟩
  · intro s src b may off
    refine ⟨_, next_row may.1.2 (rowTbEnable src b), ?_⟩
    obtain ⟨m, writes⟩ := may.writes (tbEnable b)
    obtain ⟨u, done, settles⟩ := tbEnable_settles (s := { s with mabin := m }) off
    rw [rowTbEnable, (writes u done).tbAt, settles]
    exact ⟨rfl, rfl, rfl, rfl, rfl⟩
  · intro s b ⟨run, hs⟩ settling boundaries
    refine ⟨_, next_row hs (rowTbValid b), ?_⟩
    have may : ((tbAt s b).state == .settling && decide (2 ≤ (tbAt s b).boundaries)) = true := by
      rw [settling, decide_eq_true boundaries]
      rfl
    rw [rowTbValid, whenRun_running run, may, guardS_true, (gatesRegain_touches ..).tbAt]
    exact tbBecomeValid_valid s b
  · intro s src b o may on free none_waits no_slew
    refine ⟨_, next_row may.1.2 (rowTbStep src b o), ?_⟩
    obtain ⟨m, writes⟩ := may.writes (tbStep b o)
    obtain ⟨u, done, waits⟩ := tbStep_waits (s := { s with mabin := m }) (o := o) on free none_waits no_slew
    rw [rowTbStep, (writes u done).tbAt, waits]
    exact ⟨rfl, free, rfl⟩
  · intro s b o waits
    rw [tbAt_applyStep waits]
    exact ⟨rfl, rfl, rfl, rfl⟩
  · intro s src b r may fits no_slew
    refine ⟨_, next_row may.1.2 (rowTbRateWrite src b r), ?_⟩
    obtain ⟨m, writes⟩ := may.writes (tbSetRate b r)
    obtain ⟨u, done, rate⟩ := tbSetRate_stores (s := { s with mabin := m }) fits no_slew
    rw [rowTbRateWrite, (writes u done).stored, rate]
    exact may.keptRow (bytesOf_ne_nil (by decide) r)
  · intro s src b o may fits
    refine ⟨_, next_row may.1.2 (rowTbSlew src b o), ?_⟩
    obtain ⟨m, writes⟩ := may.writes (tbSlew b o)
    obtain ⟨u, done, waits⟩ := tbSlew_waits (s := { s with mabin := m }) (o := o) fits
    rw [startSlew, tbAt_modTb, rowTbSlew, (writes u done).tbAt, waits]
    exact ⟨rfl, rfl, rfl⟩
  · intro s src b may on
    refine ⟨_, next_row may.1.2 (rowTbDisable src b), ?_⟩
    obtain ⟨m, writes⟩ := may.writes (tbDisable b)
    obtain ⟨u, done, waits, kept⟩ := tbDisable_waits (s := { s with mabin := m }) on
    exact ⟨(congrArg Sys.soon ((writes u done).rest .system rfl)).trans waits, ((writes u done).tbAt b).trans kept⟩
  · intro s b _ on waits
    have runs : runSoon s = gatesLose (tbStop b { s with sys := { s.sys with soon := [] } }) b := by
      rw [runSoon, waits]
      exact if_neg on
    rw [runs, (gatesLose_touches ..).tbAt, tbAt_tbStop]
    exact ⟨rfl, rfl, rfl⟩

end Sys2Proof.Machine

namespace Sys2Proof.Machine

/-! ## Pulse outputs and capture inputs (O33) -/

theorem toutAt_modTout (s : State) (k : Nat) (f : PinOut → PinOut) : toutAt (modTout s k f) k = f (toutAt s k) := by
  simp [toutAt, modTout]

theorem tinAt_modTin (s : State) (i : Nat) (f : PinIn → PinIn) : tinAt (modTin s i f) i = f (tinAt s i) := by
  simp [tinAt, modTin]

/-- A width that fits its pin is stored (R492). -/
theorem toutWrite_width {s : State} {k v : Nat}
    (fits : widthOk (natOf (stored s (0x2040 + k) 1 noRow)) (natOf (stored s (0x2040 + k) 4 noRow)) v = true) :
    ∃ t, toutWrite k 5 v s = some t ∧ stored t (0x2040 + k) 5 noRow = keptRow (0x2040 + k) 5 noRow (bytesOf 4 v) := by
  refine ⟨_, if_neg ?_, stored_setRw ..⟩
  simp [fits]

/-- A start is stored, and realigns its pin at the next beat (R491). -/
theorem toutWrite_start {s : State} {k v : Nat}
    (fits : widthOk (natOf (stored s (0x2040 + k) 1 noRow)) (natOf (stored s (0x2040 + k) 4 noRow))
      (natOf (stored s (0x2040 + k) 5 noRow)) = true) :
    ∃ t, toutWrite k 3 v s = some t ∧ stored t (0x2040 + k) 3 noRow = keptRow (0x2040 + k) 3 noRow (bytesOf 4 v) ∧
      t.sys.soon = s.sys.soon ++ [.realign k] := by
  refine ⟨_, if_neg ?_, ((soonDo_touches ..).stored ..).trans (stored_setRw ..), rfl⟩
  simp [fits]

theorem realignWritten_periodic {s : State} {k : Nat} (periodic : toutMode s k = 2) :
    (toutAt (realignWritten s k) k).next =
      realign (rw s (0x2040 + k) 3) (tbNs s (toutTb s k)) (rw s (0x2040 + k) 4) := by
  rw [realignWritten, realignPin, periodic]
  exact congrArg PinOut.next (toutAt_modTout ..)

theorem pulse_starts {s : State} {k : Nat} (mode : toutMode s k ∈ [1, 2]) (idle : (toutAt s k).active = false)
    (fresh : toutMode s k = 1 → (toutAt s k).fired = false)
    (now : reached32 (tbNs s (toutTb s k)) (toutAt s k).next = true) (valid : tbValid s (toutTb s k) = true) :
    (toutAt (pulse s k) k).active = true ∧
      (toutAt (pulse s k) k).endBeat = beatAfter s (roundDiv (rw s (0x2040 + k) 5 * 125) 100) ∧
      (pulse s k).out = s.out ++ [.pulse k (pinLevel s k true)] := by
  have scheduled : ¬ (toutMode s k = 0 || (toutAt s k).active || (toutMode s k = 1 && (toutAt s k).fired) ||
      !reached32 (tbNs s (toutTb s k)) (toutAt s k).next) = true := by
    have some_ : toutMode s k ≠ 0 := fun e => by simp [e] at mode
    simpa [some_, idle, now] using fresh
  unfold pulse
  extract_lets o t m
  rw [if_neg scheduled, if_neg (by simp [t, valid]), (emit_touches ..).toutAt, toutAt_modTout]
  exact ⟨rfl, rfl, rfl⟩

theorem pulseEnd_ends {s : State} {k : Nat} (active : (toutAt s k).active = true) (past : (toutAt s k).endBeat ≤ s.beat) :
    (toutAt (pulseEnd s k) k).active = false ∧ (pulseEnd s k).out = s.out ++ [.pulse k (pinLevel s k false)] := by
  rw [pulseEnd, active, due_of_le past, Bool.and_self, if_pos rfl, (emit_touches ..).toutAt, toutAt_modTout]
  exact ⟨rfl, rfl⟩

theorem capture_stamps {s : State} {i b : Nat} {up : Bool} (selected : bit (rw s (0x2060 + i) 1) (if up then 0 else 1) = true)
    (room : (tinAt s i).fifo.length < 16) :
    (tinAt (capture s i up b) i).fifo = (tinAt s i).fifo ++ [captureRow s (rw s (0x2060 + i) 2) up b] := by
  unfold capture
  extract_lets edge o row again s₁
  have selected' : ¬ (!bit edge (if up then 0 else 1)) = true := by simp only [edge, selected]; decide
  rw [if_neg selected', if_pos room, (raiseEv_touches ..).tinAt, tinAt_modTin]

/-- Settles O33, by the effect of each write and the case of each event that acts. -/
theorem timedPinsActAtTheirReading : Obligations.TimedPinsActAtTheirReading := by
  refine ⟨?_, ?_, ?_, ?_, ?_, ?_, ?_, ?_⟩
  · intro s src k v may fits
    refine ⟨_, next_row may.1.2 (rowToutConfigWrite src k 5 v), ?_⟩
    obtain ⟨m, writes⟩ := may.writes (toutWrite k 5 v)
    obtain ⟨u, done, width⟩ := toutWrite_width (s := { s with mabin := m }) fits
    exact (((writes u done).stored ..).trans width).trans (may.keptRow (bytesOf_ne_nil (by decide) v))
  · intro s src k v may periodic fits
    refine ⟨_, next_row may.1.2 (rowToutConfigWrite src k 3 v), ?_⟩
    obtain ⟨m, writes⟩ := may.writes (toutWrite k 3 v)
    have fits : widthOk (natOf (stored s (0x2040 + k) 1 noRow)) (natOf (stored s (0x2040 + k) 4 noRow))
        (natOf (stored s (0x2040 + k) 5 noRow)) = true := by
      rw [periodic]
      exact fits
    obtain ⟨u, done, start, waits⟩ := toutWrite_start (s := { s with mabin := m }) fits
    exact ⟨(((writes u done).stored ..).trans start).trans (may.keptRow (bytesOf_ne_nil (by decide) v)),
      (congrArg Sys.soon ((writes u done).rest .system rfl)).trans waits⟩
  · exact fun s k => realignWritten_periodic
  · intro s k ⟨run, hs⟩ mode idle fresh now valid
    refine ⟨_, next_row hs (rowTimeOutPulse k), ?_⟩
    rw [rowTimeOutPulse, whenRun_running run]
    exact pulse_starts mode idle fresh now valid
  · intro s k ⟨run, hs⟩ active past
    refine ⟨_, next_row hs (rowTimeOutPulseEnd k), ?_⟩
    rw [rowTimeOutPulseEnd, whenRun_running run]
    exact pulseEnd_ends active past
  · intro s i b up ⟨run, hs⟩ selected room
    refine ⟨_, next_row hs (rowTimeCapture i up b), ?_⟩
    rw [rowTimeCapture, whenRun_running run]
    exact capture_stamps selected room
  · intro s src i n _ may
    refine ⟨_, next_row may.1.2 (rowTinAck src i n), ?_⟩
    obtain ⟨m, writes⟩ := may.writes (tinAck i n)
    exact ⟨congrArg Sys.soon ((writes _ rfl).rest .system rfl), congrArg PinIn.fifo ((writes _ rfl).tinAt i)⟩
  · intro s i n waits
    rw [runSoon, waits]
    exact congrArg PinIn.fifo (tinAt_modTin ..)

end Sys2Proof.Machine

namespace Sys2Proof.Machine

/-! ## Arbiters (O34) -/

theorem tfind_foldl_tins_of_not_mem {α : Type} {g : Nat × α → α} {l : Tbl α} {i : Nat} (h : i ∉ l.map Prod.fst)
    (t : Tbl α) : tfind (l.foldl (fun t e => tins t e.1 (g e)) t) i = tfind t i := by
  induction l generalizing t with
  | nil => rfl
  | cons a l ih =>
    rw [List.map_cons, List.mem_cons, not_or] at h
    exact (ih h.2 _).trans (tfind_tins_ne _ _ h.1)

/-- Of writes to distinct keys each is read again. -/
theorem tfind_foldl_tins {α : Type} {g : Nat × α → α} {l : Tbl α} (keys : (l.map Prod.fst).Nodup) {e : Nat × α}
    (he : e ∈ l) (t : Tbl α) : tfind (l.foldl (fun t e => tins t e.1 (g e)) t) e.1 = some (g e) := by
  induction l generalizing t with
  | nil => cases he
  | cons a l ih =>
    rw [List.map_cons, List.nodup_cons] at keys
    obtain rfl | he := List.mem_cons.1 he
    · exact (tfind_foldl_tins_of_not_mem keys.1 _).trans (tfind_tins_self ..)
    · exact ih keys.2 he _

namespace Touches

variable {P : List Part} {s t : State}

theorem arbAt (h : Touches P s t) (a : Nat) (hP : among P .arbiters = false := by rfl) : arbAt t a = arbAt s a := by
  have e : t.host.arbs = s.host.arbs := h.rest .arbiters hP
  rw [Machine.arbAt, Machine.arbAt, e]

theorem hbmRead (h : Touches P s t) (p i : Nat) (hP : among P .pipes = false := by rfl) :
    hbmRead t p i = hbmRead s p i := by
  rw [Machine.hbmRead, h.pipeAt p hP, Machine.hbmRead]

end Touches

/-- A request that is issued carries its beat (R79). -/
theorem issueRead_issues {s : State} {p : Nat} {r : Read} (there : r ∈ (pipeAt s p).reads) :
    ∃ x, x ∈ (pipeAt (issueRead s p r.id) p).reads ∧ x.id = r.id ∧ x.issued = true ∧ x.issueBeat = s.beat := by
  have counted (t u : State) (h : Touches [.counters] t u) : pipeAt u p = pipeAt t p := h.pipeAt p
  unfold issueRead
  split
  next missing => exact absurd (List.find?_eq_none.1 missing r there) (by simp)
  next y found =>
    refine ⟨{ r with issued := true, issueBeat := s.beat }, ?_, rfl, rfl, rfl⟩
    extract_lets s₁ s₂ off writes
    have issued : (pipeAt s₁ p).reads = (pipeAt s p).reads.map fun x =>
        if x.id = r.id then { x with issued := true, issueBeat := s.beat } else x :=
      congrArg Pipe.reads (pipeAt_modPipe ..)
    have same₂ : pipeAt s₂ p = pipeAt s₁ p := counted _ _ (.ite (count_touches ..) .refl)
    rw [counted s₂ _ (.ite (filtered_touches ..) (filtered_touches ..)), same₂, issued]
    exact List.mem_map.2 ⟨r, there, if_pos rfl⟩

theorem arbAt_grant (s : State) (a i : Nat) :
    ∃ l, arbAt (grant s a i) a =
      { arbAt s a with reqs := terase (arbAt s a).reqs i, holder := some (i, s.beat, l) } := by
  unfold grant
  extract_lets latest s₁
  refine ⟨latest, ?_⟩
  have granted : arbAt s₁ a = { arbAt s a with reqs := terase (arbAt s a).reqs i, holder := some (i, s.beat, latest) } :=
    arbAt_modArb ..
  split
  · exact ((issueRead_touches ..).arbAt a).trans granted
  · exact granted

/-- A grant of an HBM arbiter issues the request that it serves (R498). -/
theorem grant_issues {s : State} {a i : Nat} {r : Read} (hbm : a < 8) (wanted : hbmRead s a i = some r) :
    ∃ x, x ∈ (pipeAt (grant s a i) a).reads ∧ x.id = r.id ∧ x.issued = true ∧ x.issueBeat = s.beat := by
  unfold grant
  extract_lets latest s₁
  have read : (if a < 8 then hbmRead s₁ a i else none) = some r := (if_pos hbm).trans wanted
  simp only [read]
  have there : r ∈ (pipeAt s₁ a).reads := List.mem_of_find?_eq_some wanted
  exact issueRead_issues there

/-- The losers of a round. -/
def losers (s : State) (a i : Nat) : Tbl Req := (contenders s a).filter fun e => e.1 != i

/-- What a round leaves to a loser (R500, R501). -/
def lost (q : Req) : Req := { q with boost := min 15 (q.boost + 1), wait := min 4095 (q.wait + 1) }

/-- A round is the grant of its winner, after the losers have gained. -/
theorem arbRound_eq {s : State} {a i : Nat} {w : Bool} (won : winner s a = some (i, w)) :
    ∃ u, arbRound s a = grant u a i ∧
      arbAt u a = { arbAt s a with
        reqs := (losers s a i).foldl (fun t e => tins t e.1 (lost e.2)) (arbAt s a).reqs, roundBeat := some s.beat } ∧
      Touches [.arbiters, .counters] s u := by
  unfold arbRound
  split
  next none_won => cases won.symm.trans none_won
  next j force round =>
    obtain ⟨rfl, rfl⟩ := Prod.mk.inj (Option.some.inj (won.symm.trans round))
    extract_lets ls gains lose s₁ s₂
    have counted : Touches [.counters] s₁ (if w then count s₂ (cArb a 1) 1 else s₂) :=
      .ite ((count_touches ..).after (count_touches ..)) (count_touches ..)
    exact ⟨_, rfl, (counted.arbAt a).trans (arbAt_modArb ..), counted.after (modArb_touches ..).within⟩

theorem arbRound_grants {s : State} {a i : Nat} {w : Bool} (won : winner s a = some (i, w))
    (keys : ((arbAt s a).reqs.map Prod.fst).Nodup) :
    (arbAt (arbRound s a) a).roundBeat = some s.beat ∧ tfind (arbAt (arbRound s a) a).reqs i = none ∧
      (∀ e, e ∈ contenders s a → e.1 ≠ i → tfind (arbAt (arbRound s a) a).reqs e.1 = some (lost e.2)) ∧
      (∃ l, (arbAt (arbRound s a) a).holder = some (i, s.beat, l)) ∧
      (a < 8 → ∀ r, hbmRead s a i = some r →
        ∃ x, x ∈ (pipeAt (arbRound s a) a).reads ∧ x.id = r.id ∧ x.issued = true ∧ x.issueBeat = s.beat) := by
  obtain ⟨u, round, requests, kept⟩ := arbRound_eq won
  obtain ⟨beat, -⟩ := kept.rest .clock rfl
  obtain ⟨l, granted⟩ := arbAt_grant u a i
  rw [round, granted, requests, beat]
  refine ⟨rfl, tfind_terase_self .., fun e he ne => ?_, ⟨l, rfl⟩, fun hbm r wanted => ?_⟩
  · have lose : e ∈ losers s a i := List.mem_filter.2 ⟨he, bne_iff_ne.2 ne⟩
    have distinct : ((losers s a i).map Prod.fst).Nodup :=
      keys.sublist ((List.filter_sublist.trans List.filter_sublist).map _)
    exact (tfind_terase_ne _ ne).trans (tfind_foldl_tins (g := fun e => lost e.2) distinct lose _)
  · exact beat ▸ grant_issues hbm ((kept.hbmRead a i).trans wanted)

/-- Settles O34, by the round as the grant of its winner, and by the cut. -/
theorem arbitersGrantTheWinner : Obligations.ArbitersGrantTheWinner := by
  refine ⟨?_, ?_⟩
  · intro s a i w ⟨run, hs⟩ ha first free won keys
    refine ⟨_, next_row hs (rowArbiterRound a), ?_⟩
    have may : (decide (a < 10) && (arbAt s a).roundBeat != some s.beat && arbFree s a) = true := by
      simp [ha, first, free]
    rw [rowArbiterRound, whenRun_running run, may, guardS_true]
    obtain ⟨round, gone, lose, rest⟩ := arbRound_grants won keys
    exact ⟨round, gone, fun e he ne => ⟨_, lose e he ne, rfl, rfl, rfl, rfl⟩, rest⟩
  · intro s a i b l ⟨run, hs⟩ engine held spent
    refine ⟨_, next_row hs (rowArbiterGrantCut a), ?_⟩
    have may : (a == arbDma || a == arbLa) = true := by simpa using engine
    rw [rowArbiterGrantCut, whenRun_running run, may, guardS_true]
    simp only [cutGrant, held, due_of_le spent, if_true, arbAt_modArb]
    exact ⟨trivial, _, tfind_tins_self .., rfl, rfl, rfl, rfl⟩

end Sys2Proof.Machine

namespace Sys2Proof.Machine

/-! ## Doorbells (O35) -/

section

variable {s : State} {f r c : Nat} (thawed : (fnAt s f).frozen = false) (own : f = ringOwner s r)
  (running : (ringAt s r).state = 1)

include thawed own running

/-- A doorbell that the ring allows posts its count (R521). -/
theorem doorbell_posts (allowed : countOk s r c = true) (off : Nat) :
    doorbell s f r off c = modRing s r fun x => { x with prod := c % 2 ^ 32 } := by
  rw [doorbell, thawed, if_neg (by decide), if_neg (by simp [own]), if_pos running, allowed, if_pos rfl]

/-- A count that the ring does not allow freezes the ring (R521). -/
theorem doorbell_freezes (refused : countOk s r c = false) (off : Nat) :
    (ringAt (doorbell s f r off c) r).state = 3 := by
  rw [doorbell, thawed, if_neg (by decide), if_neg (by simp [own]), if_pos running, refused, if_neg (by decide),
    freezeRing, (freezeMaster_touches ..).ringAt, ringAt_modRing]

theorem doorbell_ring (allowed : countOk s r c = true) (off : Nat) :
    (ringAt (doorbell s f r off c) r).prod = c % 2 ^ 32 ∧
      (ringAt (doorbell s f r off c) r).cons = (ringAt s r).cons := by
  rw [doorbell_posts thawed own running allowed, ringAt_modRing]
  exact ⟨rfl, rfl⟩

end

/-- The commands that a doorbell submits: one for each body, with the beat and the next tick (R63, R536). -/
theorem submitCmds_appends (s : State) (p first : Nat) (bs : List Bytes) :
    ∃ l, (pipeAt (submitCmds s p first bs) p).cmds = (pipeAt s p).cmds ++ l ∧ l.length = bs.length ∧
      ∀ m, m ∈ l → m.recv = s.beat ∧ m.tick = s.rm.tick + 1 ∧ m.kind = 0 ∧ m.held = false := by
  refine ⟨_, congrArg Pipe.cmds (pipeAt_modPipe ..), by simp, fun m hm => ?_⟩
  obtain ⟨i, -, rfl⟩ := List.mem_map.1 hm
  exact ⟨rfl, rfl, rfl, rfl⟩

/-- A doorbell of a command ring posts its count and submits the commands between the two counts (R63, R536). -/
theorem rowCmdRingDoorbell_submits {s : State} {f p c : Nat} (bs : List Bytes) (run : s.sys.run = .running)
    (thawed : (fnAt s f).frozen = false) (own : f = ringOwner s (cmdRing p)) (running : (ringAt s (cmdRing p)).state = 1)
    (allowed : countOk s (cmdRing p) c = true) :
    (ringAt (rowCmdRingDoorbell f p c bs s) (cmdRing p)).prod = c % 2 ^ 32 ∧
      ∃ l, (pipeAt (rowCmdRingDoorbell f p c bs s) p).cmds = (pipeAt s p).cmds ++ l ∧
        l.length = (c % 2 ^ 32 + 2 ^ 32 - (ringAt s (cmdRing p)).prod) % 2 ^ 32 ∧
        ∀ m, m ∈ l → m.recv = s.beat ∧ m.tick = s.rm.tick + 1 ∧ m.kind = 0 ∧ m.held = false := by
  rw [rowCmdRingDoorbell, whenRun_running run]
  extract_lets r before u n
  have posts : u = modRing s r fun x => { x with prod := c % 2 ^ 32 } := doorbell_posts thawed own running allowed _
  have rung : ringAt u r = { ringAt s r with prod := c % 2 ^ 32 } := by rw [posts, ringAt_modRing]
  have count : n = (c % 2 ^ 32 + 2 ^ 32 - (ringAt s r).prod) % 2 ^ 32 := by simp only [n, rung, before]
  rw [if_pos (by rw [rung]; exact running)]
  obtain ⟨l, cmds, size, each⟩ := submitCmds_appends u p before ((bs ++ List.replicate n []).take n)
  refine ⟨?_, l, ?_, ?_, ?_⟩
  · rw [(submitCmds_touches ..).ringAt, rung]
  · rw [cmds, posts]
    rfl
  · rw [size, ← count]
    simp
  · rw [posts] at each
    exact each

theorem byteDoorbell_sets {s : State} {r : Nat} (thawed : (fnAt s 0).frozen = false) (running : (ringAt s r).state = 1)
    (off o : Nat) : (ringAt (byteDoorbell s 0 r off o) r).cons = o := by
  rw [byteDoorbell, thawed, if_neg (by decide), if_neg (by decide), if_pos running, ringAt_modRing]

/-- Settles O35, by the cases of a doorbell. -/
theorem doorbellsPostTheirCounts : Obligations.DoorbellsPostTheirCounts := by
  refine ⟨?_, ?_, ?_, ?_, ?_, ?_⟩
  · intro s f r c ⟨run, hs⟩ thawed own running allowed
    refine ⟨_, next_row hs (rowRxRingDoorbell f r c), ?_⟩
    rw [rowRxRingDoorbell, whenRun_running run]
    exact doorbell_ring thawed own running allowed _
  · intro s f r c ⟨run, hs⟩ thawed own running allowed
    refine ⟨_, next_row hs (rowTxRingDoorbell f r c), ?_⟩
    rw [rowTxRingDoorbell, whenRun_running run]
    exact doorbell_ring thawed own running allowed _
  · intro s f p c ⟨run, hs⟩ thawed own running allowed
    refine ⟨_, next_row hs (rowCompletionRingDoorbell f p c), ?_⟩
    rw [rowCompletionRingDoorbell, whenRun_running run]
    exact (doorbell_ring thawed own running allowed _).1
  · intro s f p c bs ⟨run, hs⟩ thawed own running allowed
    exact ⟨_, next_row hs (rowCmdRingDoorbell f p c bs), rowCmdRingDoorbell_submits bs run thawed own running allowed⟩
  · intro s e o ⟨run, hs⟩ thawed running
    refine ⟨_, next_row hs (rowByteRingDoorbell 0 e o), ?_⟩
    rw [rowByteRingDoorbell, whenRun_running run]
    exact byteDoorbell_sets thawed running ..
  · intro s f r c ⟨run, hs⟩ thawed own running refused
    refine ⟨_, next_row hs (rowRxRingDoorbell f r c), ?_⟩
    rw [rowRxRingDoorbell, whenRun_running run]
    exact doorbell_freezes thawed own running refused _

end Sys2Proof.Machine

namespace Sys2Proof.Machine

/-! ## MACsec receive (O29) -/

theorem staging_pauseClass (s : State) (n k q : Nat) :
    (portAt (pauseClass s n k q) n).staging = (portAt s n).staging := by
  rw [pauseClass, portAt_modPort]

theorem staging_foldl {α : Type} {f : State → α → State} {n : Nat}
    (h : ∀ s a, (portAt (f s a) n).staging = (portAt s n).staging) (l : List α) (s : State) :
    (portAt (l.foldl f s) n).staging = (portAt s n).staging :=
  List.foldlRecOn (motive := fun t => (portAt t n).staging = (portAt s n).staging) l f rfl
    fun _ e a _ => (h _ a).trans e

theorem staging_pauseReceive (s : State) (n : Nat) (f : Bytes) :
    (portAt (pauseReceive s n f) n).staging = (portAt s n).staging := by
  unfold pauseReceive
  extract_lets s₁
  have counted : (portAt s₁ n).staging = (portAt s n).staging := congrArg Port.staging ((count_touches ..).portAt n)
  split
  · exact counted
  split
  · exact (staging_foldl (fun _ _ => staging_pauseClass ..) ..).trans counted
  · refine (staging_foldl (fun u i => ?_) ..).trans counted
    split
    · exact staging_foldl (fun _ _ => staging_pauseClass ..) ..
    · rfl

theorem staging_headroomOverflow (s : State) (n cls : Nat) :
    (portAt (headroomOverflow s n cls) n).staging = (portAt s n).staging := by
  unfold headroomOverflow
  extract_lets s₁
  have counted : (portAt s₁ n).staging = (portAt s n).staging := congrArg Port.staging (portAt_count ..)
  split
  · rw [portAt_freezeMaster, portAt_modPort, ← counted]
  · rw [portAt_freezeMaster, portAt_modPort, ← counted]

theorem staging_arrive (s : State) (a : Arrival) :
    (portAt (arrive s a) a.node).staging = (portAt s a.node).staging := by
  unfold arrive
  extract_lets n cls port
  split
  · rfl
  split
  · exact congrArg Port.staging ((count_touches ..).portAt n)
  split
  · exact congrArg Port.staging (((emit_touches ..).after (count_touches ..).within (P := [.counters, .out])).portAt n)
  split
  · exact staging_headroomOverflow ..
  next u taken =>
    have cells : (portAt u n).staging = (portAt s n).staging :=
      congrArg Port.staging (((takeCells_touches ..).get taken).portAt n)
    extract_lets k s₂ k₂
    have begun : portAt s₂ n = { portAt u n with rx := some k.id, rxWhole := a.staged } := portAt_modPort ..
    exact (congrArg Port.staging begun).trans cells

/-- A delivery takes the oldest staged frame, whatever the MAC makes of it (R449). -/
theorem deliverFrame_drops {s : State} {n : Nat} (e : Ecc) :
    (portAt (deliverFrame s n e) n).staging = (portAt s n).staging.drop 1 := by
  unfold deliverFrame
  split
  next none_staged => rw [none_staged, List.drop_nil]
  next f rest staged =>
    extract_lets s₁
    have left : (portAt s₁ n).staging = (portAt s n).staging.drop 1 := by
      rw [portAt_modPort, staged]
      rfl
    split
    · exact left
    split
    · exact (staging_pauseReceive ..).trans left
    · exact (staging_arrive s₁ _).trans left

theorem drop_append_fcsOf (b : Bytes) : (b ++ fcsOf b).drop ((b ++ fcsOf b).length - 4) = fcsOf b := by
  rw [List.length_append, fcsOf_length, Nat.add_sub_cancel, List.drop_left]

/-- A good frame that the receive path accepts is staged as plain text with a new FCS (R447, R449). -/
theorem receiveFrame_stages {s : State} {n ph : Nat} {b f : Bytes} {bad : Bool} {sa : Option (Nat × Nat)}
    (fits : (b ++ fcsOf b).length ≤ rw s (0x3100 + n) 12 + 32) (serves : unitServes s (unitOf n) = true)
    (accepted : rxDecide s n b bad = .deliver f sa) :
    ∃ x, (portAt (receiveFrame s n (b ++ fcsOf b) ph bad) n).staging = (portAt s n).staging ++ [x] ∧
      x.frame = f ++ fcsOf f ∧ x.due = beatAfter s 24 ∧ x.sa = sa.map Prod.fst := by
  unfold receiveFrame
  extract_lets body
  have hb : body = b := take_append_fcsOf b
  rw [hb, drop_append_fcsOf, if_neg (by simp), if_neg (by omega), if_neg (by simp [serves])]
  split
  next reason mismatch refused => cases accepted.symm.trans refused
  next plain sa' delivered =>
    obtain ⟨rfl, rfl⟩ := RxVerdict.deliver.inj (accepted.symm.trans delivered)
    extract_lets u
    have counted : Touches [.system, .cipher, .sessions, .counters] s u := by
      cases sa with
      | none => exact .refl
      | some a => exact (rekeyCheck_touches ..).after (putPn_touches ..).within
    unfold stageFrame
    rw [portAt_modPort, counted.portAt, counted.beatAfter]
    exact ⟨_, rfl, rfl, rfl, rfl⟩

/-- Settles O29, by the frame that joins the staging and by the one that leaves it. -/
theorem macsecReceiveAndDelivery : Obligations.MacsecReceiveAndDelivery := by
  refine ⟨?_, ?_⟩
  · intro s n ph b f bad sa ⟨run, hs⟩ hn up on live fits serves accepted
    refine ⟨_, next_row hs (rowMacsecRxFrame n (b ++ fcsOf b) ph bad), ?_⟩
    have ready : (decide (n < 128) && isUp s n && macRxOn s n && pipeLive s (nodePipe n)) = true := by
      simp [isUp, hn, up, on, live]
    rw [rowMacsecRxFrame, whenRun_running run, ready, guardS_true]
    exact receiveFrame_stages fits serves accepted
  · intro s n e ⟨run, hs⟩ ready
    refine ⟨_, next_row hs (rowMacsecRxDeliver n e), ?_⟩
    rw [rowMacsecRxDeliver, whenRun_running run, ready, guardS_true]
    exact deliverFrame_drops e

end Sys2Proof.Machine

namespace Sys2Proof.Machine

/-! ## What events leave of the part as a whole -/

/-- The part as a whole, but for what an event and the freeze that it may trigger write (R540, R614, R618). -/
def quiet (y : Sys) : Sys :=
  { y with run := .running, log := [], logSeq := 0, logOver := 0, evq := [], lost := 0, capture := [] }

theorem Touches.quiet {P : List Part} {s t : State} (h : Touches P s t) (hP : among P .system = false := by rfl) :
    quiet t.sys = quiet s.sys :=
  congrArg Machine.quiet (h.rest .system hP)

theorem quiet_tellSessions (s : State) (e : Event) : quiet (tellSessions s e).sys = quiet s.sys :=
  (tellSessions_touches ..).quiet

theorem quiet_queueEvent (s : State) (e : Event) : quiet (queueEvent s e).sys = quiet s.sys := by
  unfold queueEvent
  split
  · rfl
  · exact (count_touches ..).quiet

theorem quiet_postEvent (s : State) (e : Event) : quiet (postEvent s e).sys = quiet s.sys := by
  unfold postEvent
  rw [quiet_tellSessions, quiet_queueEvent]
  split <;> rfl

theorem quiet_startFreeze (s : State) (trigger code : Nat) : quiet (startFreeze s trigger code).sys = quiet s.sys := by
  unfold startFreeze
  split
  · exact quiet_postEvent ..
  · rfl

theorem quiet_raiseEv (s : State) (code source : Nat) (values : List Nat) :
    quiet (raiseEv s code source values).sys = quiet s.sys := by
  unfold raiseEv raiseAt
  extract_lets t
  split
  · exact (quiet_startFreeze ..).trans (quiet_postEvent ..)
  · exact quiet_postEvent ..

theorem soon_of_quiet {y z : Sys} (h : quiet y = quiet z) : y.soon = z.soon :=
  have soon : (quiet y).soon = (quiet z).soon := congrArg Sys.soon h
  soon

theorem soon_raiseEv (s : State) (code source : Nat) (values : List Nat) :
    (raiseEv s code source values).sys.soon = s.sys.soon :=
  soon_of_quiet (quiet_raiseEv ..)

/-! ## Cipher units (O30) -/

namespace Touches

variable {P : List Part} {s t : State}

theorem cipherUnit (h : Touches P s t) (u : Nat) (hP : among P .cipher = false := by rfl) :
    cipherUnit t u = cipherUnit s u := by
  have e : t.cipher = s.cipher := h.rest .cipher hP
  rw [Machine.cipherUnit, Machine.cipherUnit, e]

end Touches

/-- A change of one cipher unit. -/
def modUnit (s : State) (u : Nat) (f : CipherUnit → CipherUnit) : State :=
  { s with cipher := { s.cipher with units := tmod CipherUnit.init s.cipher.units u f } }

theorem cipherUnit_modUnit (s : State) (u : Nat) (f : CipherUnit → CipherUnit) :
    cipherUnit (modUnit s u f) u = f (cipherUnit s u) := by
  simp [cipherUnit, modUnit]

theorem cipherUnit_modUnit_ne (s : State) {u v : Nat} (f : CipherUnit → CipherUnit) (h : v ≠ u) :
    cipherUnit (modUnit s u f) v = cipherUnit s v := by
  simp [cipherUnit, modUnit, tget_tmod_ne _ _ _ h]

theorem noteFault_eq (s : State) (u path : Nat) :
    noteFault s u path = raiseEv (modUnit s u fun x => { x with fault := path * 2 ^ 56 + s.rm.tick % 2 ^ 56 })
      evCipherFault u [path] := rfl

theorem unitOut_eq (s : State) (u : Nat) :
    unitOut s u = modUnit s u fun x => { x with state := 1, passed := false } := rfl

theorem state_faultUnit (s : State) (u path v : Nat) :
    (cipherUnit (faultUnit s u path) v).state = (cipherUnit s v).state := by
  rw [faultUnit, noteFault_eq, (soonDo_touches ..).cipherUnit, (raiseEv_touches ..).cipherUnit]
  by_cases h : v = u
  · rw [h, cipherUnit_modUnit]
  · rw [cipherUnit_modUnit_ne _ _ h]

theorem soon_faultUnit (s : State) (u path : Nat) :
    (faultUnit s u path).sys.soon = s.sys.soon ++ [.unitOut u] :=
  congrArg (· ++ [Soon.unitOut u]) (soon_raiseEv ..)

/-- A unit that is not out leaves service at the next beat. -/
def leaveSoon (s : State) (u : Nat) : State := if (cipherUnit s u).state = 1 then s else faultUnit s u 0

/-- The units of a list that are in service or in their tests. -/
def unitsIn (s : State) (us : List Nat) : List Nat := us.filter fun u => (cipherUnit s u).state != 1

/-- A failed entropy source takes out every unit that is not out, at the next beat (R466, R468). -/
theorem foldl_leaveSoon (us : List Nat) (s : State) :
    (us.foldl leaveSoon s).sys.soon = s.sys.soon ++ (unitsIn s us).map .unitOut ∧
      ∀ v, (cipherUnit (us.foldl leaveSoon s) v).state = (cipherUnit s v).state := by
  induction us generalizing s with
  | nil => exact ⟨(List.append_nil _).symm, fun _ => rfl⟩
  | cons u us ih =>
    rw [List.foldl_cons]
    obtain ⟨soon, states⟩ := ih (leaveSoon s u)
    by_cases out : (cipherUnit s u).state = 1
    · have stays : leaveSoon s u = s := if_pos out
      rw [stays] at soon states ⊢
      exact ⟨by simpa [unitsIn, out] using soon, states⟩
    · have leaves : leaveSoon s u = faultUnit s u 0 := if_neg out
      have same_units : unitsIn (faultUnit s u 0) us = unitsIn s us := by simp only [unitsIn, state_faultUnit]
      rw [leaves] at soon states ⊢
      rw [same_units, soon_faultUnit] at soon
      exact ⟨by simpa [unitsIn, out] using soon, fun v => (states v).trans (state_faultUnit ..)⟩

theorem state_unitOut (s : State) (u : Nat) : (cipherUnit (unitOut s u) u).state = 1 := by
  rw [unitOut_eq, cipherUnit_modUnit]

theorem state_unitOut_of_out {s : State} (u : Nat) {v : Nat} (out : (cipherUnit s v).state = 1) :
    (cipherUnit (unitOut s u) v).state = 1 := by
  by_cases h : v = u
  · exact h ▸ state_unitOut s u
  · rw [unitOut_eq, cipherUnit_modUnit_ne _ _ h, out]

theorem foldl_unitOut (us : List Nat) (s : State) {v : Nat} (h : v ∈ us ∨ (cipherUnit s v).state = 1) :
    (cipherUnit (us.foldl unitOut s) v).state = 1 := by
  induction us generalizing s with
  | nil => exact h.resolve_left List.not_mem_nil
  | cons u us ih =>
    refine ih _ ?_
    obtain h | out := h
    · obtain rfl | later := List.mem_cons.1 h
      · exact .inr (state_unitOut ..)
      · exact .inl later
    · exact .inr (state_unitOut_of_out u out)

theorem rowEntropyHealthFail_leaves {s : State} (run : s.sys.run = .running) :
    (rowEntropyHealthFail s).sys.soon = s.sys.soon ++ (unitsIn s (List.range 9)).map .unitOut ∧
      ∀ v, (cipherUnit (rowEntropyHealthFail s) v).state = (cipherUnit s v).state := by
  have row : rowEntropyHealthFail s = (List.range 9).foldl leaveSoon s := whenRun_running run _
  rw [row]
  exact foldl_leaveSoon (List.range 9) s

theorem mem_unitsIn {s : State} {u : Nat} (hu : u < 9) :
    u ∈ unitsIn s (List.range 9) ↔ (cipherUnit s u).state ≠ 1 := by
  simp [unitsIn, hu]

/-- The next beat takes out the units that wait to leave. -/
theorem runSoon_of_units {s : State} {us : List Nat} (waits : s.sys.soon = us.map .unitOut) :
    runSoon s = us.foldl unitOut { s with sys := { s.sys with soon := [] } } := by
  rw [runSoon, waits, List.foldl_map]

theorem cipherUnit_startTests {s : State} {u : Nat} (out : (cipherUnit s u).state = 1) :
    cipherUnit (startTests s u) u =
      { cipherUnit s u with state := 2, restoreBeat := s.beat, restoreTick := s.rm.tick, passed := false } := by
  have starts : startTests s u = modUnit s u _ := if_pos out
  rw [starts, cipherUnit_modUnit]

theorem cipherUnit_endTests (s : State) (u : Nat) (ok : Bool) :
    cipherUnit (endTests s u ok) u =
      if ok then { cipherUnit s u with passed := true } else { cipherUnit s u with state := 1 } := by
  cases ok
  · exact ((raiseEv_touches ..).cipherUnit u).trans (cipherUnit_modUnit ..)
  · exact cipherUnit_modUnit s u _

/-- Settles O30, by the units that wait to leave, and by the effect of each write and of the tests' end. -/
theorem cipherUnitsLeaveAndReturn : Obligations.CipherUnitsLeaveAndReturn := by
  refine ⟨?_, ?_, ?_, ?_⟩
  · intro s src v may size ok
    refine ⟨_, next_row may.1.2 (rowCipherKeyWrite src v), ?_⟩
    obtain ⟨m, writes⟩ := may.writes (keyWrite v)
    have done : keyWrite v { s with mabin := m } = some (deferWrite { s with mabin := m } (keyOf 0x7800 1 noRow) v) :=
      if_pos (by simp [size, ok])
    obtain ⟨-, -, deferred⟩ := (writes _ done).rest .objects rfl
    exact ⟨_, deferred, rfl, rfl, rfl, rfl⟩
  · intro s ⟨run, hs⟩
    refine ⟨_, next_row hs rowEntropyHealthFail, ?_⟩
    obtain ⟨waits, states⟩ := rowEntropyHealthFail_leaves run
    refine ⟨fun u hu in_ => ?_, fun none_waits u hu => ?_⟩
    · rw [waits]
      exact List.mem_append_right _ (List.mem_map_of_mem ((mem_unitsIn hu).2 in_))
    · rw [none_waits, List.nil_append] at waits
      rw [runSoon_of_units waits]
      refine foldl_unitOut _ _ ?_
      rw [mem_unitsIn hu, or_iff_not_imp_left, not_not]
      exact fun out => (states u).trans out
  · intro s src u may out
    refine ⟨_, next_row may.1.2 (rowCipherUnitRestore src u), ?_⟩
    obtain ⟨m, writes⟩ := may.writes fun s => some (startTests s u)
    have tests := cipherUnit_startTests (s := { s with mabin := m }) out
    rw [rowCipherUnitRestore, (writes _ rfl).cipherUnit, tests]
    exact ⟨rfl, rfl, rfl⟩
  · intro s u ok ⟨run, hs⟩ tests fresh spent
    refine ⟨_, next_row hs (rowCipherKatDone u ok), ?_⟩
    have ready : ((cipherUnit s u).state == 2 && !(cipherUnit s u).passed &&
        due s ((cipherUnit s u).restoreBeat + 4096)) = true := by simp [tests, fresh, due_of_le spent]
    rw [rowCipherKatDone, whenRun_running run]
    extract_lets x
    rw [ready, guardS_true, cipherUnit_endTests]
    cases ok
    · exact rfl
    · exact ⟨rfl, tests⟩

end Sys2Proof.Machine

namespace Sys2Proof.Machine

/-! ## What events and DMA writes count (R540, R588) -/

/-- From s to t only events and notifications that were lost may have counted. -/
structure KeepsCounts (s t : State) : Prop where
  word : ∀ m, m ≠ cPart 6 → m ≠ cPart 12 → tget 0 t.cnt.words m = tget 0 s.cnt.words m

namespace KeepsCounts

variable {s t u : State}

theorem refl : KeepsCounts s s := ⟨fun _ _ _ => rfl⟩

theorem trans (h : KeepsCounts s t) (k : KeepsCounts t u) : KeepsCounts s u :=
  ⟨fun m lost missed => (k.word m lost missed).trans (h.word m lost missed)⟩

/-- A step from t, after what led from s to t. -/
theorem after (k : KeepsCounts t u) (h : KeepsCounts s t) : KeepsCounts s u := h.trans k

theorem ite {c : Prop} [Decidable c] (h : KeepsCounts s t) (k : KeepsCounts s u) :
    KeepsCounts s (if c then t else u) := by
  split
  · exact h
  · exact k

theorem foldl {α : Type} {f : State → α → State} {l : List α} (k : ∀ t a, KeepsCounts t (f t a))
    (h : KeepsCounts s t) : KeepsCounts s (l.foldl f t) :=
  List.foldlRecOn l f h fun _ e a _ => e.trans (k _ a)

theorem update (h : t.cnt.words = s.cnt.words := by rfl) : KeepsCounts s t := ⟨fun _ _ _ => by rw [h]⟩

theorem lost (s : State) (k : Nat) : KeepsCounts s (count s (cPart 6) k) :=
  ⟨fun _ lost _ => count_words_ne s k lost⟩

theorem missed (s : State) (k : Nat) : KeepsCounts s (count s (cPart 12) k) :=
  ⟨fun _ _ missed => count_words_ne s k missed⟩

end KeepsCounts

theorem Touches.keepsCounts {P : List Part} {s t : State} (h : Touches P s t) (hP : among P .counters = false := by rfl) :
    KeepsCounts s t :=
  .update (congrArg Counters.words (h.rest .counters hP))

theorem notify_keepsCounts (s : State) (n : Nat) (x : Session) (body : Bytes) : KeepsCounts s (notify s n x body) :=
  .ite .update (.trans .update (.missed ..))

theorem tellSessions_keepsCounts (s : State) (e : Event) : KeepsCounts s (tellSessions s e) :=
  .foldl (fun _ _ => .ite (notify_keepsCounts ..) .refl) .refl

theorem queueEvent_keepsCounts (s : State) (e : Event) : KeepsCounts s (queueEvent s e) :=
  .ite .update (.trans .update (.lost ..))

theorem postEvent_keepsCounts (s : State) (e : Event) : KeepsCounts s (postEvent s e) :=
  .trans (.ite .update .refl) ((queueEvent_keepsCounts ..).trans (tellSessions_keepsCounts ..))

theorem startFreeze_keepsCounts (s : State) (trigger code : Nat) : KeepsCounts s (startFreeze s trigger code) :=
  .ite ((postEvent_keepsCounts ..).trans .update) .refl

theorem raiseEv_keepsCounts (s : State) (code source : Nat) (values : List Nat) :
    KeepsCounts s (raiseEv s code source values) :=
  (postEvent_keepsCounts ..).trans (.ite (startFreeze_keepsCounts ..) .refl)

theorem freezeMaster_keepsCounts (s : State) (type cls num : Nat) : KeepsCounts s (freezeMaster s type cls num) :=
  .ite .refl (.trans .update (raiseEv_keepsCounts ..))

theorem freezeFn_keepsCounts (s : State) (f cause detail : Nat) : KeepsCounts s (freezeFn s f cause detail) :=
  .ite .refl ((modFn_touches ..).keepsCounts.trans (freezeMaster_keepsCounts ..))

theorem dmaWrite_keepsCounts (s : State) (r addr : Nat) (b : Bytes) : KeepsCounts s (dmaWrite s r addr b) :=
  .ite .update (freezeFn_keepsCounts ..)

theorem headWrite_keepsCounts (s : State) (r : Nat) : KeepsCounts s (headWrite s r) :=
  .ite .refl (dmaWrite_keepsCounts ..)

theorem writeBack_keepsCounts (s : State) (r : Nat) (words : List Nat) : KeepsCounts s (writeBack s r words) := by
  unfold writeBack
  extract_lets c n ws w0 a s₁ s₂ s₃
  have body : KeepsCounts s s₃ :=
    (modRing_touches ..).keepsCounts.after ((dmaWrite_keepsCounts ..).after (dmaWrite_keepsCounts ..))
  exact (notSignalled_touches ..).keepsCounts.after ((headWrite_keepsCounts ..).after body)

theorem drainBegun_keepsCounts (r n : Nat) (s : State) : KeepsCounts s (drainBegun r n s) := by
  induction n generalizing s with
  | zero => exact .refl
  | succ n ih =>
    unfold drainBegun
    split
    · exact (ih _).after ((writeBack_keepsCounts ..).after (modRing_touches ..).keepsCounts)
    · exact .refl

theorem completeCount_keepsCounts (s : State) (r c : Nat) (words : List Nat) :
    KeepsCounts s (completeCount s r c words) :=
  (drainBegun_keepsCounts ..).after (modRing_touches ..).keepsCounts

/-! ## Lookaside jobs (O31) -/

namespace Touches

variable {P : List Part} {s t : State} (h : Touches P s t)

include h

theorem inWindow (f addr len : Nat) (hP : among P .objects = false := by rfl) :
    inWindow t f addr len = inWindow s f addr len := by
  simp only [Machine.inWindow, h.stored _ _ _ hP]

theorem iecRow (k : Nat) (digest : among P .digest = false := by rfl) : iecRow t k = iecRow s k := by
  obtain ⟨dig, -⟩ := h.rest .digest digest
  rw [Machine.iecRow, digRow, dig, Machine.iecRow, digRow]

theorem keyEnt (k : Nat) (cipher : among P .cipher = false := by rfl) : keyEnt t k = keyEnt s k := by
  have units : t.cipher = s.cipher := h.rest .cipher cipher
  rw [Machine.keyEnt, units, Machine.keyEnt]

variable (digest : among P .digest = false := by rfl) (cipher : among P .cipher = false := by rfl)

include digest cipher

theorem jobKeyOk (k : Nat) : jobKeyOk t k = jobKeyOk s k := by
  rw [Machine.jobKeyOk, h.iecRow _ digest, h.keyEnt _ cipher, Machine.jobKeyOk]

theorem counterSpent (k : Nat) : counterSpent t k = counterSpent s k := by
  have units : t.cipher = s.cipher := h.rest .cipher cipher
  rw [Machine.counterSpent, h.iecRow _ digest, units, Machine.counterSpent]

theorem jobIv (r : Bytes) : jobIv t r = jobIv s r := by
  have units : t.cipher = s.cipher := h.rest .cipher cipher
  rw [Machine.jobIv, h.iecRow _ digest, h.keyEnt _ cipher, units, Machine.jobIv]

end Touches

theorem jobs_raiseEv (s : State) (code source : Nat) (values : List Nat) :
    (raiseEv s code source values).cipher.jobs = s.cipher.jobs :=
  congrArg Cipher.jobs ((raiseEv_touches ..).rest .cipher rfl)

theorem jobs_rekeyCheck (s : State) (unit item next limit : Nat) :
    (rekeyCheck s unit item next limit).cipher.jobs = s.cipher.jobs := by
  unfold rekeyCheck
  split
  · exact jobs_raiseEv ..
  · rfl

theorem jobs_takeCounter (s : State) (r : Bytes) (addr : Nat) : (takeCounter s r addr).1.cipher.jobs = s.cipher.jobs := by
  unfold takeCounter
  dsimp only
  split
  · rfl
  · exact jobs_rekeyCheck ..

theorem jobs_modUnit (s : State) (u : Nat) (f : CipherUnit → CipherUnit) :
    (modUnit s u f).cipher.jobs = s.cipher.jobs := rfl

theorem jobs_faultUnit (s : State) (u path : Nat) : (faultUnit s u path).cipher.jobs = s.cipher.jobs := by
  have same : (faultUnit s u path).cipher = (noteFault s u path).cipher := (soonDo_touches ..).rest .cipher rfl
  rw [same, noteFault_eq, jobs_raiseEv, jobs_modUnit]

/-- What s leaves with the jobs at the output writer, a job of the ring waits there with its status. -/
def JobWaits (s t : State) (r status : Nat) : Prop :=
  ∃ j, t.cipher.jobs = s.cipher.jobs ++ [j] ∧ j.ring = r ∧ j.status = status

theorem finishJob_waits {s t : State} (kept : t.cipher.jobs = s.cipher.jobs) (r : Nat) (d : List Nat) (status : Nat)
    (ws : List (Nat × Bytes)) : JobWaits s (finishJob t r d status ws) r status :=
  ⟨_, congrArg (· ++ _) kept, rfl, rfl⟩

/-- The status of a job whose addresses lie in the owner's windows (R461). -/
def statusOf (s : State) (rec aad data tag : Bytes) (bad : Bool) : Nat :=
  if jobRecordBad rec then 2 else if !jobKeyOk s (jobKey rec) then 3 else if !unitServes s 8 then 4
  else (runJob (keyBytes (keyEnt s (4096 + jobKey rec))) (jobIv s rec) rec aad data tag bad).status

theorem lookaside_waits {s : State} {r : Nat} {d : List Nat} {rec : Bytes} (aad data tag : Bytes) (bad : Bool)
    (whole : rec.length = 64) (record : inWindow s (ringOwner s (txRing r)) (d.getD 0 0) 64 = true)
    (spans : jobRecordBad rec = false → ∀ e, e ∈ jobSpans rec → inWindow s (ringOwner s (txRing r)) e.1 e.2 = true)
    (fresh : counterSpent s (jobKey rec) = false) :
    JobWaits s (lookaside s r d rec aad data tag bad) r (statusOf s rec aad data tag bad) := by
  unfold lookaside statusOf
  extract_lets r' addr f spans' s₁ run
  have same : r' = rec := slice_of_length whole
  have inside_ : spans'.all (fun e => inWindow s f e.1 e.2) = true := by
    rw [List.all_eq_true]
    intro e he
    cases malformed : jobRecordBad rec with
    | true => 
      have alone : spans' = [(addr, 64)] := by simp only [spans', same, malformed, if_true]
      rw [alone, List.mem_singleton] at he
      exact he ▸ record
    | false =>
      have more : spans' = (addr, 64) :: jobSpans rec := by
        simp only [spans', same, malformed, if_false, Bool.false_eq_true]
      rw [more, List.mem_cons] at he
      exact he.elim (fun e => e ▸ record) (spans malformed e)
  have counted : Touches [.counters] s s₁ := .foldl (fun _ _ => .ite .refl (filtered_touches ..)) .refl
  have units : s₁.cipher = s.cipher := counted.rest .cipher rfl
  have jobs : s₁.cipher.jobs = s.cipher.jobs := congrArg Cipher.jobs units
  have serves : unitServes s₁ 8 = unitServes s 8 := by rw [unitServes, counted.cipherUnit, unitServes]
  have ran : run = runJob (keyBytes (keyEnt s (4096 + jobKey rec))) (jobIv s rec) rec aad data tag bad := by
    simp only [run, same, counted.jobIv rfl rfl, counted.keyEnt _]
  rw [inside_, same, if_neg (by decide), counted.jobKeyOk, serves, counted.counterSpent, fresh]
  split
  · exact finishJob_waits jobs ..
  split
  · exact finishJob_waits jobs ..
  split
  · exact finishJob_waits jobs ..
  rw [if_neg (by decide), ran]
  split
  next s₂ iv taken =>
    have took : s₂.cipher.jobs = s.cipher.jobs :=
      (congrArg (fun p => p.1.cipher.jobs) taken).symm.trans ((jobs_takeCounter ..).trans jobs)
    cases bad with
    | true => exact finishJob_waits ((jobs_faultUnit ..).trans took) ..
    | false => exact finishJob_waits took ..

/-- The job leaves the output writer and is counted under its status, whose counter no event and no lost
notification counts. -/
theorem completeJob_leaves (s : State) (j : Job) (known : j.status < 5) :
    (completeJob s j).cipher.jobs = ldel (fun x => x.ring == j.ring) s.cipher.jobs
      ∧ tget 0 (completeJob s j).cnt.words (cPart (13 + j.status))
          = wordAdd (tget 0 s.cnt.words (cPart (13 + j.status))) 1 := by
  unfold completeJob
  extract_lets s₁ _ s₂ s₃
  have wrote : Touches [.system, .rings, .sessions, .counters, .out] s s₁ := .foldl (fun _ _ => dmaWrite_touches ..) .refl
  have kept : KeepsCounts s s₂ :=
    .after .update (.foldl (fun _ _ => dmaWrite_keepsCounts ..) .refl)
  have counted := completeCount_touches (count s₂ (cPart (13 + j.status)) 1) (txRing j.ring) j.count j.words
  have rest : Touches [.system, .rings, .arbiters, .sessions, .counters, .out] s₂ (endGrant s₃ arbDma) :=
    .trans (count_touches ..).within (.trans counted.within (endGrant_touches ..).within)
  refine ⟨?_, ?_⟩
  · have same : s₂.cipher.jobs = ldel (fun x => x.ring == j.ring) s.cipher.jobs :=
      congrArg (fun c : Cipher => ldel (fun x => x.ring == j.ring) c.jobs) (wrote.rest .cipher rfl)
    exact (congrArg Cipher.jobs (rest.rest .cipher rfl)).trans same
  · have events : cPart (13 + j.status) ≠ cPart 6 := by unfold cPart; omega
    have notices : cPart (13 + j.status) ≠ cPart 12 := by unfold cPart; omega
    have later : KeepsCounts (count s₂ (cPart (13 + j.status)) 1) (endGrant s₃ arbDma) :=
      (endGrant_touches ..).keepsCounts.after (completeCount_keepsCounts ..)
    rw [later.word _ events notices, count_words _ (by decide), kept.word _ events notices]

/-- Settles O31, by the status of each branch and by what a completed job leaves. -/
theorem lookasideJobsRunAndComplete : Obligations.LookasideJobsRunAndComplete := by
  refine ⟨?_, ?_⟩
  · intro s r d rec aad data tag bad ⟨run, hs⟩ fetched granted job whole record spans fresh
    refine ⟨_, next_row hs (rowLookasideJob r rec aad data tag bad), ?_⟩
    rw [rowLookasideJob, whenRun_running run, fetched]
    dsimp only
    rw [granted, job, Bool.and_self, guardS_true]
    exact lookaside_waits aad data tag bad whole record spans fresh
  · intro s r j ⟨run, hs⟩ waits granted known
    refine ⟨_, next_row hs (rowLookasideJobComplete r), ?_⟩
    obtain rfl : j.ring = r := beq_iff_eq.mp (List.find?_some (p := fun j : Job => j.ring == r) waits)
    rw [rowLookasideJobComplete, whenRun_running run, waits]
    dsimp only
    rw [granted, guardS_true]
    exact completeJob_leaves s j known

end Sys2Proof.Machine

namespace Sys2Proof.Machine

/-! ## Numbers in bytes, and the mask of a stored value -/

theorem natOf_lt (b : Bytes) : natOf b < 256 ^ b.length := by
  induction b with
  | nil => decide
  | cons a b ih =>
    have byte : a.toNat * 256 ^ b.length ≤ 255 * 256 ^ b.length := Nat.mul_le_mul_right _ (by omega)
    rw [natOf, List.length_cons, pow_succ]
    omega

theorem natOf_bytesOf (n v : Nat) : natOf (bytesOf n v) = v % 256 ^ n := by
  induction n with
  | zero => rw [bytesOf, natOf, pow_zero, Nat.mod_one]
  | succ n ih =>
    have top : v >>> (8 * n) = v / 256 ^ n := by rw [Nat.shiftRight_eq_div_pow, Nat.pow_mul]
    rw [bytesOf, natOf, ih, bytesOf_length, BitVec.toNat_ofNat, top, pow_succ 256 n, Nat.mod_mul, Nat.add_comm,
      Nat.mul_comm]

/-- A value that a mask has once taken bits from stays as it is under the mask. -/
theorem keptValue_keptValue (idx sub : Nat) (v : Bytes) :
    keptValue idx sub (keptValue idx sub v) = keptValue idx sub v := by
  unfold keptValue
  cases findMask idx sub keepMasks with
  | none => rfl
  | some m =>
    have fits : natOf v &&& m < 256 ^ v.length := lt_of_le_of_lt Nat.and_le_left (natOf_lt v)
    simp only [bytesOf_length, natOf_bytesOf, Nat.mod_eq_of_lt fits, Nat.and_assoc, Nat.and_self]

/-! ## Ring rows (O37) -/

theorem Touches.fnAt {P : List Part} {s t : State} (h : Touches P s t) (f : Nat)
    (hP : among P .rings = false := by rfl) : fnAt t f = fnAt s f := by
  obtain ⟨-, same⟩ := h.rest .rings hP
  rw [Machine.fnAt, same, Machine.fnAt]

theorem keptRow_ring (sub row : Nat) (v : Bytes) : keptRow 0x8100 sub row v = keptValue 0x8100 sub v := by
  rw [keptRow, if_neg (by decide), if_neg (by simp)]

theorem splice_ne_nil {b src : Bytes} (off : Nat) (h : b ≠ []) : splice b off src ≠ [] := by
  have size := List.length_pos_of_ne_nil h
  refine List.ne_nil_of_length_pos ?_
  simp only [splice, List.length_take, List.length_append, List.length_drop]
  omega

theorem storedRow_putRingRow (s : State) (r : Nat) (w : Bytes) :
    storedRow (putRingRow s r w) r = keptValue 0x8100 (ringPlace r).1 w :=
  (stored_setRw ..).trans (keptRow_ring ..)

theorem ringWrite_starts {s : State} {r : Nat} {w x : Bytes} (written : w ≠ [])
    (hx : x = keptValue 0x8100 (ringPlace r).1 w) (off : rowEnable (storedRow s r) = false) (on : rowEnable x = true)
    (fits : ringRowOk s r x = true) :
    ringWrite r w s = some (modRing (putRingRow s r x) r (ringOn (storedRow s r) x)) := by
  rw [ringWrite, if_neg written]
  dsimp only
  rw [keptRow_ring, ← hx, fits, on, off]
  rfl

theorem ringWrite_stops {s : State} {r : Nat} {w x : Bytes} (written : w ≠ [])
    (hx : x = keptValue 0x8100 (ringPlace r).1 w) (on : rowEnable (storedRow s r) = true) (off : rowEnable x = false)
    (fits : ringRowOk s r x = true) :
    ringWrite r w s = some (modRing (putRingRow s r x) r (ringOff (inGrant s r) (storedRow s r))) := by
  rw [ringWrite, if_neg written]
  dsimp only
  rw [keptRow_ring, ← hx, fits, on, off]
  rfl

theorem ringOn_state (old row : Bytes) (x : Ring) :
    (ringOn old row x).state = if x.state = 3 then 3 else if ringIdle x then 1 else x.state := by
  unfold ringOn freshRing
  split
  · assumption
  · split <;> rfl

theorem ringOn_fresh {x : Ring} (old row : Bytes) (free : x.state ≠ 3) (idle : ringIdle x = true) :
    ringOn old row x = freshRing row := by
  rw [ringOn, if_neg free, idle, if_pos rfl]

theorem ringOff_desc (held : Bool) (old : Bytes) (x : Ring) :
    (ringOff held old x).desc = if held then x.desc else none := by
  unfold ringOff
  dsimp only
  generalize (if held = true then x.desc else none) = d
  split
  · rfl
  · split <;> rfl

/-- A ring that stops holds a descriptor only under the descriptor's grant. -/
theorem ringOff_state (held : Bool) (old : Bytes) (x : Ring) (fetched : held = true → x.desc.isSome = true) :
    (ringOff held old x).state
      = if x.state = 3 then 3 else if x.begun = [] ∧ held = false ∧ x.part = none then 0 else 2 := by
  have idle : ringIdle { x with desc := if held then x.desc else none, row := some (x.row.getD old) } = true
      ↔ x.begun = [] ∧ held = false ∧ x.part = none := by
    cases held with
    | true => simp [ringIdle, Option.isSome_iff_ne_none.mp (fetched rfl)]
    | false => simp [ringIdle]
  unfold ringOff
  dsimp only
  generalize (if held = true then x.desc else none) = d at idle ⊢
  split
  · assumption
  · split
    next h => exact (if_pos (idle.mp h)).symm
    next h => exact (if_neg (h ∘ idle.mpr)).symm

theorem ringRests_state (row : Bytes) (x : Ring) :
    (ringRests row x).state = (if rowEnable row then 1 else 0) ∧ (ringRests row x).row = none := by
  unfold ringRests freshRing
  split <;> exact ⟨rfl, rfl⟩

theorem inGrant_fetched {s : State} {r : Nat} (h : inGrant s r = true) : (ringAt s r).desc.isSome = true := by
  rw [inGrant, Bool.and_eq_true] at h
  exact h.1

/-- A write that enables a disabled ring, whatever the sessions are. -/
theorem ringWrite_enables {s : State} {r : Nat} {w : Bytes} (written : w ≠ [])
    (off : rowEnable (storedRow s r) = false) (on : rowEnable (keptValue 0x8100 (ringPlace r).1 w) = true)
    (fits : ringRowOk s r (keptValue 0x8100 (ringPlace r).1 w) = true) :
    ∃ u, ringWrite r w s = some u ∧ storedRow u r = keptValue 0x8100 (ringPlace r).1 w ∧
      ∃ old row, ringAt u r = ringOn old row (ringAt s r) := by
  refine ⟨_, ringWrite_starts written rfl off on fits, ?_, _, _, ringAt_modRing ..⟩
  exact (storedRow_putRingRow ..).trans (keptValue_keptValue ..)

theorem ringRowWrite_disables {s : State} {r : Nat} {w : Bytes} (written : w ≠ [])
    (on : rowEnable (storedRow s r) = true) (off : rowEnable (keptValue 0x8100 (ringPlace r).1 w) = false)
    (fits : ringRowOk s r (keptValue 0x8100 (ringPlace r).1 w) = true) :
    ∃ u, ringRowWrite r w s = some u ∧ ∃ old, ringAt u r = ringOff (inGrant s r) old (ringAt s r) := by
  refine ⟨_, congrArg (Option.map _) (ringWrite_stops written rfl on off fits), storedRow s r, ?_⟩
  exact ((dropUnfetched_touches ..).ringAt r).trans (ringAt_modRing ..)

theorem freezeFn_freezes {s : State} {f : Nat} (cause detail : Nat) (free : (fnAt s f).frozen = false) :
    (fnAt (freezeFn s f cause detail) f).frozen = true ∧ (fnAt (freezeFn s f cause detail) f).fault / 2 ^ 56 = cause := by
  unfold freezeFn
  rw [if_neg (by simp [free])]
  dsimp only
  have same := (freezeMaster_touches (modFn s f fun x =>
    { x with frozen := true, fault := cause * 2 ^ 56 + detail % 2 ^ 24 * 2 ^ 32 + s.rm.tick % 2 ^ 32 }) 2 0xFF f).fnAt f
  rw [same, fnAt_modFn]
  refine ⟨rfl, ?_⟩
  have low := Nat.mod_lt s.rm.tick (show 0 < 2 ^ 32 by decide)
  have high := Nat.mod_lt detail (show 0 < 2 ^ 24 by decide)
  dsimp only
  omega

/-- Settles O37, by what a ring becomes when its row starts it, stops it or lets it rest. -/
theorem ringsFunctionsAndLink : Obligations.RingsFunctionsAndLink := by
  refine ⟨?_, ?_, ?_, ?_, ?_, ?_⟩
  · intro s src r w whole may off on
    obtain ⟨enabled, fits⟩ := on _ rfl
    obtain ⟨m, wrote⟩ := may.writes (ringWrite r (putNat w 8 8 (setBit (rowWord w 1) 63 true)))
    refine ⟨_, next_row may.1.2 (rowRingEnable src r w), ?_⟩
    have written : w ≠ [] := List.ne_nil_of_length_pos (by omega)
    obtain ⟨u, hu, row, old, new, ring⟩ :=
      ringWrite_enables (s := { s with mabin := m }) (splice_ne_nil 8 written) off enabled fits
    have counted := wrote u hu
    have now : ringAt (rowRingEnable src r w s) r = ringOn old new (ringAt s r) := (counted.ringAt r).trans ring
    have kept : storedRow (rowRingEnable src r w s) r = storedRow u r := counted.stored ..
    refine ⟨kept.trans row, ?_, fun free idle => ?_⟩
    · rw [now, ringOn_state]
    · have fresh := now.trans (ringOn_fresh old new free idle)
      rw [ringRow, fresh]
      exact ⟨rfl, rfl, rfl⟩
  · intro s src r w hw may on off
    subst hw
    obtain ⟨disabled, fits⟩ := off _ rfl
    obtain ⟨m, wrote⟩ := may.writes (ringRowWrite r (putNat (slice (storedRow s r) 0 32) 8 8
      (setBit (rowWord (slice (storedRow s r) 0 32) 1) 63 false)))
    refine ⟨_, next_row may.1.2 (rowRingDisable src r), ?_⟩
    have written : slice (storedRow s r) 0 32 ≠ [] := List.ne_nil_of_length_pos (by simp [slice])
    obtain ⟨u, hu, old, ring⟩ :=
      ringRowWrite_disables (s := { s with mabin := m }) (splice_ne_nil 8 written) on disabled fits
    have now : ringAt (rowRingDisable src r s) r = ringOff (inGrant s r) old (ringAt s r) :=
      ((wrote u hu).ringAt r).trans ring
    rw [now, ringOff_desc, ringOff_state _ _ _ inGrant_fetched]
    exact ⟨rfl, if_congr Iff.rfl rfl (if_congr (by simp) rfl rfl)⟩
  · intro s r ⟨run, hs⟩ stopping idle
    refine ⟨_, next_row hs (rowRingStopped r), ?_⟩
    rw [rowRingStopped, whenRun_running run, stopDone, stopping, idle, if_pos (by decide)]
    obtain ⟨state, row⟩ := ringRests_state (storedRow s r) (ringAt s r)
    rw [ringRow, ringAt_modRing, state, row]
    exact ⟨rfl, rfl⟩
  · intro s f r ⟨run, hs⟩ small free
    refine ⟨_, next_row hs (rowDmaReadError f r), ?_⟩
    rw [rowDmaReadError, whenRun_running run]
    have counted := count_touches s (cFn f 6) 1
    obtain ⟨frozen, fault⟩ := freezeFn_freezes (s := count s (cFn f 6) 1) 3 r (by rw [counted.fnAt, free])
    refine ⟨frozen, fault, ?_⟩
    rw [(freezeFn_keepsCounts ..).word _ (by unfold cFn cPart; omega) (by unfold cFn cPart; omega),
      count_words _ (by decide)]
  · intro s v w ⟨run, hs⟩ hv hw
    refine ⟨_, next_row hs (rowPcieLinkTrained v w), ?_⟩
    rw [rowPcieLinkTrained, whenRun_running run, Nat.mod_eq_of_lt hv, Nat.mod_eq_of_lt hw]
  · intro s n ⟨run, hs⟩ few
    refine ⟨_, next_row hs (rowSriovVfEnable n), ?_⟩
    rw [rowSriovVfEnable, whenRun_running run, if_pos few]

end Sys2Proof.Machine

namespace Sys2Proof.Machine

/-! ## Rings under what leaves them -/

namespace Touches

variable {P : List Part} {s t : State} (h : Touches P s t) (r : Nat)
  (objects : among P .objects = false := by rfl) (rings : among P .rings = false := by rfl)

include h objects rings

theorem ringRow : ringRow t r = ringRow s r := by
  rw [Machine.ringRow, h.ringAt r rings, Machine.storedRow, h.stored _ _ _ objects, Machine.ringRow,
    Machine.storedRow]

theorem ringOwner : ringOwner t r = ringOwner s r := by
  rw [Machine.ringOwner, h.ringRow r objects rings, Machine.ringOwner]

theorem descBad (d : List Nat) : descBad t r d = descBad s r d := by
  obtain ⟨objs, held, -⟩ := h.rest .objects objects
  have marked : isLaRing t (txRing r) = isLaRing s (txRing r) := by
    rw [isLaRing, rwBytes, rwRow, held, h.stored _ _ _ objects, isLaRing, rwBytes, rwRow]
  rw [Machine.descBad, marked, h.ringAt _ rings, Machine.descBad]

end Touches

/-! ## The descriptors that write-backs leave (R522, R531) -/

/-- From s to t every ring holds the descriptor that it held. -/
structure KeepsDescs (s t : State) : Prop where
  desc : ∀ r, (ringAt t r).desc = (ringAt s r).desc

namespace KeepsDescs

variable {s t u : State}

theorem refl : KeepsDescs s s := ⟨fun _ => rfl⟩

theorem trans (h : KeepsDescs s t) (k : KeepsDescs t u) : KeepsDescs s u := ⟨fun r => (k.desc r).trans (h.desc r)⟩

theorem ite {c : Prop} [Decidable c] (h : KeepsDescs s t) (k : KeepsDescs s u) :
    KeepsDescs s (if c then t else u) := by
  split
  · exact h
  · exact k

end KeepsDescs

theorem Touches.keepsDescs {P : List Part} {s t : State} (h : Touches P s t) (hP : among P .rings = false := by rfl) :
    KeepsDescs s t :=
  ⟨fun r => congrArg Ring.desc (h.ringAt r hP)⟩

theorem modRing_keepsDescs (s : State) (r : Nat) {f : Ring → Ring} (kept : ∀ x, (f x).desc = x.desc) :
    KeepsDescs s (modRing s r f) where
  desc k := by
    by_cases h : k = r
    · rw [h, ringAt_modRing, kept]
    · rw [ringAt_modRing_ne s f h]

theorem modFn_keepsDescs (s : State) (n : Nat) (f : Fn → Fn) : KeepsDescs s (modFn s n f) := ⟨fun _ => rfl⟩

theorem freezeFn_keepsDescs (s : State) (f cause detail : Nat) : KeepsDescs s (freezeFn s f cause detail) :=
  .ite .refl ((modFn_keepsDescs ..).trans (freezeMaster_touches ..).keepsDescs)

theorem dmaWrite_keepsDescs (s : State) (r addr : Nat) (b : Bytes) : KeepsDescs s (dmaWrite s r addr b) :=
  .ite (.trans (emit_touches ..).keepsDescs (filtered_touches ..).keepsDescs) (freezeFn_keepsDescs ..)

theorem notSignalled_keepsDescs (s : State) (r : Nat) : KeepsDescs s (notSignalled s r) :=
  .trans (modRing_keepsDescs _ _ fun _ => by rfl)
    (.ite (.trans (modRing_keepsDescs _ _ fun _ => by rfl) (emit_touches ..).keepsDescs) .refl)

theorem headWrite_keepsDescs (s : State) (r : Nat) : KeepsDescs s (headWrite s r) :=
  .ite .refl (dmaWrite_keepsDescs ..)

theorem writeBack_keepsDescs (s : State) (r : Nat) (words : List Nat) : KeepsDescs s (writeBack s r words) := by
  unfold writeBack
  extract_lets c n ws w0 a s₁ s₂ s₃
  have body : KeepsDescs s s₃ :=
    ((dmaWrite_keepsDescs ..).trans (dmaWrite_keepsDescs ..)).trans (modRing_keepsDescs _ _ fun _ => by rfl)
  exact body.trans ((headWrite_keepsDescs ..).trans (notSignalled_keepsDescs ..))

theorem drainBegun_keepsDescs (r n : Nat) (s : State) : KeepsDescs s (drainBegun r n s) := by
  induction n generalizing s with
  | zero => exact .refl
  | succ n ih =>
    unfold drainBegun
    split
    · exact .trans (modRing_keepsDescs _ _ fun _ => by rfl) ((writeBack_keepsDescs ..).trans (ih _))
    · exact .refl

theorem completeCount_keepsDescs (s : State) (r c : Nat) (words : List Nat) :
    KeepsDescs s (completeCount s r c words) :=
  .trans (modRing_keepsDescs _ _ fun _ => by rfl) (drainBegun_keepsDescs ..)

/-! ## Descriptors, frames and completions (O36) -/

theorem dmaRead_inside {s : State} {r addr len : Nat} (h : inWindow s (ringOwner s r) addr len = true) :
    dmaRead s r addr len = some (filtered s 6 0 [(2, ringOwner s r), (3, r)] addr none len) := by
  rw [dmaRead]
  exact if_pos h

theorem endGrant_holder (s : State) (a : Nat) : (arbAt (endGrant s a) a).holder = none := by
  rw [endGrant, arbAt_modArb]

/-- A well formed descriptor inside the owner's windows is held (R529). -/
theorem txFetch_holds {s : State} {r : Nat} {ws : List Nat}
    (inside_ : inWindow s (ringOwner s (txRing r)) (elemAddr s (txRing r) (nextCount s (txRing r)))
      (elemBytes s (txRing r)) = true)
    (fine : descBad s r (descWords s (txRing r) ws) = false) :
    (ringAt (txFetch s r ws) (txRing r)).desc = some (descWords s (txRing r) ws) := by
  have same : ∀ t, Touches [.counters] s t → descWords t (txRing r) ws = descWords s (txRing r) ws := fun t h => by
    obtain ⟨beat, -⟩ := h.rest .clock rfl
    rw [descWords, h.ringAt, beat, descWords]
  unfold txFetch
  dsimp only
  rw [dmaRead_inside inside_]
  dsimp only
  have read := filtered_touches s 6 0 [(2, ringOwner s (txRing r)), (3, txRing r)]
    (elemAddr s (txRing r) (nextCount s (txRing r))) none (elemBytes s (txRing r))
  generalize filtered s 6 0 [(2, ringOwner s (txRing r)), (3, txRing r)]
    (elemAddr s (txRing r) (nextCount s (txRing r))) none (elemBytes s (txRing r)) = s₁ at read ⊢
  have counted : Touches [.counters] s (count s₁ (cFn (ringOwner s₁ (txRing r)) 5) 1) := read.trans (count_touches ..)
  rw [same s₁ read, counted.descBad, fine, if_neg (by decide)]
  split
  · exact congrArg Ring.desc (((endGrant_touches ..).ringAt _).trans (ringAt_modRing ..))
  · exact congrArg Ring.desc (ringAt_modRing ..)

/-- A frame that arrives counts nothing of a function. -/
theorem arrive_fnWords (s : State) (a : Arrival) {m : Nat} (node : a.node < 134) (from_ : 8456 ≤ m)
    (below : m < 8968) : tget 0 (arrive s a).cnt.words m = tget 0 s.cnt.words m := by
  have apart : ∀ o, o < 32 → m ≠ cPort a.node o := fun o ho => by unfold cPort; omega
  unfold arrive
  dsimp only
  split
  · rfl
  split
  · exact count_words_ne _ _ (apart _ (by decide))
  split
  · exact count_words_ne _ _ (apart _ (by decide))
  split
  · have events : m ≠ cPart 6 := by unfold cPart; omega
    have notices : m ≠ cPart 12 := by unfold cPart; omega
    unfold headroomOverflow
    dsimp only
    split
    · exact ((freezeMaster_keepsCounts ..).word m events notices).trans (count_words_ne _ _ (apart _ (by decide)))
    · exact ((freezeMaster_keepsCounts ..).word m events notices).trans (count_words_ne _ _ (apart _ (by decide)))
  next taken =>
    have kept := ((takeCells_touches ..).get taken).rest .counters rfl
    exact congrArg (fun c : Counters => tget 0 c.words m) kept

theorem ringRow_modRing (s : State) (r k : Nat) {f : Ring → Ring} (kept : ∀ x, (f x).row = x.row) :
    ringRow (modRing s r f) k = ringRow s k := by
  have row : (ringAt (modRing s r f) k).row = (ringAt s k).row := by
    by_cases h : k = r
    · rw [h, ringAt_modRing, kept]
    · rw [ringAt_modRing_ne s f h]
  rw [ringRow, row]
  rfl

theorem ringOwner_modRing (s : State) (r k : Nat) {f : Ring → Ring} (kept : ∀ x, (f x).row = x.row) :
    ringOwner (modRing s r f) k = ringOwner s k := by
  rw [ringOwner, ringRow_modRing s r k kept, ringOwner]

theorem ringOwner_packet_lt {s : State} {r : Nat} (h : r < 8192) : ringOwner s r < 64 := by
  rw [ringOwner, if_pos h]
  exact Nat.mod_lt _ (by decide)

/-- A frame enters with its descriptor taken and counted, whatever its node does with it (R531, R532). -/
theorem enterFrame_counts (s : State) {r : Nat} (d : List Nat) (b : Bytes) (packet : r < 4096) :
    (ringAt (enterFrame s r d b) (txRing r)).desc = none ∧
      tget 0 (enterFrame s r d b).cnt.words (cFn (ringOwner s (txRing r)) 2)
        = wordAdd (tget 0 s.cnt.words (cFn (ringOwner s (txRing r)) 2)) 1 := by
  have small : ringOwner s (txRing r) < 64 := ringOwner_packet_lt (by unfold txRing; omega)
  unfold enterFrame
  extract_lets ring n c body frame info s₁ f s₂ id s₃
  have owner : f = ringOwner s (txRing r) := ringOwner_modRing _ _ _ fun _ => by rfl
  have desc₃ : (ringAt s₃ (txRing r)).desc = none := by
    have arrived : Touches [.system, .packets, .ports, .buffer, .sessions, .counters, .out] s₁ s₃ :=
      .trans ((count_touches ..).trans (count_touches ..)).within (arrive_touches ..)
    rw [arrived.ringAt]
    exact congrArg Ring.desc (ringAt_modRing ..)
  have words₃ : tget 0 s₃.cnt.words (cFn f 2) = wordAdd (tget 0 s.cnt.words (cFn f 2)) 1 := by
    have node : n < 134 := by omega
    have few : f < 64 := owner ▸ small
    rw [arrive_fnWords s₂ _ node (by unfold cFn; omega) (by unfold cFn; omega),
      count_words_ne _ _ (by unfold cFn; omega), count_words _ (by decide)]
    rfl
  rw [← owner]
  split
  · exact ⟨desc₃, words₃⟩
  · have finish := completeCount_keepsDescs s₃ ring c (txWords (if info.ts then 2 else 0) 0 0 false info.cookie)
    have counts := completeCount_keepsCounts s₃ ring c (txWords (if info.ts then 2 else 0) 0 0 false info.cookie)
    refine ⟨?_, ?_⟩
    · exact ((endGrant_touches ..).keepsDescs.desc _).trans ((finish.desc _).trans desc₃)
    · have late := (counts.trans (endGrant_touches _ arbDma).keepsCounts).word (cFn f 2) (by unfold cFn cPart; omega)
        (by unfold cFn cPart; omega)
      exact late.trans words₃

theorem txEnter_counts {s : State} {r : Nat} {d : List Nat} (b : Bytes) (packet : r < 4096)
    (inside_ : inWindow s (ringOwner s (txRing r)) (d.getD 0 0) (descBytes d) = true) :
    (ringAt (txEnter s r d b) (txRing r)).desc = none ∧
      tget 0 (txEnter s r d b).cnt.words (cFn (ringOwner s (txRing r)) 2)
        = wordAdd (tget 0 s.cnt.words (cFn (ringOwner s (txRing r)) 2)) 1 := by
  have read := filtered_touches s 6 0 [(2, ringOwner s (txRing r)), (3, txRing r)] (d.getD 0 0) none (descBytes d)
  have entered := enterFrame_counts (filtered s 6 0 [(2, ringOwner s (txRing r)), (3, txRing r)] (d.getD 0 0) none
    (descBytes d)) d b packet
  rw [read.ringOwner] at entered
  unfold txEnter
  dsimp only
  rw [dmaRead_inside inside_]
  exact entered

theorem writeBuf_keepsCounts (r : Nat) (words : List Nat) (first last : Bool) (b : Nat × Bytes) (s : State) :
    KeepsCounts s (writeBuf r words first last b s) :=
  (writeBack_keepsCounts ..).after (dmaWrite_keepsCounts ..)

/-- A delivery has a buffer, and counts nothing of the ports' words. -/
theorem of_rxDeliver {s u : State} {r : Nat} {item : RxItem} {words : List Nat} {body : Bytes}
    {ds : List (Nat × Nat)} {e : RxEnd} (h : rxDeliver s r item words body ds = some (u, e)) :
    (ds.take (posted s r)).isEmpty = false ∧
      ∀ m, m < 8456 → tget 0 u.cnt.words m = tget 0 s.cnt.words m := by
  -- The kernel compares rxDeliver with its body as functions: applied, it would count out how many are posted.
  suffices inv : ∀ f, f = @rxDeliver → f s r item words body ds = some (u, e) →
      (ds.take (posted s r)).isEmpty = false ∧
        ∀ m, m < 8456 → tget 0 u.cnt.words m = tget 0 s.cnt.words m from inv _ rfl h
  clear h
  intro f hf h
  delta rxDeliver at hf
  subst hf
  beta_reduce at h
  generalize posted s r = n at h ⊢
  have put (t : State) (f : Ring → Ring) : KeepsCounts t (modRing t r f) := (modRing_touches ..).keepsCounts
  split at h
  case h_2 => cases h
  next first left =>
  refine ⟨?_, fun m port => ?_⟩
  · cases buffers : ds.take n with
    | nil => rw [buffers] at first; cases first
    | cons => rfl
  have events : m ≠ cPart 6 := by unfold cPart; omega
  have notices : m ≠ cPart 12 := by unfold cPart; omega
  have apart : ∀ f o, m ≠ cFn f o := fun f o => by unfold cFn; omega
  extract_lets f b rest p s₁ at h
  have wrote : KeepsCounts s s₁ := writeBuf_keepsCounts ..
  split at h
  · cases h
    exact ((put _ _).trans (freezeFn_keepsCounts ..)).word m events notices
  split at h
  · cases h
    rw [count_words_ne _ _ (apart _ _), count_words_ne _ _ (apart _ _)]
    exact (wrote.trans (put _ _)).word m events notices
  · cases h
    exact (wrote.trans (put _ _)).word m events notices

theorem leaveHost_counts (s : State) (k : Pkt) (r : Nat) :
    tget 0 (leaveHost s k r).cnt.words (cPort (130 + r / 1024) 14)
      = wordAdd (tget 0 s.cnt.words (cPort (130 + r / 1024) 14)) 1 := by
  unfold leaveHost
  extract_lets n len s₁ s₂
  have kept := (freePkt_touches (filtered s₂ 11 0 [(1, n)] 0 (some (k.out.qid % 8)) len) k).rest .counters rfl
  rw [kept]
  have same : tget 0 s₁.cnt.words (cPort n 14) = wordAdd (tget 0 s.cnt.words (cPort n 14)) 1 := by
    rw [count_words_ne _ _ (by unfold cPort; omega), count_words _ (by decide)]
  exact same

/-- A delivery that ends with a ring's buffer lets the frame leave, counted at its node (R522, R532). -/
theorem rxFrame_delivers {s u : State} {r : Nat} {k : Pkt} {ds : List (Nat × Nat)}
    (whole : rxDeliver s r (.frame k.id) (rxWords k (if k.dec.kind = 4 then k.dec.reason else 0) k.out.sent.length)
      (k.out.sent.take (k.out.sent.length - 4)) ds = some (u, .whole)) :
    rxFrame s r k ds [] = endGrant (leaveHost u k r) arbDma := by
  -- As for rxDeliver: the kernel compares the functions.
  suffices h : ∀ f, f = @rxFrame → f s r k ds [] = endGrant (leaveHost u k r) arbDma from h _ rfl
  intro f hf
  delta rxFrame at hf
  subst hf
  beta_reduce
  extract_lets -underBinder words body
  split
  next refused => cases whole.symm.trans refused
  next t mark delivered =>
    obtain ⟨rfl, rfl⟩ := Prod.mk.inj (Option.some.inj (whole.symm.trans delivered))
    rfl

theorem posted_congr {s t : State} {r : Nat} (h : ringAt t r = ringAt s r) : posted t r = posted s r := by
  rw [posted, posted, h]

/-- A ring that delivers nothing begins the frame that its node chooses (R519, R522). -/
theorem rxWriteback_begins {s : State} {r : Nat} {ds : List (Nat × Nat)} {kid : Kid} {k : Pkt}
    (granted : holds s arbDma r = true) (free : (ringAt s r).part = none)
    (chosen : choosePort s (130 + r / 1024) (ringQueues s r) = some kid) (head : headOf s kid.queue = some k)
    (buffers : (ds.take (posted s r)).isEmpty = false) :
    rxWriteback s r ds [] = rxFrame (startHost s kid k r) r k ds [] := by
  -- As for rxDeliver: the kernel compares the functions.
  suffices h : ∀ f, f = @rxWriteback → f s r ds [] = rxFrame (startHost s kid k r) r k ds [] from h _ rfl
  intro f hf
  delta rxWriteback at hf
  subst hf
  beta_reduce
  rw [granted, if_neg (by decide), free]
  dsimp only
  rw [chosen]
  dsimp only
  rw [head]
  dsimp only
  rw [buffers, if_neg (by decide)]

/-- Settles O36, by what each row leaves of its descriptor, its grant, its completion or its interrupt. -/
theorem descriptorsAndCompletionsMove : Obligations.DescriptorsAndCompletionsMove := by
  refine ⟨?_, ?_, ?_, ?_, ?_⟩
  · intro s r ws ⟨run, hs⟩ packet granted live running waits inside_ fine
    refine ⟨_, next_row hs (rowTxDescriptorFetch r ws), ?_⟩
    rw [rowTxDescriptorFetch, whenRun_running run, granted, live, running, waits, decide_eq_true packet]
    exact txFetch_holds inside_ fine
  · intro s r d b ⟨run, hs⟩ packet fetched granted frame on free accepts live inside_
    refine ⟨_, next_row hs (rowTxFrameEnter r b), ?_⟩
    rw [rowTxFrameEnter, whenRun_running run]
    dsimp only
    rw [fetched]
    dsimp only
    rw [granted, frame, on, free, accepts, live]
    exact txEnter_counts b packet inside_
  · intro s u r ds kid k ⟨run, hs⟩ packet live chosen head opened granted none_ whole
    refine ⟨_, next_row hs (rowRxWriteback r ds []), ?_⟩
    have started := startHost_touches s kid k r
    have buffers : (ds.take (posted s r)).isEmpty = false := by
      have same : posted (startHost s kid k r) r = posted s r := posted_congr (started.ringAt r)
      exact same ▸ (of_rxDeliver whole).1
    rw [rowRxWriteback, whenRun_running run, decide_eq_true packet, live, Bool.and_self, guardS_true, opened,
      Bool.false_and, if_neg (by decide), rxWriteback_begins granted none_ chosen head buffers, rxFrame_delivers whole]
    refine ⟨endGrant_holder .., ?_⟩
    have ended := (endGrant_touches (leaveHost u k r) arbDma).rest .counters rfl
    have begun := started.rest .counters rfl
    rw [ended, leaveHost_counts, (of_rxDeliver whole).2 _ (by unfold cPort; omega), begun]
  · intro s p c rest ⟨run, hs⟩ waits live room granted
    refine ⟨_, next_row hs (rowCompletionWrite p), ?_⟩
    rw [rowCompletionWrite, whenRun_running run, waits]
    dsimp only
    rw [live, decide_eq_true room, granted, Bool.and_self, Bool.and_self, guardS_true, 
      (endGrant_touches ..).pipeAt, (writeCompletion_touches ..).pipeAt, pipeAt_modPipe]
  · intro s r b ⟨run, hs⟩ since timed due_
    refine ⟨_, next_row hs (rowMsixTimerExpiry r), ?_⟩
    rw [rowMsixTimerExpiry, whenRun_running run]
    dsimp only
    rw [since]
    dsimp only
    rw [due_of_le due_, if_pos (by simp [timed]), signalRing]
    have ring : ringAt (emit (modRing s r fun x => { x with unsignalled := 0, firstUnsig := none })
        (.msix (ringVector s r))) r = _ := ringAt_modRing ..
    rw [ring]
    exact ⟨rfl, rfl, rfl⟩

end Sys2Proof.Machine

namespace Sys2Proof.Machine

/-! ## The event log and the freeze (R614, R618) -/

theorem sys_tellSessions (s : State) (e : Event) : (tellSessions s e).sys = s.sys :=
  (tellSessions_touches ..).rest .system rfl

theorem log_queueEvent (s : State) (e : Event) :
    (queueEvent s e).sys.log = s.sys.log ∧ (queueEvent s e).sys.logSeq = s.sys.logSeq ∧
      (queueEvent s e).sys.run = s.sys.run ∧ (queueEvent s e).sys.capture = s.sys.capture := by
  unfold queueEvent
  split
  · exact ⟨rfl, rfl, rfl, rfl⟩
  · have same : ∀ t : State, (count t (cPart 6) 1).sys = t.sys := fun t => (count_touches ..).rest .system rfl
    rw [same]
    exact ⟨rfl, rfl, rfl, rfl⟩

/-- An event that is logged becomes the newest row (R618). -/
theorem postEvent_logs (s : State) {e : Event} (logged : isLogged e.code = true) :
    (∃ r, (postEvent s e).sys.log = (r :: s.sys.log).take 64 ∧ r.event = e) ∧
      (postEvent s e).sys.logSeq = s.sys.logSeq + 1 ∧ (postEvent s e).sys.run = s.sys.run ∧
      (postEvent s e).sys.capture = s.sys.capture := by
  obtain ⟨log, seq, run, capture⟩ := log_queueEvent (logEvent s e) e
  rw [postEvent, logged, if_pos rfl, sys_tellSessions, log, seq, run, capture]
  exact ⟨⟨_, rfl, rfl⟩, rfl, rfl, rfl⟩

/-- An event that no trigger of a freeze waits for is only posted. -/
theorem raiseEv_unarmed {s : State} {code : Nat} (unarmed : Unarmed s code) (source : Nat) (values : List Nat) :
    raiseEv s code source values
      = postEvent s { code := code, source := source, tick := s.rm.tick, beat := s.beat, values := values } := by
  unfold raiseEv raiseAt
  refine if_neg ?_
  rw [List.any_eq_true]
  rintro ⟨i, small, armed⟩
  refine unarmed i (List.mem_range.mp small) ?_
  rw [← (postEvent_touches ..).stored]
  exact beq_iff_eq.mp armed

theorem captureBytes_begins (s : State) (trigger code : Nat) :
    (captureBytes s trigger code).take 20
      = bytesOf 1 trigger ++ [0] ++ bytesOf 2 code ++ bytesOf 8 s.beat ++ bytesOf 8 s.rm.tick := by
  unfold captureBytes
  have head : (bytesOf 1 trigger ++ [0] ++ bytesOf 2 code ++ bytesOf 8 s.beat ++ bytesOf 8 s.rm.tick).length = 20 := by
    simp
  generalize bytesOf 1 trigger ++ [0] ++ bytesOf 2 code ++ bytesOf 8 s.beat ++ bytesOf 8 s.rm.tick = h at head ⊢
  simp only [List.append_assoc]
  exact List.take_left' head

/-- A freeze of the running part is its newest row, and its capture begins with its trigger (R614, R616). -/
theorem startFreeze_freezes {s : State} (run : s.sys.run = .running) (trigger code : Nat) :
    (startFreeze s trigger code).sys.run = .frozen ∧
      (∃ r, (startFreeze s trigger code).sys.log = (r :: s.sys.log).take 64 ∧
        r.event = { code := evFreeze, source := trigger, tick := s.rm.tick, beat := s.beat, values := [code] }) ∧
      (startFreeze s trigger code).sys.capture.take 20
        = bytesOf 1 trigger ++ [0] ++ bytesOf 2 code ++ bytesOf 8 s.beat ++ bytesOf 8 s.rm.tick := by
  rw [startFreeze, if_pos run]
  extract_lets t
  have posted : Touches _ s t := postEvent_touches ..
  obtain ⟨beat, rm⟩ := posted.rest .clock rfl
  refine ⟨rfl, (postEvent_logs s rfl).1, ?_⟩
  rw [← beat, ← rm]
  exact captureBytes_begins t trigger code

theorem startFreeze_stopped {s : State} (stopped : s.sys.run ≠ .running) (trigger code : Nat) :
    startFreeze s trigger code = s := if_neg stopped

end Sys2Proof.Machine

namespace Sys2Proof.Machine

/-! ## Commands that a part that does not run ignores (R602, R606, R614) -/

section

variable {s t : State} (stopped : s.sys.run ≠ .running) (same : t = s)

include stopped same

theorem whenRun_sleeps (f : State → State) :
    (.next (whenRun t f) : Host.Outcome State Fault Refusal) = .next s := by
  rw [same, whenRun_stopped stopped]

theorem writeCmd_sleeps (src : Origin) (idx sub row : Nat) (v : Bytes) (eff : State → Option State) :
    (.next (writeCmd t src idx sub row v eff) : Host.Outcome State Fault Refusal) = .next s :=
  whenRun_sleeps stopped same _

theorem resetWrite_sleeps (src : Origin) (cls num : Nat) :
    (.next (resetWrite src cls num t) : Host.Outcome State Fault Refusal) = .next s :=
  writeCmd_sleeps stopped same ..

theorem releaseWrite_sleeps (src : Origin) (type cls num : Nat) :
    (.next (releaseWrite src type cls num t) : Host.Outcome State Fault Refusal) = .next s :=
  writeCmd_sleeps stopped same ..

theorem localWrite_sleeps (w : Nat) : (.next (localWrite w t) : Host.Outcome State Fault Refusal) = .next s :=
  writeCmd_sleeps stopped same ..

theorem mabinRow_sleeps (c : Bool) (path : MabinPath) (m : Bytes) :
    (.next (mabinRow c path m t) : Host.Outcome State Fault Refusal) = .next s :=
  whenRun_sleeps stopped same _

theorem rowRingEnable_sleeps (src : Origin) (r : Nat) (w : Bytes) :
    (.next (rowRingEnable src r w t) : Host.Outcome State Fault Refusal) = .next s := by
  unfold rowRingEnable
  dsimp only
  exact writeCmd_sleeps stopped same ..

theorem rowRingDisable_sleeps (src : Origin) (r : Nat) :
    (.next (rowRingDisable src r t) : Host.Outcome State Fault Refusal) = .next s := by
  unfold rowRingDisable
  dsimp only
  exact writeCmd_sleeps stopped same ..

end

/-- The commands of pins, monitors, the boot and I2C, which also act on a part that does not run. -/
def worksStopped : Instr → Bool
  | .porNAssert .. | .resetNAssert | .boot .. | .resetBootImageWrite .. | .supplyWarn .. | .supplyDip .. | .supplyOk |
    .supplyReset .. | .supplyResetRelease | .freeze | .i2cPointerWrite .. | .i2cRead .. => true
  | _ => false

/-- Any other command leaves a part that does not run as it is. -/
theorem exec_stopped {c : Instr} (hc : worksStopped c = false) {s : State} (stopped : s.sys.run ≠ .running) :
    exec c s = .next s := by
  have boundary : pastBoundary s = s := whenRun_stopped stopped _
  have commit : pastCommit s = s := by rw [pastCommit, boundary, whenRun_stopped stopped]
  have soft : pastSoft s = s := by rw [pastSoft, commit, whenRun_stopped stopped]
  have here : settled s = s := settled_of_stopped stopped
  cases c
  case porNAssert | resetNAssert | boot | resetBootImageWrite | supplyWarn | supplyDip | supplyOk | supplyReset
      | supplyResetRelease | freeze | i2cPointerWrite | i2cRead => cases hc
  case softResetDone | tickBoundary => exact whenRun_sleeps stopped rfl _
  case versionCommit => exact whenRun_sleeps stopped boundary _
  case softReset => exact whenRun_sleeps stopped commit _
  case pipeResetStart => exact whenRun_sleeps stopped soft _
  case resetCmdChip | resetCmdSoft | resetCmdPipe | resetCmdPort => exact resetWrite_sleeps stopped here ..
  case releasePort | releaseFunction | releaseRing | releaseSession | releasePoolOwner =>
    exact releaseWrite_sleeps stopped here ..
  case localLock | localUnlock | localCommit => exact localWrite_sleeps stopped here _
  case debugFreeze | flowQuarantineRelease | natRelease | portEnable | portDisable | laneSearchEnter |
      laneSearchSlip | laneSearchExit | lanePowerDeep | lanePowerOff | lanePowerActive | cipherUnitRestore |
      tbEnable | tbDisable | tbStep | tbRateWrite | tbSlew | toutConfigWrite | tinAck | poolOwnerReclaim |
      schedRowWrite | schedClearDebt | versionCancel | legacyWrite | bankModeWrite | engineKeyEnrol |
      engineKeyRevoke | engineClusterFreeze | engineClusterRelease | mabinCredWrite | cipherKeyWrite |
      cntOverflowClear | cntFilterSelect | cntFilterChain | powerPipeOff | powerPipeWake | eventLogAck =>
    exact writeCmd_sleeps stopped here ..
  case mabinHello | mabinHelloRekey | mabinHelloClose | mabinRead | mabinWrite | mabinStage | mabinCommit |
      mabinLock | mabinUnlock | subscribeAddEvents | subscribeAddObject | subscribeRemoveAll | blockRead |
      blockWrite =>
    exact mabinRow_sleeps stopped here ..
  case ringEnable => exact rowRingEnable_sleeps stopped here ..
  case ringDisable => exact rowRingDisable_sleeps stopped here ..
  all_goals exact whenRun_sleeps stopped here _

end Sys2Proof.Machine

namespace Sys2Proof.Machine

/-! ## Supply monitors (R609 to R611) -/

theorem supplyAt_modSupply {s : State} {m : Nat} (f : Supply → Supply) (h : m < s.sys.supplies.length) :
    supplyAt (modSupply s m f) m = f (supplyAt s m) := by
  simp [supplyAt, modSupply, h]

theorem run_supplyFalls (s : State) (m mv dips : Nat) :
    (supplyFalls s m mv dips).sys.run = s.sys.run ∧ (supplyFalls s m mv dips).sys.log = s.sys.log ∧
      (supplyFalls s m mv dips).sys.evq = s.sys.evq ∧ (supplyFalls s m mv dips).sys.capture = s.sys.capture :=
  ⟨rfl, rfl, rfl, rfl⟩

theorem supplyAt_supplyFalls {s : State} {m : Nat} (h : m < s.sys.supplies.length) (mv dips : Nat) :
    supplyAt (supplyFalls s m mv dips) m
      = { state := 1, mv := mv, dipBeat := some s.beat, dips := (supplyAt s m).dips + dips } :=
  supplyAt_modSupply _ h

/-- The supplies, the warning and its last dip are not what an event writes. -/
theorem supplies_of_quiet {y z : Sys} (h : quiet y = quiet z) :
    y.supplies = z.supplies ∧ y.warnSince = z.warnSince ∧ y.dipAt = z.dipAt :=
  have supplies : (quiet y).supplies = (quiet z).supplies := congrArg Sys.supplies h
  have since : (quiet y).warnSince = (quiet z).warnSince := congrArg Sys.warnSince h
  have dip : (quiet y).dipAt = (quiet z).dipAt := congrArg Sys.dipAt h
  ⟨supplies, since, dip⟩

theorem supplyAt_congr {s t : State} (h : t.sys.supplies = s.sys.supplies) (m : Nat) : supplyAt t m = supplyAt s m := by
  rw [supplyAt, h, supplyAt]

/-- A warning of a normal monitor stands from its beat, whether or not the part can tell (R610). -/
theorem rowSupplyWarn_warns {s : State} {m : Nat} (mv : Nat) (three : m < 3) (h : m < s.sys.supplies.length)
    (normal : (supplyAt s m).state = 0) :
    (supplyAt (rowSupplyWarn m mv s) m).state = 1 ∧ (supplyAt (rowSupplyWarn m mv s) m).mv = mv ∧
      (rowSupplyWarn m mv s).sys.warnSince = some (s.sys.warnSince.getD s.beat) ∧
      (rowSupplyWarn m mv s).sys.dipAt = s.beat ∧
      (s.sys.run ≠ .running → (rowSupplyWarn m mv s).sys.run = s.sys.run) := by
  rw [rowSupplyWarn, normal, decide_eq_true three, beq_self_eq_true, Bool.and_self, guardS_true]
  extract_lets s₁ _ s₂
  have fell : supplyAt s₂ m = { state := 1, mv := mv, dipBeat := some s.beat, dips := (supplyAt s m).dips + 0 } :=
    supplyAt_supplyFalls h mv 0
  split
  next run =>
    obtain ⟨supplies, since, dip⟩ := supplies_of_quiet (quiet_raiseEv s₂ evSupplyWarn m (supplyValues s₂ mv))
    rw [supplyAt_congr supplies, since, dip, fell]
    exact ⟨rfl, rfl, rfl, rfl, fun stopped => absurd run stopped⟩
  · rw [fell]
    exact ⟨rfl, rfl, rfl, rfl, fun _ => rfl⟩

theorem rowSupplyDip_dips {s : State} {m : Nat} (mv : Nat) (three : m < 3) (below : (supplyAt s m).state ≠ 0) :
    rowSupplyDip m mv s = supplyFalls s m mv 1 := by
  rw [rowSupplyDip, decide_eq_true three, Bool.true_and]
  exact if_pos (bne_iff_ne.mpr below)

/-- From s to t the supply monitors and the warning are as they were. -/
structure KeepsSupplies (s t : State) : Prop where
  supplies : t.sys.supplies = s.sys.supplies
  since : t.sys.warnSince = s.sys.warnSince

theorem KeepsSupplies.trans {s t u : State} (h : KeepsSupplies s t) (k : KeepsSupplies t u) : KeepsSupplies s u :=
  ⟨k.supplies.trans h.supplies, k.since.trans h.since⟩

theorem raiseEv_keepsSupplies (s : State) (code source : Nat) (values : List Nat) :
    KeepsSupplies s (raiseEv s code source values) :=
  have ⟨supplies, since, _⟩ := supplies_of_quiet (quiet_raiseEv s code source values)
  ⟨supplies, since⟩

theorem useFresh_keepsSupplies (s : State) : KeepsSupplies s (useFresh s) := ⟨rfl, rfl⟩

theorem freshBytes_keepsSupplies (n : Nat) (s : State) : KeepsSupplies s (freshBytes n s).1 := by
  induction n generalizing s with
  | zero => exact ⟨rfl, rfl⟩
  | succ n ih => exact (useFresh_keepsSupplies s).trans (ih (useFresh s))

theorem putFuse_keepsSupplies (s : State) (j : FuseJob) (revoked : Bool) (hash : Bytes) :
    KeepsSupplies s (putFuse s j revoked hash) := ⟨rfl, rfl⟩

theorem burnFuse_keepsSupplies (s : State) (j : FuseJob) : KeepsSupplies s (burnFuse s j) := by
  unfold burnFuse
  split
  · have fresh := freshBytes_keepsSupplies 6 s
    split
    next t b drawn =>
      rw [drawn] at fresh
      exact fresh.trans ((putFuse_keepsSupplies ..).trans (raiseEv_keepsSupplies ..))
  · exact putFuse_keepsSupplies ..

theorem startFuses_keepsSupplies (s : State) : KeepsSupplies s (startFuses s) := by
  unfold startFuses
  split
  · exact ⟨rfl, rfl⟩
  · exact List.foldlRecOn _ burnFuse ⟨rfl, rfl⟩ fun _ h j _ => h.trans (burnFuse_keepsSupplies ..)

/-- The warning's end returns every monitor to normal (R610). -/
theorem supplyOk_ends (s : State) (since : Nat) :
    (supplyOk s since).sys.warnSince = none ∧ ∀ m, (supplyAt (supplyOk s since) m).state = 0 := by
  unfold supplyOk
  extract_lets _ t
  have normal : ∀ m, (supplyAt t m).state = 0 := fun m => by
    rw [supplyAt, List.getD_eq_getElem?_getD, List.getElem?_map]
    cases s.sys.supplies[m]? <;> rfl
  have ends : ∀ u, KeepsSupplies t u → u.sys.warnSince = none ∧ ∀ m, (supplyAt u m).state = 0 := fun u kept =>
    ⟨kept.since, fun m => (congrArg Supply.state (supplyAt_congr kept.supplies m)).trans (normal m)⟩
  split
  · exact ends _ ((raiseEv_keepsSupplies ..).trans (startFuses_keepsSupplies _))
  · exact ends _ ⟨rfl, rfl⟩

/-- A dip below reset is logged, and what the monitors and the log hold goes on into the reset (R611). -/
theorem rowSupplyReset_holds {s : State} {m : Nat} (mv : Nat) (three : m < 3) :
    (rowSupplyReset m mv s).sys.run = .supplyHeld ∧
      (rowSupplyReset m mv s).sys.last = b2n (s.sys.run == .frozen) * 2 ^ 16 + 256 + (5 + m) ∧
      (rowSupplyReset m mv s).beat = 0 ∧ (rowSupplyReset m mv s).objs = [] ∧
      (rowSupplyReset m mv s).sys.fuses = s.sys.fuses ∧ (rowSupplyReset m mv s).sys.capture = s.sys.capture ∧
      (rowSupplyReset m mv s).sys.logSeq = s.sys.logSeq + 1 ∧
      ∃ r, (rowSupplyReset m mv s).sys.log = (r :: s.sys.log).take 64 ∧ r.event.code = evSupplyReset ∧
        r.event.source = m := by
  rw [rowSupplyReset, decide_eq_true three, guardS_true]
  extract_lets u t
  obtain ⟨⟨r, log, event⟩, seq, run, capture⟩ := postEvent_logs u
    (e := { code := evSupplyReset, source := m, tick := u.rm.tick, beat := u.beat, values := supplyValues u mv }) rfl
  have quieted : (quiet t.sys).fuses = (quiet u.sys).fuses := congrArg Sys.fuses (quiet_postEvent ..)
  have fuses : t.sys.fuses = s.sys.fuses := quieted
  have same : t.sys.run = s.sys.run := run
  have last : (chipReset t (5 + m) .supplyHeld).sys.last = b2n (t.sys.run == .frozen) * 2 ^ 16 + 256 + (5 + m) := rfl
  refine ⟨rfl, by rw [last, same], rfl, rfl, fuses, capture, seq, r, log, ?_⟩
  rw [event]
  exact ⟨rfl, rfl⟩

/-! ## Resets, boot and freeze (O1, O2, O6, O48) -/

/-- Settles O1, by what the cleared state of each reset holds. -/
theorem powerAndChipResetsLoseState : Obligations.PowerAndChipResetsLoseState := by
  refine ⟨fun s b => ⟨_, rfl, ?_⟩, fun s free => ⟨_, rfl, ?_⟩, fun s m mv three => ⟨_, rfl, ?_⟩⟩
  · cases b <;> exact ⟨rfl, rfl, rfl, rfl, rfl, rfl, rfl, rfl, rfl, rfl, rfl, rfl, rfl, rfl, rfl⟩
  · have last : (chipReset s 3 .inReset).sys.last = (if s.sys.run = .frozen then 65536 else 0) + 256 + 3 := by
      show b2n (s.sys.run == .frozen) * 2 ^ 16 + 1 * 256 + 3 = _
      cases s.sys.run <;> rfl
    rw [rowResetNAssert, if_neg free]
    exact ⟨rfl, last, rfl, rfl, rfl, rfl, rfl, rfl, rfl, rfl, rfl, rfl, rfl, rfl, rfl, rfl⟩
  · obtain ⟨held, last, beat, objs, fuses, -, seq, log⟩ := rowSupplyReset_holds (s := s) mv three
    refine ⟨held, ?_, beat, objs, fuses, seq, log⟩
    rw [last]
    omega

theorem rowBoot_serves {s : State} (waits : s.sys.run = .inReset) (f : Bytes) (q : Bool) :
    rowBoot 0 (some f) true q true true s
      = bootDone { s with sys := { s.sys with firmware := Config.firmwareVersion f } } := by
  rw [rowBoot, if_pos waits]
  rfl

/-- The last step of the boot logs RESET_DONE with the reset's cause (R606). -/
theorem bootDone_logs {s : State} (unarmed : Unarmed s evResetDone) :
    (bootDone s).sys.run = .running ∧ ∃ r, (bootDone s).sys.log = (r :: s.sys.log).take 64 ∧
      r.event = { code := evResetDone, source := lastClass s.sys.last, tick := s.rm.tick, beat := s.beat,
                  values := [lastCause s.sys.last] } := by
  have done : bootDone s = _ := raiseEv_unarmed
    (s := { s with sys := { s.sys with run := .running, bootStatus := 0, bootImage := [] } }) unarmed ..
  rw [done]
  obtain ⟨log, -, run, -⟩ := postEvent_logs
    { s with sys := { s.sys with run := .running, bootStatus := 0, bootImage := [] } }
    (e := { code := evResetDone, source := lastClass s.sys.last, tick := s.rm.tick, beat := s.beat,
            values := [lastCause s.sys.last] }) rfl
  exact ⟨run, log⟩

/-- Settles O2, by the branch of the boot that each board takes. -/
theorem bootEndsInService : Obligations.BootEndsInService := by
  refine ⟨fun s f q waits unarmed => ⟨_, rfl, ?_⟩, fun s f a b c d waits => ⟨_, rfl, ?_⟩,
    fun s i stopped six => ⟨_, rfl, ?_⟩, fun s held => ⟨_, rfl, ?_⟩⟩
  · obtain ⟨run, r, log, event⟩ := bootDone_logs
      (s := { s with sys := { s.sys with firmware := Config.firmwareVersion f } }) unarmed
    rw [rowBoot_serves waits]
    refine ⟨run, r, log, ?_⟩
    rw [event]
    exact ⟨rfl, rfl, rfl⟩
  · rw [rowBoot, if_pos waits]
    exact ⟨rfl, rfl⟩
  · rw [rowResetBootImageWrite, stopped, six]
    exact ⟨rfl, stopped⟩
  · rw [rowSupplyResetRelease, if_pos held]

/-- Settles O6, by what each row writes of the monitors, the log and the capture. -/
theorem supplyWarningsAndFreezes : Obligations.SupplyWarningsAndFreezes := by
  refine ⟨?_, ?_, ?_, ?_, ?_, ?_⟩
  · intro s m mv hs three h normal
    obtain ⟨state, volts, since, dip, -⟩ := rowSupplyWarn_warns mv three h normal
    exact ⟨_, next_row hs (rowSupplyWarn m mv), state, volts, since, dip⟩
  · intro s m mv hs three h below
    refine ⟨_, next_row hs (rowSupplyDip m mv), ?_⟩
    rw [rowSupplyDip_dips mv three below, supplyAt_supplyFalls h]
    exact ⟨rfl, rfl, rfl, rfl⟩
  · intro s b ⟨run, hs⟩ since late
    refine ⟨_, next_row hs rowSupplyOk, ?_⟩
    rw [rowSupplyOk, since]
    dsimp only
    rw [due_of_le late, Bool.or_true, guardS_true]
    exact ⟨(supplyOk_ends s b).1, fun m _ => (supplyOk_ends s b).2 m⟩
  · intro s ⟨run, hs⟩
    refine ⟨_, next_row hs rowFreeze, ?_⟩
    obtain ⟨frozen, ⟨r, log, event⟩, capture⟩ := startFreeze_freezes run 1 0
    refine ⟨frozen, ⟨r, log, ?_⟩, capture⟩
    rw [event]
    exact ⟨rfl, rfl, rfl⟩
  · intro s src may
    obtain ⟨m, wrote⟩ := may.writes fun s => some (startFreeze s 2 0)
    obtain ⟨frozen, ⟨r, log, event⟩, -⟩ := startFreeze_freezes (s := { s with mabin := m }) may.1.1 2 0
    have sys : (rowDebugFreeze src s).sys = (startFreeze { s with mabin := m } 2 0).sys :=
      (wrote _ rfl).rest .system rfl
    refine ⟨_, next_row may.1.2 (rowDebugFreeze src), ?_⟩
    rw [sys]
    refine ⟨frozen, r, log, ?_⟩
    rw [event]
    exact ⟨rfl, rfl⟩
  · intro s frozen
    have stopped : s.sys.run ≠ .running := by simp [frozen]
    exact (next_row (settled_of_stopped stopped) rowFreeze).trans (congrArg _ (startFreeze_stopped stopped 1 0))

/-! ### The I2C target (R630) -/

/-- The part with another register pointer and other latched fields. -/
def withI2c (s : State) (ptr : Nat) (latch : Tbl Bytes) : State :=
  { s with sys := { s.sys with i2cPtr := ptr, i2cLatch := latch } }

theorem i2cByte_moves (s : State) : ∃ latch, (i2cByte s).1 = withI2c s ((s.sys.i2cPtr + 1) % 256) latch := by
  unfold i2cByte
  dsimp only
  split <;> split <;> exact ⟨_, rfl⟩

theorem i2cBytes_moves (n : Nat) (s : State) :
    ∃ ptr latch, (i2cBytes n s).1 = withI2c s ptr latch ∧ ptr % 256 = (s.sys.i2cPtr + n) % 256 ∧
      (i2cBytes n s).2.length = n := by
  induction n generalizing s with
  | zero => exact ⟨s.sys.i2cPtr, s.sys.i2cLatch, rfl, rfl, rfl⟩
  | succ n ih =>
    obtain ⟨latch₁, first⟩ := i2cByte_moves s
    obtain ⟨ptr, latch, rest, moved, size⟩ := ih (i2cByte s).1
    rw [first] at moved
    refine ⟨ptr, latch, ?_, ?_, congrArg (· + 1) size⟩
    · rw [first] at rest
      exact (congrArg (fun t => (i2cBytes n t).1) first).trans rest
    · change ptr % 256 = ((s.sys.i2cPtr + 1) % 256 + n) % 256 at moved
      omega

theorem rowI2cRead_answers (n : Nat) (s : State) :
    ∃ ptr latch b, rowI2cRead n s = emit (withI2c s ptr latch) (.i2c b) ∧ ptr % 256 = (s.sys.i2cPtr + n) % 256 ∧
      b.length = n := by
  obtain ⟨ptr, latch, moved, at_, size⟩ := i2cBytes_moves n s
  exact ⟨ptr, latch, _, congrArg (emit · _) moved, at_, size⟩

/-! ### A frozen part (R615) -/

/-- From s to t the run state, the log and the capture stay. -/
structure KeepsFreeze (s t : State) : Prop where
  run : t.sys.run = s.sys.run
  log : t.sys.log = s.sys.log
  capture : t.sys.capture = s.sys.capture

theorem rowSupplyWarn_keepsFreeze {s : State} (stopped : s.sys.run ≠ .running) (m mv : Nat) :
    KeepsFreeze s (rowSupplyWarn m mv s) := by
  unfold rowSupplyWarn guardS
  split
  · dsimp only
    split
    next run => exact absurd run stopped
    next => exact ⟨rfl, rfl, rfl⟩
  · exact ⟨rfl, rfl, rfl⟩

theorem rowSupplyDip_keepsFreeze (s : State) (m mv : Nat) : KeepsFreeze s (rowSupplyDip m mv s) := by
  unfold rowSupplyDip guardS
  split <;> exact ⟨rfl, rfl, rfl⟩

theorem rowSupplyOk_keepsFreeze {s : State} (stopped : s.sys.run ≠ .running) : KeepsFreeze s (rowSupplyOk s) := by
  unfold rowSupplyOk guardS supplyOk
  split
  · split
    · dsimp only
      rw [if_neg stopped]
      exact ⟨rfl, rfl, rfl⟩
    · exact ⟨rfl, rfl, rfl⟩
  · exact ⟨rfl, rfl, rfl⟩

/-- Every command but a reset leaves a freeze, its log and its capture as they are (R615). -/
theorem exec_frozen {s : State} (frozen : s.sys.run = .frozen) {c : Instr} (noPor : ∀ b, c ≠ .porNAssert b)
    (noReset : c ≠ .resetNAssert) (noSupply : ∀ m mv, c ≠ .supplyReset m mv) :
    ∃ t, exec c s = .next t ∧ KeepsFreeze s t := by
  have stopped : s.sys.run ≠ .running := by simp [frozen]
  have hs := settled_of_stopped stopped
  have idle : KeepsFreeze s s := ⟨rfl, rfl, rfl⟩
  cases works : worksStopped c with
  | false => exact ⟨s, exec_stopped works stopped, idle⟩
  | true =>
    cases c
    case porNAssert b => exact absurd rfl (noPor b)
    case resetNAssert => exact absurd rfl noReset
    case supplyReset m mv => exact absurd rfl (noSupply m mv)
    case boot =>
      refine ⟨_, rfl, ?_⟩
      rw [rowBoot, frozen]
      exact idle
    case resetBootImageWrite =>
      refine ⟨_, rfl, ?_⟩
      rw [rowResetBootImageWrite, frozen]
      exact idle
    case supplyResetRelease =>
      refine ⟨_, rfl, ?_⟩
      rw [rowSupplyResetRelease, frozen]
      exact idle
    case supplyWarn m mv => exact ⟨_, next_row hs (rowSupplyWarn m mv), rowSupplyWarn_keepsFreeze stopped m mv⟩
    case supplyDip m mv => exact ⟨_, next_row hs (rowSupplyDip m mv), rowSupplyDip_keepsFreeze s m mv⟩
    case supplyOk => exact ⟨_, next_row hs rowSupplyOk, rowSupplyOk_keepsFreeze stopped⟩
    case freeze =>
      refine ⟨_, next_row hs rowFreeze, ?_⟩
      rw [rowFreeze, startFreeze_stopped stopped]
      exact idle
    case i2cPointerWrite r => exact ⟨_, next_row hs (rowI2cPointerWrite r), rfl, rfl, rfl⟩
    case i2cRead n =>
      obtain ⟨ptr, latch, b, answers, -⟩ := rowI2cRead_answers n s
      refine ⟨_, next_row hs (rowI2cRead n), ?_⟩
      rw [answers]
      exact ⟨rfl, rfl, rfl⟩
    all_goals cases works

/-- Settles O48, by the commands that a frozen part heeds and by the three resets that end its freeze. -/
theorem frozenPartWaitsForAReset : Obligations.FrozenPartWaitsForAReset := by
  refine ⟨?_, ?_, ?_, ?_, ?_, ?_⟩
  · intro s m mv frozen three h normal
    have stopped : s.sys.run ≠ .running := by simp [frozen]
    obtain ⟨state, volts, -, -, run⟩ := rowSupplyWarn_warns mv three h normal
    exact ⟨_, next_row (settled_of_stopped stopped) (rowSupplyWarn m mv), (run stopped).trans frozen, state, volts⟩
  · intro s m mv frozen three h below
    have stopped : s.sys.run ≠ .running := by simp [frozen]
    refine ⟨_, next_row (settled_of_stopped stopped) (rowSupplyDip m mv), ?_⟩
    rw [rowSupplyDip_dips mv three below, supplyAt_supplyFalls h]
    exact ⟨frozen, rfl⟩
  · intro s m mv frozen three
    obtain ⟨held, last, -, -, -, capture, -, r, log, -⟩ := rowSupplyReset_holds (s := s) mv three
    refine ⟨_, rfl, held, ?_, capture, r, log⟩
    rw [last, frozen]
    rfl
  · intro s c frozen noPor noReset noSupply
    obtain ⟨t, ht, run, log, capture⟩ := exec_frozen frozen noPor noReset noSupply
    exact ⟨t, ht, run.trans frozen, log, capture⟩
  · intro s frozen
    refine ⟨_, rfl, ?_⟩
    rw [rowResetNAssert, if_neg (by simp [frozen])]
    exact ⟨rfl, rfl, rfl⟩
  · intro s b frozen
    exact ⟨_, rfl, rfl⟩

end Sys2Proof.Machine

namespace Sys2Proof.Machine

/-! ## One bit of a number -/

/-- A bit other than bit n depends only on the bits below n and on those above. -/
theorem testBit_around {n q a r : Nat} (h : Nat) (low : a < 2 ^ n) (one : r < 2) (other : q ≠ n) :
    (2 ^ n * (2 * h + r) + a).testBit q = if q < n then a.testBit q else h.testBit (q - n - 1) := by
  rw [Nat.testBit_two_pow_mul_add _ low]
  split
  · rfl
  · obtain ⟨k, hk⟩ : ∃ k, q - n = k + 1 := ⟨q - n - 1, by omega⟩
    rw [hk, Nat.testBit_succ, Nat.add_sub_cancel]
    congr 1
    omega

theorem eq_around (v n : Nat) : v = 2 ^ n * (2 * (v / 2 ^ n / 2) + v / 2 ^ n % 2) + v % 2 ^ n := by
  rw [Nat.div_add_mod, Nat.div_add_mod]

theorem setBit_eq (v n : Nat) (b : Bool) : setBit v n b = 2 ^ n * (2 * (v / 2 ^ n / 2) + b2n b) + v % 2 ^ n := by
  have around := eq_around v n
  have set_ : v.testBit n = decide (v / 2 ^ n % 2 = 1) := Nat.testBit_eq_decide_div_mod_eq
  generalize v / 2 ^ n / 2 = h at around ⊢
  obtain even | odd := Nat.mod_two_eq_zero_or_one (v / 2 ^ n)
  · rw [even] at around set_
    unfold setBit b2n
    cases b <;> simp [set_, mul_add] at around ⊢ <;> omega
  · rw [odd] at around set_
    unfold setBit b2n
    cases b <;> simp [set_, mul_add] at around ⊢ <;> omega

theorem bit_setBit_ne {n q : Nat} (v : Nat) (b : Bool) (other : q ≠ n) : bit (setBit v n b) q = bit v q := by
  have low : v % 2 ^ n < 2 ^ n := Nat.mod_lt _ (Nat.two_pow_pos n)
  have left := testBit_around (v / 2 ^ n / 2) low (r := b2n b) (by cases b <;> decide) other
  have right := testBit_around (v / 2 ^ n / 2) low (r := v / 2 ^ n % 2) (Nat.mod_lt _ (by decide)) other
  rw [← eq_around] at right
  rw [setBit_eq, bit, bit, left, right]

theorem bit_setBit_false (v n : Nat) : bit (setBit v n false) n = false := by
  rw [setBit_eq, bit, Nat.testBit_two_pow_mul_add _ (Nat.mod_lt _ (Nat.two_pow_pos n)), if_neg (by omega), Nat.sub_self]
  simp [b2n]

theorem setBit_lt {v n k : Nat} (small : v < 2 ^ k) (inside_ : n < k) (b : Bool) : setBit v n b < 2 ^ k := by
  refine Nat.lt_pow_two_of_testBit _ fun i hi => ?_
  exact (bit_setBit_ne v b (by omega)).trans (Nat.testBit_lt_two_pow (lt_of_lt_of_le small (Nat.pow_le_pow_right (by decide) hi)))

/-! ## The power of pipes, the log and I2C (O47) -/

theorem pipeOffWrite_stores {s : State} {v : Nat}
    (may : ∀ p, p < 8 → bit v p = true → bit (rw s 0x9010 5) p = true ∨ pipeMayStop s p = true) :
    pipeOffWrite v s = some (setRw s 0x9010 5 noRow (bytesOf 1 v)) := by
  have fine : (List.range 8).all (fun p => !bit v p || bit (rw s 0x9010 5) p || pipeMayStop s p) = true := by
    rw [List.all_eq_true]
    intro p hp
    cases set_ : bit v p with
    | false => rfl
    | true => exact (Bool.or_eq_true ..).mpr (may p (List.mem_range.mp hp) set_)
  exact if_pos fine

theorem stored_pipeOff (s : State) (v : Bytes) :
    stored (setRw s 0x9010 5 noRow v) 0x9010 5 noRow = keptValue 0x9010 5 v :=
  (stored_setRw ..).trans (by rw [keptRow, if_neg (by decide), if_neg (by decide)])

/-- A mask of pipes that the conditions of R612 allow is stored. -/
theorem writeCmd_pipeOff {s : State} {src : Origin} {v : Nat} (small : v < 256)
    (may : MayWrite s src 0x9010 5 noRow (bytesOf 1 v))
    (fine : ∀ p, p < 8 → bit v p = true → bit (rw s 0x9010 5) p = true ∨ pipeMayStop s p = true) :
    stored (writeCmd s src 0x9010 5 noRow (bytesOf 1 v) (pipeOffWrite (v % 256))) 0x9010 5 noRow
      = keptValue 0x9010 5 (bytesOf 1 v) := by
  rw [Nat.mod_eq_of_lt small]
  obtain ⟨m, wrote⟩ := may.writes (pipeOffWrite v)
  rw [(wrote _ (pipeOffWrite_stores (s := { s with mabin := m }) fine)).stored, stored_pipeOff]

/-- One byte read of the revision register. -/
theorem rowI2cRead_revision {s : State} (ptr : s.sys.i2cPtr = 2) (unlatched : tfind s.sys.i2cLatch 2 = none) :
    (rowI2cRead 1 s).out = s.out ++ [.i2c [0xB0]] ∧ (rowI2cRead 1 s).sys.i2cPtr = 3 := by
  have field : i2cField 2 = (2, 1) := rfl
  have one : i2cByte s = (modSys (modSys s fun y => { y with i2cLatch := terase y.i2cLatch 2 })
      fun y => { y with i2cPtr := 3 }, 0xB0) := by
    unfold i2cByte
    rw [ptr]
    dsimp only
    rw [field]
    dsimp only
    rw [if_neg (show ¬(decide (2 = 2) && decide (1 < 1)) = true by decide), unlatched]
    rfl
  unfold rowI2cRead i2cBytes
  rw [one]
  exact ⟨rfl, rfl⟩

/-- Settles O47, by the masks that the conditions allow and by the bytes that I2C moves. -/
theorem pipePowerLogAndI2c : Obligations.PipePowerLogAndI2c := by
  refine ⟨?_, ?_, ?_, ?_, ?_, ?_, ?_⟩
  · intro s src p small mask may stops
    refine ⟨_, next_row may.1.2 (rowPowerPipeOff src p), writeCmd_pipeOff (setBit_lt mask small true) may fun q _ set_ => ?_⟩
    by_cases h : q = p
    · exact .inr (h ▸ stops)
    · exact .inl ((bit_setBit_ne _ true h).symm.trans set_)
  · intro s src p small mask may
    refine ⟨_, next_row may.1.2 (rowPowerPipeWake src p), writeCmd_pipeOff (setBit_lt mask small false) may fun q _ set_ => ?_⟩
    have other : q ≠ p := fun h => by
      rw [h, bit_setBit_false] at set_
      cases set_
    exact .inl ((bit_setBit_ne _ false other).symm.trans set_)
  · intro s p ⟨run, hs⟩ waking done calm boundary later
    refine ⟨_, next_row hs (rowPipePower p), ?_⟩
    have ready : mayPower s p = true := by simp [mayPower, waking, done, calm, boundary, boundary ▸ later]
    rw [rowPipePower, whenRun_running run, ready, guardS_true, (raiseEv_touches ..).pipeAt, pipeAt_modPipe]
    exact ⟨rfl, rfl, rfl⟩
  · intro s src n small may
    obtain ⟨m, wrote⟩ := may.writes (logAckWrite (n % 2 ^ 64))
    refine ⟨_, next_row may.1.2 (rowEventLogAck src n), ?_⟩
    have kept := congrArg Sys.logAck ((wrote _ rfl).rest .system rfl)
    exact kept.trans (Nat.mod_eq_of_lt small)
  · intro s r hs
    exact ⟨_, next_row hs (rowI2cPointerWrite r), rfl, rfl⟩
  · intro s hs ptr unlatched
    exact ⟨_, next_row hs (rowI2cRead 1), rowI2cRead_revision ptr unlatched⟩
  · intro s n hs
    obtain ⟨ptr, latch, b, answers, moved, size⟩ := rowI2cRead_answers n s
    refine ⟨_, b, next_row hs (rowI2cRead n), ?_⟩
    rw [answers]
    exact ⟨rfl, size, moved⟩

end Sys2Proof.Machine

namespace Sys2Proof.Machine

/-! ## PIPE resets that wait (R601), and the end of packets -/

/-- From s to t the PIPE resets that wait stay. -/
structure KeepsPipeAt (s t : State) : Prop where
  pipeAt : t.sys.pipeAt = s.sys.pipeAt

namespace KeepsPipeAt

variable {s t u : State}

theorem refl : KeepsPipeAt s s := ⟨rfl⟩

theorem trans (h : KeepsPipeAt s t) (k : KeepsPipeAt t u) : KeepsPipeAt s u := ⟨k.pipeAt.trans h.pipeAt⟩

theorem after (k : KeepsPipeAt t u) (h : KeepsPipeAt s t) : KeepsPipeAt s u := h.trans k

theorem ite {c : Prop} [Decidable c] (h : KeepsPipeAt s t) (k : KeepsPipeAt s u) :
    KeepsPipeAt s (if c then t else u) := by
  split
  · exact h
  · exact k

theorem foldl {α : Type} {f : State → α → State} {l : List α} (k : ∀ t a, KeepsPipeAt t (f t a))
    (h : KeepsPipeAt s t) : KeepsPipeAt s (l.foldl f t) :=
  List.foldlRecOn l f h fun _ e a _ => e.trans (k _ a)

end KeepsPipeAt

theorem Touches.keepsPipeAt {P : List Part} {s t : State} (h : Touches P s t)
    (hP : among P .system = false := by rfl) : KeepsPipeAt s t :=
  ⟨congrArg Sys.pipeAt (h.rest .system hP)⟩

theorem raiseEv_keepsPipeAt (s : State) (code source : Nat) (values : List Nat) :
    KeepsPipeAt s (raiseEv s code source values) :=
  have kept : (quiet (raiseEv s code source values).sys).pipeAt = (quiet s.sys).pipeAt :=
    congrArg Sys.pipeAt (quiet_raiseEv ..)
  ⟨kept⟩

theorem freezeMaster_keepsPipeAt (s : State) (type cls num : Nat) : KeepsPipeAt s (freezeMaster s type cls num) :=
  .ite .refl (.after (raiseEv_keepsPipeAt ..) ⟨rfl⟩)

theorem freezeFn_keepsPipeAt (s : State) (f cause detail : Nat) : KeepsPipeAt s (freezeFn s f cause detail) :=
  .ite .refl ((freezeMaster_keepsPipeAt ..).after (modFn_touches ..).keepsPipeAt)

theorem dmaWrite_keepsPipeAt (s : State) (r addr : Nat) (b : Bytes) : KeepsPipeAt s (dmaWrite s r addr b) :=
  .ite ((filtered_touches ..).keepsPipeAt.after (emit_touches ..).keepsPipeAt) (freezeFn_keepsPipeAt ..)

theorem headWrite_keepsPipeAt (s : State) (r : Nat) : KeepsPipeAt s (headWrite s r) :=
  .ite .refl (dmaWrite_keepsPipeAt ..)

theorem writeBack_keepsPipeAt (s : State) (r : Nat) (words : List Nat) : KeepsPipeAt s (writeBack s r words) :=
  (notSignalled_touches ..).keepsPipeAt.after ((headWrite_keepsPipeAt ..).after
    ((modRing_touches ..).keepsPipeAt.after ((dmaWrite_keepsPipeAt ..).after (dmaWrite_keepsPipeAt ..))))

theorem drainBegun_keepsPipeAt (r n : Nat) (s : State) : KeepsPipeAt s (drainBegun r n s) := by
  induction n generalizing s with
  | zero => exact .refl
  | succ n ih =>
    unfold drainBegun
    split
    · exact (ih _).after ((writeBack_keepsPipeAt ..).after (modRing_touches ..).keepsPipeAt)
    · exact .refl

theorem txFinish_keepsPipeAt (s : State) (k : Pkt) (status : Nat) : KeepsPipeAt s (txFinish s k status) := by
  unfold txFinish
  split
  · exact .ite ((drainBegun_keepsPipeAt ..).after (modRing_touches ..).keepsPipeAt) .refl
  · exact .refl

theorem discardPkt_keepsPipeAt (s : State) (id : Nat) : KeepsPipeAt s (discardPkt s id) := by
  unfold discardPkt
  split
  · exact .refl
  extract_lets s₁ s₂
  have hs₂ : KeepsPipeAt s s₂ := (txFinish_keepsPipeAt ..).after (.ite (leaveQueue_touches ..).keepsPipeAt .refl)
  exact .ite ((freePkt_touches ..).keepsPipeAt.after hs₂) ((modPkt_touches ..).keepsPipeAt.after hs₂)

theorem discardAll_keepsPipeAt (s : State) (l : List Pkt) : KeepsPipeAt s (discardAll s l) :=
  .foldl (fun _ _ => (discardPkt_keepsPipeAt ..).after (.ite .refl (modPkt_touches ..).keepsPipeAt)) .refl

/-! ## The PIPE reset (R605) -/

/-- A fold over the front ports of a pipe leaves each with what every step of it sets. -/
theorem foldl_frontPorts {P : Port → Prop} {f : State → Port → Port} (sets : ∀ t x, P (f t x)) (s : State) (p : Nat)
    {i : Nat} (h : i < 16) :
    P (portAt ((List.range 16).foldl (fun s i => modPort s (16 * p + i) (f s)) s) (16 * p + i)) := by
  refine foldl_reaches (P := fun t => P (portAt t (16 * p + i))) (List.mem_range.mpr h)
    (fun t => ?_) (fun t j ht => ?_) s
  · rw [portAt_modPort]
    exact sets ..
  · by_cases same : i = j
    · rw [same, portAt_modPort]
      exact sets ..
    · rw [portAt_modPort_ne _ _ (by omega)]
      exact ht

theorem clearPipe_clears (s : State) (p : Nat) :
    (pipeAt (clearPipe s p) p).pos = [] ∧ (pipeAt (clearPipe s p) p).stash = [] ∧
      (pipeAt (clearPipe s p) p).h = (pipeAt s p).h := by
  rw [clearPipe, pipeAt_modPipe]
  exact ⟨rfl, rfl, rfl⟩

theorem tfind_hbm_clearShard (s : State) {p a : Nat} (from_ : slotOf p 0 0 ≤ a) (below : a < slotOf (p + 1) 0 0) :
    tfind (clearShard s p).mem.hbm a = none :=
  tfind_tdrop _ from_ below

/-- What a PIPE reset leaves of a powered pipe (R605). -/
theorem pipeResetStart_resets {s : State} {p : Nat} (on : (pipeAt s p).power = 0) :
    (pipeAt (pipeResetStart s p) p).resetting = true ∧ (pipeAt (pipeResetStart s p) p).pos = [] ∧
      (pipeAt (pipeResetStart s p) p).stash = [] ∧ (pipeAt (pipeResetStart s p) p).h = (pipeAt s p).h ∧
      tfind (pipeResetStart s p).sys.pipeAt p = none ∧
      (∀ a, slotOf p 0 0 ≤ a → a < slotOf (p + 1) 0 0 → tfind (pipeResetStart s p).mem.hbm a = none) ∧
      ∀ i, i < 16 → (portAt (pipeResetStart s p) (16 * p + i)).refusing = true := by
  unfold pipeResetStart
  extract_lets s₀ s₁ s₂ s₃ s₄ lost s₅ s₆ s₇ s₈ s₉
  have pools : Touches [.pools] s₁ s₄ := by
    exact (modPools_touches ..).after ((dropWaiting_touches ..).after (forget_touches ..))
  have on₄ : (pipeAt s₄ p).power = 0 := (congrArg Pipe.power (pools.pipeAt p)).trans on
  rw [on₄, if_neg (by decide)]
  have refused : Touches [.ports] s₄ s₅ := .foldl (fun _ _ => modPort_touches ..) .refl
  have discarded : Touches _ s₅ s₆ := discardAll_touches ..
  have emptied : Touches [.clusters, .flow] (clearPipe s₆ p) s₇ :=
    .trans (emptyClusters_touches ..).within (clearShard_touches ..).within
  have cleared₇ : Touches [.pipes, .clusters, .flow] s₆ s₇ := .trans (clearPipe_touches ..).within emptied.within
  have counted : Touches [.objects, .counters, .buffer, .arbiters] s₇ s₉ :=
    .set (t := s₈) (.trans (clearPipeCounters_touches ..).within
      (.trans (fillPolicers_touches ..).within (dropRequests_touches ..).within))
  obtain ⟨pos, stash, home⟩ := clearPipe_clears s₆ p
  have pipe₉ : pipeAt s₉ p = pipeAt (clearPipe s₆ p) p := (counted.pipeAt p).trans (emptied.pipeAt p)
  have home₆ : pipeAt s₆ p = pipeAt s p :=
    (discarded.pipeAt p).trans ((refused.pipeAt p).trans (pools.pipeAt p))
  rw [pipeAt_modPipe, pipe₉]
  refine ⟨rfl, pos, stash, home.trans (congrArg Pipe.h home₆), ?_, fun a from_ below => ?_, fun i hi => ?_⟩
  · have waits : KeepsPipeAt s₁ s₉ := (((pools.keepsPipeAt.trans refused.keepsPipeAt).trans
      (discardAll_keepsPipeAt ..)).trans cleared₇.keepsPipeAt).trans counted.keepsPipeAt
    have kept : s₉.sys.pipeAt = terase s.sys.pipeAt p := waits.pipeAt
    exact (congrArg (tfind · p) kept).trans (tfind_terase_self ..)
  · obtain ⟨-, hbm, -⟩ := counted.rest .flow rfl
    exact (congrArg (tfind · a) hbm).trans (tfind_hbm_clearShard _ from_ below)
  · have port : portAt s₉ (16 * p + i) = portAt s₅ (16 * p + i) :=
      (counted.portAt _).trans ((cleared₇.portAt _).trans (discarded.portAt _))
    exact (congrArg Port.refusing port).trans
      (foldl_frontPorts (P := fun x => x.refusing = true) (fun _ _ => rfl) s₄ p hi)

/-- Front ports of a pipe accept frames again, unless a SOFT reset refuses them. -/
def readmit (p : Nat) (s : State) (i : Nat) : State := modPort s (16 * p + i) fun x => { x with refusing := s.sys.soft }

theorem foldl_readmit (p : Nat) (l : List Nat) (s : State) :
    l.foldl (readmit p) s = l.foldl (fun t i => modPort t (16 * p + i) fun x => { x with refusing := s.sys.soft }) s := by
  suffices h : ∀ t : State, t.sys.soft = s.sys.soft → l.foldl (readmit p) t
      = l.foldl (fun t i => modPort t (16 * p + i) fun x => { x with refusing := s.sys.soft }) t from h s rfl
  induction l with
  | nil => exact fun _ _ => rfl
  | cons i l ih =>
    intro t soft
    have step : readmit p t i = modPort t (16 * p + i) fun x => { x with refusing := s.sys.soft } := by
      rw [readmit, soft]
    rw [List.foldl_cons, List.foldl_cons, step]
    exact ih _ soft

/-- The end of a PIPE reset: the pipe runs again, and its nodes accept frames unless a SOFT reset refuses them (R605). -/
theorem rowPipeReset_ends {s : State} {p : Nat} (run : s.sys.run = .running) (resetting : (pipeAt s p).resetting = true) :
    (pipeAt (rowPipeReset p s) p).resetting = false ∧
      ∀ i, i < 16 → (portAt (rowPipeReset p s) (16 * p + i)).refusing = s.sys.soft := by
  rw [rowPipeReset, whenRun_running run, resetting, guardS_true]
  extract_lets s₁ s₂
  have admits : s₂ = (List.range 16).foldl (readmit p) s₁ := rfl
  have accepted : Touches [.ports] s₁ s₂ := .foldl (fun _ _ => modPort_touches ..) .refl
  refine ⟨?_, fun i hi => ?_⟩
  · rw [(raiseEv_touches ..).pipeAt, accepted.pipeAt]
    exact congrArg Pipe.resetting (pipeAt_modPipe ..)
  · rw [(raiseEv_touches ..).portAt, admits, foldl_readmit]
    exact foldl_frontPorts (P := fun x => x.refusing = s.sys.soft) (fun _ _ => rfl) s₁ p hi

/-! ## The FUNCTION reset (R541) -/

theorem mem_tkeys_of_tfind {α : Type} {t : Tbl α} {i : Nat} (h : tfind t i ≠ none) : i ∈ tkeys t := by
  induction t with
  | nil => exact absurd rfl h
  | cons e t ih =>
    obtain ⟨k, v⟩ := e
    by_cases here : k = i
    · exact here ▸ List.mem_cons_self
    · rw [tfind, if_neg here] at h
      exact List.mem_cons_of_mem _ (ih h)

theorem mem_distinct {l : List Nat} {a : Nat} (h : a ∈ l) : a ∈ distinct l := by
  have kept : ∀ (l : List Nat) (t : Tbl Unit), tfind t a ≠ none ∨ a ∈ l →
      tfind (l.foldl (fun (t : Tbl Unit) x => tins t x ()) t) a ≠ none := by
    intro l
    induction l with
    | nil => exact fun t h => h.elim id fun h => nomatch h
    | cons b l ih =>
      intro t h
      refine ih _ ?_
      by_cases same : a = b
      · subst same
        exact .inl (by simp)
      · rw [tfind_tins_ne _ _ same]
        exact h.imp_right fun h => (List.mem_cons.mp h).resolve_left same
  exact mem_tkeys_of_tfind (kept l [] (.inr h))

/-- What a FUNCTION reset leaves of a ring: disabled with counts of 0, a frozen one still frozen (R48, R541). -/
def resetRing (x : Ring) : Ring := if x.state = 3 then { Ring.init with state := 3 } else Ring.init

theorem resetRing_resetRing (x : Ring) : resetRing (resetRing x) = resetRing x := by
  unfold resetRing
  split
  · rfl
  · rfl

/-- A table of rings with one ring reset. -/
def resetIn (rings : Tbl Ring) (r : Nat) (x : Ring) : Tbl Ring :=
  if x.state = 3 then tins rings r { Ring.init with state := 3 } else terase rings r

theorem tget_resetIn (rings : Tbl Ring) (r k : Nat) (x : Ring) :
    tget Ring.init (resetIn rings r x) k = if k = r then resetRing x else tget Ring.init rings k := by
  unfold resetIn resetRing
  by_cases same : k = r
  · subst same
    split <;> simp
  · rw [if_neg same]
    split
    · exact tget_tins_ne _ _ _ same
    · exact tget_terase_ne _ _ same

theorem rings_clearRing (s : State) (r : Nat) : (clearRing s r).host.rings = resetIn s.host.rings r (ringAt s r) := by
  obtain ⟨rings, -⟩ := (clearRequesters_touches s r).rest .rings rfl
  have same : ringAt (clearRequesters s r) r = ringAt s r := (clearRequesters_touches ..).ringAt r
  have cleared : (clearRing s r).host.rings
      = resetIn (clearRequesters s r).host.rings r (ringAt (clearRequesters s r) r) := rfl
  rw [cleared, same, rings]

theorem ringAt_clearRing (s : State) (r k : Nat) :
    ringAt (clearRing s r) k = if k = r then resetRing (ringAt s k) else ringAt s k := by
  rw [ringAt, rings_clearRing, tget_resetIn]
  split
  next same => rw [same]
  next => rfl

theorem ringAt_foldl_clearRing (rings : List Nat) (s : State) (k : Nat) :
    ringAt (rings.foldl clearRing s) k = if k ∈ rings then resetRing (ringAt s k) else ringAt s k := by
  induction rings generalizing s with
  | nil => rfl
  | cons r rings ih =>
    rw [List.foldl_cons, ih, ringAt_clearRing]
    by_cases same : k = r
    · subst same
      simp [resetRing_resetRing]
    · simp [same]

theorem mem_ringsOf {s : State} {r : Nat} (known : r ∈ tkeys s.host.rings) : r ∈ ringsOf s (ringOwner s r) := by
  rw [ringsOf, List.mem_filter]
  exact ⟨mem_distinct (List.mem_append_left _ known), by simp⟩

theorem ringAt_of_unknown {s : State} {r : Nat} (unknown : r ∉ tkeys s.host.rings) : ringAt s r = Ring.init := by
  have none_ : tfind s.host.rings r = none := by
    by_contra some_
    exact unknown (mem_tkeys_of_tfind some_)
  rw [ringAt, tget, none_]
  rfl

/-- With no packet in the part a FUNCTION reset resets each of its rings, those that the state does not know among
them (R541). -/
theorem ringAt_resetFn {s : State} (empty : s.pkts = []) {r f : Nat} (own : ringOwner s r = f) :
    ringAt (resetFn s f) r = resetRing (ringAt s r) := by
  subst own
  have reset : ringAt (resetFn s (ringOwner s r)) r
      = if r ∈ ringsOf s (ringOwner s r) then resetRing (ringAt s r) else ringAt s r := by
    unfold resetFn
    extract_lets rings waiting s₁ _ s₂ s₃ s₄ regions lost s₅ s₆
    have idle : waiting = [] := by simp [waiting, empty]
    have same : s₄ = s₃ := by simp only [s₄, idle, List.foldl_nil]
    have kept : ringAt s₂ r = ringAt s r := (dropWaits_touches s rings).ringAt r
    have forgotten : Touches [.pools] s₄ s₅ := (dropWaiting_touches ..).after (forget_touches ..)
    have erased : Touches [.objects] s₅ s₆ := .foldl (fun _ _ => .update) .refl
    rw [(clearFnCounters_touches ..).ringAt, (modPools_touches ..).ringAt, erased.ringAt, forgotten.ringAt, same,
      ← kept]
    exact ringAt_foldl_clearRing ..
  rw [reset]
  by_cases known : r ∈ tkeys s.host.rings
  · rw [if_pos (mem_ringsOf known)]
  · rw [ringAt_of_unknown known]
    exact ite_self _

theorem words_resetFn (s : State) (f : Nat) {o : Nat} (h : o < 8) :
    tget 0 (resetFn s f).cnt.words (cFn f o) = 0 := by
  unfold resetFn
  extract_lets rings waiting s₁ _ s₂ s₃ s₄ regions lost s₅ s₆
  have gone : tfind (clearFnCounters (modPools s₆ fun k => { k with resp := terase k.resp f }) f).cnt.words (cFn f o)
      = none := tfind_tdrop _ (by unfold cFn; omega) (by unfold cFn; omega)
  rw [tget, gone]
  rfl

theorem endLocalLock_frees (s : State) : (endLocalLock s).mabin.holder ≠ some 16 := by
  unfold endLocalLock
  split
  next held =>
    extract_lets u
    obtain ⟨holder, -⟩ := (raiseEv_touches { u with mabin := { u.mabin with holder := none, expires := 0 } } evLockExpired 0
      [16, u.rm.tick]).rest .lock rfl
    rw [holder]
    exact nofun
  next free => exact free

/-- The commands and completions of every pipe go with the physical function (R541). -/
def dropCommands (s : State) (p : Nat) : State :=
  modPipe s p fun k => { k with cmds := [], cpls := [], pos := k.pos.map loseCmd }

theorem dropCommands_foldl (s : State) {p : Nat} (h : p < 8) :
    (pipeAt ((List.range 8).foldl dropCommands s) p).cmds = [] ∧
      (pipeAt ((List.range 8).foldl dropCommands s) p).cpls = [] := by
  refine foldl_reaches (P := fun t => (pipeAt t p).cmds = [] ∧ (pipeAt t p).cpls = []) (List.mem_range.mpr h)
    (fun t => ?_) (fun t q ht => ?_) s
  · rw [dropCommands, pipeAt_modPipe]
    exact ⟨rfl, rfl⟩
  · by_cases same : p = q
    · rw [same, dropCommands, pipeAt_modPipe]
      exact ⟨rfl, rfl⟩
    · rw [dropCommands, pipeAt_modPipe_ne _ _ same]
      exact ht

/-- The mailbox and the local session's lock go with the physical function (R570, R576). -/
def endLocal (s : State) : State :=
  endLocalLock { s with
    host := { s.host with vfs := 0 },
    mabin := { s.mabin with mboxOut := [], localResult := 0, collect := [] } }

theorem pipeAt_endLocal (s : State) (p : Nat) : pipeAt (endLocal s) p = pipeAt s p :=
  ((endLocalLock_touches _).pipeAt p).trans ((noMailbox_touches s).pipeAt p)

theorem vfs_endLocal (s : State) : (endLocal s).host.vfs = 0 := by
  obtain ⟨-, vfs⟩ := (endLocalLock_touches { s with
    host := { s.host with vfs := 0 },
    mabin := { s.mabin with mboxOut := [], localResult := 0, collect := [] } }).rest .link rfl
  exact vfs

theorem holder_endLocal (s : State) : (endLocal s).mabin.holder ≠ some 16 := endLocalLock_frees _

theorem resetPf_eq (s : State) :
    resetPf s = endLocal ((List.range 8).foldl dropCommands ((List.range 64).foldl resetFn s)) := rfl

theorem resetPf_resets (s : State) :
    (resetPf s).host.vfs = 0 ∧ (resetPf s).mabin.holder ≠ some 16 ∧
      ∀ p, p < 8 → (pipeAt (resetPf s) p).cmds = [] ∧ (pipeAt (resetPf s) p).cpls = [] := by
  rw [resetPf_eq]
  refine ⟨vfs_endLocal _, holder_endLocal _, fun p hp => ?_⟩
  rw [pipeAt_endLocal]
  exact dropCommands_foldl _ hp

/-- Settles O5, by what the reset of a pipe, of a virtual function and of the physical one leaves. -/
theorem pipeAndFunctionResets : Obligations.PipeAndFunctionResets := by
  refine ⟨?_, ?_, ?_, ?_⟩
  · intro s p r run soft small asked isDue idle on
    have row : exec (.pipeResetStart p) s = .next (pipeResetStart s p) := by
      show Host.Outcome.next (rowPipeResetStart p (pastSoft s)) = _
      rw [soft, rowPipeResetStart, whenRun_running run, asked]
      dsimp only
      rw [isDue, idle, Bool.not_false, Bool.and_self, guardS_true]
    exact ⟨_, row, pipeResetStart_resets on⟩
  · intro s p ⟨run, hs⟩ _ resetting
    exact ⟨_, next_row hs (rowPipeReset p), rowPipeReset_ends run resetting⟩
  · intro s f ⟨run, hs⟩ virtual small
    refine ⟨_, next_row hs (rowFunctionReset f), ?_⟩
    rw [rowFunctionReset, whenRun_running run, decide_eq_true small, guardS_true, if_neg (by omega)]
    exact ⟨fun o h => words_resetFn s f h, fun empty r own => ringAt_resetFn empty own⟩
  · intro s ⟨run, hs⟩
    refine ⟨_, next_row hs (rowFunctionReset 0), ?_⟩
    rw [rowFunctionReset, whenRun_running run, decide_eq_true (by decide : 0 < 64), guardS_true, if_pos rfl]
    exact resetPf_resets s

end Sys2Proof.Machine

namespace Sys2Proof.Machine

/-! ## Secret objects (O49) -/

theorem isSecret_iff (idx sub : Nat) :
    isSecret idx sub = true ↔ (idx = 0x7800 ∧ sub = 1) ∨ (idx = 0x1200 ∧ sub = 1) := by
  simp [isSecret]

/-- A secret object is one value that is only written, and not staged. -/
theorem lookupObj_secret {idx sub : Nat} {r : ObjRow} (secret : isSecret idx sub = true)
    (here : lookupObj idx sub = some r) :
    r.acc = .wo ∧ r.kind ≠ 9 ∧ joinsStaging idx sub = false := by
  have plain : ∀ e ∈ [(0x7800, 1), (0x1200, 1)], ((lookupObj e.1 e.2).all fun r => r.acc == .wo && r.kind != 9) = true
      ∧ joinsStaging e.1 e.2 = false := by decide +kernel
  have listed : (idx, sub) ∈ [(0x7800, 1), (0x1200, 1)] := by
    obtain ⟨rfl, rfl⟩ | ⟨rfl, rfl⟩ := (isSecret_iff ..).mp secret <;> simp
  obtain ⟨row, free⟩ := plain _ listed
  simp only [here, Option.all_some, Bool.and_eq_true, beq_iff_eq, bne_iff_ne] at row
  exact ⟨row.1, row.2, free⟩

theorem writeError_secret {s : State} {src : Origin} {idx sub k : Nat} {r : ObjRow} (secret : isSecret idx sub = true)
    (here : lookupObj idx sub = some r) (tier : tierOf s src = some k) (high : r.tier ≤ k) (v : Bytes) :
    writeError s src idx sub noRow v = if overUdp s src then 11
      else if !lengthOk r noRow v then 5 else if !rangeOk r v then 4 else 0 := by
  obtain ⟨acc, kind, -⟩ := lookupObj_secret secret here
  simp only [writeError, here, acc, kind, tier, secret, high.not_gt, errSecret, errFormat, errValue, bne_self_eq_false,
    reduceCtorEq, decide_false, Bool.and_false, Bool.true_and, Bool.false_and, Bool.false_eq_true, if_false]

/-- A write of a secret over UDP has an error, whatever the sender's tier. -/
theorem writeError_secret_ne_zero {s : State} {n idx sub : Nat} {x : Session} (secret : isSecret idx sub = true)
    (here : sessionAt s n = some x) (udp : x.path ≠ .mailbox) (row : Nat) (v : Bytes) :
    writeError s (.sess n) idx sub row v ≠ 0 := by
  have over_ : overUdp s (.sess n) = true := by simp [overUdp, here, udp]
  unfold writeError
  split
  · decide
  · simp only [secret, over_, Bool.and_self, if_true]
    repeat' split
    all_goals decide

theorem sessionAt_renewLease (s : State) (who n : Nat) : sessionAt (renewLease s who) n = sessionAt s n := by
  obtain ⟨e, renewed⟩ := renewLease_eq_expires s who
  rw [renewed]
  rfl

/-- A write of a secret by a session over UDP leaves the credentials and the writes that wait. -/
theorem writeCmd_secret_keeps {s : State} {n idx sub : Nat} {x : Session} (secret : isSecret idx sub = true)
    (here : sessionAt s n = some x) (udp : x.path ≠ .mailbox) (row : Nat) (v : Bytes) (eff : State → Option State) :
    (writeCmd s (.sess n) idx sub row v eff).mabin.creds = s.mabin.creds ∧
      (writeCmd s (.sess n) idx sub row v eff).deferred = s.deferred := by
  unfold writeCmd whenRun writeBy
  split
  · beta_reduce
    split
    · exact ⟨rfl, rfl⟩
    · extract_lets t err
      have wrong : err ≠ 0 := writeError_secret_ne_zero secret ((sessionAt_renewLease ..).trans here) udp row v
      rw [if_neg wrong]
      obtain ⟨e, renewed⟩ := renewLease_eq_expires s (originNum (.sess n))
      have ht : t = _ := renewed
      obtain ⟨-, creds, -⟩ := (rejectWrite_touches t (.sess n) idx sub err).rest .sessions rfl
      obtain ⟨-, -, deferred⟩ := (rejectWrite_touches t (.sess n) idx sub err).rest .objects rfl
      rw [creds, deferred, ht]
      exact ⟨rfl, rfl⟩
  · exact ⟨rfl, rfl⟩

/-- Settles O49, by the error of every write of a secret object. -/
theorem secretsNeedASafePath : Obligations.SecretsNeedASafePath := by
  refine ⟨isSecret_iff, ?_, ?_, fun _ => rfl, ?_, ?_⟩
  · intro s src idx sub k v r secret here tier high
    exact writeError_secret secret here tier high v
  · intro s n k x i r secret here kind row open_ udp tier high
    obtain ⟨acc, -, direct⟩ := lookupObj_secret secret here
    have over_ : overUdp s (.sess n) = true := by simp [overUdp, open_, udp]
    simp only [writeItemError, here, acc, kind, direct, row, writeError_secret secret here tier high, over_, reduceCtorEq,
      bne_self_eq_false, Bool.false_eq_true, if_false, if_true]
  · intro s n x here
    simp [overUdp, here]
  · intro s t n x v hs here udp done
    have key : isSecret 0x7800 1 = true := rfl
    have cred : isSecret 0x1200 1 = true := rfl
    obtain done | done := done
    · rw [← Host.Outcome.next.inj ((next_row hs (rowMabinCredWrite (.sess n) v)).symm.trans done)]
      exact writeCmd_secret_keeps cred here udp ..
    · rw [← Host.Outcome.next.inj ((next_row hs (rowCipherKeyWrite (.sess n) v)).symm.trans done)]
      exact writeCmd_secret_keeps key here udp ..

end Sys2Proof.Machine

namespace Sys2Proof.Machine

/-! ## Sessions -/

theorem tins_tins {α : Type} (t : Tbl α) (i : Nat) (x y : α) : tins (tins t i x) i y = tins t i y := by
  induction t with
  | nil => simp [tins]
  | cons e t ih =>
    obtain ⟨k, v⟩ := e
    by_cases below : i < k
    · simp [tins, below]
    · by_cases here : i = k
      · simp [tins, here]
      · simp [tins, below, here, ih]

/-- The table of sessions is one with x as session n. -/
def withSession (s : State) (n : Nat) (x : Session) : State :=
  { s with mabin := { s.mabin with sessions := tins s.mabin.sessions n x } }

theorem modSession_eq {s : State} {n : Nat} {x : Session} (here : sessionAt s n = some x) (f : Session → Session) :
    modSession s n f = withSession s n (f x) := by
  rw [modSession, here]
  rfl

theorem sessionAt_withSession (s : State) (n : Nat) (x : Session) : sessionAt (withSession s n x) n = some x :=
  tfind_tins_self ..

theorem withSession_withSession (s : State) (n : Nat) (x y : Session) :
    withSession (withSession s n x) n y = withSession s n y := by
  simp only [withSession, tins_tins]

theorem withSession_touches (s : State) (n : Nat) (x : Session) : Touches [.sessions] s (withSession s n x) := .update

theorem sessions_postMbox (s : State) (msg : Bytes) : (postMbox s msg).mabin.sessions = s.mabin.sessions := by
  unfold postMbox
  split
  · rfl
  · exact ((count_touches ..).rest .sessions rfl).1

theorem sessions_deliverMsg (s : State) (n : Nat) (path : MabinPath) (msg : Bytes) :
    (deliverMsg s n path msg).mabin.sessions = s.mabin.sessions := by
  unfold deliverMsg
  split
  · exact ((count_touches ..).rest .sessions rfl).1
  · cases path
    case mailbox => exact sessions_postMbox ..
    all_goals rfl

theorem sessionAt_deliverMsg (s : State) (n k : Nat) (path : MabinPath) (msg : Bytes) :
    sessionAt (deliverMsg s n path msg) k = sessionAt s k := by
  rw [sessionAt, sessions_deliverMsg, sessionAt]

/-! ## An accepted message (R561 to R564) -/

/-- The session of an accepted message as the request finds it. -/
def heardSession (s : State) (x : Session) (m : Bytes) : Session :=
  { takeCtr { x with codes := x.codes + 1 } (msgCtr m) with lastBeat := s.beat }

/-- The state in which the request of an accepted message is performed: `served`, with the code of the message to
compute (R463). -/
def heard (s : State) (n : Nat) (x : Session) (m : Bytes) : State :=
  renewLease (withSession s n (heardSession s x m)) n

theorem served_eq {s : State} {n : Nat} {x : Session} (here : sessionAt s n = some x) (m : Bytes) :
    served s n x m = renewLease (withSession s n { takeCtr x (msgCtr m) with lastBeat := s.beat }) n := by
  rw [served, modSession_eq here, modSession_eq (sessionAt_withSession ..), withSession_withSession]

/-- What the part is when it serves a message. -/
def arrived (s : State) (n : Nat) (m : Bytes) : State := modSession (askCode s n) n fun x => takeCtr x (msgCtr m)

theorem arrived_eq {s : State} {n : Nat} {x : Session} (here : sessionAt s n = some x) (m : Bytes) :
    arrived s n m = withSession s n (takeCtr { x with codes := x.codes + 1 } (msgCtr m)) := by
  rw [arrived, askCode, modSession_eq here, modSession_eq (sessionAt_withSession ..), withSession_withSession]

theorem heard_eq {s : State} {n : Nat} {x : Session} (here : sessionAt s n = some x) (m : Bytes) :
    renewLease (modSession (arrived s n m) n fun y => { y with lastBeat := (arrived s n m).beat }) n
      = heard s n x m := by
  rw [arrived_eq here, modSession_eq (sessionAt_withSession ..), withSession_withSession]
  rfl

theorem lockExpiry_of_accepts {s : State} {path : MabinPath} {n : Nat} {x : Session} {m : Bytes}
    (a : Accepts s path n x m) : lockExpiry s = s := by
  obtain free | held := a.lease
  · rw [lockExpiry, free]
  · exact lockExpiry_of_lease held

/-- An accepted message is served. -/
theorem deliver_accepted {s : State} {path : MabinPath} {n : Nat} {x : Session} {m : Bytes}
    (a : Accepts s path n x m) : deliver path m s = serve (receive 99 .mailbox) (arrived s n m) n x m := by
  have begins : deliver path m s = receive (99 + 1) path m s := rfl
  rw [begins, receive, if_neg a.fits.not_gt, if_neg a.whole.not_gt, if_neg (by simp [a.other]), a.addressed, sessionMsg,
    lockExpiry_of_accepts a, endIdle, a.awake, if_neg (by decide)]
  dsimp only
  rw [a.here]
  dsimp only
  rw [a.thawed, if_neg (by decide), if_neg (by simp [a.genuine]), a.fresh, if_neg (by decide), a.proper, if_neg (by decide)]
  rfl

theorem row_accepted {s : State} {path : MabinPath} {n : Nat} {x : Session} {m : Bytes} (a : Accepts s path n x m)
    {c : Bool} (kind : c = true) : mabinRow c path m s = serve (receive 99 .mailbox) (arrived s n m) n x m := by
  rw [mabinRow, whenRun_running a.run.1, kind, guardS_true, deliver_accepted a]

/-- A request other than HELLO is answered as the state that heard it has it. -/
theorem serve_request {s : State} {n : Nat} {x : Session} {m : Bytes} (here : sessionAt s n = some x)
    (other : msgType m ≠ 1) (mbox : Bytes → State → State) :
    serve mbox (arrived s n m) n x m
      = answer (request mbox (heard s n x m) n x m).1 n m (request mbox (heard s n x m) n x m).2 := by
  rw [serve]
  dsimp only
  rw [heard_eq here, if_neg (by simp [other]), if_neg (by simp [other])]

end Sys2Proof.Machine

namespace Sys2Proof.Machine

/-! ## The staging lock (R569, R570, R572, R573) -/

/-- The state that heard a message is the one before it with other sessions and perhaps a later expiry. -/
theorem heard_eq_expires (s : State) (n : Nat) (x : Session) (m : Bytes) :
    ∃ t e, heard s n x m = { s with mabin := { s.mabin with sessions := t, expires := e } } := by
  obtain ⟨e, renewed⟩ := renewLease_eq_expires (withSession s n (heardSession s x m)) n
  exact ⟨_, e, renewed⟩

theorem holder_heard (s : State) (n : Nat) (x : Session) (m : Bytes) : (heard s n x m).mabin.holder = s.mabin.holder := by
  obtain ⟨t, e, eq⟩ := heard_eq_expires s n x m
  rw [eq]

theorem leaseEnd_heard (s : State) (n : Nat) (x : Session) (m : Bytes) : leaseEnd (heard s n x m) = leaseEnd s := by
  obtain ⟨t, e, eq⟩ := heard_eq_expires s n x m
  rw [eq]
  rfl

/-- The lease that an accepted message finds has not ended when its request is performed. -/
theorem lockExpiry_heard {s : State} {path : MabinPath} {n : Nat} {x : Session} {m : Bytes} (a : Accepts s path n x m)
    (lasts : leaseEnd s > s.beat) : lockExpiry (heard s n x m) = heard s n x m := by
  obtain kept | ⟨-, -, renewed⟩ := renewLease_cases (withSession s n (heardSession s x m)) n
  · have eq : heard s n x m = withSession s n (heardSession s x m) := kept
    rw [eq]
    obtain free | held := a.lease
    · unfold lockExpiry
      rw [show (withSession s n (heardSession s x m)).mabin.holder = none from free]
    · exact lockExpiry_of_lease held
  · have eq : heard s n x m = { withSession s n (heardSession s x m) with mabin := {
        (withSession s n (heardSession s x m)).mabin with expires := leaseEnd s } } := renewed
    rw [eq]
    exact lockExpiry_of_lease lasts

theorem anyStaged_heard (s : State) (n : Nat) (x : Session) (m : Bytes) : anyStaged (heard s n x m) = anyStaged s := by
  obtain ⟨t, e, eq⟩ := heard_eq_expires s n x m
  rw [eq]
  rfl

theorem clockAndVersion_heard (s : State) (n : Nat) (x : Session) (m : Bytes) :
    (heard s n x m).rm.tick = s.rm.tick ∧ (heard s n x m).ver = s.ver := by
  obtain ⟨t, e, eq⟩ := heard_eq_expires s n x m
  rw [eq]
  exact ⟨rfl, rfl⟩

theorem sealReason_expires (s : State) (t : Tbl Session) (e target : Nat) :
    sealReason { s with mabin := { s.mabin with sessions := t, expires := e } } target = sealReason s target := rfl

/-- The code to compute does not bear on the seal. -/
theorem sealReason_heard {s : State} {n : Nat} {x : Session} (here : sessionAt s n = some x) (m : Bytes) (target : Nat) :
    sealReason (heard s n x m) target = sealReason (served s n x m) target := by
  obtain ⟨t, e, eq⟩ := heard_eq_expires s n x m
  obtain ⟨e', renewed⟩ := renewLease_eq_expires (withSession s n { takeCtr x (msgCtr m) with lastBeat := s.beat }) n
  rw [eq, sealReason_expires, served_eq here, renewed]
  rfl

theorem lockBy_takes {s : State} {who : Nat} (lease : lockExpiry s = s)
    (free : s.mabin.holder = none ∨ s.mabin.holder = some who) : lockBy s who = (takeLock s who, 0, rw s 0x1300 1) := by
  rw [lockBy, lease]
  obtain h | h := free
  · rw [h]
  · rw [h]
    exact if_pos rfl

theorem unlockBy_frees {s : State} {who : Nat} (lease : lockExpiry s = s) (mine : s.mabin.holder = some who) :
    unlockBy s who = (freeLock s, 0, 0) := by
  rw [unlockBy, lease]
  exact if_pos mine

/-- What sealing the staging area appends. -/
def sealedNow (s : State) (target : Nat) : Sealed :=
  { ver := stagedVer s, target := target, sealNext := s.rm.tick + 1, slot := none, reserveNext := 0, causes := 0,
    prep := [], doneTick := none }

/-- The state that a COMMIT leaves. -/
def sealed (s : State) (target : Nat) : State :=
  { clearStaging s with ver := { s.ver with
      pending := s.ver.pending ++ [sealedNow s target], newest := (stagedVer s).num } }

theorem sealed_seals (s : State) (target : Nat) :
    (sealed s target).mabin.holder = s.mabin.holder ∧ (sealed s target).mabin.staged = [] ∧
      (sealed s target).ver.pending = s.ver.pending ++ [sealedNow s target] := ⟨rfl, rfl, rfl⟩

theorem commitBy_seals {s : State} {who target : Nat} (lease : lockExpiry s = s) (mine : s.mabin.holder = some who)
    (some_ : anyStaged s = true) (fine : sealReason s target = 0) :
    commitBy s who target false = (sealed s target, 0, (stagedVer s).num) := by
  have seals : sealVersion s target = (sealed s target, .ok (stagedVer s).num) := if_pos fine
  rw [commitBy, lease, mine, some_, seals, if_neg (by simp), if_neg (by decide)]
  rfl

theorem commitReply_seals {s : State} {n minor : Nat} {b : Bytes} (long : b.length = 12) (noUnlock : byteAt b 8 = 0)
    (lease : lockExpiry s = s) (mine : s.mabin.holder = some n) (some_ : anyStaged s = true)
    (fine : sealReason s (natAt b 0 8) = 0) :
    commitReply s n minor b
      = (sealed s (natAt b 0 8), .good (sealed s (natAt b 0 8)) (codeBody 0 0 (stagedVer s).num)) := by
  have keeps : bit 0 0 = false := by decide
  rw [commitReply, noUnlock, keeps, commitBy_seals lease mine some_ fine, if_neg (by simp [long]), if_neg (by simp)]
  rfl

theorem codeReply_good (s : State) (detail : Nat) : codeReply (s, 0, detail) = .good s (codeBody 0 0 detail) := rfl

theorem request_lock {m : Bytes} (type : msgType m = 6) (mbox : Bytes → State → State) (s : State) (n : Nat) (x : Session) :
    request mbox s n x m = (s, codeReply (lockBy s n)) := by
  simp [request, type]

theorem request_commit {m : Bytes} (type : msgType m = 5) (mbox : Bytes → State → State) (s : State) (n : Nat) (x : Session) :
    request mbox s n x m = commitReply s n x.minor (msgBody m) := by
  simp [request, type]

theorem request_unlock {m : Bytes} (type : msgType m = 7) (mbox : Bytes → State → State) (s : State) (n : Nat) (x : Session) :
    request mbox s n x m = (s, unlockReply s n) := by
  simp [request, type]

/-- The answer of a good request leaves the lock and the versions. -/
theorem answer_good_keeps (s t : State) (n : Nat) (m b : Bytes) :
    (answer s n m (.good t b)).mabin.holder = t.mabin.holder ∧ (answer s n m (.good t b)).mabin.expires = t.mabin.expires ∧
      (answer s n m (.good t b)).mabin.staged = t.mabin.staged ∧ (answer s n m (.good t b)).ver = t.ver := by
  have sends := sendMsg_touches t n (msgType m) 0x80 (msgReq m) b
  obtain ⟨holder, expires, staged, -⟩ := sends.rest .lock rfl
  exact ⟨holder, expires, staged, sends.rest .version rfl⟩

/-- An accepted write of the local session's command word does what the command does, and counts. -/
theorem localWrite_keeps {s u : State} {w : Nat} (may : MayWrite s .bar 0x1300 4 noRow (bytesOf 8 w))
    (does : localCmd w (renewLease s 16) = some u) : Touches [.counters] u (localWrite w s) := by
  obtain ⟨⟨run, -⟩, here, fine⟩ := may
  obtain ⟨tier, eq⟩ := writeCmd_accepted (eff := localCmd w) run here ((writeError_renewLease ..).trans fine) does
  rw [localWrite, eq]
  exact filtered_touches ..

/-- The fields of a command word without the unlock bit. -/
theorem localCmd_word {w op k : Nat} (word : w = op * 2 ^ 60 + k) (known : op < 16) (small : k < 2 ^ 48) (s : State) :
    localCmd w s = if op = 1 then some (localAnswer 1 false (lockBy s 16))
      else if op = 2 then some (localAnswer 2 false (unlockBy s 16))
      else if op = 3 then some (localAnswer 3 false (commitBy s 16 k false)) else none := by
  have top : bits w 63 60 = op := by unfold bits; omega
  have unlock : bit w 59 = false := by
    rw [bit, Nat.testBit_eq_decide_div_mod_eq]
    exact decide_eq_false (by omega)
  have target : bits w 47 0 = k := by unfold bits; omega
  rw [localCmd, top, unlock, target]

theorem localCmd_lock (s : State) : localCmd (2 ^ 60) s = some (localAnswer 1 false (lockBy s 16)) :=
  (localCmd_word (op := 1) (k := 0) (by decide) (by decide) (by decide) s).trans rfl

theorem localCmd_unlock (s : State) : localCmd (2 * 2 ^ 60) s = some (localAnswer 2 false (unlockBy s 16)) :=
  (localCmd_word (op := 2) (k := 0) (by decide) (by decide) (by decide) s).trans (by simp)

theorem localCmd_commit (s : State) {k : Nat} (small : k < 2 ^ 48) :
    localCmd (3 * 2 ^ 60 + k) s = some (localAnswer 3 false (commitBy s 16 k false)) :=
  (localCmd_word (op := 3) rfl (by decide) small s).trans (by simp)

theorem renewLease_of_free {s : State} (free : s.mabin.holder = none) (who : Nat) : renewLease s who = s := by
  simp [renewLease, free]

/-- The state in which the lease of the lock ends at e. -/
def leased (s : State) (e : Nat) : State := { s with mabin := { s.mabin with expires := e } }

theorem renewLease_of_lease {s : State} {who : Nat} (mine : s.mabin.holder = some who) (lease : s.beat < s.mabin.expires) :
    renewLease s who = leased s (leaseEnd s) := by
  simp [renewLease, mine, due, lease, leased]

theorem lockExpiry_leased {s : State} {e : Nat} (lasts : s.beat < e) : lockExpiry (leased s e) = leased s e :=
  lockExpiry_of_lease lasts

theorem holder_leased (s : State) (e : Nat) : (leased s e).mabin.holder = s.mabin.holder := rfl

theorem ver_leased (s : State) (e : Nat) : (leased s e).ver = s.ver := rfl

theorem anyStaged_leased (s : State) (e : Nat) : anyStaged (leased s e) = anyStaged s := rfl

theorem sealReason_leased (s : State) (e target : Nat) : sealReason (leased s e) target = sealReason s target := rfl

/-- The state in which `who` holds the lock until e. -/
def locked (s : State) (who e : Nat) : State := { s with mabin := { s.mabin with holder := some who, expires := e } }

theorem takeLock_eq (s : State) (who : Nat) : takeLock s who = locked s who (leaseEnd s) := rfl

theorem expires_locked (s : State) (who e : Nat) : (locked s who e).mabin.expires = e := rfl

theorem lockExpiry_frees {s : State} {h : Nat} (held : s.mabin.holder = some h) (ended : s.mabin.expires ≤ s.beat) :
    (lockExpiry s).mabin.holder = none ∧ (lockExpiry s).mabin.staged = [] := by
  rw [lockExpiry, held]
  dsimp only
  rw [due_of_le ended, if_pos rfl]
  obtain ⟨holder, -, staged, -⟩ := (raiseEv_touches (freeLock s) evLockExpired 0 [h, s.rm.tick]).rest .lock rfl
  exact ⟨holder, staged⟩

theorem localAnswer_keeps (op : Nat) (unlock : Bool) (s : State) (code detail : Nat) :
    (localAnswer op unlock (s, code, detail)).mabin.holder = s.mabin.holder ∧
      (localAnswer op unlock (s, code, detail)).mabin.expires = s.mabin.expires ∧
      (localAnswer op unlock (s, code, detail)).mabin.staged = s.mabin.staged ∧
      (localAnswer op unlock (s, code, detail)).ver = s.ver := ⟨rfl, rfl, rfl, rfl⟩

theorem localResult_lock (s : State) (detail : Nat) :
    (localAnswer 1 false (s, 0, detail)).mabin.localResult = 2 ^ 60 + detail := by
  simp [localAnswer, b2n]

theorem rowLocalLock_locks {s : State} (may : MayWrite s .bar 0x1300 4 noRow (bytesOf 8 (2 ^ 60)))
    (free : s.mabin.holder = none) :
    (rowLocalLock s).mabin.holder = some 16 ∧ (rowLocalLock s).mabin.expires = leaseEnd s ∧
      (rowLocalLock s).mabin.localResult = 2 ^ 60 + rw s 0x1300 1 := by
  have takes := lockBy_takes (who := 16) (show lockExpiry s = s by rw [lockExpiry, free]) (.inl free)
  have does := localCmd_lock s
  rw [takes, takeLock_eq] at does
  obtain ⟨holder, expires, -, -, -, -, -, -, -, result⟩ :=
    (localWrite_keeps may ((congrArg _ (renewLease_of_free free 16)).trans does)).rest .lock rfl
  obtain ⟨kept, ends, -⟩ := localAnswer_keeps 1 false (locked s 16 (leaseEnd s)) 0 (rw s 0x1300 1)
  exact ⟨holder.trans kept, (expires.trans ends).trans (expires_locked ..), result.trans (localResult_lock ..)⟩

theorem rowLocalCommit_eq (s : State) {k : Nat} (small : k < 2 ^ 48) :
    rowLocalCommit k false s = localWrite (3 * 2 ^ 60 + k) s := by
  rw [rowLocalCommit, Nat.mod_eq_of_lt small]
  simp [b2n]

theorem rowLocalCommit_seals {s : State} {k : Nat} (small : k < 2 ^ 48)
    (may : MayWrite s .bar 0x1300 4 noRow (bytesOf 8 (3 * 2 ^ 60 + k))) (mine : s.mabin.holder = some 16)
    (lease : s.beat < s.mabin.expires) (lasts : leaseEnd s > s.beat) (some_ : anyStaged s = true)
    (fine : sealReason s k = 0) :
    (rowLocalCommit k false s).mabin.holder = some 16 ∧ (rowLocalCommit k false s).mabin.staged = [] ∧
      (rowLocalCommit k false s).ver.pending = s.ver.pending ++ [sealedNow (leased s (leaseEnd s)) k] := by
  rw [rowLocalCommit_eq s small]
  have does := localCmd_commit (leased s (leaseEnd s)) small
  rw [commitBy_seals (lockExpiry_leased lasts) ((holder_leased ..).trans mine)
    ((anyStaged_leased ..).trans some_) ((sealReason_leased ..).trans fine)] at does
  have wrote := localWrite_keeps may ((congrArg _ (renewLease_of_lease mine lease)).trans does)
  obtain ⟨holder, -, staged, -⟩ := wrote.rest .lock rfl
  have pending := congrArg Versions.pending (wrote.rest .version rfl)
  obtain ⟨kept, -, empty, version⟩ := localAnswer_keeps 3 false (sealed (leased s (leaseEnd s)) k) 0
    (stagedVer (leased s (leaseEnd s))).num
  obtain ⟨stays, none_, appended⟩ := sealed_seals (leased s (leaseEnd s)) k
  rw [ver_leased] at appended
  exact ⟨(holder.trans kept).trans (stays.trans ((holder_leased ..).trans mine)), (staged.trans empty).trans none_,
    pending.trans ((congrArg Versions.pending version).trans appended)⟩

/-- Settles O41, by what LOCK, COMMIT and UNLOCK come to when the lease has not ended. -/
theorem theStagingLockIsTakenCommittedAndFreed : Obligations.TheStagingLockIsTakenCommittedAndFreed := by
  refine ⟨?_, ?_, ?_, ?_, ?_, ?_, ?_⟩
  · intro s p m n x a type free lasts
    refine ⟨_, next_row a.run.2 (rowMabinLock p m), ?_⟩
    have takes := lockBy_takes (lockExpiry_heard a lasts) ((holder_heard s n x m).symm ▸ free)
    rw [rowMabinLock, row_accepted a (by simp [type]), serve_request a.here (by simp [type]), request_lock type, takes,
      codeReply_good, takeLock_eq, leaseEnd_heard]
    obtain ⟨holder, expires, -⟩ := answer_good_keeps (heard s n x m) (locked (heard s n x m) n (leaseEnd s)) n m
      (codeBody 0 0 (rw (heard s n x m) 0x1300 1))
    exact ⟨holder, expires.trans (expires_locked ..)⟩
  · intro s p m n x a type long noUnlock mine lasts some_ fine
    refine ⟨_, next_row a.run.2 (rowMabinCommit p m), ?_⟩
    have held := (holder_heard s n x m).trans mine
    have seals := commitReply_seals (minor := x.minor) long noUnlock (lockExpiry_heard a lasts) held
      ((anyStaged_heard s n x m).trans some_) ((sealReason_heard a.here m _).trans fine)
    rw [rowMabinCommit, row_accepted a (by simp [type]), serve_request a.here (by simp [type]), request_commit type, seals]
    obtain ⟨holder, -, staged, version⟩ := answer_good_keeps (sealed (heard s n x m) (natAt (msgBody m) 0 8))
      (sealed (heard s n x m) (natAt (msgBody m) 0 8)) n m (codeBody 0 0 (stagedVer (heard s n x m)).num)
    refine ⟨holder.trans held, staged, sealedNow (heard s n x m) _, ?_, rfl, ?_⟩
    · rw [version, sealed]
      dsimp only
      rw [(clockAndVersion_heard ..).2]
      rfl
    · rw [sealedNow, (clockAndVersion_heard ..).1]
  · intro s p m n x a type mine lasts
    refine ⟨_, next_row a.run.2 (rowMabinUnlock p m), ?_⟩
    have frees := unlockBy_frees (lockExpiry_heard a lasts) ((holder_heard s n x m).trans mine)
    have replies : unlockReply (heard s n x m) n = .good (freeLock (heard s n x m)) [] := by
      rw [unlockReply, frees]
      rfl
    rw [rowMabinUnlock, row_accepted a (by simp [type]), serve_request a.here (by simp [type]), request_unlock type, replies]
    obtain ⟨holder, -, staged, -⟩ := answer_good_keeps (heard s n x m) (freeLock (heard s n x m)) n m []
    exact ⟨holder, staged⟩
  · intro s may free
    exact ⟨_, next_row may.1.2 rowLocalLock, rowLocalLock_locks may free⟩
  · intro s may mine lease lasts
    refine ⟨_, next_row may.1.2 rowLocalUnlock, ?_⟩
    have does := localCmd_unlock (renewLease s 16)
    rw [renewLease_of_lease mine lease, unlockBy_frees (lockExpiry_leased lasts) ((holder_leased ..).trans mine)] at does
    have wrote := localWrite_keeps may ((congrArg _ (renewLease_of_lease mine lease)).trans does)
    obtain ⟨holder, -, staged, -⟩ := wrote.rest .lock rfl
    exact ⟨holder, staged⟩
  · intro s k small may mine lease lasts some_ fine
    refine ⟨_, next_row may.1.2 (rowLocalCommit k false), ?_⟩
    obtain ⟨held, staged, pending⟩ := rowLocalCommit_seals small may mine lease lasts some_ fine
    exact ⟨held, staged, sealedNow (leased s (leaseEnd s)) k, pending, rfl⟩
  · intro s h ⟨run, hs⟩ held ended
    refine ⟨_, next_row hs rowLockExpired, ?_⟩
    rw [rowLockExpired, whenRun_running run]
    exact lockExpiry_frees held ended

end Sys2Proof.Machine

namespace Sys2Proof.Machine

/-! ## HELLO (R561, R564) -/

theorem length_msgBody {m : Bytes} (size : m.length = 60) : (msgBody m).length = 24 := by
  simp [msgBody, msgSigned, size]

/-- An opening HELLO is heard outside every session. -/
theorem deliver_opening {path : MabinPath} {m : Bytes} {s : State} (opens : isOpening m = true) (size : m.length = 60) :
    deliver path m s = openSession s path m := by
  have fits : ¬ msgLimit path < m.length := by
    rw [size]
    cases path <;> decide
  have begins : deliver path m s = receive (99 + 1) path m s := rfl
  rw [begins, receive, if_neg fits, if_neg (by omega), if_pos opens]

/-- The answer of an accepted opening HELLO goes out of the state that holds the new session. -/
theorem openSession_opens {s : State} {path : MabinPath} {m : Bytes} {c : Cred} {v n : Nat} (size : m.length = 60)
    (whole : natAt m 6 2 = 60) (known : credOf s (byteAt (msgBody m) 4) = some c)
    (genuine : msgTag m = gmac c.key (slice (slice (msgBody m) 8 16) 0 12) (msgSigned m))
    (version : chooseVersion (natAt (msgBody m) 0 2) (natAt (msgBody m) 2 2) = some v)
    (free : (List.range 16).find? (fun n => (sessionAt s n).isNone) = some n) :
    ∃ b, openSession s path m = deliverMsg (withSession (drawNonce s).1 n (newSession (drawNonce s).1 path c.tier (v % 256)
      (byteAt (msgBody m) 4) (sessionKey c.key (slice (msgBody m) 8 16) (drawNonce s).2 n))) n path b := by
  unfold openSession
  dsimp only
  rw [known]
  dsimp only
  rw [if_neg (by simp [length_msgBody size, whole, size, genuine]), version]
  dsimp only
  rw [free]
  obtain ⟨u, pn⟩ := drawNonce s
  exact ⟨_, rfl⟩

theorem sessionAt_sendHeld {s : State} {n : Nat} {y : Session} (here : sessionAt s n = some y) (none_ : y.held = []) :
    sessionAt (sendHeld s n) n = some y := by
  rw [sendHeld, here]
  dsimp only
  rw [none_, modSession_eq here, List.foldl_nil, sessionAt_withSession, ← none_]

/-- The session that a rekey leaves (R564). -/
def rekeyed (y : Session) (key : Bytes) (minor : Nat) : Session :=
  { y with key := key, minor := minor, rxHigh := 0, rxSeen := [0], txCtr := 1 }

theorem rekeySession_rekeys {s : State} {n : Nat} {x y : Session} {m : Bytes} {c : Cred} {v : Nat}
    (minor : 2 ≤ x.minor) (long : (msgBody m).length = 24) (known : credOf s x.cred = some c)
    (version : chooseVersion (natAt (msgBody m) 0 2) (natAt (msgBody m) 2 2) = some v)
    (here : sessionAt s n = some y) (none_ : y.held = []) :
    sessionAt (rekeySession s n x m) n
      = some (rekeyed y (sessionKey c.key (slice (msgBody m) 8 16) (drawNonce s).2 n) (v % 256)) := by
  have drawn : sessionAt (drawNonce s).1 n = some y := here
  rw [rekeySession]
  dsimp only
  rw [if_neg (by omega), if_neg (by simp [long]), known]
  dsimp only
  rw [version]
  dsimp only
  rw [modSession_eq drawn]
  exact sessionAt_sendHeld ((sessionAt_deliverMsg ..).trans (sessionAt_withSession ..)) none_

theorem sessionAt_endSession (s : State) (n : Nat) : sessionAt (endSession s n) n = none :=
  tfind_terase_self ..

theorem closeSession_frees {s : State} {n : Nat} (mine : s.mabin.holder = some n) (m : Bytes) :
    (closeSession s n m).mabin.holder = none := by
  rw [closeSession, if_pos mine]
  obtain ⟨holder, -⟩ := (sendMsg_touches (freeLock s) n 1 0x80 (msgReq m) []).rest .lock rfl
  exact holder

theorem sessionAt_heard (s : State) (n : Nat) (x : Session) (m : Bytes) :
    sessionAt (heard s n x m) n = some (heardSession s x m) :=
  (sessionAt_renewLease ..).trans (sessionAt_withSession ..)

/-- What an accepted message leaves of the credentials and the entropy drawn. -/
theorem credentials_heard (s : State) (n : Nat) (x : Session) (m : Bytes) (slot : Nat) :
    credOf (heard s n x m) slot = credOf s slot ∧ (drawNonce (heard s n x m)).2 = (drawNonce s).2 := by
  obtain ⟨t, e, eq⟩ := heard_eq_expires s n x m
  rw [eq]
  exact ⟨rfl, rfl⟩

theorem serve_close {s : State} {n : Nat} {x : Session} {m : Bytes} (here : sessionAt s n = some x)
    (type : msgType m = 1) (close : msgClose m = true) (mbox : Bytes → State → State) :
    serve mbox (arrived s n m) n x m = closeSession (heard s n x m) n m := by
  rw [serve]
  dsimp only
  rw [heard_eq here, if_pos (by simp [type, close])]

theorem serve_rekey {s : State} {n : Nat} {x : Session} {m : Bytes} (here : sessionAt s n = some x)
    (type : msgType m = 1) (rekey : msgRekey m = true) (stays : msgClose m = false) (mbox : Bytes → State → State) :
    serve mbox (arrived s n m) n x m = rekeySession (heard s n x m) n x m := by
  rw [serve]
  dsimp only
  rw [heard_eq here, if_neg (by simp [stays]), if_pos (by simp [type, rekey])]

/-- Settles O39, by the session that each HELLO leaves. -/
theorem sessionsOpenRekeyAndClose : Obligations.SessionsOpenRekeyAndClose := by
  refine ⟨?_, ?_, ?_, ?_⟩
  · intro s p m c v n ⟨run, hs⟩ opens size whole known genuine version free
    refine ⟨_, next_row hs (rowMabinHello p m), ?_⟩
    have kind : (msgType m == 1 && !msgRekey m && !msgClose m) = true := by
      simp only [isOpening, Bool.and_eq_true] at opens ⊢
      obtain ⟨⟨⟨type, -⟩, rekey⟩, close⟩ := opens
      exact ⟨⟨type, rekey⟩, close⟩
    obtain ⟨b, opened⟩ := openSession_opens (path := p) size whole known genuine version free
    rw [rowMabinHello, mabinRow, whenRun_running run, kind, guardS_true, deliver_opening opens size, opened,
      sessionAt_deliverMsg, sessionAt_withSession]
    exact ⟨_, rfl, rfl, rfl, rfl, rfl, rfl, rfl, rfl⟩
  · intro s p m n v x c a type rekey stays minor long known none_ version
    refine ⟨_, next_row a.run.2 (rowMabinHelloRekey p m), ?_⟩
    obtain ⟨knows, draws⟩ := credentials_heard s n x m x.cred
    rw [rowMabinHelloRekey, row_accepted a (by simp [type, rekey, stays]), serve_rekey a.here type rekey stays,
      rekeySession_rekeys minor long (knows.trans known) version (sessionAt_heard ..) none_, draws]
    exact ⟨_, rfl, rfl, rfl, rfl, rfl, rfl, rfl⟩
  · intro s p m n x a type close
    refine ⟨_, next_row a.run.2 (rowMabinHelloClose p m), ?_⟩
    rw [rowMabinHelloClose, row_accepted a (by simp [type, close]), serve_close a.here type close]
    exact ⟨sessionAt_endSession .., fun mine => closeSession_frees ((holder_heard ..).trans mine) m⟩
  · intro s n ⟨run, hs⟩ idle
    refine ⟨_, next_row hs (rowSessionIdleExpiry n), ?_⟩
    rw [rowSessionIdleExpiry, whenRun_running run, idle, guardS_true]
    exact sessionAt_endSession ..

end Sys2Proof.Machine

namespace Sys2Proof.Machine

/-! ## Writes of the mailbox, of objects and of BAR words (R511, R512, R555, R560, R566) -/

/-- A LOCK message makes its session the holder of a lock that is free. -/
theorem deliver_lock {s : State} {path : MabinPath} {n : Nat} {x : Session} {m : Bytes} (a : Accepts s path n x m)
    (type : msgType m = 6) (free : s.mabin.holder = none) : (deliver path m s).mabin.holder = some n := by
  have still : (heard s n x m).mabin.holder = none := (holder_heard ..).trans free
  have unexpired : lockExpiry (heard s n x m) = heard s n x m := by rw [lockExpiry, still]
  rw [deliver_accepted a, serve_request a.here (by simp [type]), request_lock type, lockBy_takes unexpired (.inl still),
    codeReply_good]
  obtain ⟨holder, -⟩ := answer_good_keeps (heard s n x m) (takeLock (heard s n x m) n) n m
    (codeBody 0 0 (rw (heard s n x m) 0x1300 1))
  exact holder

theorem mboxWrite_lock {s : State} {n : Nat} {x : Session} {m : Bytes} (a : Accepts s .mailbox n x m)
    (type : msgType m = 6) (free : s.mabin.holder = none) (may : MayWrite s .bar 0x1100 7 noRow m) :
    (mboxWrite m s).mabin.holder = some n := by
  obtain ⟨⟨run, -⟩, here, fine⟩ := may
  have does : some (deliver .mailbox m (renewLease s 16)) = some (deliver .mailbox m s) := by
    rw [renewLease_of_free free]
  obtain ⟨tier, wrote⟩ := writeCmd_accepted (eff := fun s => some (deliver .mailbox m s)) run here
    ((writeError_renewLease ..).trans fine) does
  have isWrite : mboxWrite m s = writeCmd s .bar 0x1100 7 noRow m fun s => some (deliver .mailbox m s) := by
    have fits : ¬ 4096 < m.length := Nat.not_lt.mpr a.fits
    rw [mboxWrite, if_neg fits, writeCmd, whenRun_running run]
  obtain ⟨holder, -⟩ := (filtered_touches (deliver .mailbox m s) 2 tier (originMasters .bar) (0x1100 * 256 + 7) none 1).rest
    .lock rfl
  rw [isWrite, wrote]
  exact holder.trans (deliver_lock a type free)

theorem credWrite_stores {v : Bytes} (from_ : 1 ≤ byteAt v 0) (below : byteAt v 0 ≤ 8) (tier : byteAt v 1 ≤ 2) (s : State) :
    ∃ u, credWrite v s = some u ∧ tfind u.mabin.creds (byteAt v 0) = (if natOf (slice v 4 32) = 0 then none
      else some { tier := byteAt v 1, key := slice v 4 32 }) := by
  have ok : (byteAt v 0 = 0 || 8 < byteAt v 0 || 2 < byteAt v 1) = false := by
    simp
    omega
  refine ⟨_, if_neg (by simp [ok]), ?_⟩
  dsimp only
  split
  · exact tfind_terase_self ..
  · exact tfind_tins_self ..

/-- The row of `cnt.dump.period`. -/
theorem lookupObj_dumpPeriod : lookupObj 0x8820 1 = some (obj 0x8820 1 0x01 3 .rw 1 .chip 0 0 0 65535 4000) := by
  decide +kernel

theorem keptRow_dumpPeriod (v : Bytes) : keptRow 0x8820 1 noRow v = v := by
  have unmasked : findMask 0x8820 1 keepMasks = none := by decide +kernel
  rw [keptRow, if_neg (by decide), if_neg (by decide), keptValue, unmasked]

theorem isStaged_dumpPeriod : isStaged 0x8820 1 = false := by decide +kernel

theorem writeAny_dumpPeriod (mbox : Bytes → State → State) (v : Bytes) (s : State) :
    writeAny mbox 0x8820 1 noRow v s = some (setRw s 0x8820 1 noRow v) := by
  rw [writeAny, lookupObj_dumpPeriod]
  rfl

/-- An accepted write of `cnt.dump.period` stores the value. -/
theorem stored_writeObject_dumpPeriod {s : State} {src : Origin} {v : Bytes} (run : s.sys.run = .running)
    (here : (tierOf s src).isSome = true) (fine : writeError s src 0x8820 1 noRow v = 0) :
    stored (writeObject s src 0x8820 1 noRow v) 0x8820 1 noRow = v := by
  have isWrite : writeObject s src 0x8820 1 noRow v
      = writeCmd s src 0x8820 1 noRow v (writeAny (deliver .mailbox) 0x8820 1 noRow v) := by
    rw [writeObject, if_neg (by simp), anyWrite.eq_def, isStaged_dumpPeriod, writeCmd, whenRun_running run]
    rfl
  obtain ⟨tier, wrote⟩ := writeCmd_accepted run here ((writeError_renewLease ..).trans fine)
    (writeAny_dumpPeriod (deliver .mailbox) v (renewLease s (originNum src)))
  rw [isWrite, wrote, (filtered_touches ..).stored, stored_setRw, keptRow_dumpPeriod]

/-- A word of BAR0 that holds an object of a plain kind, outside the pool's requests, is a write of it. -/
theorem barWord_writes {off idx sub : Nat} {r : ObjRow} (index : off / 0x800 = idx) (place : off % 0x800 / 8 = sub)
    (here : lookupObj idx sub = some r) (plain : r.kind ≠ 8 ∧ r.kind ≠ 9) (other : 0x6940 ≤ idx) (s : State) (v : Nat) :
    barWord s off v = writeObject s .bar idx sub noRow (bytesOf (kindSize r.kind) v) := by
  obtain ⟨octets, table⟩ := plain
  rw [barWord, index, place, here]
  dsimp only
  rw [if_neg (by simp [octets, table]), if_neg (by simp; omega)]

theorem barWord_dumpPeriod (s : State) (v : Nat) :
    barWord s (0x8820 * 0x800 + 8) v = writeObject s .bar 0x8820 1 noRow (bytesOf 2 v) :=
  barWord_writes (by decide) (by decide) lookupObj_dumpPeriod (by decide) (by decide) s v

/-- A BAR4 word goes to the function's vectors, after the lease of the local session is renewed. -/
theorem rowBarWrite_vector {s : State} (run : s.sys.run = .running) (f off v : Nat) :
    ∃ u, Touches [.lock] s u ∧ rowBarWrite f 4 off v s = barVector u f off (v % 2 ^ 64) := by
  rw [rowBarWrite, whenRun_running run]
  generalize v % 2 ^ 64 = v
  by_cases physical : f = 0
  · refine ⟨renewLease s 16, renewLease_touches .., ?_⟩
    simp [barWriteWord, physical]
  · exact ⟨s, .refl, by simp [barWriteWord, physical]⟩

theorem Touches.fnEnabled {P : List Part} {s t : State} (h : Touches P s t) (f : Nat)
    (hP : among P .link = false := by rfl) : fnEnabled t f = fnEnabled s f := by
  obtain ⟨-, vfs⟩ := h.rest .link hP
  rw [Machine.fnEnabled, vfs, Machine.fnEnabled]

section
variable {s u : State} {f off v : Nat} (same : Touches [.lock] s u) (enabled : fnEnabled s f = true)
  (free : (fnAt s f).frozen = false) (from_ : 0x20000 ≤ off) (below : off < 0x30000)
include same enabled free from_ below

theorem barVector_of_own {w : Nat} (own : msixWord s f off = some w) :
    barVector u f off v = { u with host := { u.host with msix := tput 0 u.host.msix w v } } := by
  have running : fnEnabled u f = true := (same.fnEnabled f).trans enabled
  have word : msixWord u f off = some w := by rw [msixWord, same.rw]; exact own
  rw [barVector, running, same.fnAt, free, if_neg (by simp; omega), word]

theorem barVector_of_other (other : msixWord s f off = none) : barVector u f off v = freezeFn u f 2 off := by
  have running : fnEnabled u f = true := (same.fnEnabled f).trans enabled
  have word : msixWord u f off = none := by rw [msixWord, same.rw]; exact other
  rw [barVector, running, same.fnAt, free, if_neg (by simp; omega), word]

end

/-- Settles O43, by what each accepted write does to the state with the lease renewed. -/
theorem mailboxAndObjectWrites : Obligations.MailboxAndObjectWrites := by
  refine ⟨?_, ?_, ?_, ?_, ?_, ?_, ?_⟩
  · intro s m n x a type free may
    refine ⟨_, next_row may.1.2 (rowMboxInWrite m), ?_⟩
    rw [rowMboxInWrite, whenRun_running may.1.1]
    exact mboxWrite_lock a type free may
  · intro s ⟨run, hs⟩
    refine ⟨_, next_row hs rowMboxOutRead, ?_⟩
    have counts := countAccess_touches s .bar 1 0x1100 8
    obtain ⟨-, -, -, -, queue, -⟩ := counts.rest .sessions rfl
    rw [rowMboxOutRead, whenRun_running run]
    exact ⟨congrArg (· ++ [Output.mbox (mboxHead s)]) (counts.rest .out rfl), congrArg (·.drop 1) queue⟩
  · intro s src v may from_ below tier
    refine ⟨_, next_row may.1.2 (rowMabinCredWrite src v), ?_⟩
    obtain ⟨m, wrote⟩ := may.writes (credWrite v)
    obtain ⟨u, does, creds⟩ := credWrite_stores from_ below tier { s with mabin := m }
    obtain ⟨-, kept, -⟩ := (wrote u does).rest .sessions rfl
    exact (congrArg (tfind · (byteAt v 0)) kept).trans creds
  · intro s src v ⟨⟨run, hs⟩, here, fine⟩
    refine ⟨_, next_row hs (rowObjectWrite src 0x8820 1 noRow v), ?_⟩
    rw [rowObjectWrite, whenRun_running run]
    exact stored_writeObject_dumpPeriod run here fine
  · intro s v small ⟨⟨run, hs⟩, here, fine⟩
    refine ⟨_, next_row hs (rowBarWrite 0 0 (0x8820 * 0x800 + 8) v), ?_⟩
    have renewed := renewLease_touches s 16
    have running : (renewLease s 16).sys.run = .running := (congrArg Sys.run (renewed.rest .system rfl)).trans run
    rw [rowBarWrite, whenRun_running run, Nat.mod_eq_of_lt (by omega), barWriteWord, if_pos rfl, if_pos rfl,
      barWord_dumpPeriod]
    exact stored_writeObject_dumpPeriod running here ((writeError_renewLease ..).trans fine)
  · intro s f off v w ⟨run, hs⟩ enabled free from_ below word own
    refine ⟨_, next_row hs (rowBarWrite f 4 off v), ?_⟩
    obtain ⟨u, same, writes⟩ := rowBarWrite_vector run f off v
    rw [writes, Nat.mod_eq_of_lt word, barVector_of_own same enabled free from_ below own]
    have table : u.host.msix = s.host.msix := same.rest .vectors rfl
    exact ⟨tget_tput_self .., fun x other => (tget_tput_ne 0 0 u.host.msix v other).trans (by rw [table])⟩
  · intro s f off v ⟨run, hs⟩ enabled free from_ below other
    refine ⟨_, next_row hs (rowBarWrite f 4 off v), ?_⟩
    obtain ⟨u, same, writes⟩ := rowBarWrite_vector run f off v
    rw [writes, barVector_of_other same enabled free from_ below other]
    obtain ⟨frozen, -⟩ := freezeFn_freezes 2 off ((congrArg Fn.frozen (same.fnAt f)).trans free)
    have table : u.host.msix = s.host.msix := same.rest .vectors rfl
    exact ⟨frozen, ((freezeFn_touches ..).rest .vectors rfl).trans table⟩

end Sys2Proof.Machine

namespace Sys2Proof.Machine

/-! ## The state without the codes that are left to compute (R463)

A request is performed on a state in which its session has one more code to compute than in `served`. Nothing but the
arbiter of the lookaside unit reads that number: each function that a request reaches does the same to the state without
the codes, which the lemmas below say function by function. -/

def codelessSession (x : Session) : Session := { x with codes := 0 }

def codelessTbl (t : Tbl Session) : Tbl Session := t.map fun e => (e.1, codelessSession e.2)

def codelessMabin (m : Mabin) : Mabin := { m with sessions := codelessTbl m.sessions }

/-- The state in which no session has a message whose code is left to compute. -/
def codeless (s : State) : State := { s with mabin := codelessMabin s.mabin }

@[simp] theorem codelessMabin_fields (m : Mabin) :
    (codelessMabin m).creds = m.creds ∧ (codelessMabin m).holder = m.holder ∧ (codelessMabin m).expires = m.expires ∧
      (codelessMabin m).staged = m.staged ∧ (codelessMabin m).emptied = m.emptied ∧ (codelessMabin m).image = m.image ∧
      (codelessMabin m).imageDone = m.imageDone ∧ (codelessMabin m).imageHere = m.imageHere ∧
      (codelessMabin m).target = m.target ∧ (codelessMabin m).imageStatus = m.imageStatus ∧
      (codelessMabin m).localResult = m.localResult ∧ (codelessMabin m).mboxOut = m.mboxOut ∧
      (codelessMabin m).authFailTick = m.authFailTick ∧ (codelessMabin m).drawn = m.drawn ∧
      (codelessMabin m).collect = m.collect ∧ (codelessMabin m).sessions = codelessTbl m.sessions :=
  ⟨rfl, rfl, rfl, rfl, rfl, rfl, rfl, rfl, rfl, rfl, rfl, rfl, rfl, rfl, rfl, rfl⟩

@[simp] theorem codeless_fields (s : State) :
    (codeless s).pending = s.pending ∧ (codeless s).beat = s.beat ∧ (codeless s).rm = s.rm ∧ (codeless s).sys = s.sys ∧
      (codeless s).objs = s.objs ∧ (codeless s).held = s.held ∧ (codeless s).deferred = s.deferred ∧
      (codeless s).digObjs = s.digObjs ∧ (codeless s).digVer = s.digVer ∧ (codeless s).ver = s.ver ∧
      (codeless s).pkts = s.pkts ∧ (codeless s).nextPkt = s.nextPkt ∧ (codeless s).ports = s.ports ∧
      (codeless s).lanes = s.lanes ∧ (codeless s).buf = s.buf ∧ (codeless s).mem = s.mem ∧ (codeless s).pipes = s.pipes ∧
      (codeless s).clusters = s.clusters ∧ (codeless s).tbs = s.tbs ∧ (codeless s).pinsOut = s.pinsOut ∧
      (codeless s).pinsIn = s.pinsIn ∧ (codeless s).cipher = s.cipher ∧ (codeless s).host = s.host ∧
      (codeless s).mabin = codelessMabin s.mabin ∧ (codeless s).cnt = s.cnt ∧ (codeless s).beacon = s.beacon ∧
      (codeless s).out = s.out := by
  refine ⟨rfl, rfl, rfl, rfl, rfl, rfl, rfl, rfl, rfl, rfl, rfl, rfl, rfl, rfl, rfl, rfl, rfl, rfl, rfl, rfl, rfl, rfl,
    rfl, rfl, rfl, rfl, rfl⟩

/-- A codeless part makes the state codeless. -/
@[simp] theorem mk_codelessMabin (pending : List Instr) (beat rm sys objs held deferred digObjs digVer ver pkts nextPkt ports
    lanes buf mem pipes clusters tbs pinsOut pinsIn cipher host m cnt beacon out) :
    State.mk pending beat rm sys objs held deferred digObjs digVer ver pkts nextPkt ports lanes buf mem pipes clusters tbs
      pinsOut pinsIn cipher host (codelessMabin m) cnt beacon out
    = codeless (State.mk pending beat rm sys objs held deferred digObjs digVer ver pkts nextPkt ports lanes buf mem pipes
      clusters tbs pinsOut pinsIn cipher host m cnt beacon out) := rfl

@[simp] theorem mk_codelessTbl (t creds holder expires staged emptied image imageDone imageHere target imageStatus localResult
    mboxOut authFailTick drawn collect) :
    Mabin.mk (codelessTbl t) creds holder expires staged emptied image imageDone imageHere target imageStatus localResult
      mboxOut authFailTick drawn collect
    = codelessMabin (Mabin.mk t creds holder expires staged emptied image imageDone imageHere target imageStatus localResult
      mboxOut authFailTick drawn collect) := rfl

@[simp] theorem codeless_codeless (s : State) : codeless (codeless s) = codeless s := by
  have twice : codelessTbl (codelessTbl s.mabin.sessions) = codelessTbl s.mabin.sessions := by
    simp [codelessTbl, codelessSession]
  simp only [codeless, codelessMabin, twice]

@[simp] theorem ite_codeless (c : Prop) [Decidable c] (s t : State) :
    (if c then codeless s else codeless t) = codeless (if c then s else t) := (apply_ite codeless c s t).symm

theorem tfind_codelessTbl (t : Tbl Session) (n : Nat) :
    tfind (codelessTbl t) n = (tfind t n).map codelessSession := by
  induction t with
  | nil => rfl
  | cons e t ih =>
    obtain ⟨k, x⟩ := e
    by_cases here : k = n
    · simp [codelessTbl, tfind, here]
    · simpa [codelessTbl, tfind, here] using ih

@[simp] theorem sessionAt_codeless (s : State) (n : Nat) : sessionAt (codeless s) n = (sessionAt s n).map codelessSession :=
  tfind_codelessTbl ..

@[simp] theorem tins_codelessTbl (t : Tbl Session) (n : Nat) (x : Session) :
    tins (codelessTbl t) n (codelessSession x) = codelessTbl (tins t n x) := by
  induction t with
  | nil => rfl
  | cons e t ih =>
    obtain ⟨k, y⟩ := e
    by_cases below : n < k
    · simp [codelessTbl, tins, below]
    · by_cases here : n = k
      · simp [codelessTbl, tins, here]
      · simpa [codelessTbl, tins, below, here] using ih

@[simp] theorem terase_codelessTbl (t : Tbl Session) (n : Nat) : terase (codelessTbl t) n = codelessTbl (terase t n) := by
  induction t with
  | nil => rfl
  | cons e t ih =>
    obtain ⟨k, y⟩ := e
    by_cases here : k = n
    · simpa [codelessTbl, terase, here] using ih
    · simpa [codelessTbl, terase, here] using ih

end Sys2Proof.Machine

namespace Sys2Proof.Machine

/-! ## What does not read the codes reads the same without them -/

/-- The time, the leases and the stored values. -/
@[simp] theorem clockReaders_codeless (s : State) :
    beatAfter (codeless s) = beatAfter s ∧ due (codeless s) = due s ∧ leaseEnd (codeless s) = leaseEnd s ∧ leaseLeft (codeless s) = leaseLeft s ∧
      holderDetail (codeless s) = holderDetail s ∧ stored (codeless s) = stored s ∧
      storedRow (codeless s) = storedRow s ∧ rw (codeless s) = rw s ∧ rwBool (codeless s) = rwBool s ∧
      rwRow (codeless s) = rwRow s ∧ anyStaged (codeless s) = anyStaged s ∧ credOf (codeless s) = credOf s := by
  refine ⟨rfl, rfl, rfl, rfl, rfl, rfl, rfl, rfl, rfl, rfl, rfl, rfl⟩

/-- Versions and staging. -/
@[simp] theorem versionReaders_codeless (s : State) :
    curVer (codeless s) = curVer s ∧ slotVer (codeless s) = slotVer s ∧ isLive (codeless s) = isLive s ∧ stagedVer (codeless s) = stagedVer s ∧
      stagedRead (codeless s) = stagedRead s ∧ sealReason (codeless s) = sealReason s ∧
      errDetail (codeless s) = errDetail s ∧ blockItems (codeless s) = blockItems s ∧
      slotTaken (codeless s) = slotTaken s ∧ slotRevoked (codeless s) = slotRevoked s ∧
      captureBytes (codeless s) = captureBytes s := by
  refine ⟨rfl, rfl, rfl, rfl, rfl, rfl, rfl, rfl, rfl, rfl, rfl⟩

/-- Ports, lanes and time bases. -/
@[simp] theorem portReaders_codeless (s : State) :
    portAt (codeless s) = portAt s ∧ portAn (codeless s) = portAn s ∧ portEnabled (codeless s) = portEnabled s ∧ portMode (codeless s) = portMode s ∧
      portOfLane (codeless s) = portOfLane s ∧ portRate (codeless s) = portRate s ∧
      usedMode (codeless s) = usedMode s ∧ isUp (codeless s) = isUp s ∧ laneAt (codeless s) = laneAt s ∧
      footprint (codeless s) = footprint s ∧ lanesWanted (codeless s) = lanesWanted s ∧
      powerLanes (codeless s) = powerLanes s ∧ fecFor (codeless s) = fecFor s ∧ enableOk (codeless s) = enableOk s ∧
      eeeOk (codeless s) = eeeOk s ∧ eqOk (codeless s) = eqOk s ∧ clockGood (codeless s) = clockGood s ∧
      lockTimer (codeless s) = lockTimer s ∧ flushSet (codeless s) = flushSet s ∧ tbAt (codeless s) = tbAt s ∧
      tbRate (codeless s) = tbRate s ∧ tbSppm (codeless s) = tbSppm s ∧ newSession (codeless s) = newSession s ∧
      helloBody (codeless s) = helloBody s := by
  refine ⟨rfl, rfl, rfl, rfl, rfl, rfl, rfl, rfl, rfl, rfl, rfl, rfl, rfl, rfl, rfl, rfl, rfl, rfl, rfl, rfl,
    rfl, rfl, rfl, rfl⟩

/-- Packets, the buffer and the scheduler. -/
@[simp] theorem packetReaders_codeless (s : State) :
    pktAt (codeless s) = pktAt s ∧ arrivedBytes (codeless s) = arrivedBytes s ∧ cellsNeeded (codeless s) = cellsNeeded s ∧
      stompBytes (codeless s) = stompBytes s ∧ overhead (codeless s) = overhead s ∧
      frameBeats (codeless s) = frameBeats s ∧ crossesNow (codeless s) = crossesNow s ∧
      homePipe (codeless s) = homePipe s ∧ judgeTail (codeless s) = judgeTail s ∧ parseCtx (codeless s) = parseCtx s ∧
      pass1 (codeless s) = pass1 s ∧ liveRow (codeless s) = liveRow s ∧ nodeRow (codeless s) = nodeRow s ∧
      subSvc (codeless s) = subSvc s ∧ busyQueues (codeless s) = busyQueues s ∧ acctAt (codeless s) = acctAt s ∧
      headroom (codeless s) = headroom s ∧ sharedFree (codeless s) = sharedFree s ∧
      minCells (codeless s) = minCells s ∧ onePool (codeless s) = onePool s ∧ rUsed (codeless s) = rUsed s ∧
      xOf (codeless s) = xOf s ∧ reservesOk (codeless s) = reservesOk s := by
  refine ⟨rfl, rfl, rfl, rfl, rfl, rfl, rfl, rfl, rfl, rfl, rfl, rfl, rfl, rfl, rfl, rfl, rfl, rfl, rfl, rfl,
    rfl, rfl, rfl⟩

/-- Pipes, rings, functions, pools and units. -/
@[simp] theorem hostReaders_codeless (s : State) :
    pipeAt (codeless s) = pipeAt s ∧ pipeOff (codeless s) = pipeOff s ∧ pipeMayStop (codeless s) = pipeMayStop s ∧
      bankLegacy (codeless s) = bankLegacy s ∧ curWidth (codeless s) = curWidth s ∧ natAddr (codeless s) = natAddr s ∧
      steer (codeless s) = steer s ∧ ringAt (codeless s) = ringAt s ∧ ringOwner (codeless s) = ringOwner s ∧
      ringPipeOn (codeless s) = ringPipeOn s ∧ ringRow (codeless s) = ringRow s ∧
      ringRowOk (codeless s) = ringRowOk s ∧ ringVector (codeless s) = ringVector s ∧
      phaseBit (codeless s) = phaseBit s ∧ elemAddr (codeless s) = elemAddr s ∧ elemBytes (codeless s) = elemBytes s ∧
      inGrant (codeless s) = inGrant s ∧ inWindow (codeless s) = inWindow s ∧ holds (codeless s) = holds s ∧
      fnAt (codeless s) = fnAt s ∧ pools (codeless s) = pools s ∧ localCountOk (codeless s) = localCountOk s ∧
      regionOk (codeless s) = regionOk s ∧ minimaOk (codeless s) = minimaOk s ∧ boundsOk (codeless s) = boundsOk s ∧
      collectorOk (codeless s) = collectorOk s ∧ cipherUnit (codeless s) = cipherUnit s ∧
      saRowOk (codeless s) = saRowOk s ∧ chained (codeless s) = chained s ∧
      chainedUpper (codeless s) = chainedUpper s ∧ addFiltered (codeless s) = addFiltered s := by
  refine ⟨rfl, rfl, rfl, rfl, rfl, rfl, rfl, rfl, rfl, rfl, rfl, rfl, rfl, rfl, rfl, rfl, rfl, rfl, rfl, rfl,
    rfl, rfl, rfl, rfl, rfl, rfl, rfl, rfl, rfl, rfl, rfl⟩

/-- Updates of objects, versions, staging and the clock. -/
@[simp] theorem memoryUpdates_codeless (s : State) :
    (∀ idx sub row v, setRw (codeless s) idx sub row v = codeless (setRw s idx sub row v)) ∧
    (∀ k v, deferWrite (codeless s) k v = codeless (deferWrite s k v)) ∧
    (∀ x, soonDo (codeless s) x = codeless (soonDo s x)) ∧
    (∀ idx sub row v, stageRow (codeless s) idx sub row v = codeless (stageRow s idx sub row v)) ∧
    (∀ idx sub, stageEmpty (codeless s) idx sub = codeless (stageEmpty s idx sub)) ∧
    clearStaging (codeless s) = codeless (clearStaging s) ∧
    freeLock (codeless s) = codeless (freeLock s) ∧
    (∀ who, takeLock (codeless s) who = codeless (takeLock s who)) ∧
    (∀ e, logEvent (codeless s) e = codeless (logEvent s e)) ∧
    (∀ v, logAckWrite v (codeless s) = (logAckWrite v s).map codeless) ∧
    useFresh (codeless s) = codeless (useFresh s) ∧
    (∀ j revoked hash, putFuse (codeless s) j revoked hash = codeless (putFuse s j revoked hash)) ∧
    mboxTaken (codeless s) = codeless (mboxTaken s) ∧
    lowReset (codeless s) = codeless (lowReset s) ∧
    (∀ k f, modSlot (codeless s) k f = codeless (modSlot s k f)) ∧
    (∀ keep drop, forgetVersions (codeless s) keep drop = codeless (forgetVersions s keep drop)) := by
  refine ⟨fun _ _ _ _ => rfl, fun _ _ => rfl, fun _ => rfl, fun _ _ _ _ => rfl, fun _ _ => rfl, rfl, rfl,
    fun _ => rfl, fun _ => rfl, fun _ => rfl, rfl, fun _ _ _ => rfl, rfl, rfl, fun _ _ => rfl, fun _ _ => rfl⟩

/-- Updates of ports, lanes, time bases, packets and the buffer. -/
@[simp] theorem portUpdates_codeless (s : State) :
    (∀ n f, modPort (codeless s) n f = codeless (modPort s n f)) ∧
    (∀ l f, modLane (codeless s) l f = codeless (modLane s l f)) ∧
    (∀ t f, modTb (codeless s) t f = codeless (modTb s t f)) ∧
    (∀ id f, modPkt (codeless s) id f = codeless (modPkt s id f)) ∧
    (∀ id, dropPkt (codeless s) id = codeless (dropPkt s id)) ∧
    (∀ k f, modNode (codeless s) k f = codeless (modNode s k f)) ∧
    (∀ q f, modQueue (codeless s) q f = codeless (modQueue s q f)) ∧
    (∀ n f, modAcct (codeless s) n f = codeless (modAcct s n f)) ∧
    (∀ k, zeroDeficit (codeless s) k = codeless (zeroDeficit s k)) ∧
    (∀ cells, fromFree (codeless s) cells = codeless (fromFree s cells)) ∧
    (∀ row hit bad ttl tick,
      countEntry (codeless s) row hit bad ttl tick = codeless (countEntry s row hit bad ttl tick)) ∧
    (∀ source tier masters addr cls k,
      filtered (codeless s) source tier masters addr cls k = codeless (filtered s source tier masters addr cls k)) ∧
    (∀ f, modCnt (codeless s) f = codeless (modCnt s f)) ∧
    (∀ o, emit (codeless s) o = codeless (emit s o)) := by
  refine ⟨fun _ _ => rfl, fun _ _ => rfl, fun _ _ => rfl, fun _ _ => rfl, fun _ => rfl, fun _ _ => rfl,
    fun _ _ => rfl, fun _ _ => rfl, fun _ => rfl, fun _ => rfl, fun _ _ _ _ _ => rfl, fun _ _ _ _ _ _ => rfl,
    fun _ => rfl, fun _ => rfl⟩

/-- Updates of pipes, rings, functions, arbiters and pools. -/
@[simp] theorem hostUpdates_codeless (s : State) :
    (∀ p f, modPipe (codeless s) p f = codeless (modPipe s p f)) ∧
    (∀ p kind arg, pushCmd (codeless s) p kind arg = codeless (pushCmd s p kind arg)) ∧
    (∀ g, dropWrites (codeless s) g = codeless (dropWrites s g)) ∧
    (∀ g, wipeBank (codeless s) g = codeless (wipeBank s g)) ∧
    (∀ r f, modRing (codeless s) r f = codeless (modRing s r f)) ∧
    (∀ r row, putRingRow (codeless s) r row = codeless (putRingRow s r row)) ∧
    (∀ r, signalRing (codeless s) r = codeless (signalRing s r)) ∧
    (∀ n f, modFn (codeless s) n f = codeless (modFn s n f)) ∧
    (∀ a f, modArb (codeless s) a f = codeless (modArb s a f)) ∧
    (∀ a, endGrant (codeless s) a = codeless (endGrant s a)) ∧
    (∀ f, modPools (codeless s) f = codeless (modPools s f)) ∧
    (∀ q, takeReq q (codeless s) = codeless (takeReq q s)) ∧
    (∀ o, freeAllOf (codeless s) o = codeless (freeAllOf s o)) := by
  refine ⟨fun _ _ => rfl, fun _ _ _ => rfl, fun _ => rfl, fun _ => rfl, fun _ _ => rfl, fun _ _ => rfl,
    fun _ => rfl, fun _ _ => rfl, fun _ _ => rfl, fun _ => rfl, fun _ => rfl, fun _ => rfl, fun _ => rfl⟩

end Sys2Proof.Machine

namespace Sys2Proof.Machine

/-! ## Events, freezes and versions do the same without the codes -/

theorem foldl_codeless_of {α : Type} {f g : State → α → State} (same : ∀ t a, f (codeless t) a = codeless (g t a))
    (l : List α) (s : State) : l.foldl f (codeless s) = codeless (l.foldl g s) := by
  induction l generalizing s with
  | nil => rfl
  | cons a l ih => rw [List.foldl_cons, List.foldl_cons, same, ih]

@[simp] theorem foldl_codeless {α : Type} {f : State → α → State} (same : ∀ t a, f (codeless t) a = codeless (f t a))
    (l : List α) (s : State) : l.foldl f (codeless s) = codeless (l.foldl f s) := foldl_codeless_of same l s

@[simp] theorem map_codeless_ite (c : Prop) [Decidable c] (a b : Option State) :
    (if c then a else b).map codeless = if c then a.map codeless else b.map codeless := apply_ite ..

@[simp] theorem prodMap_codeless_ite {α β : Type} (f : α → β) (c : Prop) [Decidable c] (a b : State × α) :
    Prod.map codeless f (if c then a else b) = if c then Prod.map codeless f a else Prod.map codeless f b := apply_ite ..

@[simp] theorem count_codeless (s : State) (n k : Nat) : count (codeless s) n k = codeless (count s n k) := by
  simp [count]

@[simp] theorem queueEvent_codeless (s : State) (e : Event) : queueEvent (codeless s) e = codeless (queueEvent s e) := by
  simp [queueEvent]

/-- A session with one more notification. -/
def noted (x : Session) (b : Bytes) : Session :=
  { x with
    notifySeq := (x.notifySeq + 1) % 2 ^ 32
    notifyQ := if decide (x.notifyQ.length < 256) then x.notifyQ ++ [bytesOf 4 (x.notifySeq + 1) ++ b] else x.notifyQ }

theorem notify_eq (s : State) (n : Nat) (x : Session) (b : Bytes) :
    notify s n x b = if decide (x.notifyQ.length < 256) then withSession s n (noted x b)
      else count (withSession s n (noted x b)) (cPart 12) 1 := rfl

@[simp] theorem withSession_codeless (s : State) (n : Nat) (x : Session) :
    withSession (codeless s) n (codelessSession x) = codeless (withSession s n x) := by
  simp [withSession]

theorem notify_codeless (s : State) (n : Nat) (x : Session) (b : Bytes) :
    notify (codeless s) n (codelessSession x) b = codeless (notify s n x b) := by
  have room : (codelessSession x).notifyQ = x.notifyQ := rfl
  have same : noted (codelessSession x) b = codelessSession (noted x b) := rfl
  rw [notify_eq, notify_eq, room, same]
  simp

theorem wantsEvent_codeless (x : Session) (code : Nat) : wantsEvent (codelessSession x) code = wantsEvent x code := rfl

@[simp] theorem tellSessions_codeless (s : State) (e : Event) : tellSessions (codeless s) e = codeless (tellSessions s e) := by
  have each : ∀ (l : Tbl Session) (t : State),
      (codelessTbl l).foldl (fun s x => if wantsEvent x.2 e.code then notify s x.1 x.2 (eventRecord e) else s) (codeless t)
        = codeless (l.foldl (fun s x => if wantsEvent x.2 e.code then notify s x.1 x.2 (eventRecord e) else s) t) := by
    intro l t
    rw [codelessTbl, List.foldl_map]
    exact foldl_codeless_of (fun t x => by simp [notify_codeless, wantsEvent_codeless]) l t
  exact each ..

@[simp] theorem postEvent_codeless (s : State) (e : Event) : postEvent (codeless s) e = codeless (postEvent s e) := by
  simp [postEvent]

@[simp] theorem startFreeze_codeless (s : State) (trigger code : Nat) :
    startFreeze (codeless s) trigger code = codeless (startFreeze s trigger code) := by
  simp [startFreeze]

@[simp] theorem raiseAt_codeless (s : State) (code source tick : Nat) (values : List Nat) :
    raiseAt (codeless s) code source tick values = codeless (raiseAt s code source tick values) := by
  simp [raiseAt]

@[simp] theorem raiseEv_codeless (s : State) (code source : Nat) (values : List Nat) :
    raiseEv (codeless s) code source values = codeless (raiseEv s code source values) := by
  simp [raiseEv]

@[simp] theorem freezeMaster_codeless (s : State) (type cls num : Nat) :
    freezeMaster (codeless s) type cls num = codeless (freezeMaster s type cls num) := by
  simp [freezeMaster]

@[simp] theorem freezeFn_codeless (s : State) (f cause detail : Nat) :
    freezeFn (codeless s) f cause detail = codeless (freezeFn s f cause detail) := by
  simp [freezeFn]

@[simp] theorem freshBytes_codeless (n : Nat) (s : State) :
    freshBytes n (codeless s) = Prod.map codeless id (freshBytes n s) := by
  induction n generalizing s with
  | zero => rfl
  | succ n ih =>
    have value : freshValue (codeless s) = freshValue s := rfl
    simp [freshBytes, ih, value]

@[simp] theorem lockExpiry_codeless (s : State) : lockExpiry (codeless s) = codeless (lockExpiry s) := by
  simp only [lockExpiry, codeless_fields, codelessMabin_fields, clockReaders_codeless, memoryUpdates_codeless,
    raiseEv_codeless, ite_codeless]
  split <;> rfl

@[simp] theorem renewLease_codeless (s : State) (who : Nat) : renewLease (codeless s) who = codeless (renewLease s who) := by
  simp [renewLease]

@[simp] theorem reject_codeless (s : State) (num reason : Nat) :
    reject (codeless s) num reason = codeless (reject s num reason) := by
  simp [reject]

@[simp] theorem freeSlot_codeless (s : State) (k : Option Nat) : freeSlot (codeless s) k = codeless (freeSlot s k) := by
  cases k <;> simp [freeSlot]

@[simp] theorem rejectFrom_codeless (s : State) (num reason : Nat) :
    rejectFrom (codeless s) num reason = codeless (rejectFrom s num reason) := by
  simp [rejectFrom]

@[simp] theorem cancelVersion_codeless (num : Nat) (s : State) :
    cancelVersion num (codeless s) = (cancelVersion num s).map codeless := by
  simp only [cancelVersion, codeless_fields, rejectFrom_codeless]
  split
  · simp
  · rfl

@[simp] theorem sealVersion_codeless (s : State) (target : Nat) :
    sealVersion (codeless s) target = Prod.map codeless id (sealVersion s target) := by
  simp [sealVersion]

/-! ## The lock and the fuses -/

@[simp] theorem lockBy_codeless (s : State) (who : Nat) : lockBy (codeless s) who = Prod.map codeless id (lockBy s who) := by
  simp only [lockBy, lockExpiry_codeless, codeless_fields, codelessMabin_fields, clockReaders_codeless,
    memoryUpdates_codeless]
  split
  · rfl
  · simp

@[simp] theorem unlockBy_codeless (s : State) (who : Nat) :
    unlockBy (codeless s) who = Prod.map codeless id (unlockBy s who) := by
  simp [unlockBy]

@[simp] theorem commitBy_codeless (s : State) (who target : Nat) (unlock : Bool) :
    commitBy (codeless s) who target unlock = Prod.map codeless id (commitBy s who target unlock) := by
  rcases e : sealVersion (lockExpiry s) target with ⟨u, r | num⟩ <;> simp [commitBy, e]

@[simp] theorem localAnswer_codeless (op : Nat) (unlock : Bool) (r : State × Nat × Nat) :
    localAnswer op unlock (Prod.map codeless id r) = codeless (localAnswer op unlock r) := rfl

@[simp] theorem localCmd_codeless (w : Nat) (s : State) : localCmd w (codeless s) = (localCmd w s).map codeless := by
  simp [localCmd]

@[simp] theorem stageImage_codeless (s : State) (image : Bytes) (last : Bool) :
    stageImage (codeless s) image last = (stageImage s image last).map codeless := by
  simp [stageImage]

@[simp] theorem burnFuse_codeless (s : State) (j : FuseJob) : burnFuse (codeless s) j = codeless (burnFuse s j) := by
  unfold burnFuse
  split <;> simp

@[simp] theorem startFuses_codeless (s : State) : startFuses (codeless s) = codeless (startFuses s) := by
  simp [startFuses]

@[simp] theorem queueFuse_codeless (s : State) (j : FuseJob) : queueFuse (codeless s) j = codeless (queueFuse s j) := by
  simp [queueFuse]

end Sys2Proof.Machine

namespace Sys2Proof.Machine

/-! ## Rings and packets do the same without the codes -/

@[simp] theorem dmaWrite_codeless (s : State) (r addr : Nat) (b : Bytes) :
    dmaWrite (codeless s) r addr b = codeless (dmaWrite s r addr b) := by
  simp [dmaWrite]

@[simp] theorem writeBack_codeless (s : State) (r : Nat) (words : List Nat) :
    writeBack (codeless s) r words = codeless (writeBack s r words) := by
  simp [writeBack, headWrite, notSignalled]

theorem drainBegun_codeless (r n : Nat) (s : State) : drainBegun r n (codeless s) = codeless (drainBegun r n s) := by
  induction n generalizing s with
  | zero => rfl
  | succ n ih =>
    simp only [drainBegun, hostReaders_codeless, hostUpdates_codeless, writeBack_codeless]
    split
    · exact ih _
    · rfl

@[simp] theorem completeCount_codeless (s : State) (r c : Nat) (words : List Nat) :
    completeCount (codeless s) r c words = codeless (completeCount s r c words) := by
  simp [completeCount, drainBegun_codeless]

@[simp] theorem enterWriteback_codeless (s : State) (k : Pkt) (bad : Nat) :
    enterWriteback (codeless s) k bad = codeless (enterWriteback s k bad) := by
  cases k
  unfold enterWriteback
  split <;> simp

@[simp] theorem countR_codeless (s : State) (o k tick : Nat) : countR (codeless s) o k tick = codeless (countR s o k tick) := by
  simp [countR]

@[simp] theorem countExcs_codeless (s : State) (k : Pkt) : countExcs (codeless s) k = codeless (countExcs s k) := by
  simp [countExcs]

@[simp] theorem countHits_codeless (s : State) (hits : List Nat) (tick : Nat) :
    countHits (codeless s) hits tick = codeless (countHits s hits tick) := by
  simp [countHits]

@[simp] theorem settleDeficits_codeless (s : State) (sub : Nat) :
    settleDeficits (codeless s) sub = codeless (settleDeficits s sub) := by
  simp [settleDeficits]

@[simp] theorem creditFrame_codeless (s : State) (k : Pkt) (n : Nat) :
    creditFrame (codeless s) k n = codeless (creditFrame s k n) := by
  simp [creditFrame]

@[simp] theorem discardPkt_codeless (s : State) (id : Nat) : discardPkt (codeless s) id = codeless (discardPkt s id) := by
  have tx (t : State) (k : Pkt) (status : Nat) : txFinish (codeless t) k status = codeless (txFinish t k status) := by
    unfold txFinish
    split <;> simp
  simp only [discardPkt, packetReaders_codeless]
  split
  · rfl
  · simp [tx, leaveQueue, freePkt, returnCells]

@[simp] theorem stomp_codeless (s : State) (k : Pkt) (b : Bytes) : stomp (codeless s) k b = codeless (stomp s k b) := by
  simp [stomp]

/-- What the cells of a frame are read as. -/
theorem readCells_codeless (n : Nat) (cells : List (Nat × Ecc)) (s : State) :
    readCells n cells (codeless s) = Prod.map codeless id (readCells n cells s) := by
  induction cells generalizing s with
  | nil => rfl
  | cons c cells ih =>
    obtain ⟨i, ecc⟩ := c
    have value : freshValue (codeless s) = freshValue s := rfl
    cases ecc <;> simp [readCells, ih, value]

@[simp] theorem mirrorCopy_codeless (s : State) (k : Pkt) (cells : List (Nat × Ecc)) :
    mirrorCopy (codeless s) k cells = Prod.map codeless id (mirrorCopy s k cells) := by
  unfold mirrorCopy
  split
  · rfl
  · simp [readCells_codeless, addCopy]

@[simp] theorem crossHome_codeless (s : State) (k : Pkt) : crossHome (codeless s) k = codeless (crossHome s k) := by
  simp only [crossHome, versionReaders_codeless, packetReaders_codeless]
  split <;> simp

@[simp] theorem goodTail_codeless (s : State) (k : Pkt) (cells : List (Nat × Ecc)) :
    goodTail (codeless s) k cells = codeless (goodTail s k cells) := by
  simp [goodTail]

@[simp] theorem badTail_codeless (s : State) (k : Pkt) (bad : Nat) (cut : Bool) :
    badTail (codeless s) k bad cut = codeless (badTail s k bad cut) := by
  cases e : k.dec.entry <;> simp [badTail, e]

@[simp] theorem tailEffects_codeless (s : State) (k : Pkt) (cut : Bool) (cells : List (Nat × Ecc)) :
    tailEffects (codeless s) k cut cells = codeless (tailEffects s k cut cells) := by
  simp [tailEffects, countAccepted]

/-! ## Cells -/

@[simp] theorem charge1_codeless (s : State) (n k : Nat) : charge1 (codeless s) n k = (charge1 s n k).map codeless := by
  simp [charge1]

theorem charge_codeless (n k c : Nat) (s : State) : charge n k c (codeless s) = (charge n k c s).map codeless := by
  induction c generalizing s with
  | zero => rfl
  | succ c ih =>
    rw [charge, charge, charge1_codeless]
    cases charge1 s n k with
    | none => rfl
    | some t => exact ih t

@[simp] theorem takeUpTo_codeless (s : State) (k : Pkt) (bytes : Nat) :
    takeUpTo (codeless s) k bytes = (takeUpTo s k bytes).map codeless := by
  simp [takeUpTo, takeCells, charge_codeless, Function.comp_def]

@[simp] theorem headroomOverflow_codeless (s : State) (n k : Nat) :
    headroomOverflow (codeless s) n k = codeless (headroomOverflow s n k) := by
  simp [headroomOverflow]

@[simp] theorem overflowWithin_codeless (s : State) (k : Pkt) :
    overflowWithin (codeless s) k = codeless (overflowWithin s k) := by
  cases e : k.tx <;> simp [overflowWithin, e]

/-! ## The search at a frame's end -/

@[simp] theorem selectMirror_codeless (s : State) (v : VerCfg) (p sess : Nat) :
    selectMirror (codeless s) v p sess = Prod.map codeless id (selectMirror s v p sess) := by
  simp [selectMirror]

@[simp] theorem exactError_codeless (s : State) (p bucket : Nat) (e : Ecc) :
    exactError (codeless s) p bucket e = codeless (exactError s p bucket e) := by
  cases e <;> simp [exactError]

@[simp] theorem passOne_codeless (s : State) (k : Pkt) (a : Search) : passOne (codeless s) k a = codeless (passOne s k a) := by
  unfold passOne
  dsimp only
  simp only [versionReaders_codeless, packetReaders_codeless]
  generalize (if (a.direct.isSome || !exactInUse (slotVer s k.vslot) (nodePipe k.node)) = true then none else _) = key
  cases key with
  | none =>
    simp
    split <;> simp
  | some x =>
    simp
    split <;> simp

theorem searchThrough_codeless (p beat n : Nat) (s : State) :
    searchThrough p beat n (codeless s) = codeless (searchThrough p beat n s) := by
  induction n generalizing s with
  | zero => rfl
  | succ n ih =>
    have next : nextSearch (codeless s) p beat = nextSearch s p beat := rfl
    simp only [searchThrough, next, passOne_codeless]
    split
    · rfl
    · exact ih _

@[simp] theorem searchBeforeTail_codeless (s : State) (k : Pkt) :
    searchBeforeTail (codeless s) k = codeless (searchBeforeTail s k) := by
  unfold searchBeforeTail
  split
  · rfl
  · split <;> simp [searchThrough_codeless]

@[simp] theorem frameEnd_codeless (s : State) (k : Pkt) (cut : Bool) (cells : List (Nat × Ecc)) :
    frameEnd (codeless s) k cut cells = codeless (frameEnd s k cut cells) := by
  simp only [frameEnd, searchBeforeTail_codeless, packetReaders_codeless, takeUpTo_codeless]
  cases takeUpTo (searchBeforeTail s k) _ _ <;> simp

end Sys2Proof.Machine

namespace Sys2Proof.Machine

/-! ## Ports and lanes do the same without the codes -/

@[simp] theorem modLanes_codeless (s : State) (l : List Nat) (f : Lane → Lane) :
    modLanes (codeless s) l f = codeless (modLanes s l f) := by
  simp [modLanes]

@[simp] theorem enterStep_codeless (s : State) (n mode fec : Nat) :
    enterStep (codeless s) n mode fec = codeless (enterStep s n mode fec) := by
  simp [enterStep]

@[simp] theorem askedPowers_codeless (s : State) (n : Nat) : askedPowers (codeless s) n = codeless (askedPowers s n) := by
  simp [askedPowers]

@[simp] theorem startBringUp_codeless (s : State) (n : Nat) : startBringUp (codeless s) n = codeless (startBringUp s n) := by
  simp [startBringUp]

@[simp] theorem cutReceive_codeless (s : State) (n : Nat) : cutReceive (codeless s) n = codeless (cutReceive s n) := by
  have same : (portAt (codeless s) n).rx.bind (pktAt (codeless s)) = (portAt s n).rx.bind (pktAt s) := rfl
  unfold cutReceive
  rw [same]
  cases (portAt s n).rx.bind (pktAt s) <;> simp

@[simp] theorem cutTransmit_codeless (s : State) (n : Nat) : cutTransmit (codeless s) n = codeless (cutTransmit s n) := by
  simp only [cutTransmit, portReaders_codeless]
  split <;> simp

@[simp] theorem enterFlush_codeless (s : State) (n : Nat) : enterFlush (codeless s) n = codeless (enterFlush s n) := by
  simp [enterFlush]

@[simp] theorem leaveUp_codeless (s : State) (n state : Nat) : leaveUp (codeless s) n state = codeless (leaveUp s n state) := by
  simp [leaveUp, linkLost, lanesBack]

@[simp] theorem portDown_codeless (s : State) (n : Nat) (t : PortTimer) :
    portDown (codeless s) n t = codeless (portDown s n t) := by
  simp [portDown]

@[simp] theorem setWhen_codeless (c : Bool) (idx sub row : Nat) (v : Bytes) (s : State) :
    setWhen c idx sub row v (codeless s) = (setWhen c idx sub row v s).map codeless := by
  simp [setWhen]

@[simp] theorem setIf_codeless {ok : State → Bool} (same : ∀ t, ok (codeless t) = ok t) (idx sub row : Nat) (v : Bytes)
    (s : State) : setIf idx sub row v ok (codeless s) = (setIf idx sub row v ok s).map codeless := by
  simp [setIf, same]

@[simp] theorem onOne_codeless {f : State → Option State} (same : ∀ t, f (codeless t) = (f t).map codeless) (v : Bytes)
    (s : State) : onOne v f (codeless s) = (onOne v f s).map codeless := by
  simp [onOne, same]

@[simp] theorem searchEnter_codeless (l : Nat) (s : State) : searchEnter l (codeless s) = (searchEnter l s).map codeless := by
  simp only [searchEnter, portReaders_codeless]
  split <;> simp

@[simp] theorem searchExit_codeless (l : Nat) (s : State) : searchExit l (codeless s) = (searchExit l s).map codeless := by
  simp only [searchExit, portReaders_codeless]
  split <;> simp

@[simp] theorem putPower_codeless (s : State) (l : List Nat) (v : Nat) :
    putPower (codeless s) l v = codeless (putPower s l v) := by
  simp [putPower]

@[simp] theorem lanePower_codeless (l v : Nat) (s : State) : lanePower l v (codeless s) = (lanePower l v s).map codeless := by
  cases e : portOfLane s l <;> simp [lanePower, e, powerUp, powerDown]

/-! ## Writes of objects do the same without the codes -/

@[simp] theorem writeIdent_codeless (idx sub row : Nat) (v : Bytes) (s : State) :
    writeIdent idx sub row v (codeless s) = (writeIdent idx sub row v s).map codeless := by
  simp [writeIdent, credWrite]

@[simp] theorem writeTime_codeless (idx sub row : Nat) (v : Bytes) (s : State) :
    writeTime idx sub row v (codeless s) = (writeTime idx sub row v s).map codeless := by
  simp [writeTime, writeTb, tbEnable, tbDisable, tbSetRate, tbStep, tbSlew, tbSetSlewPpm, toutWrite, tinAck, ptpWrite]

@[simp] theorem writeLane_codeless (l sub : Nat) (v : Bytes) (s : State) :
    writeLane l sub v (codeless s) = (writeLane l sub v s).map codeless := by
  simp [writeLane, searchSlip]

@[simp] theorem writePort_codeless (n sub : Nat) (v : Bytes) (s : State) :
    writePort n sub v (codeless s) = (writePort n sub v s).map codeless := by
  simp [writePort, portEnableEff, portDisableEff]

@[simp] theorem writeSearch_codeless (idx sub row : Nat) (v : Bytes) (s : State) :
    writeSearch idx sub row v (codeless s) = (writeSearch idx sub row v s).map codeless := by
  simp [writeSearch, setBankMode, legacyPush]

@[simp] theorem writeFlow_codeless (idx sub row : Nat) (v : Bytes) (s : State) :
    writeFlow idx sub row v (codeless s) = (writeFlow idx sub row v s).map codeless := by
  simp [writeFlow]

@[simp] theorem writeEngine_codeless (idx sub row : Nat) (v : Bytes) (s : State) :
    writeEngine idx sub row v (codeless s) = (writeEngine idx sub row v s).map codeless := by
  simp [writeEngine, enrolWrite, revokeWrite]

@[simp] theorem writeBuffer_codeless (idx sub row : Nat) (v : Bytes) (s : State) :
    writeBuffer idx sub row v (codeless s) = (writeBuffer idx sub row v s).map codeless := by
  simp [writeBuffer]

@[simp] theorem writePool_codeless (idx sub row : Nat) (v : Bytes) (s : State) :
    writePool idx sub row v (codeless s) = (writePool idx sub row v s).map codeless := by
  simp [writePool, reclaim, poolWord]

@[simp] theorem writeArb_codeless (idx sub row : Nat) (v : Bytes) (s : State) :
    writeArb idx sub row v (codeless s) = (writeArb idx sub row v s).map codeless := by
  simp [writeArb]

@[simp] theorem queueSched_codeless (s : State) (k : Nat) (row : Option Bytes) :
    queueSched (codeless s) k row = (queueSched s k row).map codeless := by
  simp [queueSched]

@[simp] theorem writeSched_codeless (idx sub row : Nat) (v : Bytes) (s : State) :
    writeSched idx sub row v (codeless s) = (writeSched idx sub row v s).map codeless := by
  simp [writeSched, schedRow, schedClear, Function.comp_def]

@[simp] theorem writeCipher_codeless (idx sub row : Nat) (v : Bytes) (s : State) :
    writeCipher idx sub row v (codeless s) = (writeCipher idx sub row v s).map codeless := by
  simp [writeCipher, keyWrite, startTests]

@[simp] theorem ringWrite_codeless (r : Nat) (row : Bytes) (s : State) :
    ringWrite r row (codeless s) = (ringWrite r row s).map codeless := by
  simp [ringWrite]

@[simp] theorem dropUnfetched_codeless (r : Nat) (s : State) :
    dropUnfetched r (codeless s) = codeless (dropUnfetched r s) := by
  simp [dropUnfetched]

@[simp] theorem writeHost_codeless (idx sub row : Nat) (v : Bytes) (s : State) :
    writeHost idx sub row v (codeless s) = (writeHost idx sub row v s).map codeless := by
  simp [writeHost, ringRowWrite, Function.comp_def]

@[simp] theorem writeCounter_codeless (idx sub row : Nat) (v : Bytes) (s : State) :
    writeCounter idx sub row v (codeless s) = (writeCounter idx sub row v s).map codeless := by
  simp [writeCounter, overflowClear, filterSelect, filterChain]

@[simp] theorem writeSys_codeless (idx sub row : Nat) (v : Bytes) (s : State) :
    writeSys idx sub row v (codeless s) = (writeSys idx sub row v s).map codeless := by
  simp [writeSys, resetCmd, pipeOffWrite, askRelease]

@[simp] theorem writeValue_codeless (idx sub row : Nat) (v : Bytes) (s : State) :
    writeValue idx sub row v (codeless s) = (writeValue idx sub row v s).map codeless := by
  simp [writeValue]

end Sys2Proof.Machine

namespace Sys2Proof.Machine

/-! ## What reads sessions reads the same without the codes -/

@[simp] theorem tierOf_codeless (s : State) (src : Origin) : tierOf (codeless s) src = tierOf s src := by
  cases src with
  | bar => rfl
  | sess n =>
    simp only [tierOf, sessionAt_codeless]
    cases sessionAt s n <;> rfl

@[simp] theorem overUdp_codeless (s : State) (src : Origin) : overUdp (codeless s) src = overUdp s src := by
  cases src with
  | bar => rfl
  | sess n =>
    simp only [overUdp, sessionAt_codeless]
    cases sessionAt s n <;> rfl

@[simp] theorem writeError_codeless (s : State) (src : Origin) (idx sub row : Nat) (v : Bytes) :
    writeError (codeless s) src idx sub row v = writeError s src idx sub row v :=
  writeError_congr (tierOf_codeless ..) (overUdp_codeless ..) ..

@[simp] theorem stageError_codeless (s : State) (src : Origin) (idx sub row : Nat) (v : Bytes) :
    stageError (codeless s) src idx sub row v = stageError s src idx sub row v := by
  simp [stageError]

@[simp] theorem itemErrors_codeless (s : State) (n : Nat) (i : Item) :
    readError (codeless s) n i = readError s n i ∧ writeItemError (codeless s) n i = writeItemError s n i ∧
      stageItemError (codeless s) n i = stageItemError s n i := by
  simp [readError, writeItemError, stageItemError]

theorem sessionRow_codeless (s : State) (n : Nat) : sessionRow (codeless s) n = sessionRow s n := by
  simp only [sessionRow, sessionAt_codeless]
  cases sessionAt s n <;> rfl

theorem transferring_codeless (s : State) : transferring (codeless s) = transferring s := by
  unfold transferring
  have same (n : Nat) : (tfind (codelessTbl s.mabin.sessions) n).bind Session.block
      = (tfind s.mabin.sessions n).bind Session.block := by
    rw [tfind_codelessTbl]
    cases tfind s.mabin.sessions n <;> rfl
  simp [same]

theorem roIdent_codeless (s : State) (idx sub row : Nat) : roIdent (codeless s) idx sub row = roIdent s idx sub row := by
  unfold roIdent
  rw [sessionRow_codeless]
  rfl

theorem roEngine_codeless (s : State) (idx sub : Nat) : roEngine (codeless s) idx sub = roEngine s idx sub := by
  unfold roEngine
  rw [transferring_codeless]
  rfl

theorem roValue_codeless (s : State) (idx sub row : Nat) : roValue (codeless s) idx sub row = roValue s idx sub row := by
  unfold roValue
  rw [roIdent_codeless, roEngine_codeless]
  rfl

@[simp] theorem readValue_codeless (s : State) (r : ObjRow) (idx row : Nat) :
    readValue (codeless s) r idx row = readValue s r idx row := by
  simp only [readValue, roValue_codeless]
  rfl

@[simp] theorem blockData_codeless (s : State) (r : ObjRow) (idx row off len : Nat) :
    blockData (codeless s) r idx row off len = blockData s r idx row off len := by
  simp [blockData]

@[simp] theorem sessionIdle_codeless (s : State) (n : Nat) : sessionIdle (codeless s) n = sessionIdle s n := by
  simp only [sessionIdle, sessionAt_codeless]
  cases sessionAt s n <;> rfl

@[simp] theorem blockOf_codeless (s : State) (n : Nat) : blockOf (codeless s) n = blockOf s n := by
  simp only [blockOf, sessionAt_codeless]
  cases sessionAt s n <;> rfl

end Sys2Proof.Machine

namespace Sys2Proof.Machine

/-! ## Messages and sessions do the same without the codes -/

@[simp] theorem modSession_codeless {f : Session → Session} (same : ∀ x, f (codelessSession x) = codelessSession (f x))
    (s : State) (n : Nat) : modSession (codeless s) n f = codeless (modSession s n f) := by
  unfold modSession
  rw [sessionAt_codeless]
  cases sessionAt s n <;> simp [same]

@[simp] theorem putBlock_codeless (s : State) (n : Nat) (b : Option Block) :
    putBlock (codeless s) n b = codeless (putBlock s n b) := modSession_codeless (fun _ => by rfl) s n

@[simp] theorem drawNonce_codeless (s : State) : drawNonce (codeless s) = Prod.map codeless id (drawNonce s) := rfl

@[simp] theorem deliverMsg_codeless (s : State) (n : Nat) (path : MabinPath) (m : Bytes) :
    deliverMsg (codeless s) n path m = codeless (deliverMsg s n path m) := by
  cases path <;> simp [deliverMsg, postMbox]

@[simp] theorem endSession_codeless (s : State) (n : Nat) : endSession (codeless s) n = codeless (endSession s n) := by
  simp [endSession]

@[simp] theorem endIdle_codeless (s : State) (n : Nat) : endIdle (codeless s) n = codeless (endIdle s n) := by
  simp [endIdle]

@[simp] theorem freezeSession_codeless (s : State) (n : Nat) : freezeSession (codeless s) n = codeless (freezeSession s n) := by
  unfold freezeSession
  rw [modSession_codeless fun _ => by rfl, freezeMaster_codeless]

@[simp] theorem authFail_codeless (s : State) : authFail (codeless s) = codeless (authFail s) := by
  simp [authFail]

@[simp] theorem tins_newSession (t : Tbl Session) (n : Nat) (s : State) (path : MabinPath) (tier minor cred : Nat)
    (key : Bytes) : tins (codelessTbl t) n (newSession s path tier minor cred key)
      = codelessTbl (tins t n (newSession s path tier minor cred key)) :=
  tins_codelessTbl t n (newSession s path tier minor cred key)

theorem openSession_codeless (s : State) (path : MabinPath) (m : Bytes) :
    openSession (codeless s) path m = codeless (openSession s path m) := by
  have free : (fun n => (sessionAt (codeless s) n).isNone) = fun n => (sessionAt s n).isNone := by
    funext n
    simp
  unfold openSession
  rw [free]
  dsimp only
  simp only [clockReaders_codeless]
  split
  · simp
  · split
    · simp
    · split
      · simp [refuseHello]
      · split <;> simp [refuseHello]

/-! ## Items -/

@[simp] theorem countItem_codeless (s : State) (n source : Nat) (i : Item) :
    countItem (codeless s) n source i = codeless (countItem s n source i) := by
  simp [countItem]

@[simp] theorem readEffect_codeless (s : State) (idx sub : Nat) :
    readEffect (codeless s) idx sub = codeless (readEffect s idx sub) := by
  simp [readEffect]

@[simp] theorem readItem_codeless (s : State) (i : Item) : readItem (codeless s) i = Prod.map codeless id (readItem s i) := by
  unfold readItem
  split <;> simp

@[simp] theorem stageValue_codeless (idx sub row : Nat) (v : Bytes) (s : State) :
    stageValue idx sub row v (codeless s) = (stageValue idx sub row v s).map codeless := by
  cases here : lookupObj idx sub <;> simp [stageValue, here]

theorem emptyRows_codeless (idx sub : Nat) (r : ObjRow) (s : State) :
    emptyRows idx sub r (codeless s) = (emptyRows idx sub r s).map codeless := by
  have each (l : List Nat) (o : Option State) :
      l.foldl (fun (o : Option State) i => o.bind (writeValue idx sub i [])) (o.map codeless)
        = (l.foldl (fun (o : Option State) i => o.bind (writeValue idx sub i [])) o).map codeless := by
    induction l generalizing o with
    | nil => rfl
    | cons i l ih =>
      rw [List.foldl_cons, List.foldl_cons, ← ih]
      cases o <;> simp
  exact each (presentRows s.objs r idx) (some s)

/-- A reply that leaves a state without the codes. -/
def codelessReply : Reply → Reply
  | .good s b => .good (codeless s) b
  | .bad code item detail => .bad code item detail

@[simp] theorem codelessReply_good (s : State) (b : Bytes) : codelessReply (.good s b) = .good (codeless s) b := rfl

@[simp] theorem codelessReply_bad (code item detail : Nat) :
    codelessReply (.bad code item detail) = .bad code item detail := rfl

@[simp] theorem codelessReply_versionError : codelessReply versionError = versionError := rfl

@[simp] theorem codelessReply_ite (c : Prop) [Decidable c] (a b : Reply) :
    codelessReply (if c then a else b) = if c then codelessReply a else codelessReply b := apply_ite ..

@[simp] theorem codeReply_codeless (r : State × Nat × Nat) : codeReply (Prod.map codeless id r) = codelessReply (codeReply r) := by
  simp [codeReply]

@[simp] theorem commitReply_codeless (s : State) (n minor : Nat) (b : Bytes) :
    commitReply (codeless s) n minor b = Prod.map codeless codelessReply (commitReply s n minor b) := by
  simp [commitReply]

@[simp] theorem unlockReply_codeless (s : State) (n : Nat) : unlockReply (codeless s) n = codelessReply (unlockReply s n) := by
  simp [unlockReply]

@[simp] theorem subscribe_codeless (s : State) (n : Nat) (b : Sub) :
    subscribe (codeless s) n b = codelessReply (subscribe s n b) := by
  unfold subscribe
  rw [sessionAt_codeless]
  cases sessionAt s n with
  | none => rfl
  | some x =>
    have adds := modSession_codeless (f := fun x => { x with subs := x.subs ++ [b] }) (fun _ => by rfl) s n
    simp [adds]
    rfl

@[simp] theorem subscribeReply_codeless (s : State) (n minor : Nat) (b : Bytes) :
    subscribeReply (codeless s) n minor b = codelessReply (subscribeReply s n minor b) := by
  have empties := modSession_codeless (f := fun x => { x with subs := [] }) (fun _ => by rfl) s n
  cases here : lookupObj (natAt b 1 2) (byteAt b 3) <;> simp [subscribeReply, subscribeObject, here, empties]

@[simp] theorem readItems_codeless (n : Nat) (items : List Item) (k : Nat) (s : State) (b : Bytes) :
    readItems n items k (codeless s) b = codelessReply (readItems n items k s b) := by
  induction items generalizing k s b with
  | nil => rfl
  | cons i items ih =>
    simp [readItems, ih]

@[simp] theorem blockRead_codeless (s : State) (n : Nat) (path : MabinPath) (b : Bytes) :
    blockRead (codeless s) n path b = codelessReply (blockRead s n path b) := by
  cases here : lookupObj (natAt b 2 2) (byteAt b 4) <;> simp [blockRead, here]

end Sys2Proof.Machine

namespace Sys2Proof.Machine

/-! ## What adds codes leaves the same but for them -/

/-- The codes do not bear on what f leaves, but for the codes. -/
def Erases (f : State → State) : Prop := ∀ s, codeless (f (codeless s)) = codeless (f s)

namespace Erases

variable {f g : State → State}

theorem of_same (h : ∀ s, f (codeless s) = codeless (f s)) : Erases f := fun s => by rw [h, codeless_codeless]

theorem alike (h : Erases f) {s t : State} (same : codeless s = codeless t) : codeless (f s) = codeless (f t) := by
  rw [← h s, same, h t]

theorem comp (k : Erases g) (h : Erases f) : Erases fun s => g (f s) := fun s => k.alike (h s)

theorem foldl {α : Type} {f : State → α → State} (h : ∀ a, Erases (f · a)) (l : List α) : Erases fun s => l.foldl f s := by
  induction l with
  | nil => exact fun s => codeless_codeless s
  | cons a l ih => exact ih.comp (h a)

end Erases

@[simp] theorem codelessSession_fields (x : Session) :
    (codelessSession x).tier = x.tier ∧ (codelessSession x).minor = x.minor ∧ (codelessSession x).path = x.path ∧
      (codelessSession x).cred = x.cred ∧ (codelessSession x).key = x.key ∧ (codelessSession x).txCtr = x.txCtr ∧
      (codelessSession x).frozen = x.frozen ∧ (codelessSession x).held = x.held :=
  ⟨rfl, rfl, rfl, rfl, rfl, rfl, rfl, rfl⟩

theorem erases_modSession {f : Session → Session} (same : ∀ x, codelessSession (f (codelessSession x)) = codelessSession (f x))
    (n : Nat) : Erases (modSession · n f) := by
  intro s
  dsimp only
  cases here : sessionAt s n with
  | none =>
    have there : sessionAt (codeless s) n = none := by rw [sessionAt_codeless, here]; rfl
    rw [modSession, there, modSession, here]
    exact codeless_codeless s
  | some x =>
    have there : sessionAt (codeless s) n = some (codelessSession x) := by rw [sessionAt_codeless, here]; rfl
    rw [modSession_eq there, modSession_eq here, ← withSession_codeless, same, codeless_codeless, withSession_codeless]

theorem erases_askCode (n : Nat) : Erases (askCode · n) := erases_modSession (fun _ => by rfl) n

theorem erases_sendMsg (n type flags reqid : Nat) (b : Bytes) : Erases (sendMsg · n type flags reqid b) := by
  intro s
  simp only [sendMsg, sessionAt_codeless]
  cases sessionAt s n with
  | none => simp
  | some x =>
    have holds := erases_modSession (f := fun x => { x with held := x.held ++ [u8 type ++ u8 flags ++ u32 reqid ++ b] })
      (fun _ => by rfl) n
    have delivers (path : MabinPath) (m : Bytes) : Erases (deliverMsg · n path m) :=
      .of_same fun t => deliverMsg_codeless t n path m
    have sends (path : MabinPath) (m : Bytes) := (delivers path m).comp
      ((erases_askCode n).comp (erases_modSession (f := fun x => { x with txCtr := x.txCtr + 1 }) (fun _ => by rfl) n))
    dsimp only [Option.map_some, codelessSession_fields]
    simp only [codelessSession_fields]
    split
    · exact holds s
    · exact sends _ _ s

theorem erases_sendHeld (n : Nat) : Erases (sendHeld · n) := by
  intro s
  simp only [sendHeld, sessionAt_codeless]
  cases sessionAt s n with
  | none => simp
  | some x =>
    exact ((Erases.foldl (fun m => erases_sendMsg n (byteAt m 0) (byteAt m 1) (natAt m 2 4) (m.drop 6)) x.held).comp
      (erases_modSession (fun _ => by rfl) n)) s

theorem erases_closeSession (n : Nat) (m : Bytes) : Erases (closeSession · n m) := by
  have unlocks : Erases fun s => if s.mabin.holder = some n then freeLock s else s := .of_same fun t => by simp
  have ends : Erases (endSession · n) := .of_same fun t => endSession_codeless t n
  exact ends.comp ((erases_sendMsg n 1 0x80 (msgReq m) []).comp unlocks)

@[simp] theorem codelessReply_codelessReply (r : Reply) : codelessReply (codelessReply r) = codelessReply r := by
  cases r <;> simp

@[simp] theorem prodMap_codelessReply_twice (p : State × Reply) :
    Prod.map codeless codelessReply (Prod.map codeless codelessReply p) = Prod.map codeless codelessReply p := by
  simp [Prod.map]

theorem codelessReply_eq_good {r : Reply} {s : State} {b : Bytes} (same : codelessReply r = .good (codeless s) b) :
    ∃ t, r = .good t b ∧ codeless s = codeless t := by
  cases r with
  | good t c =>
    injection same with states bytes
    exact ⟨t, by rw [bytes], states.symm⟩
  | bad => cases same

theorem codelessReply_eq_bad {r : Reply} {code item detail : Nat} (same : codelessReply r = .bad code item detail) :
    r = .bad code item detail := by
  cases r with
  | good => cases same
  | bad => exact same

/-- The answers of replies that differ in the codes alone. -/
theorem answer_alike {s t : State} {r q : Reply} (same : codeless s = codeless t) (replies : codelessReply r = codelessReply q)
    (n : Nat) (m : Bytes) : codeless (answer s n m r) = codeless (answer t n m q) := by
  cases r with
  | good u b =>
    obtain ⟨v, rfl, states⟩ := codelessReply_eq_good replies.symm
    exact (erases_sendMsg n (msgType m) 0x80 (msgReq m) b).alike states
  | bad code item detail =>
    obtain rfl := codelessReply_eq_bad replies.symm
    exact (erases_sendMsg n (msgType m) 0xC0 (msgReq m) _).alike same

theorem erases_rekeySession (n : Nat) (x : Session) (m : Bytes) : Erases (rekeySession · n x m) := by
  intro s
  have answers (r : Reply) (h : codelessReply r = r) : codeless (answer (codeless s) n m r) = codeless (answer s n m r) :=
    answer_alike (codeless_codeless s) rfl n m
  simp only [rekeySession, clockReaders_codeless]
  split
  · exact answers _ rfl
  · split
    · exact answers _ rfl
    · split
      · exact answers _ rfl
      · split
        · exact answers _ rfl
        · have sets (key : Bytes) (minor : Nat) (t : State) := modSession_codeless (f := fun y =>
            { y with key := key, minor := minor, rxHigh := 0, rxSeen := [0], txCtr := 1 }) (fun _ => by rfl) t n
          simp [sets]
          exact erases_sendHeld n _

/-- What the mailbox does with a message does not rest on the codes. -/
def MboxErases (mbox : Bytes → State → State) : Prop := ∀ b, Erases (mbox b)

section
variable {mbox : Bytes → State → State} (erases : MboxErases mbox)
include erases

theorem writeAny_erases (idx sub row : Nat) (v : Bytes) (s : State) :
    (writeAny mbox idx sub row v (codeless s)).map codeless = (writeAny mbox idx sub row v s).map codeless := by
  unfold writeAny
  split
  · rfl
  · split
    · exact congrArg some (erases v s)
    · split
      · rw [emptyRows_codeless, Option.map_map]
        simp [Function.comp_def]
      · rw [writeValue_codeless, Option.map_map]
        simp [Function.comp_def]

end

/-- Items run alike when their errors and effects do. -/
theorem runItems_erases {err : State → Item → Nat} {eff : Item → State → Option State}
    (errs : ∀ s i, err (codeless s) i = err s i)
    (effs : ∀ i s, (eff i (codeless s)).map codeless = (eff i s).map codeless) (n : Nat)
    (items : List Item) (k : Nat) (s : State) :
    codelessReply (runItems n err eff items k (codeless s)) = codelessReply (runItems n err eff items k s) := by
  induction items generalizing k s with
  | nil => simp [runItems]
  | cons i items ih =>
    rw [runItems, runItems, errs]
    split
    · rfl
    · have same := effs i s
      cases here : eff i s with
      | none =>
        rw [here, Option.map_none, Option.map_eq_none_iff] at same
        rw [same]
      | some u =>
        rw [here] at same
        obtain ⟨t, there, same⟩ := Option.map_eq_some_iff.mp same
        rw [there, ← ih, ← countItem_codeless, same, countItem_codeless, ih]

/-- The reply of a whole block names no item. -/
def wholeBlock : Reply → Reply
  | .good t b => .good t b
  | .bad e _ d => .bad e 0 d

theorem wholeBlock_alike {r q : Reply} (same : codelessReply r = codelessReply q) :
    codelessReply (wholeBlock r) = codelessReply (wholeBlock q) := by
  cases r with
  | good s b =>
    obtain ⟨t, rfl, states⟩ := codelessReply_eq_good same.symm
    exact congrArg (Reply.good · b) states
  | bad code item detail =>
    obtain rfl := codelessReply_eq_bad same.symm
    rfl

/-- The rejected access that a reply counts. -/
theorem countBad_alike {s : State} {r q : Reply} (n : Nat) (items : List Item) (same : codelessReply r = codelessReply q) :
    Prod.map codeless codelessReply (countBad (codeless s) n items r, r)
      = Prod.map codeless codelessReply (countBad s n items q, q) := by
  refine Prod.ext ?_ same
  cases r with
  | good u b =>
    obtain ⟨v, rfl, -⟩ := codelessReply_eq_good same.symm
    exact codeless_codeless s
  | bad code item detail =>
    obtain rfl := codelessReply_eq_bad same.symm
    simp only [countBad]
    split
    · split
      · exact codeless_codeless s
      · simp
    · exact codeless_codeless s

/-- What an accepted message does once the lease is renewed. -/
def performed (mbox : Bytes → State → State) (s : State) (n : Nat) (x : Session) (m : Bytes) : State :=
  if msgType m = 1 && msgClose m then closeSession s n m
  else if msgType m = 1 && msgRekey m then rekeySession s n x m
  else answer (request mbox s n x m).1 n m (request mbox s n x m).2

/-- What a message to an open session does once its code is asked for. -/
def judged (mbox : Bytes → State → State) (s : State) (n : Nat) (x : Session) (m : Bytes) : State :=
  if msgTag m != gmac x.key (msgIv n 0 (msgCtr m)) (msgSigned m) then freezeSession s n
  else if !freshCtr x (msgCtr m) then count s (cPart 9) 1
  else if protocolFault m then freezeSession (modSession s n fun y => takeCtr y (msgCtr m)) n
  else serve mbox (modSession s n fun y => takeCtr y (msgCtr m)) n x m

section
variable {mbox : Bytes → State → State} (erases : MboxErases mbox)

theorem stageItems_erases (n : Nat) (items : List Item) (s : State) :
    codelessReply (stageItems (codeless s) n items) = codelessReply (stageItems s n items) :=
  runItems_erases (fun s i => (itemErrors_codeless s n i).2.2)
    (fun i s => by simp [Function.comp_def]) n items 1 s

include erases

theorem writeItems_erases (n : Nat) (items : List Item) (s : State) :
    codelessReply (writeItems mbox (codeless s) n items) = codelessReply (writeItems mbox s n items) := by
  refine runItems_erases (fun s i => (itemErrors_codeless s n i).2.1) (fun i s => ?_) n items 1 s
  split
  · simp [Function.comp_def]
  · exact writeAny_erases erases ..

theorem blockApply_erases (n : Nat) (head data : Bytes) (s : State) :
    codelessReply (blockApply mbox (codeless s) n head data) = codelessReply (blockApply mbox s n head data) := by
  simp only [blockApply, versionReaders_codeless]
  split
  · rfl
  · split
    · rfl
    · refine wholeBlock_alike ?_
      split
      · exact stageItems_erases ..
      · exact writeItems_erases erases ..

theorem blockWrite_erases (n : Nat) (more : Bool) (b : Bytes) (s : State) :
    Prod.map codeless codelessReply (blockWrite mbox (codeless s) n more b)
      = Prod.map codeless codelessReply (blockWrite mbox s n more b) := by
  simp [blockWrite, blockApply_erases erases]

theorem itemRequest_erases (n type : Nat) (items : List Item) (s : State) :
    Prod.map codeless codelessReply (itemRequest mbox (codeless s) n type items)
      = Prod.map codeless codelessReply (itemRequest mbox s n type items) := by
  unfold itemRequest
  refine countBad_alike n items ?_
  split
  · simp
  · split
    · exact writeItems_erases erases ..
    · exact stageItems_erases ..

theorem request_erases (n : Nat) (x : Session) (m : Bytes) (s : State) :
    Prod.map codeless codelessReply (request mbox (codeless s) n x m)
      = Prod.map codeless codelessReply (request mbox s n x m) := by
  simp [request, itemRequest_erases erases, blockWrite_erases erases]

theorem erases_performed (n : Nat) (x : Session) (m : Bytes) : Erases (performed mbox · n x m) := by
  intro s
  have requested := request_erases erases n x m s
  simp only [performed]
  split
  · exact erases_closeSession n m s
  · split
    · exact erases_rekeySession n x m s
    · exact answer_alike (congrArg Prod.fst requested) (congrArg Prod.snd requested) n m

theorem erases_serve (n : Nat) (x : Session) (m : Bytes) : Erases (serve mbox · n x m) := by
  have renews : Erases fun s => renewLease (modSession s n fun y => { y with lastBeat := s.beat }) n := .of_same fun t => by
    have hears := modSession_codeless (f := fun y => { y with lastBeat := t.beat }) (fun _ => by rfl) t n
    simp [hears]
  exact (erases_performed erases n x m).comp renews

theorem erases_judged (n : Nat) (x : Session) (m : Bytes) : Erases (judged mbox · n x m) := by
  have takes : Erases (modSession · n fun y => takeCtr y (msgCtr m)) := erases_modSession (fun _ => by rfl) n
  intro s
  simp only [judged]
  split
  · simp
  · split
    · simp
    · split
      · exact (Erases.of_same (f := (freezeSession · n)) fun t => freezeSession_codeless t n).comp takes s
      · exact (erases_serve erases n x m).comp takes s

theorem erases_sessionMsg (n : Nat) (m : Bytes) : Erases (sessionMsg mbox · n m) := by
  intro s
  simp only [sessionMsg, lockExpiry_codeless, endIdle_codeless, sessionAt_codeless]
  cases sessionAt (endIdle (lockExpiry s) n) n with
  | none => simp
  | some x =>
    by_cases frozen : x.frozen = true
    · simp [frozen]
    · simp only [Option.map_some, codelessSession_fields, if_neg frozen]
      exact (erases_judged erases n x m).comp (erases_askCode n) (endIdle (lockExpiry s) n)

end

theorem erases_receive (k : Nat) (path : MabinPath) (m : Bytes) : Erases (receive k path m) := by
  induction k generalizing path m with
  | zero => exact fun s => codeless_codeless s
  | succ k ih =>
    intro s
    simp only [receive]
    split
    · simp
    · split
      · simp
      · split
        · simp [openSession_codeless]
        · exact erases_sessionMsg (fun b => ih .mailbox b) _ m s

end Sys2Proof.Machine

namespace Sys2Proof.Machine

/-! ## Requests of accepted messages (R565, R566, R568, R571, R574) -/

/-- The codes apart, a message is performed on the state that served it. -/
theorem codeless_heard {s : State} {n : Nat} {x : Session} (here : sessionAt s n = some x) (m : Bytes) :
    codeless (heard s n x m) = codeless (served s n x m) := by
  rw [heard, served_eq here, ← renewLease_codeless, ← renewLease_codeless, ← withSession_codeless, ← withSession_codeless]
  rfl

theorem mboxErases_receive : MboxErases (receive 99 .mailbox) := fun b => erases_receive 99 .mailbox b

theorem length_buildMsg (key : Bytes) (n minor type flags ctr reqid : Nat) (b : Bytes) :
    (buildMsg key n minor type flags ctr reqid b).length = b.length + 36 := by
  simp [buildMsg, gmac_length, u8, u16, u32, u64]
  omega

/-- A message of a UDP session that its path carries leaves the part. -/
theorem out_sendMsg {s : State} {n : Nat} {y : Session} (here : sessionAt s n = some y)
    (udp : y.path = .mgmtUdp ∨ y.path = .inbandUdp) (opens : y.txCtr ≠ ctrEnd) {b : Bytes} (fits : b.length ≤ 1372)
    (type flags reqid : Nat) :
    (sendMsg s n type flags reqid b).out
      = s.out ++ [.mabin n y.path (buildMsg y.key n y.minor type flags y.txCtr reqid b)] := by
  have carried : ¬ msgLimit y.path < (buildMsg y.key n y.minor type flags y.txCtr reqid b).length := by
    rw [length_buildMsg]
    obtain path | path := udp <;> rw [path] <;> simp only [msgLimit] <;> omega
  simp only [sendMsg, here, if_neg opens, deliverMsg, if_neg carried]
  have before : (askCode (modSession s n fun x => { x with txCtr := x.txCtr + 1 }) n).out = s.out :=
    ((askCode_touches ..).rest .out rfl).trans ((modSession_touches ..).rest .out rfl)
  obtain path | path := udp <;> rw [path] <;> simp only [emit, before]

/-- What an answer changes of its session. -/
theorem sessionAt_sendMsg {s : State} {n : Nat} {y : Session} (here : sessionAt s n = some y) (type flags reqid : Nat)
    (b : Bytes) : ∃ z, sessionAt (sendMsg s n type flags reqid b) n = some z ∧ z.subs = y.subs ∧ z.block = y.block := by
  simp only [sendMsg, here]
  split
  · rw [modSession_eq here, sessionAt_withSession]
    exact ⟨_, rfl, rfl, rfl⟩
  · rw [sessionAt_deliverMsg, modSession_eq here, askCode, modSession_eq (sessionAt_withSession ..), withSession_withSession,
      sessionAt_withSession]
    exact ⟨_, rfl, rfl, rfl⟩

theorem request_items {m : Bytes} {i : Item} (type : msgType m = 2 ∨ msgType m = 3 ∨ msgType m = 4)
    (items : itemsOf m = some [i]) (mbox : Bytes → State → State) (s : State) (n : Nat) (x : Session) :
    request mbox s n x m = itemRequest mbox s n (msgType m) [i] := by
  have kind : (msgType m = 2 || msgType m = 3 || msgType m = 4) = true := by
    obtain h | h | h := type <;> simp [h]
  rw [request]
  rw [if_pos kind, items]
  rfl

/-- What a read leaves of the sessions and the outputs. -/
theorem readEffect_keeps (s : State) (idx sub n : Nat) :
    sessionAt (readEffect s idx sub) n = sessionAt s n ∧ (readEffect s idx sub).out = s.out := by
  unfold readEffect
  split
  · exact ⟨rfl, rfl⟩
  · split <;> exact ⟨rfl, rfl⟩

theorem readItem_keeps (s : State) (i : Item) (n : Nat) :
    sessionAt (readItem s i).1 n = sessionAt s n ∧ (readItem s i).1.out = s.out := by
  unfold readItem
  split
  · exact ⟨rfl, rfl⟩
  · exact readEffect_keeps ..

theorem countItem_keeps (s : State) (n source : Nat) (i : Item) (k : Nat) :
    sessionAt (countItem s n source i) k = sessionAt s k ∧ (countItem s n source i).out = s.out := ⟨rfl, rfl⟩

theorem length_itemBytes (i : Item) (v : Bytes) : (itemBytes i v).length = v.length + 12 := by
  simp [itemBytes, u8, u16, u32]
  omega

theorem codeless_parts {s t : State} (same : codeless s = codeless t) : s.objs = t.objs ∧ s.ports = t.ports ∧ s.tbs = t.tbs :=
  ⟨congrArg (·.objs) same, congrArg (·.ports) same, congrArg (·.tbs) same⟩

theorem heard_keeps (s : State) (n : Nat) (x : Session) (m : Bytes) :
    (heard s n x m).out = s.out ∧ (heard s n x m).objs = s.objs := by
  obtain ⟨t, e, eq⟩ := heard_eq_expires s n x m
  rw [eq]
  exact ⟨rfl, rfl⟩

theorem readItems_one {s : State} {n : Nat} {i : Item} (fine : readError s n i = 0) (k : Nat) :
    readItems n [i] k s [] = .good (readItem (countItem s n 1 i) i).1 (itemBytes i (readItem (countItem s n 1 i) i).2) := by
  rw [readItems, fine]
  rfl

theorem runItems_one {err : State → Item → Nat} {eff : Item → State → Option State} {n : Nat} {i : Item} {s t : State}
    (fine : err s i = 0) (does : eff i s = some t) (k : Nat) : runItems n err eff [i] k s = .good (countItem t n 2 i) [] := by
  rw [runItems, fine, does]
  rfl

theorem readError_heard {s : State} {n : Nat} {x : Session} (here : sessionAt s n = some x) (m : Bytes) (i : Item) :
    readError (heard s n x m) n i = readError (served s n x m) n i ∧
      writeItemError (heard s n x m) n i = writeItemError (served s n x m) n i ∧
      stageItemError (heard s n x m) n i = stageItemError (served s n x m) n i := by
  obtain ⟨read, write, stage⟩ := itemErrors_codeless (heard s n x m) n i
  obtain ⟨read', write', stage'⟩ := itemErrors_codeless (served s n x m) n i
  rw [codeless_heard here m] at read write stage
  exact ⟨read.symm.trans read', write.symm.trans write', stage.symm.trans stage'⟩

theorem readItem_heard {s : State} {n : Nat} {x : Session} (here : sessionAt s n = some x) (m : Bytes) (i : Item) :
    (readItem (countItem (heard s n x m) n 1 i) i).2 = (readItem (countItem (served s n x m) n 1 i) i).2 := by
  have reads (t : State) : (readItem (countItem (codeless t) n 1 i) i).2 = (readItem (countItem t n 1 i) i).2 := by simp
  rw [← reads, codeless_heard here, reads]

/-- A write of an item does the same to the state that heard the message, but for the codes. -/
theorem writeAny_heard {s u : State} {n : Nat} {x : Session} (here : sessionAt s n = some x) {m : Bytes} {i : Item}
    (writes : writeAny (receive 99 .mailbox) i.idx i.sub i.row i.value (served s n x m) = some u) :
    ∃ t, writeAny (receive 99 .mailbox) i.idx i.sub i.row i.value (heard s n x m) = some t ∧ codeless t = codeless u := by
  have same : (writeAny (receive 99 .mailbox) i.idx i.sub i.row i.value (heard s n x m)).map codeless = some (codeless u) := by
    rw [← writeAny_erases mboxErases_receive, codeless_heard here, writeAny_erases mboxErases_receive, writes]
    rfl
  exact Option.map_eq_some_iff.mp same

/-- What a good answer leaves of the objects, the ports and the time bases. -/
theorem answer_good_parts (s t : State) (n : Nat) (m b : Bytes) :
    (answer s n m (.good t b)).objs = t.objs ∧ (answer s n m (.good t b)).ports = t.ports ∧
      (answer s n m (.good t b)).tbs = t.tbs := by
  have sends := sendMsg_touches t n (msgType m) 0x80 (msgReq m) b
  exact ⟨(sends.rest .objects rfl).1, sends.rest .ports rfl, sends.rest .timeBases rfl⟩

theorem stageValue_stages {s : State} {n : Nat} {i : Item} (fine : stageItemError s n i = 0)
    (plain : joinsStaging i.idx i.sub = false) (row : i.row ≠ noRow ∨ i.kind ≠ 9)
    (ok : stagedValueOk i.idx i.sub i.row i.value = true) :
    stageValue i.idx i.sub i.row i.value s = some (stageRow s i.idx i.sub i.row i.value) := by
  unfold stageItemError at fine
  cases listed : lookupObj i.idx i.sub with
  | none =>
    rw [listed] at fine
    cases fine
  | some r =>
    rw [listed] at fine
    have kind : i.kind = r.kind := by
      by_contra other
      have wrong : (i.kind != r.kind) = true := by simpa using other
      dsimp only at fine
      rw [wrong, if_pos rfl] at fine
      split at fine <;> cases fine
    rw [stageValue, plain, listed]
    dsimp only
    have packed : ¬ (r.kind = 9 && i.row = noRow) = true := by
      rw [← kind]
      simp
      tauto
    rw [if_neg (by decide), if_neg packed, if_pos ok]

/-- Settles O40, by the request on the state that served the message, which differs in a code alone. -/
theorem itemsAreReadWrittenAndStaged : Obligations.ItemsAreReadWrittenAndStaged := by
  refine ⟨?_, ?_, ?_⟩
  · intro s p m n x i a type items fine udp opens fits
    refine ⟨_, next_row a.run.2 (rowMabinRead p m), ?_⟩
    have reads : (request (receive 99 .mailbox) (heard s n x m) n x m).2
        = .good (readItem (countItem (heard s n x m) n 1 i) i).1
          (itemBytes i (readItem (countItem (served s n x m) n 1 i) i).2) := by
      rw [request_items (.inl type) items, itemRequest, type, if_pos rfl,
        readItems_one ((readError_heard a.here m i).1.trans fine), readItem_heard a.here]
    obtain ⟨session, out⟩ := readItem_keeps (countItem (heard s n x m) n 1 i) i n
    rw [rowMabinRead, row_accepted a (by simp [type]), serve_request a.here (by simp [type]), reads, answer,
      out_sendMsg (session.trans (sessionAt_heard ..)) udp opens (by rw [length_itemBytes]; omega), out, type]
    exact congrArg (· ++ _) (heard_keeps s n x m).1
  · intro s u p m n x i a type items plain fine writes
    refine ⟨_, next_row a.run.2 (rowMabinWrite p m), ?_⟩
    obtain ⟨t, does, same⟩ := writeAny_heard a.here writes
    have wrote : (request (receive 99 .mailbox) (heard s n x m) n x m).2 = .good (countItem t n 2 i) [] := by
      rw [request_items (.inr (.inl type)) items, itemRequest, type, if_neg (by decide), if_pos rfl, writeItems]
      dsimp only
      refine runItems_one ?_ ?_ 1
      · exact (readError_heard a.here m i).2.1.trans fine
      · rw [if_neg (by simp [plain])]
        exact does
    obtain ⟨objs, ports, tbs⟩ := answer_good_parts (request (receive 99 .mailbox) (heard s n x m) n x m).1
      (countItem t n 2 i) n m []
    obtain ⟨objs', ports', tbs'⟩ := codeless_parts same
    rw [rowMabinWrite, row_accepted a (by simp [type]), serve_request a.here (by simp [type]), wrote]
    exact ⟨objs.trans objs', ports.trans ports', tbs.trans tbs'⟩
  · intro s p m n x i a type items fine plain row ok
    refine ⟨_, next_row a.run.2 (rowMabinStage p m), ?_⟩
    have error := (readError_heard a.here m i).2.2.trans fine
    have staged : (request (receive 99 .mailbox) (heard s n x m) n x m).2
        = .good (countItem (stageRow (heard s n x m) i.idx i.sub i.row i.value) n 2 i) [] := by
      rw [request_items (.inr (.inr type)) items, itemRequest, type, if_neg (by decide), if_neg (by decide), stageItems]
      dsimp only
      refine runItems_one ?_ ?_ 1
      · exact error
      · exact stageValue_stages error plain row ok
    obtain ⟨objs, -⟩ := answer_good_parts (request (receive 99 .mailbox) (heard s n x m) n x m).1
      (countItem (stageRow (heard s n x m) i.idx i.sub i.row i.value) n 2 i) n m []
    obtain ⟨-, -, area, -⟩ := answer_good_keeps (request (receive 99 .mailbox) (heard s n x m) n x m).1
      (countItem (stageRow (heard s n x m) i.idx i.sub i.row i.value) n 2 i) n m []
    rw [rowMabinStage, row_accepted a (by simp [type]), serve_request a.here (by simp [type]), staged]
    exact ⟨(congrArg (tfind · _) area).trans (tfind_tins_self ..), objs.trans (heard_keeps s n x m).2⟩

end Sys2Proof.Machine

namespace Sys2Proof.Machine

/-! ## Subscriptions and blocks (R568, R574) -/

theorem request_subscribe {m : Bytes} (type : msgType m = 8) (mbox : Bytes → State → State) (s : State) (n : Nat)
    (x : Session) : request mbox s n x m = (s, subscribeReply s n x.minor (msgBody m)) := by
  simp [request, type]

theorem request_blockRead {m : Bytes} {x : Session} (type : msgType m = 10) (minor : 1 ≤ x.minor)
    (long : 20 ≤ (msgBody m).length) (reads : byteAt (msgBody m) 0 = 1) (mbox : Bytes → State → State) (s : State) (n : Nat) :
    request mbox s n x m = (s, blockRead s n x.path (msgBody m)) := by
  simp [request, type, reads, Nat.not_lt.mpr long, Nat.pos_iff_ne_zero.mp minor]

theorem request_blockWrite {m : Bytes} {x : Session} (type : msgType m = 10) (minor : 1 ≤ x.minor)
    (long : 20 ≤ (msgBody m).length) (writes : byteAt (msgBody m) 0 = 2) (mbox : Bytes → State → State) (s : State) (n : Nat) :
    request mbox s n x m = blockWrite mbox s n (msgMore m) (msgBody m) := by
  simp [request, type, writes, Nat.not_lt.mpr long, Nat.pos_iff_ne_zero.mp minor]

theorem subscribe_adds {s : State} {n : Nat} {y : Session} (here : sessionAt s n = some y) {b : Sub}
    (new : ∀ c, c ∈ y.subs → c.kind ≠ b.kind) (room : y.subs.length < 64) :
    subscribe s n b = .good (withSession s n { y with subs := y.subs ++ [b] }) [] := by
  have fresh : (y.subs.any fun c => c.kind == b.kind && c.a == b.a && c.b == b.b) = false := by
    simp only [List.any_eq_false, Bool.and_eq_true, beq_iff_eq]
    exact fun c hc same => new c hc same.1.1
  rw [subscribe, here]
  dsimp only
  rw [fresh, if_neg (by decide), if_neg (Nat.not_le.mpr room), modSession_eq here]

theorem subscribeReply_object {s : State} {n minor : Nat} {b : Bytes} {r : ObjRow} (op : byteAt b 0 = 2) (long : b.length = 9)
    (version : 2 ≤ minor) (listed : lookupObj (natAt b 1 2) (byteAt b 3) = some r) (kept : r.acc = .rw)
    (from_ : 0 < natAt b 5 4) (below : natAt b 5 4 ≤ 65535) :
    subscribeReply s n minor b
      = subscribe s n { kind := 2, a := subName (natAt b 1 2) (byteAt b 3), b := natAt b 5 4, last := none } := by
  have inRange : ¬ (natAt b 5 4 = 0 ∨ 65535 < natAt b 5 4) := by omega
  simp [subscribeReply, subscribeObject, op, long, listed, kept, inRange, Nat.not_lt.mpr version]

/-- A session with the reply's subscriptions or transfer, after the answer. -/
theorem sessionAt_answer {s u : State} {n : Nat} {y : Session} (here : sessionAt u n = some y) (m b : Bytes) :
    ∃ z, sessionAt (answer s n m (.good u b)) n = some z ∧ z.subs = y.subs ∧ z.block = y.block :=
  sessionAt_sendMsg here ..

theorem subs_answer (s t : State) (n : Nat) (y : Session) (m b : Bytes) :
    ∃ z, sessionAt (answer s n m (.good (withSession t n y) b)) n = some z ∧ z.subs = y.subs := by
  obtain ⟨z, session, subs, -⟩ := sessionAt_answer (s := s) (sessionAt_withSession t n y) m b
  exact ⟨z, session, subs⟩

theorem blockRead_keeps {s u : State} {n : Nat} {path : MabinPath} {body b : Bytes}
    (reads : blockRead s n path body = .good u b) : sessionAt u n = sessionAt s n ∧ u.out = s.out := by
  cases listed : lookupObj (natAt body 2 2) (byteAt body 4) with
  | none =>
    rw [blockRead, listed] at reads
    cases reads
  | some r =>
    rw [blockRead, listed] at reads
    dsimp only at reads
    generalize readError s n _ = e at reads
    by_cases wrong : (e != 0) = true
    · rw [if_pos wrong] at reads
      cases reads
    · rw [if_neg wrong] at reads
      split at reads
      · cases reads
      · injection reads with state
        rw [← state]
        exact readEffect_keeps (countItem s n 1 _) (natAt body 2 2) (byteAt body 4) n

/-- A block that the state which served the message reads is read by the one that heard it. -/
theorem blockRead_heard {s u : State} {n : Nat} {x : Session} {path : MabinPath} {m body b : Bytes}
    (here : sessionAt s n = some x)
    (reads : blockRead (served s n x m) n path body = .good u b) :
    ∃ t, blockRead (heard s n x m) n path body = .good t b := by
  have same : codelessReply (blockRead (heard s n x m) n path body) = .good (codeless u) b := by
    rw [← blockRead_codeless, codeless_heard here, blockRead_codeless, reads]
    rfl
  obtain ⟨t, read, -⟩ := codelessReply_eq_good same
  exact ⟨t, read⟩

theorem blockApply_heard {s u : State} {n : Nat} {x : Session} {m head data b : Bytes} (here : sessionAt s n = some x)
    (writes : blockApply (receive 99 .mailbox) (putBlock (served s n x m) n none) n head data = .good u b) :
    ∃ t, blockApply (receive 99 .mailbox) (putBlock (heard s n x m) n none) n head data = .good t b ∧
      codeless t = codeless u := by
  have same : codelessReply (blockApply (receive 99 .mailbox) (putBlock (heard s n x m) n none) n head data)
      = .good (codeless u) b := by
    rw [← blockApply_erases mboxErases_receive, ← putBlock_codeless, codeless_heard here, putBlock_codeless,
      blockApply_erases mboxErases_receive, writes]
    rfl
  obtain ⟨t, wrote, states⟩ := codelessReply_eq_good same
  exact ⟨t, wrote, states.symm⟩

/-- A session with a transfer, or none. -/
def withBlock (y : Session) (b : Option Block) : Session := { y with block := b }

theorem putBlock_eq {s : State} {n : Nat} {y : Session} (here : sessionAt s n = some y) (b : Option Block) :
    putBlock s n b = withSession s n (withBlock y b) := modSession_eq here _

/-- The first chunk of a block write of an object that is not staged. -/
theorem blockWrite_first {s : State} {n : Nat} {b : Bytes} (first : natAt b 6 2 = 0)
    (plain : isStaged (natAt b 2 2) (byteAt b 4) = false) (mbox : Bytes → State → State) (more : Bool) :
    blockWrite mbox s n more b = (putBlock s n none,
      if more then .good (putBlock s n (some { head := b.take 20, chunks := 1, data := b.drop 20 })) []
      else blockApply mbox (putBlock s n none) n (b.take 20) (b.drop 20)) := by
  cases more <;> simp [blockWrite, first, plain]

/-- Settles O42, by the reply of each request on the state that heard the message. -/
theorem subscriptionsAndBlocks : Obligations.SubscriptionsAndBlocks := by
  refine ⟨?_, ?_, ?_, ?_, ?_, ?_⟩
  · intro s p m n x a type op long room new
    refine ⟨_, next_row a.run.2 (rowSubscribeAddEvents p m), ?_⟩
    have adds : subscribeReply (heard s n x m) n x.minor (msgBody m) = subscribe (heard s n x m) n
        { kind := 1, a := natAt (msgBody m) 1 2, b := natAt (msgBody m) 3 2, last := none } := by
      simp [subscribeReply, op, long]
    rw [subscribe_adds (sessionAt_heard s n x m)] at adds
    · rw [rowSubscribeAddEvents, row_accepted a (by simp [type, op]), serve_request a.here (by simp [type]),
        request_subscribe type, adds]
      exact subs_answer ..
    · exact new
    · exact room
  · intro s p m n x r a type op long version room new listed kept from_ below
    refine ⟨_, next_row a.run.2 (rowSubscribeAddObject p m), ?_⟩
    have adds := subscribeReply_object (s := heard s n x m) (n := n) op long version listed kept from_ below
    rw [subscribe_adds (sessionAt_heard s n x m)] at adds
    · rw [rowSubscribeAddObject, row_accepted a (by simp [type, op]), serve_request a.here (by simp [type]),
        request_subscribe type, adds]
      exact subs_answer ..
    · exact new
    · exact room
  · intro s p m n x a type op long
    refine ⟨_, next_row a.run.2 (rowSubscribeRemoveAll p m), ?_⟩
    have removes : subscribeReply (heard s n x m) n x.minor (msgBody m)
        = .good (withSession (heard s n x m) n { heardSession s x m with subs := [] }) [] := by
      simp [subscribeReply, op, long, modSession_eq (sessionAt_heard ..)]
    rw [rowSubscribeRemoveAll, row_accepted a (by simp [type, op]), serve_request a.here (by simp [type]),
      request_subscribe type, removes]
    exact subs_answer ..
  · intro s p m b n x u a type minor long op udp opens reads fits
    refine ⟨_, next_row a.run.2 (rowBlockRead p m), ?_⟩
    obtain ⟨t, answers⟩ := blockRead_heard a.here reads
    obtain ⟨session, out⟩ := blockRead_keeps answers
    rw [rowBlockRead, row_accepted a (by simp [type, op]), serve_request a.here (by simp [type]),
      request_blockRead type minor long op, answers, answer,
      out_sendMsg (session.trans (sessionAt_heard ..)) udp opens fits, out, type]
    exact congrArg (· ++ _) (heard_keeps s n x m).1
  · intro s p m n x a type minor long op first plain more
    refine ⟨_, next_row a.run.2 (rowBlockWrite p m), ?_⟩
    rw [rowBlockWrite, row_accepted a (by simp [type, op]), serve_request a.here (by simp [type]),
      request_blockWrite type minor long op, blockWrite_first first plain, more, if_pos rfl,
      putBlock_eq (sessionAt_heard ..), putBlock_eq (sessionAt_heard ..)]
    obtain ⟨z, session, -, block⟩ := sessionAt_answer (s := withSession (heard s n x m) n (withBlock (heardSession s x m) none))
      (sessionAt_withSession (heard s n x m) n (withBlock (heardSession s x m)
        (some { head := (msgBody m).take 20, chunks := 1, data := (msgBody m).drop 20 }))) m []
    exact ⟨z, _, session, block, rfl, rfl, rfl⟩
  · intro s u p m b n x a type minor long op first plain whole writes
    refine ⟨_, next_row a.run.2 (rowBlockWrite p m), ?_⟩
    obtain ⟨t, wrote, same⟩ := blockApply_heard a.here writes
    obtain ⟨objs, ports, -⟩ := codeless_parts same
    rw [rowBlockWrite, row_accepted a (by simp [type, op]), serve_request a.here (by simp [type]),
      request_blockWrite type minor long op, blockWrite_first first plain, whole, if_neg (by decide), wrote]
    obtain ⟨objs', ports', -⟩ := answer_good_parts (putBlock (heard s n x m) n none) t n m b
    exact ⟨objs'.trans objs, ports'.trans ports⟩

end Sys2Proof.Machine
